-- ==== Sys2Proof/Word.lean ====
section
/-!
DEFINITION. The word types of the module and their plainest arithmetic.
Registers are 64 bits wide (R7), physical addresses 56 bits (R23), memory is byte addressed and little-endian (R6).
-/

namespace Sys2Proof

abbrev Byte := BitVec 8
abbrev W16 := BitVec 16
abbrev W32 := BitVec 32
abbrev W64 := BitVec 64
/-- A physical address (R23): 56 bits, bit 55 selects local (0) or global (1). -/
abbrev PAddr := BitVec 56
/-- One 128 B coherence line. -/
abbrev LineData := BitVec 1024

/-- Host core c, 0-95 (R16). -/
abbrev CoreId := Fin 96
/-- Global tile index t, 0-159 (R16). -/
abbrev TileId := Fin 160
/-- Pound p, 0-15. -/
abbrev PoundId := Fin 16
/-- Command processor n, 0-15 (R273). -/
abbrev CpId := Fin 16
/-- Submission queue q (R273). -/
abbrev SqId := Fin 1048576
/-- Completion queue c (R273). -/
abbrev CqId := Fin 262144
/-- Archive slice s, 0-127 (R382). -/
abbrev SliceId := Fin 128
/-- HBM channel ch, 0-255 (R382). -/
abbrev ChanId := Fin 256
/-- LP-DRAM channel 16h + c (R403). -/
abbrev LpdId := Fin 32
/-- Nyulle link l, 0-47 (R416). -/
abbrev NylId := Fin 48
/-- Sirent link l, 0-8 (R19). -/
abbrev SrtId := Fin 9
/-- PCIe root port p, 0-3 (R465). -/
abbrev PortId := Fin 4
/-- 800GbE port e, 0-1 (R474). -/
abbrev EthId := Fin 2
/-- Hart of a tile: 0 the control core, 1-4 the vector cores (R125). -/
abbrev TileHart := Fin 5
/-- Die: 0-3 for C0-C3, 4 for H0, 5 for H1 (R577). -/
abbrev DieId := Fin 6
/-- A home: 0-127 the Archive slices, 128 and 129 the home agents of H0 and H1 (R317). -/
abbrev HomeId := Fin 130
/-- A requester of the coherence protocol, by its agent ID (R366). -/
abbrev AgentId := Fin 576
/-- An entry of the lock-order table, 0-4095 (R112). -/
abbrev OrderIdx := Fin 4096

end Sys2Proof
end

