-- ==== Sys2Proof/Syntax.lean ====
section
/-!
DEFINITION. The commands of the module: one constructor of `Instr` for each row of spec/opcode_table.json,
and the small types of their operands.
-/

namespace Sys2Proof

/-- Width of an access in bytes. -/
inductive Size where
  | b1 | b2 | b4 | b8 | b16
deriving DecidableEq, Repr

/-- The number of bytes of an access. -/
def Size.bytes : Size → Nat
  | .b1 => 1 | .b2 => 2 | .b4 => 4 | .b8 => 8 | .b16 => 16

/-- The page's Svpbmt type (R327). -/
inductive Pbmt where
  | pma | nc | io
deriving DecidableEq, Repr

/-- AMO operations: RV64A, the Zacas compare and swap, and the operations of PCIe and Nyulle (R323, R443, R465). -/
inductive AmoOp where
  | swap | add | xor | and | or | min | max | minu | maxu | cas
deriving DecidableEq, Repr

/-- A predecessor or successor set of a FENCE: device input, device output, memory read, memory write. -/
structure FenceSet where
  i : Bool
  o : Bool
  r : Bool
  w : Bool
deriving DecidableEq, Repr

/-- The sources of Lock Time (R103): LOCK_PPS, PTP on 800GbE port e, the Nyulle messages on link l. -/
inductive TimeSource where
  | pps
  | ptp (port : EthId)
  | nyulle (link : NylId)
deriving DecidableEq, Repr

/-- Destination of a tile-core load: an integer register, sign or zero extended, a floating-point register, or a
vector register group filled with `vl` consecutive elements. -/
inductive LoadDst where
  | x (rd : BitVec 5) (signed : Bool)
  | f (rd : BitVec 5)
  | v (vd : BitVec 5)
deriving DecidableEq, Repr

/-- Source of a tile-core store. -/
inductive StoreSrc where
  | x (rs2 : BitVec 5)
  | f (rs2 : BitVec 5)
  | v (vs3 : BitVec 5)
deriving DecidableEq, Repr

/-- The five states of a line in an L2 (R358). -/
inductive LineState where
  | m | o | e | s | i
deriving DecidableEq, Repr

/-- Where the data of a snoop goes (R364). -/
inductive SnpDest where
  | requester (core : CoreId)
  | home
deriving DecidableEq, Repr

/-- What nature does at an access to a line at its home (R373, R376, R392): symbol errors of the stored code words, each a word
of the line, a symbol and the value added to it; the way whose Archive tag is repaired from its good copy, and the repair of the
directory entry; and the loss of both copies of the tag or of the directory entry. -/
structure Nature where
  errors : List (Fin 4 × Fin 36 × Byte)
  tagFixed : Option (Fin 16)
  dirFixed : Bool
  tagLost : Bool
  dirLost : Bool
deriving DecidableEq, Repr

/-- A line that a request names, with what nature does at the access. -/
structure LineAccess where
  line : BitVec 49
  nature : Nature
deriving DecidableEq, Repr

/-- The address that an atomic names, with what nature does at the access. -/
structure AddrAccess where
  addr : PAddr
  nature : Nature
deriving DecidableEq, Repr

/-- A PTP sync message: the domain that it carries, and its time (R103). -/
structure PtpTime where
  domain : Byte
  time : W64
deriving DecidableEq, Repr

/-- A host-core cache (R345). -/
inductive CacheKind where
  | l1i | l1d | l2
deriving DecidableEq, Repr

/-- A Nyulle flit as it is received: two code words and the check symbols of each (R417). -/
structure NFlit where
  w0 : BitVec 256
  w1 : BitVec 256
  c0 : W32
  c1 : W32
deriving DecidableEq, Repr

/-- Kinds of inbound PCIe or CXL request (R465, R471). -/
inductive PcieKind where
  | read (length : BitVec 13)
  | write (data : List Byte)
  | atomic (op : AmoOp) (size : Size) (value compare : BitVec 128)
deriving DecidableEq, Repr

/-- An inbound PCIe or CXL request: requester ID (bus, device, function), PASID, address, kind; `translated` marks an
address that ATS has translated (R472). -/
structure PcieRequest where
  requester : W16
  pasid : Option (BitVec 20)
  addr : W64
  translated : Bool
  kind : PcieKind
deriving DecidableEq, Repr

/-- Status of a PCIe completion (R473): success, Unsupported Request, Completer Abort. -/
inductive PcieStatus where
  | sc | ur | ca
deriving DecidableEq, Repr

/-- Operations of an inbound RDMA request (R477). -/
inductive RdmaKind where
  | write (data : List Byte) (imm : Option W32)
  | read (length : W32)
  | fetchAdd (addend : W64)
  | cmpSwap (compare swap : W64)
deriving DecidableEq, Repr

/-- An inbound RDMA request (R477). -/
structure RdmaRequest where
  rkey : W32
  addr : W64
  kind : RdmaKind
deriving DecidableEq, Repr

/-- An inbound SEND, SEND with immediate, or raw frame (R478). -/
structure RdmaMessage where
  data : List Byte
  imm : Option W32
deriving DecidableEq, Repr

/-- Kinds of NAK (R478). -/
inductive NakKind where
  | rnr | remoteAccess
deriving DecidableEq, Repr

/-- The sensors of PLDM platform monitoring (R483). -/
inductive Sensor where
  | inputVoltage | inputCurrent | inputPower | energy | dieTemp (die : DieId) | stackTemp (stack : Fin 8) | lockTimeState
deriving DecidableEq, Repr

/-- What CLEAR_EXCLUSION names (R484). -/
inductive Exclusion where
  | sirentLink (link : SrtId)
  | die (die : DieId)
  | archiveWay (slice : SliceId) (way : Fin 16)
  | hbmChannel (channel : ChanId)
  | lpdChannel (channel : LpdId)
deriving DecidableEq, Repr

/-- What the power controller measures and estimates at a Sluice tick (R505 to R516), in watts: the demand D, the demand
that pounds in a hint's pre-ramp would add, the input power estimated at the running frequencies, the input power
measured, and its 10 ms average; the Ballast energy of the tick and whether Ballast can hold the level; for each pound in
order its share and the highest frequency at which the share fits; and the current of each C-die's tile rail in A. -/
structure PowerSample where
  demandW : BitVec 12
  rampW : BitVec 12
  estimatedW : BitVec 12
  measuredW : BitVec 12
  average10W : BitVec 12
  ballastMj : W32
  ballastOk : Bool
  shares : List (BitVec 12)
  fits : List (BitVec 12)
  railAmps : List W16
deriving DecidableEq, Repr

/-- Result of a Collation arbiter (R534). -/
inductive ArbiterResult where
  | equalsSource | equalsChecker | differs
deriving DecidableEq, Repr

/-- A function that comes into service at bring-up (R553, R558). A physical tile is named by its C-die and grid
position k = 8 x ROW + COL; `pass` is the outcome of its BIST. -/
inductive Function where
  | core (core : CoreId) (pass : Bool)
  | lpd (channel : LpdId)
  | slice (slice : SliceId)
  | tile (die : Fin 4) (position : Fin 40) (pass : Bool)
  | cp (cp : CpId)
  | fabric (die : Fin 4)
  | hbm (channel : ChanId)
  | pcie (port : PortId) (speed : BitVec 4) (width : BitVec 5) (cxl : Bool)
  | ethernet (port : EthId)
  | power | uncoreH0 | uncoreH1 | iommu | standby
deriving DecidableEq, Repr

/-- A channel of HBM or of LP-DRAM (R398, R404). -/
inductive MemChannel where
  | hbm (channel : ChanId)
  | lpd (channel : LpdId)
deriving DecidableEq, Repr

/-- The classes of function that settle (R561, R578). -/
inductive SettleClass where
  | harts | lpd (channel : LpdId) | sirent | tiles | archive | hbm | cp | fabric | nyulle | pcie | ethernet
deriving DecidableEq, Repr

/-- What a debug access reaches (R78): a host core through external debug, a control core or a vector core by halt and
register access, the trace export of a tile. -/
inductive DebugTarget where
  | hostCore (core : CoreId)
  | controlCore (tile : TileId)
  | vectorCore (tile : TileId) (vcore : Fin 4)
  | trace (tile : TileId)
deriving DecidableEq, Repr

/-- A command of the module: one constructor for each row of spec/opcode_table.json, in the order of the table.
A command is an access of software, a message or flit that arrives, an instruction of a tile core, or an event
(a timer, an engine that has finished, a pin). -/
inductive Instr where
  /-- REGISTER_ACCESS_MALFORMED (R8). -/
  | registerAccessMalformed (core : CoreId) (addr : PAddr) (size : Size) (isWrite : Bool) (value : W64)
  /-- REGISTER_WRITE (R11). -/
  | registerWrite (core : CoreId) (addr : PAddr) (size : Size) (value : W64)
  /-- HOST_LOAD (R322). -/
  | hostLoad (core : CoreId) (addr : PAddr) (size : Size) (pbmt : Pbmt)
  /-- HOST_STORE (R322). -/
  | hostStore (core : CoreId) (addr : PAddr) (size : Size) (value : W64) (pbmt : Pbmt)
  /-- HOST_NT_STORE (R330). -/
  | hostNtStore (core : CoreId) (addr : PAddr) (size : Size) (value : W64) (pbmt : Pbmt)
  /-- HOST_AMO (R323). -/
  | hostAmo (core : CoreId) (op : AmoOp) (addr : PAddr) (size : Size) (value compare : BitVec 128) (pbmt : Pbmt)
  /-- HOST_LR (R325). -/
  | hostLr (core : CoreId) (addr : PAddr) (size : Size) (pbmt : Pbmt)
  /-- HOST_SC (R325). -/
  | hostSc (core : CoreId) (addr : PAddr) (size : Size) (value : W64) (pbmt : Pbmt)
  /-- HOST_FENCE (R323). -/
  | hostFence (core : CoreId) (pred succ : FenceSet)
  /-- FENCE_I (R346). -/
  | fenceI (core : CoreId)
  /-- CBO_ZERO (R355). -/
  | cboZero (core : CoreId) (addr : PAddr) (pbmt : Pbmt)
  /-- CBO_CLEAN (R357). -/
  | cboClean (core : CoreId) (addr : PAddr) (pbmt : Pbmt)
  /-- CBO_FLUSH (R357). -/
  | cboFlush (core : CoreId) (addr : PAddr) (pbmt : Pbmt)
  /-- CBO_INVAL (R357). -/
  | cboInval (core : CoreId) (addr : PAddr) (pbmt : Pbmt)
  /-- WC_ENTRY_TIMEOUT (R331). -/
  | wcEntryTimeout (core : CoreId) (line : BitVec 49)
  /-- STORE_DROPPED (R333). -/
  | storeDropped (core : CoreId) (fromWc : Bool)
  /-- REFERENCE_LOST (R33). -/
  | referenceLost
  /-- SRT_LANES_DESKEWED (R51). -/
  | srtLanesDeskewed (link : SrtId) (side : Fin 2)
  /-- SRT_IDENTITY_TIMER (R51). -/
  | srtIdentityTimer (link : SrtId) (side : Fin 2)
  /-- SRT_IDENTITY (R51). -/
  | srtIdentity (link : SrtId) (side : Fin 2) (flit : BitVec 320)
  /-- SRT_SELECT (R51). -/
  | srtSelect (link : SrtId) (side : Fin 2) (flit : BitVec 320)
  /-- SRT_FLIT_SEND (R39). -/
  | srtFlitSend (link : SrtId) (side : Fin 2) (isData : Bool) (vc : BitVec 3) (payload : BitVec 256)
  /-- SRT_MESSAGE_FLIT (R42). -/
  | srtMessageFlit (link : SrtId) (side : Fin 2) (flit : BitVec 320)
  /-- SRT_DATA_FLIT (R42). -/
  | srtDataFlit (link : SrtId) (side : Fin 2) (flit : BitVec 320)
  /-- SRT_CREDIT_FLIT (R40). -/
  | srtCreditFlit (link : SrtId) (side : Fin 2) (flit : BitVec 320)
  /-- SRT_IDLE_FLIT (R42). -/
  | srtIdleFlit (link : SrtId) (side : Fin 2) (flit : BitVec 320)
  /-- SRT_CREDIT_RETURN (R40). -/
  | srtCreditReturn (link : SrtId) (side : Fin 2) (vc : BitVec 3)
  /-- SRT_ACK_TIMER (R43). -/
  | srtAckTimer (link : SrtId) (side : Fin 2)
  /-- SRT_ACK (R43). -/
  | srtAck (link : SrtId) (side : Fin 2) (flit : BitVec 320)
  /-- SRT_RETRY (R44). -/
  | srtRetry (link : SrtId) (side : Fin 2) (flit : BitVec 320)
  /-- SRT_RETRY_TIMEOUT (R45). -/
  | srtRetryTimeout (link : SrtId) (side : Fin 2)
  /-- SRT_LOST_REQUEST_POISON (R46). -/
  | srtLostRequestPoison (link : SrtId)
  /-- INDEX_EXCHANGE (R524). -/
  | indexExchange (active spare : TileId)
  /-- EXCHANGE_DONE (R30). -/
  | exchangeDone (active spare : TileId)
  /-- CHT_LOAD (R79). -/
  | chtLoad (core : CoreId)
  /-- CHT_CANCEL (R82). -/
  | chtCancel (core : CoreId)
  /-- CHT_BAD_COMMAND (R94). -/
  | chtBadCommand (core : CoreId) (op : BitVec 2)
  /-- CHT_VERIFY_DONE (R80). -/
  | chtVerifyDone
  /-- CHARTER_ACTIVATION (R84). -/
  | charterActivation
  /-- POUND_DRAIN_TIMEOUT (R87). -/
  | poundDrainTimeout (pound : PoundId)
  /-- POUND_DRAIN_END (R87). -/
  | poundDrainEnd (pound : PoundId)
  /-- SCRUB_DONE (R92). -/
  | scrubDone (pound : PoundId)
  /-- POUND_START_DONE (R87). -/
  | poundStartDone (pound : PoundId)
  /-- LOCK_PPS_EDGE (R592). -/
  | lockPpsEdge
  /-- TIME_OF_DAY (R103). -/
  | timeOfDay (time : W64)
  /-- PTP_SYNC (R103). -/
  | ptpSync (port : EthId) (ptpTime : PtpTime)
  /-- PTP_PORT_RETURN (R103). -/
  | ptpPortReturn
  /-- LT_SOURCE_TIMEOUT (R109). -/
  | ltSourceTimeout (source : TimeSource)
  /-- SET_TIME_CONFIG (R484). -/
  | setTimeConfig (ctrl epochOffset : W64)
  /-- LT_ORDER_POST (R123). -/
  | ltOrderPost (core : CoreId) (pound : PoundId)
  /-- LT_ORDER_CANCEL (R119). -/
  | ltOrderCancel (core : CoreId) (pound : PoundId) (index : OrderIdx)
  /-- LT_ORDER_BAD_OP (R123). -/
  | ltOrderBadOp (core : CoreId) (pound : PoundId) (op : BitVec 2)
  /-- LOCK_ORDER_NOTICE (R118). -/
  | lockOrderNotice (index : OrderIdx)
  /-- OPERATING_POINT_CHANGE (R496). -/
  | operatingPointChange (index : OrderIdx)
  /-- POWER_CAP_STEP (R507). -/
  | powerCapStep (index : OrderIdx)
  /-- POST_CAP_STEP (R504). -/
  | postCapStep (at_ : W64) (noticeUs : W16) (arg : W32)
  /-- IMMEDIATE_CAP (R111). -/
  | immediateCap (arg : W32)
  /-- HBM_RETRAINING_WINDOW (R397). -/
  | hbmRetrainingWindow (index : OrderIdx)
  /-- HBM_RETRAIN_TIMEOUT (R397). -/
  | hbmRetrainTimeout (channel : ChanId)
  /-- HBM_RETRAIN_POST (R396). -/
  | hbmRetrainPost (channel : ChanId)
  /-- AUDIT_START (R540). -/
  | auditStart (index : OrderIdx)
  /-- COLLATION_WINDOW (R531). -/
  | collationWindow (index : OrderIdx)
  /-- COLLATION_WINDOW_END (R531). -/
  | collationWindowEnd (pound : PoundId)
  /-- CHECKPOINT_FENCE (R304). -/
  | checkpointFence (index : OrderIdx)
  /-- CHECKPOINT_FENCE_REACHED (R304). -/
  | checkpointFenceReached (pound : PoundId)
  /-- FREQUENCY_GROUP_EPOCH (R501). -/
  | frequencyGroupEpoch (index : OrderIdx)
  /-- FG_LEADER_COLLECT (R501). -/
  | fgLeaderCollect (pound : PoundId)
  /-- FG_ROOT_COLLECT (R501). -/
  | fgRootCollect (pound : PoundId)
  /-- FG_LEADER_DISTRIBUTE (R501). -/
  | fgLeaderDistribute (pound : PoundId)
  /-- FG_MEMBER_READ (R501). -/
  | fgMemberRead (pound : PoundId)
  /-- TILE_LOAD (R134). -/
  | tileLoad (tile : TileId) (hart : TileHart) (dst : LoadDst) (rs1 : BitVec 5) (imm : BitVec 12) (size : Size)
  /-- TILE_STORE (R127). -/
  | tileStore (tile : TileId) (hart : TileHart) (src : StoreSrc) (rs1 : BitVec 5) (imm : BitVec 12) (size : Size)
  /-- TILE_AMO (R131). -/
  | tileAmo (tile : TileId) (hart : TileHart) (op : AmoOp) (rd rs1 rs2 : BitVec 5) (size : Size)
  /-- TILE_LR (R616). -/
  | tileLr (tile : TileId) (hart : TileHart) (rd rs1 : BitVec 5) (size : Size)
  /-- TILE_SC (R616). -/
  | tileSc (tile : TileId) (hart : TileHart) (rd rs1 rs2 : BitVec 5) (size : Size)
  /-- SEM_VALUE_STORE (R149). -/
  | semValueStore (tile : TileId) (sem : Fin 64) (rs2 : BitVec 5)
  /-- SIGNAL (R148). -/
  | signal (tile : TileId) (hart : TileHart) (sem : Fin 64) (rd rs2 : BitVec 5)
  /-- WAIT (R146). -/
  | wait (tile : TileId) (hart : TileHart) (sem : Fin 64) (rd rs2 : BitVec 5)
  /-- WAIT_RETURN (R146). -/
  | waitReturn (tile : TileId) (hart : TileHart)
  /-- VECTOR_CORE_START (R138). -/
  | vectorCoreStart (tile : TileId) (vcore : Fin 4) (rs2 : BitVec 5)
  /-- VECTOR_ECALL (R138). -/
  | vectorEcall (tile : TileId) (vcore : Fin 4)
  /-- VECTOR_FENCE_I (R139). -/
  | vectorFenceI (tile : TileId) (vcore : Fin 4)
  /-- VHEXP2_V (R136). -/
  | vhexp2V (tile : TileId) (vcore : Fin 4) (vd vs2 : BitVec 5) (vm : Bool)
  /-- VHLOG2_V (R136). -/
  | vhlog2V (tile : TileId) (vcore : Fin 4) (vd vs2 : BitVec 5) (vm : Bool)
  /-- VHREC_V (R136). -/
  | vhrecV (tile : TileId) (vcore : Fin 4) (vd vs2 : BitVec 5) (vm : Bool)
  /-- VHRSQRT_V (R136). -/
  | vhrsqrtV (tile : TileId) (vcore : Fin 4) (vd vs2 : BitVec 5) (vm : Bool)
  /-- TVFLUSH_WRITE (R137). -/
  | tvflushWrite (tile : TileId) (vcore : Fin 4) (value : W64)
  /-- TMCOMP_WRITE (R409). -/
  | tmcompWrite (tile : TileId) (value : W64)
  /-- ECALL (R155). -/
  | ecall (tile : TileId)
  /-- TILE_END_WAIT_DONE (R155). -/
  | tileEndWaitDone (tile : TileId)
  /-- TILE_TIME_LIMIT (R155). -/
  | tileTimeLimit (tile : TileId)
  /-- MOVER_WORD_STORE (R141). -/
  | moverWordStore (tile : TileId) (mover : Fin 2) (word : Fin 7) (rs2 : BitVec 5)
  /-- MOVER_SUBMIT (R141). -/
  | moverSubmit (tile : TileId) (mover : Fin 2) (rs2 : BitVec 5)
  /-- MOVER_SUBMIT_RESUME (R141). -/
  | moverSubmitResume (tile : TileId) (mover : Fin 2)
  /-- MOVER_DESCRIPTOR_START (R143). -/
  | moverDescriptorStart (tile : TileId) (mover : Fin 2)
  /-- MOVER_DESCRIPTOR_COMPLETE (R143). -/
  | moverDescriptorComplete (tile : TileId) (mover : Fin 2)
  /-- MOVER_DESCRIPTOR_FAIL (R144). -/
  | moverDescriptorFail (tile : TileId) (mover : Fin 2)
  /-- TL_DISABLE (R158). -/
  | tlDisable (core : CoreId) (tile : TileId)
  /-- TL_ENABLE (R158). -/
  | tlEnable (core : CoreId) (tile : TileId)
  /-- TL_RESET (R160). -/
  | tlReset (core : CoreId) (tile : TileId)
  /-- TILE_DRAIN_TIMEOUT (R158). -/
  | tileDrainTimeout (tile : TileId)
  /-- TL_SEM_SIGNAL (R166). -/
  | tlSemSignal (core : CoreId) (tile : TileId) (sem : Fin 64) (amount : W32)
  /-- TL_FAULT_CLEAR (R164). -/
  | tlFaultClear (core : CoreId) (tile : TileId)
  /-- TL_LG_CLEAR (R244). -/
  | tlLgClear (core : CoreId) (tile : TileId) (slots : W16)
  /-- TL_OS_LAST_CLEAR (R246). -/
  | tlOsLastClear (core : CoreId) (tile : TileId)
  /-- HMSET (R174). -/
  | hmset (tile : TileId) (index : BitVec 12) (rs1 rd : BitVec 5)
  /-- HMGET (R174). -/
  | hmget (tile : TileId) (index : BitVec 12) (rs1 rd : BitVec 5)
  /-- HMMA (R180). -/
  | hmma (tile : TileId) (funct7 : BitVec 7) (rs2 rs1 rd : BitVec 5)
  /-- HMDRAIN (R176). -/
  | hmdrain (tile : TileId) (funct7 : BitVec 7) (rs2 rs1 rd : BitVec 5)
  /-- HMACC (R175). -/
  | hmacc (tile : TileId) (funct7 : BitVec 7) (rs2 rs1 rd : BitVec 5)
  /-- HMSIG (R177). -/
  | hmsig (tile : TileId) (funct7 : BitVec 7) (rs2 rs1 rd : BitVec 5)
  /-- HMFENCE (R177). -/
  | hmfence (tile : TileId) (funct7 : BitVec 7) (rs2 rs1 rd : BitVec 5)
  /-- HMFENCE_RETURN (R177). -/
  | hmfenceReturn (tile : TileId)
  /-- HMMA_START (R182). -/
  | hmmaStart (tile : TileId)
  /-- HMACC_START (R182). -/
  | hmaccStart (tile : TileId)
  /-- HMMA_COMPLETE (R183). -/
  | hmmaComplete (tile : TileId)
  /-- HMACC_COMPLETE (R183). -/
  | hmaccComplete (tile : TileId)
  /-- DRAIN_ACTIVE (R225). -/
  | drainActive (tile : TileId)
  /-- DRAIN_COMPLETE (R218). -/
  | drainComplete (tile : TileId) (fault : Option (BitVec 14 × W32))
  /-- REPLAY_ATTEMPT2_START (R240). -/
  | replayAttempt2Start (tile : TileId)
  /-- REPLAY_ATTEMPT_DONE (R241). -/
  | replayAttemptDone (tile : TileId) (fault : Option (BitVec 14 × W32))
  /-- HMSIG_SIGNAL (R177). -/
  | hmsigSignal (tile : TileId)
  /-- OUT_PORT_TAKE (R252). -/
  | outPortTake (tile : TileId) (port : Fin 4)
  /-- OUT_PORT_SLOT_READ (R252). -/
  | outPortSlotRead (tile : TileId) (port : Fin 4)
  /-- IN_PORT_UNIT (R268). -/
  | inPortUnit (tile : TileId) (port : Fin 4) (errors resentErrors : List (Fin 2 × Fin 36 × Byte))
  /-- IN_PORT_SLOT_WRITTEN (R253). -/
  | inPortSlotWritten (tile : TileId) (port : Fin 4)
  /-- IN_PORT_RETURN_TAKE (R253). -/
  | inPortReturnTake (tile : TileId) (port : Fin 4)
  /-- CANAL_CREDIT_ARRIVE (R255). -/
  | canalCreditArrive (tile : TileId) (port : Fin 4)
  /-- CANAL_HELD_TIMEOUT (R267). -/
  | canalHeldTimeout (tile : TileId) (port : Fin 4)
  /-- DOORBELL (R278). -/
  | doorbell (core : CoreId) (queue : SqId) (size : Size) (value : W64)
  /-- COMMAND_FETCH (R285). -/
  | commandFetch (cp : CpId)
  /-- NOP (R287). -/
  | nop (queue : SqId)
  /-- LAUNCH (R289). -/
  | launch (queue : SqId)
  /-- LAUNCH_START (R153). -/
  | launchStart (queue : SqId)
  /-- LOADING_END (R154). -/
  | loadingEnd (queue : SqId) (seq : W32)
  /-- LAUNCH_COMPLETE (R156). -/
  | launchComplete (queue : SqId) (seq : W32)
  /-- MOVE (R290). -/
  | move (queue : SqId)
  /-- MOVE_COMPLETE (R290). -/
  | moveComplete (queue : SqId) (seq : W32)
  /-- WRITE (R291). -/
  | write (queue : SqId)
  /-- WRITE_COMPLETE (R287). -/
  | writeComplete (queue : SqId) (seq : W32)
  /-- SEM_WAIT (R292). -/
  | semWait (queue : SqId)
  /-- SEM_WAIT_POLL (R292). -/
  | semWaitPoll (queue : SqId) (seq : W32)
  /-- SEM_WAIT_TIMEOUT (R292). -/
  | semWaitTimeout (queue : SqId) (seq : W32)
  /-- SEM_SIGNAL (R293). -/
  | semSignal (queue : SqId)
  /-- COLLECTIVE (R448). -/
  | collective (queue : SqId)
  /-- PHASE (R294). -/
  | phase (queue : SqId)
  /-- HINT (R494). -/
  | hint (queue : SqId)
  /-- SAFE_POINT (R294). -/
  | safePoint (queue : SqId)
  /-- WAIT_TIME (R294). -/
  | waitTime (queue : SqId)
  /-- WAIT_TIME_REACHED (R294). -/
  | waitTimeReached (queue : SqId) (seq : W32)
  /-- LEDGER_READ (R294). -/
  | ledgerRead (queue : SqId)
  /-- OPCODE_RESERVED (R288). -/
  | opcodeReserved (queue : SqId)
  /-- COMPLETION_WRITE (R296). -/
  | completionWrite (cq : CqId)
  /-- ACK_READ (R300). -/
  | ackRead (cq : CqId)
  /-- MSI_WRITE (R301). -/
  | msiWrite (cq : CqId)
  /-- CP_QSEL_WRITE (R311). -/
  | cpQselWrite (core : CoreId) (cp : CpId) (pound : PoundId) (size : Size) (high : Bool) (value : W64)
  /-- CP_QCTX_WRITE (R314). -/
  | cpQctxWrite (core : CoreId) (cp : CpId) (pound : PoundId) (word : Fin 8) (size : Size) (high : Bool) (value : W64)
  /-- QUEUE_ENABLE (R306). -/
  | queueEnable (core : CoreId) (cp : CpId) (pound : PoundId)
  /-- QUEUE_DISABLE (R307). -/
  | queueDisable (core : CoreId) (cp : CpId) (pound : PoundId)
  /-- CP_QCMD_BAD (R315). -/
  | cpQcmdBad (core : CoreId) (cp : CpId) (pound : PoundId) (op : BitVec 2)
  /-- QUEUE_DRAIN_TIMEOUT (R307). -/
  | queueDrainTimeout (queue : SqId)
  /-- QUEUE_DRAIN_END (R307). -/
  | queueDrainEnd (queue : SqId)
  /-- CP_NOTICE_WRITE (R316). -/
  | cpNoticeWrite (core : CoreId) (pound : PoundId) (size : Size) (high : Bool) (value : W64)
  /-- RDSHARED (R363). -/
  | rdshared (home : HomeId) (core : CoreId) (line : BitVec 49) (nature : Nature)
  /-- RDUNIQUE (R363). -/
  | rdunique (home : HomeId) (core : CoreId) (line : BitVec 49) (nature : Nature)
  /-- UPGRADE (R363). -/
  | upgrade (home : HomeId) (core : CoreId) (line : BitVec 49) (nature : Nature)
  /-- ZEROLINE (R355). -/
  | zeroline (home : HomeId) (core : CoreId) (line : LineAccess)
  /-- CLEANLINE (R363). -/
  | cleanline (home : HomeId) (core : CoreId) (line : LineAccess)
  /-- FLUSHLINE (R363). -/
  | flushline (home : HomeId) (core : CoreId) (line : LineAccess)
  /-- WBREQ (R369). -/
  | wbreq (home : HomeId) (core : CoreId) (line : BitVec 49)
  /-- RDPREF (R354). -/
  | rdpref (home : HomeId) (core : CoreId) (line : BitVec 49) (nature : Nature)
  /-- RDVOL (R363). -/
  | rdvol (home : HomeId) (agent : AgentId) (line : BitVec 49) (nature : Nature)
  /-- WRPLAIN (R335). -/
  | wrplain (home : HomeId) (agent : AgentId) (line : LineAccess) (mask : BitVec 128) (data : LineData)
  /-- WRPUBLISH (R335). -/
  | wrpublish (home : HomeId) (agent : AgentId) (line : LineAccess) (mask : BitVec 128) (data : LineData)
  /-- WRFULL (R363). -/
  | wrfull (home : HomeId) (agent : AgentId) (line : LineAccess) (data : LineData)
  /-- ATOMIC (R363). -/
  | atomic (home : HomeId) (agent : AgentId) (op : AmoOp) (addr : AddrAccess) (size : Size) (value compare : BitVec 128)
  /-- SNPSHARED (R364). -/
  | snpshared (home : HomeId) (core : CoreId) (line : BitVec 49) (requester : CoreId)
  /-- SNPUNIQUE (R364). -/
  | snpunique (home : HomeId) (core : CoreId) (line : BitVec 49) (requester : CoreId)
  /-- SNPINV (R364). -/
  | snpinv (home : HomeId) (core : CoreId) (line : BitVec 49)
  /-- SNPFLUSH (R364). -/
  | snpflush (home : HomeId) (core : CoreId) (line : BitVec 49)
  /-- SNPCLEAN (R364). -/
  | snpclean (home : HomeId) (core : CoreId) (line : BitVec 49)
  /-- SNPRECALL (R364). -/
  | snprecall (home : HomeId) (core : CoreId) (line : BitVec 49)
  /-- SNPCOPY (R364). -/
  | snpcopy (home : HomeId) (core : CoreId) (line : BitVec 49)
  /-- COMP (R361). -/
  | comp (home : HomeId) (agent : AgentId) (line : BitVec 49)
  /-- RETRY (R367). -/
  | retry (home : HomeId) (agent : AgentId) (line : BitVec 49)
  /-- GRANT (R367). -/
  | grant (home : HomeId) (agent : AgentId) (line : BitVec 49)
  /-- GRANT_TIMEOUT (R367). -/
  | grantTimeout (home : HomeId) (agent : AgentId) (line : BitVec 49)
  /-- WBGO (R369). -/
  | wbgo (home : HomeId) (core : CoreId) (line : BitVec 49)
  /-- WBCANCEL (R369). -/
  | wbcancel (home : HomeId) (core : CoreId) (line : BitVec 49)
  /-- NODATA (R354). -/
  | nodata (home : HomeId) (core : CoreId) (line : BitVec 49)
  /-- SNPRESP (R365). -/
  | snpresp (home : HomeId) (core : CoreId) (line : BitVec 49) (finalState : LineState) (forwardedDirty : Bool)
  /-- COMPACK (R365). -/
  | compack (home : HomeId) (agent : AgentId) (line : BitVec 49)
  /-- DATARESP (R361). -/
  | dataresp (home : HomeId) (agent : AgentId) (line : BitVec 49) (granted : LineState) (data : LineData) (poison : BitVec 4)
  /-- SNPDATA (R361). -/
  | snpdata (home : HomeId) (dest : SnpDest) (line : BitVec 49) (dirty : Bool) (data : LineData) (poison : BitVec 4)
  /-- WBDATA (R369). -/
  | wbdata (home : HomeId) (core : CoreId) (line : BitVec 49) (data : LineData) (poison : BitVec 4)
  /-- LR_HOLD_EXPIRE (R326). -/
  | lrHoldExpire (core : CoreId)
  /-- L2_PREFETCH (R352). -/
  | l2Prefetch (core : CoreId) (detector : Fin 16)
  /-- ARCHIVE_PREFETCH (R353). -/
  | archivePrefetch (slice : SliceId) (detector : Fin 64)
  /-- READAHEAD_EXPIRE (R341). -/
  | readaheadExpire (buffer : Fin 6) (line : BitVec 49)
  /-- CACHE_PARITY_ERROR (R370). -/
  | cacheParityError (core : CoreId) (cache : CacheKind) (tagError : Bool) (line : BitVec 49)
  /-- HOST_CACHE_LOSS_RESET (R371). -/
  | hostCacheLossReset
  /-- HPFCTL_WRITE (R377). -/
  | hpfctlWrite (core : CoreId) (value : W64)
  /-- ARC_PF_POUND_WRITE (R381). -/
  | arcPfPoundWrite (core : CoreId) (slice : SliceId) (pound : PoundId) (size : Size) (high : Bool) (value : W64)
  /-- BUCKET_REFILL (R386). -/
  | bucketRefill
  /-- REGULATION_ACTIVE (R390). -/
  | regulationActive (slice : SliceId)
  /-- PATROL_SCRUB (R394). -/
  | patrolScrub (addr : PAddr) (errors : List (Fin 36 × Byte))
  /-- HBM_CHANNEL_NO_RESPONSE (R398). -/
  | hbmChannelNoResponse (channel : MemChannel)
  /-- EXPANSION_BUFFER_EXPIRE (R406). -/
  | expansionBufferExpire (slice : SliceId) (granule : BitVec 44)
  /-- NYL_TRAIN_DONE (R430). -/
  | nylTrainDone (link : NylId)
  /-- NYL_IDENTITY_TIMER (R430). -/
  | nylIdentityTimer (link : NylId)
  /-- NYL_IDENTITY (R430). -/
  | nylIdentity (link : NylId) (flit : NFlit)
  /-- NYL_SELECT (R431). -/
  | nylSelect (link : NylId) (flit : NFlit)
  /-- NYL_DOWN (R433). -/
  | nylDown (link : NylId) (flit : NFlit)
  /-- NYL_ACK (R425). -/
  | nylAck (link : NylId) (flit : NFlit)
  /-- NYL_RETRY (R426). -/
  | nylRetry (link : NylId) (flit : NFlit)
  /-- NYL_RETRY_TIMER (R426). -/
  | nylRetryTimer (link : NylId)
  /-- NYL_RETRY_TIMEOUT (R427). -/
  | nylRetryTimeout (link : NylId)
  /-- NYL_ACK_TIMER (R425). -/
  | nylAckTimer (link : NylId)
  /-- NYL_CREDIT_RETURN (R425). -/
  | nylCreditReturn (link : NylId) (vc : Fin 6)
  /-- NYL_MESSAGE_SEND (R429). -/
  | nylMessageSend (link : NylId)
  /-- NYL_IDLE_FLIT (R426). -/
  | nylIdleFlit (link : NylId) (flit : NFlit)
  /-- NYL_TIME_SEND (R105). -/
  | nylTimeSend (link : NylId)
  /-- NYL_TIME_FLIT (R423). -/
  | nylTimeFlit (link : NylId) (flit : NFlit)
  /-- NYL_SILENCE_TIMEOUT (R432). -/
  | nylSilenceTimeout (link : NylId)
  /-- NYL_LANE_LOCK_LOST (R432). -/
  | nylLaneLockLost (link : NylId) (lane : Fin 2)
  /-- NYL_LOST_COMPLETE (R433). -/
  | nylLostComplete (link : NylId)
  /-- NYL_READ (R443). -/
  | nylRead (link : NylId) (flit : NFlit) (data : List NFlit)
  /-- NYL_WRITE_PLAIN (R443). -/
  | nylWritePlain (link : NylId) (flit : NFlit) (data : List NFlit)
  /-- NYL_WRITE_PUBLISH (R443). -/
  | nylWritePublish (link : NylId) (flit : NFlit) (data : List NFlit)
  /-- NYL_ADD64 (R443). -/
  | nylAdd64 (link : NylId) (flit : NFlit) (data : List NFlit)
  /-- NYL_SWAP64 (R443). -/
  | nylSwap64 (link : NylId) (flit : NFlit) (data : List NFlit)
  /-- NYL_CAS64 (R443). -/
  | nylCas64 (link : NylId) (flit : NFlit) (data : List NFlit)
  /-- READ_DATA (R441). -/
  | readData (link : NylId) (flit : NFlit) (data : List NFlit)
  /-- WRITE_DONE (R444). -/
  | writeDone (link : NylId) (flit : NFlit) (data : List NFlit)
  /-- ATOMIC_DONE (R443). -/
  | atomicDone (link : NylId) (flit : NFlit) (data : List NFlit)
  /-- NYL_ERROR (R446). -/
  | nylError (link : NylId) (flit : NFlit) (data : List NFlit)
  /-- REMOTE_TIMEOUT (R444). -/
  | remoteTimeout (tag : W32)
  /-- TRANSIT_CREDIT_TIMEOUT (R438). -/
  | transitCreditTimeout (link : NylId)
  /-- CDATA (R455). -/
  | cdata (link : NylId) (flit : NFlit) (data : List NFlit)
  /-- CACK (R455). -/
  | cack (link : NylId) (flit : NFlit) (data : List NFlit)
  /-- CABORT (R456). -/
  | cabort (link : NylId) (flit : NFlit) (data : List NFlit)
  /-- COLLECTIVE_PIECE_SEND (R455). -/
  | collectivePieceSend (queue : SqId) (seq : W32)
  /-- COLLECTIVE_COMPLETE (R451). -/
  | collectiveComplete (queue : SqId) (seq : W32)
  /-- COLLECTIVE_TIMEOUT (R456). -/
  | collectiveTimeout (queue : SqId) (seq : W32)
  /-- NYL_LINK_DISABLE (R447). -/
  | nylLinkDisable (core : CoreId) (link : NylId)
  /-- NYL_LINK_ENABLE (R461). -/
  | nylLinkEnable (core : CoreId) (link : NylId)
  /-- NYL_LINK_RESET (R461). -/
  | nylLinkReset (core : CoreId) (link : NylId)
  /-- NYL_DISABLE_TIMEOUT (R447). -/
  | nylDisableTimeout (link : NylId)
  /-- LINK_CONTROL (R484). -/
  | linkControl (link : NylId) (op : BitVec 2)
  /-- PCIE_INBOUND_REQUEST (R471). -/
  | pcieInboundRequest (port : PortId) (request : PcieRequest)
  /-- INBOUND_MSI (R463). -/
  | inboundMsi (port : PortId) (requester : W16) (addr : W64) (data : W32)
  /-- PCIE_COMPLETION (R473). -/
  | pcieCompletion (port : PortId) (tag : W16) (status : PcieStatus) (poisoned : Bool) (data : List Byte)
  /-- PCIE_COMPLETION_TIMEOUT (R473). -/
  | pcieCompletionTimeout (port : PortId) (tag : W16)
  /-- PCIE_LINK_DOWN (R482). -/
  | pcieLinkDown (port : PortId)
  /-- PORT_RETRAIN (R486). -/
  | portRetrain (core : CoreId) (port : PortId)
  /-- PORT_RELEASE (R482). -/
  | portRelease (core : CoreId) (port : PortId)
  /-- IOTINVAL_VMA (R470). -/
  | iotinvalVma (gscid pscid : Option (BitVec 20)) (addr : Option (BitVec 52))
  /-- IOTINVAL_GVMA (R470). -/
  | iotinvalGvma (gscid : Option (BitVec 20)) (addr : Option (BitVec 52))
  /-- IOFENCE_C (R470). -/
  | iofenceC
  /-- ROCE_DOORBELL (R479). -/
  | roceDoorbell (core : CoreId) (port : EthId) (qp : W16) (value : W64)
  /-- ROCE_FLUSH (R479). -/
  | roceFlush (core : CoreId) (port : EthId) (qp : W16) (value : W64)
  /-- ROCE_SEND (R476). -/
  | roceSend (port : EthId) (qp : W16)
  /-- ROCE_SEND_IMM (R476). -/
  | roceSendImm (port : EthId) (qp : W16)
  /-- ROCE_WRITE (R476). -/
  | roceWrite (port : EthId) (qp : W16)
  /-- ROCE_WRITE_IMM (R476). -/
  | roceWriteImm (port : EthId) (qp : W16)
  /-- ROCE_READ (R476). -/
  | roceRead (port : EthId) (qp : W16)
  /-- ROCE_FETCH_ADD (R476). -/
  | roceFetchAdd (port : EthId) (qp : W16)
  /-- ROCE_CMP_SWAP (R476). -/
  | roceCmpSwap (port : EthId) (qp : W16)
  /-- ROCE_RAW_FRAME (R476). -/
  | roceRawFrame (port : EthId) (qp : W16)
  /-- ROCE_INBOUND_REQUEST (R477). -/
  | roceInboundRequest (port : EthId) (qp : W16) (request : RdmaRequest)
  /-- ROCE_ACK (R478). -/
  | roceAck (port : EthId) (qp : W16) (count : W16) (atomicResult : W64)
  /-- ROCE_RETRY_TIMEOUT (R478). -/
  | roceRetryTimeout (port : EthId) (qp : W16)
  /-- ROCE_RNR_RETRY (R478). -/
  | roceRnrRetry (port : EthId) (qp : W16)
  /-- ROCE_CNP (R474). -/
  | roceCnp (port : EthId) (qp : W16)
  /-- ROCE_RATE_RECOVER (R474). -/
  | roceRateRecover (port : EthId) (qp : W16)
  /-- HIO_ETH_QPT_WRITE (R487). -/
  | hioEthQptWrite (core : CoreId) (port : EthId) (size : Size) (high : Bool) (value : W64)
  /-- PLDM_DISCOVERY (R483). -/
  | pldmDiscovery
  /-- PLDM_SENSOR_READ (R483). -/
  | pldmSensorRead (sensor : Sensor)
  /-- PLDM_FRU_READ (R483). -/
  | pldmFruRead
  /-- PLDM_FIRMWARE_UPDATE (R483). -/
  | pldmFirmwareUpdate (component : Fin 4) (version : W32) (image : List Byte) (sigR sigS : BitVec 384)
  /-- LOAD_CHARTER (R77). -/
  | loadCharter (offset : W32) (part : List Byte) (last : Bool)
  /-- CANCEL_CHARTER (R82). -/
  | cancelCharter
  /-- CLEAR_EXCLUSION (R548). -/
  | clearExclusion (target : Exclusion)
  /-- READ_SUMMARY (R484). -/
  | readSummary
  /-- PLDM_UNSUPPORTED (R484). -/
  | pldmUnsupported (code : Byte)
  /-- GET_VERSION (R485). -/
  | getVersion
  /-- GET_CAPABILITIES (R485). -/
  | getCapabilities
  /-- NEGOTIATE_ALGORITHMS (R485). -/
  | negotiateAlgorithms (ecdsaP384 sha384 : Bool)
  /-- GET_DIGESTS (R485). -/
  | getDigests
  /-- GET_CERTIFICATE (R485). -/
  | getCertificate (slot : Fin 8) (offset length : W16)
  /-- CHALLENGE (R485). -/
  | challenge (slot : Fin 8) (nonce : BitVec 256)
  /-- GET_MEASUREMENTS (R485). -/
  | getMeasurements (index : Byte) (nonce : BitVec 256)
  /-- SLUICE_TICK (R506). -/
  | sluiceTick (sample : PowerSample)
  /-- BALLAST_CHAIN (R508). -/
  | ballastChain (tile : TileId) (mismatch : Bool)
  /-- MEASURE_CHECK (R512). -/
  | measureCheck (measuredW : W16)
  /-- OP_STEP_END (R496). -/
  | opStepEnd (pound : PoundId)
  /-- HOST_FREQ_STEP (R496). -/
  | hostFreqStep (core : CoreId) (allowedMhz : BitVec 12)
  /-- DROOP_DETECT (R497). -/
  | droopDetect (tile : TileId)
  /-- DROOP_CLEAR (R497). -/
  | droopClear (tile : TileId)
  /-- OP_STEP_RESUME (R498). -/
  | opStepResume (pound : PoundId)
  /-- HEAVY_WINDOW_END (R494). -/
  | heavyWindowEnd (pound : PoundId)
  /-- THERMAL_SAMPLE (R510). -/
  | thermalSample (die : DieId) (tempC : Byte)
  /-- REGULATOR_ALERT (R511). -/
  | regulatorAlert (regulator : Byte)
  /-- PWR_BRAKE_FALL (R596). -/
  | pwrBrakeFall (lowNs : W32)
  /-- PWR_BRAKE_RISE (R596). -/
  | pwrBrakeRise
  /-- ALERT_LOWEST_POINT (R511). -/
  | alertLowestPoint
  /-- ALERT_RELEASE (R511). -/
  | alertRelease (measuredW : BitVec 12)
  /-- INPUT_VOLTAGE_EVENT (R587). -/
  | inputVoltageEvent (millivolts : BitVec 17) (heldUs : W32)
  /-- PWR_FG_DESC_VALID (R499). -/
  | pwrFgDescValid (core : CoreId) (pound : PoundId) (size : Size) (high : Bool) (value : W64)
  /-- PREEMPT_ATTEMPT (R525). -/
  | preemptAttempt (tile : TileId) (reached : Bool)
  /-- PREEMPT_RETRY (R525). -/
  | preemptRetry (tile : TileId)
  /-- AUDIT_DUE (R537). -/
  | auditDue (die : Fin 4)
  /-- AUDIT_OVERDUE (R538). -/
  | auditOverdue (tile : TileId)
  /-- AUDIT_HEAT_TIMEOUT (R539). -/
  | auditHeatTimeout (tile : TileId) (tempC : Byte)
  /-- AUDIT_PHASE_END (R540). -/
  | auditPhaseEnd (tile : TileId) (tempC : Byte) (failPoint : Option (Fin 3)) (failIndex : W32)
  /-- AUDIT_END (R541). -/
  | auditEnd (tile : TileId)
  /-- COLLATION_CHECK_DONE (R533). -/
  | collationCheckDone (checker : TileId) (matched : Bool)
  /-- COLLATION_ARBITER_DONE (R534). -/
  | collationArbiterDone (source : TileId) (result : ArbiterResult)
  /-- COLLATION_ARBITER_TIMEOUT (R534). -/
  | collationArbiterTimeout (source : TileId)
  /-- RATE_LIMIT_SECOND (R545). -/
  | rateLimitSecond
  /-- FLT_RING_ENABLE (R547). -/
  | fltRingEnable (core : CoreId) (size : Size) (high : Bool) (value : W64)
  /-- FLT_RING_CONS_WRITE (R546). -/
  | fltRingConsWrite (core : CoreId) (size : Size) (high : Bool) (value : W64)
  /-- RESET_N_FALL (R594). -/
  | resetNFall (lowNs : W32)
  /-- BRINGUP_START (R594). -/
  | bringupStart
  /-- FIRMWARE_VERIFIED (R554). -/
  | firmwareVerified (component : Fin 4) (copy0Ok copy1Ok : Bool)
  /-- SIRENT_TRAIN_TIMEOUT (R555). -/
  | sirentTrainTimeout (link : SrtId)
  /-- STORED_CHARTER_VERIFY (R99). -/
  | storedCharterVerify
  /-- HOST0_RELEASE (R556). -/
  | host0Release
  /-- FUNCTION_READY (R558). -/
  | functionReady (function : Function)
  /-- CLASS_SETTLE_TIMEOUT (R561). -/
  | classSettleTimeout (cls : SettleClass)
  /-- HART_START (R557). -/
  | hartStart (core : CoreId) (target : CoreId) (size : Size) (value : W64)
  /-- HART_ENTRY_SET (R557). -/
  | hartEntrySet (core : CoreId) (target : CoreId) (size : Size) (high : Bool) (value : W64)
  /-- LOCKKEEPER_WATCHDOG (R564). -/
  | lockkeeperWatchdog
  /-- UNCORE_WARM_RESET (R567). -/
  | uncoreWarmReset (core : CoreId)
  /-- WARM_RESET_N_FALL (R595). -/
  | warmResetNFall (lowNs : W32)
  /-- UNCORE_RESET_PHASE2 (R481). -/
  | uncoreResetPhase2
  /-- HOST_COMPLEX_WARM_RESET (R567). -/
  | hostComplexWarmReset (core : CoreId)
  /-- CAT_HEARTBEAT (R570). -/
  | catHeartbeat (core : CoreId) (pound : PoundId)
  /-- HEARTBEAT_CHECK (R570). -/
  | heartbeatCheck
  /-- SELF_RESET (R571). -/
  | selfReset (core : CoreId) (pound : PoundId)
  /-- SELF_RESET_DRAIN_TIMEOUT (R571). -/
  | selfResetDrainTimeout (pound : PoundId)
  /-- RESUME (R573). -/
  | resume (core : CoreId) (pound : PoundId)
  /-- DISARM (R570). -/
  | disarm (core : CoreId) (pound : PoundId)
  /-- POWER_APPLIED (R584). -/
  | powerApplied
  /-- TILE_ILLEGAL_INSTRUCTION (R133). -/
  | tileIllegalInstruction (tile : TileId) (hart : TileHart) (word : W32)
  /-- REGULATOR_ALERT_CLEAR (R511). -/
  | regulatorAlertClear (regulator : Option Byte)
  /-- ETH_LINK_DOWN (R464). -/
  | ethLinkDown (port : EthId)
  /-- PCIE_INTX (R464). -/
  | pcieIntx (port : PortId) (pin : Fin 4) (assert : Bool)
  /-- PCIE_LINK_RETRAIN (R480). -/
  | pcieLinkRetrain (port : PortId)
  /-- DEBUG_ACCESS (R78). -/
  | debugAccess (requester : Option CoreId) (target : DebugTarget) (addr : W64) (isWrite : Bool) (value : W64)
  /-- ROCE_INBOUND_SEND (R478). -/
  | roceInboundSend (port : EthId) (qp : W16) (message : RdmaMessage)
  /-- ROCE_READ_RESPONSE (R476). -/
  | roceReadResponse (port : EthId) (qp : W16) (data : List Byte)
  /-- ROCE_NAK (R478). -/
  | roceNak (port : EthId) (qp : W16) (kind : NakKind)
  /-- DYNAMIC_ADDRESS_ASSIGNMENT (R589). -/
  | dynamicAddressAssignment (address : BitVec 7)
  /-- SET_ENDPOINT_ID (R483). -/
  | setEndpointId (eid : Byte)
deriving DecidableEq, Repr

end Sys2Proof
end

