-- ==== Sys2Proof/Decode.lean ====
section
/-!
DEFINITION. The commands that a word spells: spec/opcode_table.json gives no row any bits (each row's "fields" is
empty), so no word spells a command.
-/

namespace Sys2Proof

/-- The command that the bits of a word spell: none, for every word, since the table gives no row bits. -/
def decodeTableWord (_nbits _w : Nat) : Option Instr := none

end Sys2Proof
end

