-- ==== Sys2Proof/Config.lean ====
section
/-!
DEFINITION. What the manual leaves open: uninterpreted constants with no body. A step that needs such a value applies
the constant to the counter `Chip.free` of the state and advances the counter, so no statement can rest on it.
-/

namespace Sys2Proof.Config

/-- Free 64-bit value number n (log entry 3). -/
opaque freeWord : Nat → BitVec 64
/-- Free natural number n (log entry 3). -/
opaque freeNat : Nat → Nat
/-- Free choice between two values that a rule allows, number n (log entry 3). -/
opaque freeBool : Nat → Bool
/-- Free 384-bit value number n: digests and signatures over data that the manual does not give (log entry 3). -/
opaque freeDigest : Nat → BitVec 384
/-- The rate trim, in picoseconds for each reference cycle of 10 ns, before R102 bounds it (log entry 5). -/
opaque freeTrim : Nat → Int

/-- What the exp/log/reciprocal unit answers where R136 fixes no value: operation, element width and operand
(log entry 6). -/
opaque vhFree : Nat → Nat → Nat → BitVec 64
/-- Which of the results within 1 ulp the unit gives: operation, element width and operand (R136; log entry 6). -/
opaque vhPick : Nat → Nat → Nat → Nat

/-- The die revisions that a firmware image lists as supported: bit r for REV r (R566; log entry 4). -/
opaque imageRevisions : List (BitVec 8) → BitVec 16

end Sys2Proof.Config
end

