-- ==== Sys2Proof/Machine/Sparse.lean ====
section
/-!
DEFINITION. Sparse maps: a list of (key, value) pairs, keys strictly rising, no entry equal to the default that an
unlisted key reads as. Register files, queue contexts and tables of the module are held so.
-/

namespace Sys2Proof.Machine

/-- A sparse map from numbers. -/
abbrev SMap (α : Type) := List (Nat × α)

namespace SMap
variable {α : Type}

/-- The value at key k; d where k is not listed. -/
def get (d : α) : SMap α → Nat → α
  | [], _ => d
  | (j, v) :: m, k => if j = k then v else get d m k

/-- Remove key k. -/
def erase : SMap α → Nat → SMap α
  | [], _ => []
  | (j, v) :: m, k => if j = k then erase m k else (j, v) :: erase m k

/-- Insert v at key k, in order of the keys. -/
def insert : SMap α → Nat → α → SMap α
  | [], k, v => [(k, v)]
  | (j, u) :: m, k, v =>
    if k < j then (k, v) :: (j, u) :: m
    else if j = k then (k, v) :: m
    else (j, u) :: insert m k v

/-- Set key k to v; the default is not listed. -/
def set [DecidableEq α] (d : α) (m : SMap α) (k : Nat) (v : α) : SMap α :=
  if v = d then erase m k else insert (erase m k) k v

/-- Apply f at key k. -/
def modify [DecidableEq α] (d : α) (m : SMap α) (k : Nat) (f : α → α) : SMap α := set d m k (f (get d m k))

/-- The value at key k of a map that holds only what is present. -/
def look : SMap α → Nat → Option α
  | [], _ => none
  | (j, v) :: m, k => if j = k then some v else look m k

/-- The lowest number below n that is no key: the free entry of a table. -/
def free? (m : SMap α) (n : Nat) : Option Nat := (List.range n).find? (fun k => (look m k).isNone)

/-- Apply f to every listed value. -/
def mapVal (m : SMap α) (f : Nat → α → α) : SMap α := m.map (fun e => (e.1, f e.1 e.2))

end SMap

/-- Apply f for every element of a list in order. -/
def iter {σ β : Type} (l : List β) (f : σ → β → σ) (s : σ) : σ := l.foldl f s

/-- Bit i of a word as a Bool. -/
abbrev bit {n : Nat} (v : BitVec n) (i : Nat) : Bool := v.getLsbD i

/-- Bits hi down to lo of a word, as a number. -/
def bits {n : Nat} (v : BitVec n) (hi lo : Nat) : Nat := (v.toNat / 2 ^ lo) % 2 ^ (hi + 1 - lo)

/-- The word with bits hi down to lo replaced. -/
def setBits {n : Nat} (v : BitVec n) (hi lo x : Nat) : BitVec n :=
  BitVec.ofNat n (v.toNat - bits v hi lo * 2 ^ lo + (x % 2 ^ (hi + 1 - lo)) * 2 ^ lo)

/-- Set or clear bit i. -/
def setBit {n : Nat} (v : BitVec n) (i : Nat) (b : Bool) : BitVec n := setBits v i i (if b then 1 else 0)

/-- One bit as a number. -/
def b2n (b : Bool) : Nat := if b then 1 else 0

/-- Assemble a register word from (lowest bit, value) pairs; each value must lie below its field's width. -/
def fields (fs : List (Nat × Nat)) : W64 := BitVec.ofNat 64 (fs.foldl (fun a f => a + f.2 * 2 ^ f.1) 0)

/-- Count up by k, saturating at all ones of n bits. -/
def satAdd (n v k : Nat) : Nat := min (v + k) (2 ^ n - 1)

/-- The bytes of a number, lowest first (R6). -/
def leBytes : Nat → Nat → List Byte
  | 0, _ => []
  | k + 1, v => BitVec.ofNat 8 v :: leBytes k (v / 256)

/-- The number that bytes spell, lowest first (R6). -/
def leNat : List Byte → Nat
  | [] => 0
  | b :: bs => b.toNat + 256 * leNat bs

/-- Number k bytes at offset o of a byte list, zero where the list ends. -/
def leAt (bs : List Byte) (o k : Nat) : Nat := leNat ((bs.drop o).take k)

/-- The numbers below n at which p holds. -/
def idxs (n : Nat) (p : Nat → Bool) : List Nat := (List.range n).filter p

/-- The set bits of a mask. -/
def bitList {n : Nat} (v : BitVec n) : List Nat := idxs n (fun i => v.getLsbD i)

/-- A mask whose bit i is p i. -/
def maskOf (n : Nat) (p : Nat → Bool) : BitVec n :=
  BitVec.ofNat n ((List.range n).foldl (fun a i => if p i then a + 2 ^ i else a) 0)

/-- Replace the first elements of a list from position o with ys; positions beyond the end are dropped. -/
def splice {β : Type} (xs : List β) (o : Nat) (ys : List β) : List β :=
  xs.take o ++ (ys.take (xs.length - o)) ++ xs.drop (o + ys.length)

/-- The list without its elements equal to x. -/
def without {β : Type} [DecidableEq β] (xs : List β) (x : β) : List β := xs.filter (fun y => y ≠ x)

/-- Update the element at position i. -/
def modAt {β : Type} : List β → Nat → (β → β) → List β
  | [], _, _ => []
  | x :: xs, 0, f => f x :: xs
  | x :: xs, n + 1, f => x :: modAt xs n f

/-- Stable insertion sort by a key. -/
def insertBy {β : Type} (key : β → Nat) (x : β) : List β → List β
  | [] => [x]
  | y :: ys => if key x < key y then x :: y :: ys else y :: insertBy key x ys

/-- Elements in rising order of a key; equal keys keep their order. -/
def sortBy {β : Type} (key : β → Nat) (l : List β) : List β := l.foldl (fun a x => insertBy key x a) []

end Sys2Proof.Machine
end

