-- ==== Sys2Proof/Machine/StateModule.lean ====
section
/-!
DEFINITION. Plain data of the module-wide units: the charter and its loading, pounds, Lock Time and lock orders,
Sirent links, power, Fault Rolls, the Catalogue and the resets, and the pins.
-/

namespace Sys2Proof.Machine

/-! ## The charter (R57 to R78) -/

/-- A REGIONS entry (R66). Owner 0-15 or 0xFE COMMON. -/
structure Region where
  base : Nat
  size : Nat
  owner : Nat
  cls : Nat
  readers : W16
deriving DecidableEq, Repr, Inhabited

/-- An ACCESS_LIST entry (R71). -/
structure AclEntry where
  modFirst : Nat
  modLast : Nat
  pound : Nat
  perm : Byte
  offBase : Nat
  offLast : Nat
deriving DecidableEq, Repr, Inhabited

/-- A CUSTODIANS entry that is enrolled (R73). -/
structure Custodian where
  slot : Nat
  keyId : Nat
  pubX : Nat
  pubY : Nat
deriving DecidableEq, Repr, Inhabited

/-- A canal entry (R249). -/
structure Canal where
  prod : Nat
  outPort : Nat
  cons : Nat
  inPort : Nat
  srcBase : Nat
  dstBase : Nat
  slotLog2 : Nat
  srcSlots : Nat
  dstSlots : Nat
  sendSem : Nat
  freeSem : Nat
  readySem : Nat
  returnSem : Nat
deriving DecidableEq, Repr, Inhabited

/-- A ROUTES entry (R434). -/
structure Route where
  modFirst : Nat
  modLast : Nat
  ordered : Bool
  links : W64
deriving DecidableEq, Repr, Inhabited

/-- A ROUTES section (R434). -/
structure Routes where
  transitDefault : Bool
  dateline : W64
  group : List Byte
  entries : List Route
deriving DecidableEq, Repr, Inhabited

/-- A POUND section (R64), its CANALS and ROUTES sections. -/
structure PoundCfg where
  sparePolicy : Nat
  sparesReserved : Nat
  heartbeatMs : Nat
  drainUs : Nat
  tileMask : BitVec 192
  coreMask : BitVec 128
  cacheWays : W16
  scratchWays : W16
  scratchClass : Nat
  tileClass : Nat
  portMask : Byte
  sqFirst : Nat
  sqCount : Nat
  cqFirst : Nat
  cqCount : Nat
  linkMask : W64
  rdRate : Nat
  rdBucket : Nat
  wrRate : Nat
  wrBucket : Nat
  envelopeW : Nat
  freqMax : Nat
  freqGroup : W32
  auditH : Nat
  auditOverdueH : Nat
  collationLog2 : Nat
  canals : List Canal
  routes : Option Routes
deriving DecidableEq, Repr, Inhabited

/-- DRAIN_TIMEOUT_US, HEARTBEAT_MS, AUDIT_INTERVAL_H and AUDIT_OVERDUE_H as they act: 0 selects a default (R64). -/
def PoundCfg.drain (g : PoundCfg) : Nat := if g.drainUs = 0 then 10000 else g.drainUs
def PoundCfg.beatMs (g : PoundCfg) : Nat := if g.heartbeatMs = 0 then 500 else g.heartbeatMs
def PoundCfg.auditHours (g : PoundCfg) : Nat := if g.auditH = 0 then 72 else g.auditH
def PoundCfg.overdueHours (g : PoundCfg) : Nat := if g.auditOverdueH = 0 then 24 else g.auditOverdueH

/-- A charter as its image states it. -/
structure Charter where
  version : W64
  baseVersion : W64
  serial : W64
  activateAt : Nat
  moduleId : Nat
  channelMap : BitVec 256
  custodians : List Custodian
  regions : List Region
  access : List AclEntry
  debugBits : List Byte
  pounds : SMap PoundCfg
deriving DecidableEq, Repr, Inhabited

/-- Memory that is to be zeroed because its owner or its code mode changed (R91, R92). -/
structure Scrub where
  base : Nat
  size : Nat
  /-- The old owner, until it has drained. -/
  old : Option Nat
  new : Option Nat
  /-- The old owner, and the new one, take this change in a further restart (R90). -/
  oldLater : Bool
  newLater : Bool
deriving DecidableEq, Repr, Inhabited

/-- The Lockkeeper's charter state and the CHT_ registers (R79 to R101). -/
structure ChtUnit where
  loadAddr : BitVec 50
  loadLen : BitVec 25
  error : Byte
  late : Bool
  /-- The stored charters have been verified (R553 step 3): STATE follows from the fields below. -/
  booted : Bool
  /-- The image that is being verified. -/
  verifying : Option (List Byte)
  /-- The staged image. -/
  staged : Option (List Byte × Charter)
  /-- The active image; none in provisioning. -/
  active : Option Charter
  activeImage : List Byte
  /-- Parts of an image that LOAD_CHARTER has brought so far (R484). -/
  parts : List Byte
  /-- Pounds that still restart (R87). -/
  restarting : List Nat
  /-- Pounds that restart again when they have finished: a further charter was activated meanwhile (R90). -/
  deferred : List Nat
  /-- HBM channels of the interleave in force (R384): the old ones while a pound drains (R85). -/
  mapNow : BitVec 256
  scrubs : List Scrub
deriving DecidableEq, Repr, Inhabited

/-! ## Pounds (R87, R97, R570 to R574) -/

/-- CHT_POUND_STATE (R97). -/
inductive PoundSt where
  | absent | running | draining | scrubbing | starting | waitingOwner | activationFailed
deriving DecidableEq, Repr, Inhabited

/-- What the module keeps for one pound beside its configuration. -/
structure Pound where
  st : PoundSt
  /-- Its POUND, CANALS and ROUTES sections in force: those of the old charter until it has drained (R87). -/
  cfg : Option PoundCfg
  /-- Its regions in force. -/
  regs : List Region
  /-- In the draining step of a restart: the configuration and regions that it takes when it has drained. -/
  goal : Option (Option PoundCfg × List Region)
  held : Bool
  cause : Nat
  losses : Nat
  armed : Bool
  /-- Reference time of the last counted heartbeat, in ps. -/
  lastBeat : Nat
  /-- A self-reset is draining (R571). -/
  selfReset : Bool
  /-- The fence of R572 is in force. -/
  fenced : Bool
  /-- A self-reset asked for during a restart (R574, R90). -/
  selfResetAfter : Option Nat
  noticeValid : Bool
  noticeDropped : Nat
  noticeCq : Nat
  /-- Lock Time up to which a Collation window samples at 2^-4 (R531). -/
  collWindowEnd : Nat
  /-- Checkpoint fences that wait: AT, and the sequence that each queue must reach (R304). -/
  fences : List (Nat × List (Nat × W32))
  /-- Canals that are set up (R263, R266): those of the charter of its last starting step. -/
  canals : List Canal
  /-- Spares of each C-die that have gone to quarantines of this pound (R529). -/
  sparesGone : SMap Nat
deriving DecidableEq, Repr, Inhabited

/-- A pound before any charter names it. -/
def Pound.none : Pound :=
  { st := .absent, cfg := Option.none, regs := [], goal := Option.none, held := false, cause := 0, losses := 0, armed := false, lastBeat := 0, selfReset := false,
    fenced := false, selfResetAfter := Option.none, noticeValid := false,
    noticeDropped := 0, noticeCq := 0, collWindowEnd := 0,
    fences := [], canals := [], sparesGone := [] }

/-- The engine that issued a request: a mover, a command of a queue, or the power controller for a pound's frequency
group (R500). -/
inductive RemoteWho where
  | mover (tile m : Nat)
  | command (sq : Nat) (seq : W32)
  | power (pound : Nat)
  /-- A host core, whose writes a root port holds (R482). -/
  | core (c : Nat)
  /-- Writes of a tile's ended program, or of a descriptor complete at SCOPE TILE, that are not visible yet (R156, R319). -/
  | tile (tile : Nat)
deriving DecidableEq, Repr, Inhabited

/-- What an engine does with one piece of a transfer (R140, R290, R405, R409). -/
inductive PieceOp where
  | copy | zero
  /-- A copy, or zeros, into a granule that its slice compresses (COMP 0b01). -/
  | weight | weightZero
  /-- 4,096 raw bytes of a tile store compressed into 3,072, and 3,072 stored bytes expanded (COMP 0b10). -/
  | pack (fp16 : Bool)
  | unpack
deriving DecidableEq, Repr, Inhabited

/-- A piece of a transfer, within one page at each end that is not packed. A LOCAL address is an offset in the mover's own
tile store (R142). -/
structure Piece where
  op : PieceOp
  src : Nat
  srcLocal : Bool
  dst : Nat
  dstLocal : Bool
  len : Nat
  publish : Bool
deriving DecidableEq, Repr, Inhabited

/-- A transfer of a mover or a copy engine: the pieces it has still to issue, a packed group it is reading from another
module with the bytes that have arrived, its first failure (status of R297 or R446, address), and the lines it has
written that a read-ahead buffer held (R341). -/
structure Xfer where
  todo : List Piece
  group : Option (Piece × List (Nat × List Byte))
  failed : Option (Nat × Nat)
  lines : List Nat
deriving DecidableEq, Repr, Inhabited

/-- Nothing to transfer. -/
def Xfer.none : Xfer := { todo := [], group := Option.none, failed := Option.none, lines := [] }

/-! ## Lock Time and lock orders (R102 to R124) -/

/-- LT_STATUS.STATE (R108). -/
inductive LtState where
  | acquiring | locked | lost
deriving DecidableEq, Repr, Inhabited

/-- Who posted a lock order (R113, R119). -/
inductive Poster where
  | management | power | lockkeeper | pound (p : Nat)
deriving DecidableEq, Repr, Inhabited

/-- An entry of the lock-order table (R112). -/
structure Order where
  action : Nat
  at_ : Nat
  pound : Nat
  notice : Nat
  arg : Nat
  poster : Poster
  /-- Number in the order of acceptance (R115). -/
  accepted : Nat
  /-- Lock Time at which its action started. -/
  began : Option Nat
  /-- Its deadline after AT in ns, from the start of its action on (R113); none has no deadline. -/
  deadline : Option Nat
  noticed : Bool
deriving DecidableEq, Repr, Inhabited

/-- The LT_ORDER_ registers of one pound (R120, R123, R124). -/
structure OrderRegs where
  at_ : W64
  spec : W64
  index : BitVec 12
  status : Nat
deriving DecidableEq, Repr, Inhabited

/-- A PTP port as a time source (R103). -/
structure PtpPort where
  valid : Bool
  /-- Reference time of the last Sync, in ps. -/
  lastSync : Nat
deriving DecidableEq, Repr, Inhabited

/-- A Nyulle link as a time source (R106). -/
structure NylTime where
  usable : Bool
  hops : Nat
  /-- Reference time of the last usable message, in ps. -/
  last : Nat
deriving DecidableEq, Repr, Inhabited

/-- Lock Time and the LT_ registers. -/
structure TimeUnit where
  /-- LT_NOW in picoseconds (R102). -/
  nowPs : Nat
  st : LtState
  source : Nat
  hops : Nat
  steps : Nat
  late : Bool
  lostSeen : Bool
  srcEn : BitVec 3
  ptpPorts : BitVec 2
  ptpDomain : Byte
  epochOffset : W64
  /-- Consecutive samples within 25 ns while ACQUIRING (R109). -/
  good : Nat
  /-- Reference time of the last accepted LOCK_PPS edge, in ps. -/
  ppsEdge : Option Nat
  ppsValid : Bool
  /-- Lock Time of the next edge, from a time-of-day message (R103). -/
  tod : Option W64
  ptp : SMap PtpPort
  /-- The PTP port in use. -/
  ptpUse : Nat
  nyl : SMap NylTime
  parent : Option Nat
  /-- Lock Time, in ns, at which STATE last became LOCKED (R83, R117, R294). -/
  lockedAt : Nat
  /-- The module took its first LOCKED after cold reset at this Lock Time (R536). -/
  t0 : Option Nat
  orders : SMap Order
  accepted : Nat
  regs : SMap OrderRegs
deriving DecidableEq, Repr, Inhabited

/-! ## Sirent links (R31 to R56) -/

/-- SRT_LINK_STATUS.STATE (R54). -/
inductive SrtState where
  | down | training | up | retrying | failed | excluded
deriving DecidableEq, Repr, Inhabited

/-- One end of a Sirent link: side 0 is the end that R19 names first. -/
structure SrtSide where
  st : SrtState
  deskewed : Bool
  version : Nat
  peerVersions : BitVec 2
  sentSelect : Bool
  gotIdentity : Bool
  gotSelect : Bool
  consecFail : Nat
  retries : Nat
  errFlits : Nat
  txSeq : Nat
  rxSeq : Nat
  discarding : Bool
  /-- The SEQ a RETRY has asked for and not received (R45). -/
  asked : Option Nat
  /-- Message and data flits accepted since the last ACK (R43). -/
  unacked : Nat
  credits : List Nat
  /-- Credits freed and not yet returned, for each VC (R40). -/
  freed : List Nat
  retryBuf : List (Nat × BitVec 320)
  /-- Data flits that each VC has sent since its last message flit, at most 4: a transfer of 128 B sends four (R38). -/
  transfer : List Nat
  /-- Message and data flits accepted: data flag, VC, payload. -/
  inbox : List (Bool × Nat × BitVec 256)
  /-- Flits this end has put on the link, oldest first. -/
  wire : List (BitVec 320)
deriving DecidableEq, Repr, Inhabited

/-- A Sirent end after reset. -/
def SrtSide.reset : SrtSide :=
  { st := .down, deskewed := false, version := 0, peerVersions := 0, sentSelect := false, gotIdentity := false,
    gotSelect := false, consecFail := 0, retries := 0, errFlits := 0, txSeq := 0, rxSeq := 0, discarding := false,
    asked := none, unacked := 0, credits := List.replicate 8 0, freed := List.replicate 8 0, retryBuf := [],
    transfer := List.replicate 8 4, inbox := [], wire := [] }

/-- Both ends of a Sirent link. -/
structure SrtLink where
  a : SrtSide
  b : SrtSide
deriving DecidableEq, Repr, Inhabited

/-- A Sirent link after reset. -/
def SrtLink.reset : SrtLink := { a := SrtSide.reset, b := SrtSide.reset }

/-! ## Fault Rolls (R543 to R550, R615) -/

/-- A Fault Rolls record (R543). CHECK is computed when the record is written. -/
structure Record where
  stamp : W64
  seq : W32
  cls : W16
  kind : Byte
  flags : Byte
  sourceId : W16
  pound : Byte
  action : Byte
  count : W32
  addr : W64
  detail0 : W64
  detail1 : W64
  detail2 : W64
deriving DecidableEq, Repr, Inhabited

/-- The persistent summary in management flash (R548). -/
structure Summary where
  records : List Record
  linkExcluded : BitVec 9
  dieExcluded : BitVec 5
  /-- Disabled Archive ways of each slice (R374). -/
  waysDisabled : SMap W16
  /-- HEALTH of each HBM channel: 0 good, 1 failing, 2 failed (R398). -/
  hbmHealth : SMap Nat
  lpdHealth : SMap Nat
deriving DecidableEq, Repr, Inhabited

/-- The Lockkeeper's record logic and the FLT_ registers. -/
structure Rolls where
  base : BitVec 44
  log2 : BitVec 5
  enable : Bool
  owner : Nat
  /-- Number of the last record created since module cold reset (R543). -/
  seq : W32
  /-- FLT_RING_PROD.SEQ, which an uncore warm reset takes back to 0 until the next record (R549, R608). -/
  seqReg : W32
  head : W32
  tail : W32
  lost : Nat
  suppressed : Nat
  sumWritten : Nat
  sumSuppressed : Nat
  /-- Records held while the ring is not enabled (R547). -/
  buffer : List Record
  /-- Records lost since the last one written (R546). -/
  lostRun : Nat
  deny : SMap Nat
  afterUse : SMap Nat
  mismatch : SMap Nat
  skipped : SMap Nat
  sampled : SMap Nat
  matched : SMap Nat
  auditFailed : SMap Nat
  auditForced : SMap Nat
  auditPassed : SMap Nat
  /-- Records of the current second under each limit of R545: ownership, by pound; fabric accesses; remote failures; summary. -/
  rateOwner : SMap Nat
  rateFabric : Nat
  rateRemote : Nat
  rateSummary : Nat
deriving DecidableEq, Repr, Inhabited

/-! ## Power (R488 to R520) -/

/-- PWR_P_STATUS.FG_STATE (R519). -/
inductive FgState where
  | notMember | member | noResult | invalid | duplicate | suspended
deriving DecidableEq, Repr, Inhabited

/-- The power controller's state of one pound. -/
structure PoundPower where
  shareW : Nat
  targetMhz : Nat
  freqMhz : Nat
  groupMhz : Nat
  phase : Nat
  fg : FgState
  hostMaxMhz : Nat
  phaseEn : Bool
  fgDesc : BitVec 53
  fgValid : Bool
  fgBoard : BitVec 27
  /-- PWR_PHASE entries: HEAVY and FREQ_MHZ (R493). -/
  phases : SMap (Bool × Nat)
  /-- ARG of the running frequency sequence and its order (R496). -/
  seqTo : Option Nat
  seqOrder : Option Nat
  /-- The frequency that the step in progress ends at. -/
  stepMhz : Nat
  /-- The step in progress is held by a droop (R498). -/
  stepHeld : Bool
  /-- A heavy window is open (R494): the reference time in ps up to which a launch that starts belongs to it. -/
  heavyUntil : Option Nat
  /-- Reference time in ps up to which Ballast raises power for the hint that opened the window (R494). -/
  rampUntil : Nat
  /-- Phase of a HINT with a valid entry, until a launch of the pound starts (R494). -/
  hinted : Option Nat
  /-- Bounds of R492 that the controller holds: power, thermal. -/
  boundPower : Nat
  boundThermal : Nat
  /-- Rank and members of the frequency group (R499). -/
  members : List Nat
  rank : Nat
  /-- Epochs in a row each member of the own set has been left out (R501). -/
  missed : SMap Nat
deriving DecidableEq, Repr, Inhabited

/-- PWR_ state of a pound after reset (R614): TARGET and FREQ follow FREQ_MAX_MHZ once a charter is active. -/
def PoundPower.reset : PoundPower :=
  { shareW := 0, targetMhz := 0, freqMhz := 0, groupMhz := 0, phase := 0, fg := .notMember, hostMaxMhz := 3000,
    phaseEn := false, fgDesc := 0, fgValid := false, fgBoard := 0, phases := [], seqTo := none, seqOrder := none,
    stepMhz := 0, stepHeld := false, heavyUntil := none, rampUntil := 0, hinted := none, boundPower := 2400, boundThermal := 2400,
    members := [], rank := 0, missed := [] }

/-- PWR_DIE of one die and its thermal state (R510, R520). -/
structure DiePower where
  droops : Nat
  railMv : Nat
  tempC : Nat
  /-- 0 normal, 1 throttle, 2 divided. -/
  st : Nat
  /-- Samples in a row below 97 degrees: the tenth restores 25 MHz (R510). -/
  cool : Nat
deriving DecidableEq, Repr, Inhabited

/-- PWR_STATUS.MODE (R517). -/
inductive PwrMode where
  | normal | divided | tripped | refLost
deriving DecidableEq, Repr, Inhabited

/-- The power controller and the PWR_ registers. -/
structure Power where
  /-- Sluice level in units of 0.005 W, the step of SLEW 1 in 10 us (R506). -/
  level : Nat
  /-- L has taken the measured input power after module cold reset (R506). -/
  levelSet : Bool
  demandW : Nat
  measOnly : Bool
  mode : PwrMode
  floor : Nat
  slew : Nat
  capW : Nat
  voltMv : Nat
  estW : Nat
  measW : Nat
  /-- PWR_ENERGY in units of 10 uJ: watts over 10 us (R516). -/
  energyMj : Nat
  ballastMj : Nat
  ovr2 : Nat
  ovr3 : Nat
  ovr4 : Nat
  ovr5 : Nat
  ovr6 : Nat
  breach : Nat
  distrust : Nat
  trip : Nat
  throttle : Nat
  brake : Nat
  alert : Nat
  current : Nat
  lateCnt : Nat
  rail : W64
  pounds : SMap PoundPower
  dies : SMap DiePower
  /-- Clock of each host core in MHz (R488). -/
  coreMhz : SMap Nat
  /-- Clocks divided under R511. -/
  divided : Bool
  /-- Regulators that hold an alert (R511), the input voltage among them as 256. -/
  alerts : List Nat
  brakeLow : Bool
  /-- Milliseconds the estimate has disagreed or agreed (R512). -/
  offMs : Nat
  onMs : Nat
  /-- Arrays that Ballast uses now. -/
  ballastOn : Bool
  /-- Power-cap order that runs (R507): its table index. -/
  capOrder : Option Nat
deriving DecidableEq, Repr, Inhabited

/-! ## Bring-up, Catalogue, resets and pins (R553 to R597) -/

/-- CAT_HART_CTL.STATE (R580). -/
inductive HartState where
  | inReset | ready | running | failed
deriving DecidableEq, Repr, Inhabited

/-- A hart's control register. -/
structure HartCtl where
  st : HartState
  entry : BitVec 54
deriving DecidableEq, Repr, Inhabited

/-- A firmware component in management flash: the version and image in use, and those that an update has stored in the other
copy. -/
structure Firmware where
  version : W32
  pending : Option (W32 × List Byte)
  image : List Byte
  verified : Bool
deriving DecidableEq, Repr, Inhabited

/-- The Catalogue, the reset logic and the pins. -/
structure Boot where
  /-- Bring-up step 1-5 (R553); 0 while the module is in reset or without power. -/
  step : Nat
  /-- An uncore warm reset is in its first phase (R481). -/
  uncorePhase1 : Bool
  /-- The module waits for a reset (R597): 0 no, 1 module cold only, 2 module cold or uncore warm. -/
  waits : Nat
  faultN : Bool
  powered : Bool
  resetLow : Bool
  refOk : Bool
  warmLow : Bool
  addrSel : BitVec 3
  i3cAddr : BitVec 7
  eid : Byte
  host0 : Bool
  lockkeeper : Bool
  standby : Bool
  standbyActive : Bool
  power : Bool
  uncoreH0 : Bool
  uncoreH1 : Bool
  iommu : Bool
  scratch : Bool
  hbmWindow : Bool
  settled : BitVec 11
  fabric : BitVec 4
  cp : BitVec 16
  hart : BitVec 96
  lpd : BitVec 32
  lpdTried : BitVec 32
  arc : BitVec 128
  arcSettled : Bool
  hbm : BitVec 256
  /-- Physical tiles that have finished BIST, with their outcome: key die * 40 + position (R562). -/
  bist : SMap (Option Bool)
  /-- C-dies whose indices have been assigned since module cold reset (R562). -/
  assigned : BitVec 4
  hartCtl : SMap HartCtl
  /-- Links and dies that are excluded for this run (R47, R48): C0-C3 and H1. -/
  srtExcluded : BitVec 9
  dieExcluded : BitVec 5
  fwVerified : BitVec 4
  fwFailed : Bool
  /-- Archive slices in service when SCRATCH was set (R560). -/
  scratchSlices : BitVec 128
  heavyRun : Bool
  /-- Dirty host-cache data has been lost and the host-complex warm reset it brings has not started (R371). -/
  cacheLost : Bool
deriving DecidableEq, Repr, Inhabited

/-- Management flash: what survives every reset and loss of power (R567). -/
structure Flash where
  slot0 : List Byte
  slot1 : List Byte
  summary : Summary
  firmware : SMap Firmware
deriving DecidableEq, Repr, Inhabited

/-- SPDM and PLDM state of the management endpoint (R483, R485). -/
structure Mgmt where
  /-- The last response: completion code and data. -/
  code : Byte
  data : List Byte
  versionSeen : Bool
  capsSeen : Bool
  negotiated : Bool
deriving DecidableEq, Repr, Inhabited

/-- What is fused at manufacture. -/
structure Fuse where
  serial : W64
  /-- Revision of each die, C0-C3, H0, H1: 0 A0, 1 B0 (R50, R577). -/
  rev : List Nat
  /-- Frequency in MHz of each entry of a die's table that is not on the straight line between its ends, and its voltage in mV
  (R489): key die * 64 + i. -/
  vfMhz : SMap Nat
  vfMv : SMap Nat
  heavyMv : SMap Nat
  rollback : SMap Nat
  /-- Certificate chain of SPDM slot 0. -/
  chain : List Byte
deriving DecidableEq, Repr, Inhabited

end Sys2Proof.Machine
end

