-- ==== Sys2Proof/Machine/StateTile.lean ====
section
/-!
DEFINITION. Plain data of a tile: its five cores, semaphores, sequence table, movers, matrix array, output stage,
Ledger, canal ports, and what belongs to the physical tile.
-/

namespace Sys2Proof.Machine

/-- One core of a tile: hart 0 the control core, harts 1-4 the vector cores (R125, R133, R135). -/
structure TileCore where
  x : SMap W64
  f : SMap W64
  v : SMap (BitVec 2048)
  pc : W64
  running : Bool
  /-- Stalled until a WAIT returns, a mover entry frees, hmfence ends, or a held sequence table is released. -/
  stalled : Bool
  exit : W64
  fcsr : Byte
  vl : Nat
  vtype : Byte
  /-- vtype.vill: the vtype that was asked for is not supported (R135). -/
  vill : Bool
  vstart : Nat
  vcsr : BitVec 3
  /-- tvflush.FLUSH (R137). -/
  flush : Bool
  /-- tmcomp (R409), control core only. -/
  tmcomp : W64
  cycle : Nat
  instret : Nat
  /-- The address an LR has reserved (R616). -/
  reserved : Option Nat
  /-- Code rows (64 B) in the instruction cache (R139). -/
  icache : List Nat
deriving DecidableEq, Repr, Inhabited

/-- A core that is halted with every register 0. -/
def TileCore.zero : TileCore :=
  { x := [], f := [], v := [], pc := 0, running := false, stalled := false, exit := 0, fcsr := 0, vl := 0,
    vtype := 0, vill := false, vstart := 0, vcsr := 0, flush := false, tmcomp := 0, cycle := 0, instret := 0, reserved := none,
    icache := [] }

/-- A waiter of a semaphore (R146, R147): a core with its amount and rd. -/
structure Waiter where
  sem : Nat
  hart : Nat
  amount : Nat
  rd : Nat
deriving DecidableEq, Repr, Inhabited

/-- A mover descriptor in progress. -/
structure MoverRun where
  words : List W64
  xf : Xfer
deriving DecidableEq, Repr, Inhabited

/-- A mover (R140 to R144). -/
structure Mover where
  window : SMap W64
  queue : List (List W64)
  run : Option MoverRun
  completed : Nat
  /-- A store to word 7 that waits for a free entry (R141). -/
  waiting : Option (List W64)
deriving DecidableEq, Repr, Inhabited

/-- An idle mover. -/
def Mover.zero : Mover := { window := [], queue := [], run := none, completed := 0, waiting := none }

/-- The queued matrix instructions (R173). -/
inductive MKind where
  | hmma | hmacc | hmdrain | hmsig
deriving DecidableEq, Repr, Inhabited

/-- A queued matrix instruction with what it captured at issue (R174, R235). -/
structure MInstr where
  kind : MKind
  funct7 : BitVec 7
  a : W64
  b : W64
  params : List W64
  bits : W32
  pc : W64
  chain : Nat
  num : Nat
  /-- It has completed once and runs again after a replay (R239). -/
  counted : Bool
deriving DecidableEq, Repr, Inhabited

/-- A matrix instruction on which the control core stalls because the array's queue is full (R134). -/
structure HeldInstr where
  kind : MKind
  funct7 : BitVec 7
  rs2 : Nat
  rs1 : Nat
  rd : Nat
deriving DecidableEq, Repr, Inhabited

/-- A chain and its record (R180, R235). -/
structure Chain where
  id : Nat
  bank : Nat
  instrs : List MInstr
  drain : Option MInstr
  /-- hmma and hmacc instructions of the chain that have completed. -/
  completed : Nat
  poisoned : Bool
  /-- Tile-store bytes (offset, length) held until its release (R235). -/
  ranges : List (Nat × Nat)
deriving DecidableEq, Repr, Inhabited

/-- The counts of a Ledger slot (R227, R243). -/
structure LedgerSlot where
  bins : SMap Nat
  zeros : Nat
  nan : Nat
  inf : Nat
  flushed : Nat
  clipped : Nat
  vanished : Nat
  elements : Nat
  outOfWindow : Nat
  drains : Nat
deriving DecidableEq, Repr, Inhabited

/-- An empty Ledger slot. -/
def LedgerSlot.zero : LedgerSlot :=
  { bins := [], zeros := 0, nan := 0, inf := 0, flushed := 0, clipped := 0, vanished := 0, elements := 0,
    outOfWindow := 0, drains := 0 }

/-- The result of one attempt of a drain: writes (tile-store offset, bytes), lane values, and the staged Ledger counts. -/
structure DrainResult where
  writes : List (Nat × List Byte)
  /-- lm(0) to lm(127), then ln(0) to ln(127). -/
  lanes : List W32
  ledger : LedgerSlot
  rowsFailed : List Nat
  colsFailed : List Nat
  /-- Out-of-window elements, and the rows and columns that hold them (R231, R615). -/
  oow : Nat
  rowsOut : List Nat
  colsOut : List Nat
deriving DecidableEq, Repr, Inhabited

/-- A replay that runs (R239, R240). -/
structure Replay where
  chain : Nat
  trigger : Nat
  attempt : Nat
  first : Option DrainResult
  tile2 : Option Nat
  stamp : W64
  /-- Place in the order in which attempts began to wait (R240). -/
  since : Nat
deriving DecidableEq, Repr, Inhabited

/-- The matrix array and its output stage. -/
structure Array_ where
  params : SMap W64
  issued : Nat
  done : Nat
  stall : Nat
  poison : Nat
  queue : List MInstr
  /-- Signals that wait for earlier instructions (R177). -/
  signals : List MInstr
  /-- The hmma or hmacc that feeds. -/
  feed : Option MInstr
  /-- hmma and hmacc that have left the feed unit and travel through the array. -/
  flying : List MInstr
  /-- Accumulator words: key bank * 16384 + m * 128 + n (R168). -/
  words : SMap W32
  /-- Checksum column values lm(m): key bank * 128 + m; checksum row values ln(n) likewise (R233). -/
  laneM : SMap W32
  laneN : SMap W32
  chains : List Chain
  nextChain : Nat
  /-- Open chain of each bank in program order (R180). -/
  open0 : Option Nat
  open1 : Option Nat
  /-- Instructions of abandoned chains that run again when a replay has ended (R239). -/
  restart : List MInstr
  active : Option MInstr
  pending : Option MInstr
  /-- The active drain has passed its checks and holds its column vectors (R222). -/
  activeOk : Bool
  replay : Option Replay
  /-- An hmfence stalls the control core. -/
  fencing : Bool
  /-- The instruction that waits for an entry of the queue (R134). -/
  waiting : Option HeldInstr
deriving DecidableEq, Repr, Inhabited

/-- The array at launch (R184). -/
def Array_.zero : Array_ :=
  { params := [], issued := 0, done := 0, stall := 0, poison := 0, queue := [], signals := [], feed := none,
    flying := [], words := [], laneM := [], laneN := [], chains := [], nextChain := 0, open0 := none, open1 := none,
    restart := [], active := none, pending := none, activeOk := false, replay := none,
    fencing := false, waiting := none }

/-- TL_OS_LAST (R246). -/
structure OsLast where
  valid : Bool
  rows : Nat
  cols : Nat
  firstRow : Nat
  firstCol : Nat
  trigger : Nat
  outcome : Nat
deriving DecidableEq, Repr, Inhabited

/-- No failed drain. -/
def OsLast.zero : OsLast :=
  { valid := false, rows := 0, cols := 0, firstRow := 0, firstCol := 0, trigger := 0, outcome := 0 }

/-- A 64 B canal unit: its bytes and, for its two code words, whether each is poisoned. -/
structure CanalUnit where
  data : List Byte
  poison : List Bool
deriving DecidableEq, Repr, Inhabited

/-- An out-port (R252, R271, R272). -/
structure OutPort where
  credits : Nat
  slot : Nat
  transfer : Bool
  /-- The last unit of the slot has been read. -/
  readDone : Bool
  slots : Nat
  resent : Nat
  discarded : Nat
  /-- Credits on their way back (R255). -/
  creditsInFlight : Nat
  /-- Units of the slot in transfer that have left the port, and units read and not yet arrived. -/
  left : Nat
  flight : List CanalUnit
deriving DecidableEq, Repr, Inhabited

/-- An in-port. -/
structure InPort where
  slot : Nat
  transfer : Bool
  bytes : Nat
  /-- A unit waits on held bytes (R267). -/
  waitingHeld : Bool
  slots : Nat
  resent : Nat
  poisoned : Nat
  discarded : Nat
  /-- Slots abandoned under R267 since the canal was set up. -/
  abandoned : Nat
deriving DecidableEq, Repr, Inhabited

/-- An unbound out-port. -/
def OutPort.zero : OutPort :=
  { credits := 0, slot := 0, transfer := false, readDone := false, slots := 0, resent := 0, discarded := 0,
    creditsInFlight := 0, left := 0, flight := [] }

/-- An unbound in-port. -/
def InPort.zero : InPort :=
  { slot := 0, transfer := false, bytes := 0, waitingHeld := false, slots := 0, resent := 0, poisoned := 0,
    discarded := 0, abandoned := 0 }

/-- TL_STATE.STATE (R157). -/
inductive TileSt where
  | offline | idle | loading | running | draining | disabled | spare | audit | quarantined | exchanging | unowned
deriving DecidableEq, Repr, Inhabited

/-- TL_FAULT, TL_FAULT_PC and TL_FAULT_TVAL (R164). -/
structure TileFault where
  valid : Bool
  hart : Nat
  kind : Nat
  cause : Nat
  pc : W64
  tval : W64
deriving DecidableEq, Repr, Inhabited

/-- No fault recorded. -/
def TileFault.zero : TileFault := { valid := false, hart := 0, kind := 0, cause := 0, pc := 0, tval := 0 }

/-- The launch a tile serves (R152, R153). -/
structure TileLaunch where
  sq : Nat
  seq : W32
  limitUs : Nat
  phase : Nat
  heavy : Bool
  flush : Bool
  entry : Nat
  argOffset : Nat
  rank : Nat
  size : Nat
deriving DecidableEq, Repr, Inhabited

/-- How a tile's program has ended (R155). -/
structure TileEnd where
  /-- KIND, 0 for a normal end. -/
  kind : Nat
  cause : Nat
  code : Nat
  pc : W64
deriving DecidableEq, Repr, Inhabited

/-- Why an exchange is due or runs (R526). -/
inductive ExCause where
  | audit | quarantine
deriving DecidableEq, Repr, Inhabited

/-- What belongs to the physical tile (R551, R552). -/
structure PhysTile where
  die : Nat
  pos : Nat
  audLast : W64
  attempts : Nat
  peakC : Nat
  failPoint : Nat
  failPhase : Nat
  /-- Failing block or digest of the running audit (R541). -/
  failIndex : Nat
  belowBand : Bool
  priority : Bool
  overdue : Bool
  due : Bool
  result : Nat
  audDue : W64
  total : Nat
  /-- Lock Times of the charges within the window (R527, R528), oldest first. -/
  charges : List Nat
  colSampled : Nat
  colChecked : Nat
  stretched : Bool
  /-- Phase of a running audit: 0 none, 1 heat, 2 scan, 3 memory, 4 functional, 5 ended. -/
  auditPhase : Nat
  auditOrder : Option Nat
deriving DecidableEq, Repr, Inhabited

/-- One tile, under the index it holds. -/
structure Tile where
  phys : PhysTile
  st : TileSt
  launches : Nat
  cores : SMap TileCore
  sems : SMap Nat
  semOverflow : W64
  waiters : List Waiter
  seqTable : SMap (BitVec 128)
  /-- Stores of the control core to the sequence table while it is held (R151): entry half, value. -/
  seqWaiting : List (Nat × W64)
  vargs : SMap W64
  mover0 : Mover
  mover1 : Mover
  array : Array_
  ledger : SMap LedgerSlot
  checksFailed : Nat
  checked : Nat
  unrecovered : Nat
  reproduced : Nat
  second : Nat
  first : Nat
  last : OsLast
  out : SMap OutPort
  inp : SMap InPort
  fault : TileFault
  exitCode : W32
  launch : Option TileLaunch
  /-- The control core has executed the ECALL of a normal end and the tile waits (R155). -/
  endWait : Bool
  ended : Option TileEnd
  /-- Where its exchange goes: the spare index and the cause (R524, R526). -/
  exDue : Option ExCause
  exWith : Option Nat
  /-- Its cores are halted at a preemption point (R525). -/
  halted : Bool
  /-- State held before an exchange began. -/
  exPrev : TileSt
  /-- Writes of external requesters that wait on held bytes (R236). -/
  heldWrites : List (Nat × List Byte × Option RemoteWho)
  heavy : Bool
deriving DecidableEq, Repr, Inhabited

/-- The C-die that carries index t (R29, "Tile indices and spare tiles"). -/
def tileDie (t : Nat) : Nat := if t < 144 then t / 36 else (t - 144) / 4

/-- The grid position that the model gives index t before BIST assigns one (log entry 9). -/
def tilePos0 (t : Nat) : Nat := if t < 144 then t % 36 else 36 + (t - 144) % 4

/-- A physical tile after module cold reset. -/
def PhysTile.reset (die pos : Nat) : PhysTile :=
  { die := die, pos := pos, audLast := 0, attempts := 0, peakC := 0, failPoint := 0, failPhase := 0, failIndex := 0,
    belowBand := false, priority := false, overdue := false, due := false, result := 0, audDue := 0, total := 0,
    charges := [], colSampled := 0, colChecked := 0, stretched := false, auditPhase := 0, auditOrder := none }

/-- A tile after reset: offline, every register 0 (R157, R160, R163 to R166). -/
def Tile.resetWith (p : PhysTile) : Tile :=
  { phys := p, st := .offline, launches := 0, cores := [], sems := [], semOverflow := 0, waiters := [],
    seqTable := [], seqWaiting := [], vargs := [], mover0 := Mover.zero, mover1 := Mover.zero,
    array := Array_.zero, ledger := [], checksFailed := 0, checked := 0, unrecovered := 0, reproduced := 0,
    second := 0, first := 0, last := OsLast.zero, out := [], inp := [], fault := TileFault.zero, exitCode := 0,
    launch := none, endWait := false, ended := none, exDue := none, exWith := none, halted := false, exPrev := .offline,
    heldWrites := [], heavy := false }

/-- Index t after module cold reset. -/
def Tile.reset (t : Nat) : Tile := Tile.resetWith (PhysTile.reset (tileDie t) (tilePos0 t))

/-- A Collation sample (R532 to R534). -/
structure Sample where
  source : Nat
  checker : Nat
  arbiter : Option Nat
  chain : Chain
  /-- The captured result of the source drain, when it has completed. -/
  captured : Option DrainResult
  /-- The arbiter has been asked for: the first comparison did not match. -/
  disputed : Bool
  stamp : W64
  sq : Nat
  seq : W32
  outBase : Nat
  pound : Nat
deriving DecidableEq, Repr, Inhabited

end Sys2Proof.Machine
end

