-- ==== Sys2Proof/Machine/StateHost.lean ====
section
/-!
DEFINITION. Plain data of the host cores, the coherence homes, the Archive slices and the memory channels.
-/

namespace Sys2Proof.Machine

/-- A committed store that is not yet visible to other agents (R322). -/
structure StoreUnit where
  addr : Nat
  bytes : List Byte
  /-- The page was mapped as uncached memory (R327). -/
  nc : Bool
deriving DecidableEq, Repr, Inhabited

/-- An entry of the write-combining buffer (R330): a line, and its bytes that have been written. -/
structure WcEntry where
  line : Nat
  mask : BitVec 128
  data : LineData
deriving DecidableEq, Repr, Inhabited

/-- A line of an L2 (R345, R358, R372). -/
structure L2Line where
  st : LineState
  data : LineData
  poison : BitVec 4
  /-- Way of the L1I and of the L1D that holds the line. -/
  l1i : Option Nat
  l1d : Option Nat
  way : Nat
  /-- Filled by a prefetch of this detector and not yet used (R354). -/
  prefetched : Option Nat
deriving DecidableEq, Repr

/-- A dirty line in an L2's eviction buffer (R351). -/
structure EvictEntry where
  line : Nat
  st : LineState
  data : LineData
  poison : BitVec 4
deriving DecidableEq, Repr

/-- A stride detector of an L2 or of an Archive slice (R352 to R354). -/
structure Detector where
  key : Nat
  pound : Nat
  last : Nat
  stride : Int
  hits : Nat
  trained : Bool
  depth : Nat
  /-- Order of training: the least is replaced first. -/
  age : Nat
deriving DecidableEq, Repr, Inhabited

/-- A host core: what this manual gives it beside the RISC-V standards that R462 names. -/
structure HostCore where
  pc : W64
  mMode : Bool
  a0 : W64
  a1 : W64
  /-- The other integer registers, the floating-point registers, and fcsr (R16, R217). -/
  x : SMap W64
  f : SMap W64
  fcsr : Byte
  /-- The value that the last load, AMO, LR or SC returned. -/
  rd : BitVec 128
  /-- The exception that the last access raised: cause and tval. -/
  trap : Option (Nat × W64)
  storeBuf : List StoreUnit
  wc : List WcEntry
  /-- Granule of the reservation (R325). -/
  resv : Option Nat
  /-- The line is held against snoops (R326). -/
  lrHold : Bool
  depth : Nat
  clamped : Nat
  /-- Local interrupt 35 pending (R333). -/
  int35 : Bool
  /-- Hardware error exception due at the next instruction boundary (R371): mtval. -/
  hwError : Option W64
  lines : SMap L2Line
  evict : List EvictEntry
  plru : SMap Nat
  detectors : SMap Detector
  /-- Lines whose instruction bytes the hart has fetched since its last FENCE.I (R346). -/
  fetched : List Nat
deriving DecidableEq, Repr, Inhabited

/-- A host core after reset. -/
def HostCore.reset : HostCore :=
  { pc := 0, mMode := true, a0 := 0, a1 := 0, x := [], f := [], fcsr := 0, rd := 0, trap := none, storeBuf := [], wc := [], resv := none,
    lrHold := false, depth := 8, clamped := 0, int35 := false, hwError := none, lines := [], evict := [], plru := [],
    detectors := [], fetched := [] }

/-- Directory state (R359). -/
inductive DirState where
  | i | s | o | em
deriving DecidableEq, Repr, Inhabited

/-- A directory entry (R359). -/
structure DirEntry where
  st : DirState
  owner : Nat
  present : BitVec 96
deriving DecidableEq, Repr, Inhabited

/-- No copy anywhere. -/
def DirEntry.none : DirEntry := { st := .i, owner := 0, present := 0 }

/-- The messages of the protocol (R361). -/
inductive MsgKind where
  | rdShared | rdUnique | upgrade | zeroLine | cleanLine | flushLine | wbReq | rdPref | rdVol | wrPlain | wrPublish
  | wrFull | atomic | snpShared | snpUnique | snpInv | snpFlush | snpClean | snpRecall | snpCopy | comp | retry
  | grant | wbGo | wbCancel | noData | snpResp | compAck | dataResp | snpData | wbData
deriving DecidableEq, Repr, Inhabited

/-- A message that its sender has put on the die network (R360): agent numbers as R366, homes by their number; an answer
of a home carries the request it answers and the state it grants. -/
structure Msg where
  kind : MsgKind
  home : Nat
  agent : Nat
  line : Nat
  req : MsgKind
  st : LineState
  /-- Dies that it leaves and goes to (R20, R21). -/
  src : Nat
  dst : Nat
  /-- Its class and channel, numbered as the virtual channels of a Sirent link (R35, R360). -/
  vc : Nat
  /-- Words of its data that are poisoned because the answer was lost (R46). -/
  poison : BitVec 4
deriving DecidableEq, Repr

/-- What a write or an atomic at a home does with the line (R361, R363). -/
inductive HomeOp where
  | read
  | write (mask : BitVec 128) (data : LineData)
  | atomic (op : AmoOp) (addr : Nat) (size : Size) (value compare : BitVec 128)
deriving DecidableEq, Repr, Inhabited

/-- An open transaction of a home (R365). -/
structure Txn where
  kind : MsgKind
  agent : Nat
  op : HomeOp
  /-- Cores whose SnpResp has not arrived. -/
  waiting : List Nat
  needAck : Bool
  /-- The requester's CompAck has come before the last SnpResp (R365). -/
  acked : Bool
  /-- Dirty data was forwarded to the requester. -/
  dirty : Bool
  /-- The requester has received data that a snoop supplied. -/
  supplied : Bool
  /-- A request that has joined an open writeback (R369). -/
  joined : Option (MsgKind × Nat × HomeOp)
  /-- WbGo has been sent and its data has not arrived. -/
  waitWb : Bool
  /-- It waits for tokens of this pound (R388). -/
  tokens : Option Nat
  /-- State that its answer grants. -/
  granted : LineState
deriving DecidableEq, Repr

/-- An entry of a home's retry list (R367). -/
structure RetryEntry where
  kind : MsgKind
  agent : Nat
  line : Nat
  granted : Bool
deriving DecidableEq, Repr, Inhabited

/-- A home: the directory, the open transactions and the retry list (R359, R365, R367). -/
structure Home where
  dir : SMap DirEntry
  txns : SMap Txn
  retry : List RetryEntry
  retries : Nat
  backInval : Nat
  /-- Directory entries repaired from their good copy (R376). -/
  dirFixed : Nat
deriving DecidableEq, Repr, Inhabited

/-- A home with no line held. -/
def Home.zero : Home := { dir := [], txns := [], retry := [], retries := 0, backInval := 0, dirFixed := 0 }

/-- A new transaction for a request of an agent (R365). -/
def Txn.opened (kind : MsgKind) (agent : Nat) (op : HomeOp) (waiting : List Nat) : Txn :=
  { kind := kind, agent := agent, op := op, waiting := waiting, needAck := false, acked := false, dirty := false, supplied := false,
    joined := none, waitWb := false, tokens := none, granted := .i }

/-- A valid sector of an Archive cache way (R347): its way, whether it is dirty, the pound it was allocated for,
and whether a prefetch filled it and nothing has used it. -/
structure Sector where
  way : Nat
  dirty : Bool
  pound : Nat
  prefetched : Option Nat
deriving DecidableEq, Repr, Inhabited

/-- ARC_REG_STATE.STATE (R414). -/
inductive RegState where
  | notLoaded | active | recovery
deriving DecidableEq, Repr, Inhabited

/-- An Archive slice: cache metadata by line, its eviction buffer, errors, buckets, detectors (R347 to R390). -/
structure Slice where
  sectors : SMap Sector
  plru : SMap Nat
  evict : List Nat
  /-- Times of the last errors of each way (R374). -/
  wayErrs : SMap (List Nat)
  pfDepth : SMap Nat
  pfClamped : SMap Nat
  pfUsed : Nat
  pfIssued : Nat
  detectors : SMap Detector
  st : RegState
  rdTokens : SMap Int
  wrTokens : SMap Int
  rdWait : SMap Nat
  wrWait : SMap Nat
  /-- Reads and writes that wait for tokens in the current tick, by pound. -/
  rdWaiting : SMap Nat
  wrWaiting : SMap Nat
  /-- Pounds of which an engine's read or write has waited for tokens in the current tick (R388, R414). -/
  rdHeld : List Nat
  wrHeld : List Nat
  /-- Expansion buffers: 4 KiB granules held (R406). -/
  expand : List Nat
  expHits : Nat
  expansions : Nat
  /-- Reference time in ps at which RECOVERY ends (R390). -/
  recoverAt : Option Nat
deriving DecidableEq, Repr, Inhabited

/-- A slice after reset. -/
def Slice.zero : Slice :=
  { sectors := [], plru := [], evict := [], wayErrs := [], pfDepth := [], pfClamped := [], pfUsed := 0, pfIssued := 0,
    detectors := [], st := .notLoaded, rdTokens := [], wrTokens := [], rdWait := [], wrWait := [], rdWaiting := [],
    wrWaiting := [], rdHeld := [], wrHeld := [], expand := [], expHits := 0, expansions := 0, recoverAt := none }

/-- A memory channel, HBM or LP-DRAM (R398, R412, R413, R415). -/
structure Channel where
  mapped : Bool
  trained : Bool
  health : Nat
  poisonReads : Nat
  detected : Nat
  uncorrected : Nat
  corrected : Nat
  trains : Nat
  fails : Nat
  consec : Nat
  trainAt : W64
  /-- Lock Times of detections and corrections within the windows of R398, oldest first. -/
  detTimes : List Nat
  corTimes : List Nat
  /-- A retraining window runs (R397): its order's AT. -/
  training : Option Nat
deriving DecidableEq, Repr, Inhabited

/-- A channel after reset. -/
def Channel.zero : Channel :=
  { mapped := false, trained := false, health := 0, poisonReads := 0, detected := 0, uncorrected := 0, corrected := 0,
    trains := 0, fails := 0, consec := 0, trainAt := 0, detTimes := [], corTimes := [], training := none }

/-- Inbound read-ahead lines of a root port or RoCE engine (R341). Buffer 0-3 the ports, 4-5 the engines. -/
structure ReadAhead where
  line : Nat
  data : LineData
  poison : BitVec 4
  /-- A plain write to the line has been performed since. -/
  stale : Bool
deriving DecidableEq, Repr, Inhabited

end Sys2Proof.Machine
end

