-- ==== Sys2Proof/Machine/StateQueue.lean ====
section
/-!
DEFINITION. Plain data of the queues and command processors, the Nyulle fabric and its collectives, and host I/O.
-/

namespace Sys2Proof.Machine

/-- Submission queue STATE (R280). -/
inductive SqState where
  | disabled | running | draining | stopped | held
deriving DecidableEq, Repr, Inhabited

/-- What a started command still has to do. -/
inductive CmdPhase where
  /-- Fetched, not started (R286). -/
  | fetched
  /-- Started; its effects are under way. -/
  | started
  /-- Has completed with this status and details; its entry is to be written (R296). -/
  | completed (status : Nat) (flags : Nat) (d0 d1 : W64)
deriving DecidableEq, Repr, Inhabited

/-- A command that has been fetched (R284, R285). -/
structure Cmd where
  seq : W32
  bytes : List Byte
  phase : CmdPhase
  /-- Reference time of its start in ps; Lock Time for WAIT_TIME is in the command. -/
  startPs : Nat
  /-- A launch has taken its tiles (R153). -/
  tiles : List Nat
  /-- Highest-ranking result-check status of the launch (R297) and the tile. -/
  check : Nat
  checkTile : Nat
  /-- What its copy engine moves. -/
  xf : Xfer
  /-- Exchanges carried out by a SAFE_POINT (R294). -/
  count : Nat
  /-- Seen last by a SEM_WAIT (R292), or a pending completion time. -/
  seen : W64
deriving DecidableEq, Repr, Inhabited

/-- A submission queue (R280). -/
structure Sq where
  base : W64
  log2 : Nat
  st : SqState
  csv : Nat
  phase : Nat
  cq : Nat
  pasid : Nat
  tail : W32
  head : W32
  fetched : W32
  started : W32
  completed : W32
  fenceSeq : W32
  refused : Nat
  error : Nat
  cmds : List Cmd
  /-- Commands aborted during the drain (R298), and TAIL at DISABLE. -/
  aborted : Nat
deriving DecidableEq, Repr, Inhabited

/-- A queue whose context is zero (R283). -/
def Sq.zero : Sq :=
  { base := 0, log2 := 0, st := .disabled, csv := 0, phase := 0, cq := 0, pasid := 0, tail := 0, head := 0,
    fetched := 0, started := 0, completed := 0, fenceSeq := 0, refused := 0, error := 0, cmds := [],
    aborted := 0 }

/-- A completion entry to be written (R295), without NSEQ, SQ_FETCHED and STAMP, which it takes when written. -/
structure Entry where
  seq : W32
  tag : W32
  status : Nat
  flags : Nat
  sq : W32
  d0 : W64
  d1 : W64
  /-- It holds a reservation taken at fetch or ENABLE (R299). -/
  reserved : Bool
deriving DecidableEq, Repr, Inhabited

/-- Completion queue STATE (R282). -/
inductive CqState where
  | disabled | enabled | faulted
deriving DecidableEq, Repr, Inhabited

/-- A completion queue (R282). -/
structure Cq where
  base : W64
  log2 : Nat
  st : CqState
  irq : Nat
  pasid : Nat
  ackAddr : W64
  lastWritten : W32
  lastAck : W32
  reserved : Nat
  bound : Nat
  msiAddr : W64
  msiData : W32
  coalesce : Nat
  error : Nat
  /-- Entries ready to be written, in order; those held while FAULTED (R302). -/
  pend : List Entry
  /-- An interrupt is due for the batch that began with the first entry since the last (R301). -/
  msiDue : Bool
  /-- Acknowledgement values already recorded as invalid (R300), and the fault record of this ENABLE (R302). -/
  badAcks : List W64
  ackFault : Bool
deriving DecidableEq, Repr, Inhabited

/-- A queue whose context is zero (R283). -/
def Cq.zero : Cq :=
  { base := 0, log2 := 0, st := .disabled, irq := 0, pasid := 0, ackAddr := 0, lastWritten := 0, lastAck := 0,
    reserved := 0, bound := 0, msiAddr := 0, msiData := 0, coalesce := 0, error := 0, pend := [], msiDue := false,
    badAcks := [], ackFault := false }

/-- A pound's window in one command processor (R314, R315). -/
structure CpWindow where
  cq : Bool
  queue : Nat
  /-- Snapshot: the 64 B of the context latched (R311). -/
  snap : List Byte
  status : Nat
deriving DecidableEq, Repr, Inhabited

/-- Nothing selected. -/
def CpWindow.zero : CpWindow := { cq := false, queue := 0, snap := [], status := 0 }

/-! ## Nyulle (R416 to R461) -/

/-- NYL_STATUS.STATE (R458). -/
inductive NylState where
  | down | training | discovery | up | retrying | draining | disabled | failed | mismatch | noCommon
deriving DecidableEq, Repr, Inhabited

/-- A message of the fabric (R441, R454): its body, the VC and its payload. -/
structure NylMsg where
  vc : Nat
  body : List Byte
  data : List Byte
  /-- Poison of each 32 B word of the payload (R445). -/
  poison : List Bool
  /-- Link it arrived on, for transit (R438); none when it originates here. -/
  inbound : Option Nat
  /-- The pound whose route table it uses (R436). -/
  pound : Option Nat
deriving DecidableEq, Repr, Inhabited

/-- A Nyulle link. -/
structure NylLink where
  st : NylState
  version : Nat
  peerVersions : Nat
  partnerLink : Nat
  partnerModule : Nat
  partnerSerial : W64
  gotIdentity : Bool
  sentSelect : Bool
  gotSelect : Bool
  consecFail : Nat
  retries : Nat
  errFlits : Nat
  lost : Nat
  stale : Nat
  downs : Nat
  delayNs : Nat
  txSeq : Nat
  rxSeq : Nat
  discarding : Bool
  asked : Option Nat
  unacked : Nat
  credits : List Nat
  freed : List Nat
  queue : List NylMsg
  retryBuf : List (Nat × NylMsg)
  /-- Flits sent, oldest first: the code word that each puts on lane 0 and on lane 1 (R417). -/
  wire : List (BitVec 288 × BitVec 288)
  lastTSend : W64
  lastTRecv : Nat
  /-- Reference times in ps of failures within 3,600 s (R433). -/
  failures : List Nat
  stuck : Bool
deriving DecidableEq, Repr, Inhabited

/-- A link after reset. -/
def NylLink.zero : NylLink :=
  { st := .down, version := 0, peerVersions := 0, partnerLink := 0, partnerModule := 0, partnerSerial := 0,
    gotIdentity := false, sentSelect := false, gotSelect := false, consecFail := 0, retries := 0, errFlits := 0,
    lost := 0, stale := 0, downs := 0, delayNs := 0, txSeq := 0, rxSeq := 0, discarding := false, asked := none,
    unacked := 0, credits := List.replicate 6 0, freed := List.replicate 6 0, queue := [], retryBuf := [], wire := [],
    lastTSend := 0, lastTRecv := 0, failures := [], stuck := false }

/-- A remote request whose response has not arrived (R444). -/
structure Remote where
  who : RemoteWho
  gaddr : W64
  /-- Link it left over. -/
  link : Option Nat
  op : Nat
  len : Nat
  /-- Address that its engine named. -/
  va : Nat
  /-- The link it left over has been lost (R433). -/
  lost : Bool
  /-- Physical address that a READ's data goes to; none for a value or a packed group that its engine waits for. -/
  dst : Option Nat
  /-- Position of the bytes in a packed group. -/
  pos : Nat
  publish : Bool
deriving DecidableEq, Repr, Inhabited

/-- A collective that runs (R448 to R456). -/
structure Coll where
  sq : Nat
  seq : W32
  die : Nat
  pound : Nat
  pasid : Nat
  kind : Nat
  bf16 : Bool
  wire : Bool
  clear : Bool
  src : Nat
  dst : Nat
  count : Nat
  groupId : W32
  inst : W32
  root : Nat
  stage : Nat
  residual : Nat
  members : List Nat
  rank : Nat
  hash : W64
  /-- Pieces sent and acknowledged; pieces received that the engine has not consumed; pieces consumed. -/
  sent : Nat
  acked : Nat
  received : List Nat
  consumed : Nat
  /-- A link that carried its messages has been lost (R433). -/
  failed : Option Nat
deriving DecidableEq, Repr, Inhabited

/-! ## Host I/O (R462 to R487) -/

/-- HIO_PORT_STATUS.STATE (R486). -/
inductive PortState where
  | down | training | up | retraining | contained
deriving DecidableEq, Repr, Inhabited

/-- A non-posted request that the module has sent to a port (R473): its address, the address that its requester named,
its size, the host core or engine, where the data goes, and how a load extends it. -/
structure PortReq where
  tag : Nat
  addr : Nat
  va : Nat
  len : Nat
  core : Option Nat
  who : Option RemoteWho
  dst : Option Nat
  /-- The PUBLISH bit that a write of the data goes under (R336). -/
  publish : Bool
deriving DecidableEq, Repr, Inhabited

/-- A PCIe root port. -/
structure Port where
  st : PortState
  cxl : Bool
  speed : Nat
  width : Nat
  dropped : Nat
  linkDowns : Nat
  retrains : Nat
  /-- Posted writes held in the port: address and bytes, and the command that wrote them (R482). -/
  posted : List (Nat × List Byte × Option RemoteWho)
  reqs : List PortReq
  nextTag : Nat
  perstLow : Bool
  refclk : Bool
  /-- The last completion the port gave to an inbound request: status, data, poison (R24, R471). -/
  reply : Option (PcieStatus × List Byte × Bool)
  /-- Requests forwarded to this port by peer routing (R471). -/
  forwarded : List Nat
  /-- HDM decoders of R466: base and size. -/
  hdm : List (Nat × Nat)
deriving DecidableEq, Repr, Inhabited

/-- A port after reset. -/
def Port.zero : Port :=
  { st := .down, cxl := false, speed := 0, width := 0, dropped := 0, linkDowns := 0, retrains := 0, posted := [],
    reqs := [], nextTag := 0, perstLow := true, refclk := false, reply := none, forwarded := [], hdm := [] }

/-- A port starts to train: its reference clock runs, and it releases PERST (R591). -/
def Port.train (x : Port) : Port := { x with st := .training, perstLow := false, refclk := true }

/-- A port has 768 non-posted requests outstanding, and takes no more (R465). -/
def Port.full (x : Port) : Bool := 768 ≤ x.reqs.length

/-- The tag of the next request: the first of the 1,024 from the last one's on that no request holds (R465; log entry 31). -/
def Port.freeTag (x : Port) : Nat :=
  (((List.range 1024).map (fun i => (x.nextTag + i) % 1024)).find? (fun t => !x.reqs.any (fun r => r.tag = t))).getD 0

/-- A port takes a request under a tag of its own. -/
def Port.request (x : Port) (r : PortReq) : Port :=
  { x with reqs := x.reqs ++ [{ r with tag := x.freeTag }], nextTag := (x.freeTag + 1) % 1024 }

/-- A queue pair as its engine keeps it (R475 to R479). -/
structure Qp where
  ctx : List Byte
  loaded : Bool
  st : Nat
  sProd : Nat
  sCons : Nat
  rProd : Nat
  rCons : Nat
  cCons : Nat
  cseq : W32
  psn : Nat
  /-- Send entries taken and not completed, oldest first. -/
  inflight : List (List Byte)
  retry : Nat
  rnr : Nat
  /-- An RNR NAK has come, and its retry has not. -/
  rnrWait : Bool
  /-- Rate in 1/16 of line rate; halvings may leave fractions, held times 65,536. -/
  rate : Nat
  lastCnp : Option Nat
  /-- Data the engine has sent, last first: OP and bytes. -/
  sent : List (Nat × List Byte)
  /-- Last answer to an inbound request: 0 none, 1 ACK, 2 RNR NAK, 3 remote access NAK, 4 read response; and data. -/
  answer : Nat
  answerData : List Byte
deriving DecidableEq, Repr, Inhabited

/-- A queue pair in RESET. -/
def Qp.zero : Qp :=
  { ctx := [], loaded := false, st := 0, sProd := 0, sCons := 0, rProd := 0, rCons := 0, cCons := 0, cseq := 0,
    psn := 0, inflight := [], retry := 0, rnr := 0, rnrWait := false, rate := 1048576, lastCnp := none, sent := [], answer := 0,
    answerData := [] }

/-- An 800GbE port with its RoCE engine. -/
structure Eth where
  up : Bool
  fault : Bool
  fecUncorr : Nat
  fcsErr : Nat
  qptBase : BitVec 44
  qptLog2 : BitVec 5
  mrtBase : BitVec 44
  mrtLog2 : BitVec 5
  qps : SMap Qp
deriving DecidableEq, Repr, Inhabited

/-- A port after reset. -/
def Eth.zero : Eth :=
  { up := false, fault := false, fecUncorr := 0, fcsErr := 0, qptBase := 0, qptLog2 := 0, mrtBase := 0, mrtLog2 := 0,
    qps := [] }

/-- A cached translation (R470): device ID, PASID (2^20 for none), virtual page, physical page, whether it grants
writes, and the GSCID and PSCID that tag it. -/
structure Xlat where
  dev : Nat
  pasid : Nat
  vpage : Nat
  ppage : Nat
  writes : Bool
  gscid : Nat
  pscid : Nat
  /-- It came through an MSI page table. -/
  msi : Bool
deriving DecidableEq, Repr, Inhabited

/-- The IOMMU: its registers as 32-bit words by offset, and the translation caches, newest entry last: 0-159 the
tiles', 160-175 the command processors', 176 its own (R467 to R470). -/
structure Iommu where
  regs : SMap W32
  cache : SMap (List Xlat)
  fences : Nat
deriving DecidableEq, Repr, Inhabited

/-- IMSIC pending identities by file (M-level file of hart h: h; S-level and guest file g of hart h: 4096 + 16h + g),
the APLIC's registers as 32-bit words by offset from its M domain, its pending sources, and the levels of its wires
(R463, R464). -/
structure Aia where
  pend : SMap (List Nat)
  regs : SMap W32
  aplic : BitVec 64
  wires : BitVec 64
deriving DecidableEq, Repr, Inhabited

end Sys2Proof.Machine
end

