-- ==== Sys2Proof/Machine/State.lean ====
section
/-!
DEFINITION. The state of the module, its state after module cold reset, and the reasons a command may stop.
-/

namespace Sys2Proof.Machine

/-- Reasons a command may fault. -/
inductive Fault where
  /-- Raised by `step` for a command whose operands are not well formed (`Instr.wellFormed`). Safe: it is no command
  of the module. -/
  | illFormed
deriving DecidableEq, Repr

/-- Reasons a command may be refused. -/
inductive Refusal where
  /-- Raised by an arm of `exec` whose command has no meaning yet; no arm raises it. Safe. -/
  | notModelled (mnemonic : String)
deriving DecidableEq, Repr

/-- Memory: bytes that are not 0 at rising addresses, and the 32 B code words that are poisoned (R372), by number. -/
structure Mem where
  cells : List Host.Cell
  poison : SMap Bool
deriving DecidableEq, Repr

/-- Everything on the package beside memory, fuses and the waiting commands. -/
structure Chip where
  /-- Number of free values taken so far (the model's own). -/
  free : Nat
  /-- Time of the 100 MHz module reference since module cold reset, in ps. -/
  refPs : Nat
  flash : Flash
  boot : Boot
  cht : ChtUnit
  pounds : SMap Pound
  time : TimeUnit
  rolls : Rolls
  pwr : Power
  srt : SMap SrtLink
  tiles : SMap Tile
  samples : List Sample
  cores : SMap HostCore
  homes : SMap Home
  slices : SMap Slice
  hbm : SMap Channel
  lpd : SMap Channel
  /-- Size codes of compressed HBM granules (R406). -/
  sizeCodes : SMap Nat
  /-- The units that HBM holds for each compressed granule (R407). -/
  units : SMap (List Byte)
  net : List Msg
  sqs : SMap Sq
  cqs : SMap Cq
  cpWins : SMap CpWindow
  cps : SMap Nat
  nyl : SMap NylLink
  remotes : SMap Remote
  nextTag : Nat
  colls : List Coll
  /-- Collective pieces that came before their COLLECTIVE has started (R455). -/
  early : List NylMsg
  ports : SMap Port
  eths : SMap Eth
  iommu : Iommu
  aia : Aia
  readAhead : SMap (List ReadAhead)
  mgmt : Mgmt
deriving DecidableEq, Repr

/-- The state of the module: the chip, memory, fuses, and the commands that wait, first in, first out. -/
structure State where
  chip : Chip
  mem : Mem
  fuse : Fuse
  pending : List Instr
deriving DecidableEq, Repr

/-- Memory with every byte 0 (log entry 1). -/
def Mem.empty : Mem := { cells := [], poison := [] }

/-- An empty persistent summary. -/
def Summary.empty : Summary :=
  { records := [], linkExcluded := 0, dieExcluded := 0, waysDisabled := [], hbmHealth := [], lpdHealth := [] }

/-- The fuses of the modelled module (log entry 4). -/
def Fuse.reset : Fuse :=
  { serial := 0x9600, rev := [0, 0, 0, 0, 0, 0], vfMhz := [], vfMv := [], heavyMv := [], rollback := [], chain := [] }

/-- Management flash of a module that has accepted no charter (log entry 4). -/
def Flash.reset : Flash := { slot0 := [], slot1 := [], summary := Summary.empty, firmware := [] }

/-- The charter unit after module cold reset (R93 to R98, R614). -/
def ChtUnit.reset : ChtUnit :=
  { loadAddr := 0, loadLen := 0, error := 0, late := false, booted := false, verifying := none, staged := none,
    active := none, activeImage := [], parts := [], restarting := [], deferred := [], mapNow := 0, scrubs := [] }

/-- Lock Time after module cold reset (R614): ACQUIRING, HOPS 0xF, SRC_EN LOCK_PPS and Nyulle. -/
def TimeUnit.reset : TimeUnit :=
  { nowPs := 0, st := .acquiring, source := 0, hops := 15, steps := 0, late := false, lostSeen := false,
    srcEn := 0b101, ptpPorts := 0, ptpDomain := 0, epochOffset := 0, good := 0, ppsEdge := none, ppsValid := false,
    tod := none, ptp := [], ptpUse := 0, nyl := [], parent := none, lockedAt := 0, t0 := none, orders := [], accepted := 0, regs := [] }

/-- Fault Rolls after module cold or uncore warm reset (R614). -/
def Rolls.reset : Rolls :=
  { base := 0, log2 := 0, enable := false, owner := 0xFF, seq := 0, seqReg := 0, head := 0, tail := 0, lost := 0, suppressed := 0,
    sumWritten := 0, sumSuppressed := 0, buffer := [], lostRun := 0, deny := [], afterUse := [], mismatch := [],
    skipped := [], sampled := [], matched := [], auditFailed := [], auditForced := [], auditPassed := [],
    rateOwner := [], rateFabric := 0, rateRemote := 0, rateSummary := 0 }

/-- Power after module cold reset (R504, R614). -/
def Power.reset : Power :=
  { level := 0, levelSet := false, demandW := 0, measOnly := false, mode := .normal, floor := 0, slew := 10, capW := 3000, voltMv := 0,
    estW := 0, measW := 0, energyMj := 0, ballastMj := 0, ovr2 := 0, ovr3 := 0, ovr4 := 0, ovr5 := 0, ovr6 := 0,
    breach := 0, distrust := 0, trip := 0, throttle := 0, brake := 0, alert := 0, current := 0, lateCnt := 0,
    rail := 0xFFFF_FFFF_FFFF_FFFF, pounds := [], dies := [], coreMhz := [], divided := false, alerts := [],
    brakeLow := false, offMs := 0, onMs := 0, ballastOn := false, capOrder := none }

/-- The Catalogue and pins after module cold reset, before bring-up step 1 starts (R553, R594). -/
def Boot.reset : Boot :=
  { step := 0, uncorePhase1 := false, waits := 0, faultN := false, powered := true, resetLow := false, refOk := true,
    warmLow := false, addrSel := 0, i3cAddr := 0x30, eid := 0, host0 := false, lockkeeper := false, standby := false,
    standbyActive := false, power := false, uncoreH0 := false, uncoreH1 := false, iommu := false, scratch := false,
    hbmWindow := false, settled := 0, fabric := 0, cp := 0, hart := 0, lpd := 0, lpdTried := 0, arc := 0,
    arcSettled := false, hbm := 0, bist := [], assigned := 0, hartCtl := [], srtExcluded := 0, dieExcluded := 0,
    fwVerified := 0, fwFailed := false, scratchSlices := 0, heavyRun := false, cacheLost := false }

/-- Channels whose health the summary holds (R398). -/
def healthOf (h : SMap Nat) : SMap Channel := h.map (fun e => (e.1, { Channel.zero with health := e.2 }))

/-- The chip after module cold reset; management flash and the pins' straps are kept (R567). -/
def Chip.resetWith (fl : Flash) (sel : BitVec 3) : Chip :=
  { free := 0, refPs := 0, flash := fl,
    boot := { Boot.reset with
      addrSel := sel
      i3cAddr := 0x30 + sel.setWidth 7
      srtExcluded := fl.summary.linkExcluded
      dieExcluded := fl.summary.dieExcluded },
    cht := ChtUnit.reset, pounds := [], time := TimeUnit.reset, rolls := Rolls.reset, pwr := Power.reset, srt := [],
    tiles := [], samples := [], cores := [], homes := [], slices := [], hbm := healthOf fl.summary.hbmHealth,
    lpd := healthOf fl.summary.lpdHealth, sizeCodes := [], units := [], net := [],
    sqs := [], cqs := [], cpWins := [], cps := [], nyl := [], remotes := [], nextTag := 0, colls := [], early := [], ports := [],
    eths := [], iommu := { regs := [], cache := [], fences := 0 }, aia := { pend := [], regs := [], aplic := 0, wires := 0 },
    readAhead := [], mgmt := { code := 0, data := [], versionSeen := false, capsSeen := false, negotiated := false } }

/-- The module right after module cold reset, before bring-up: no command waits. -/
def State.reset : State :=
  { chip := Chip.resetWith Flash.reset 0, mem := Mem.empty, fuse := Fuse.reset, pending := [] }

end Sys2Proof.Machine
end

