-- ==== Sys2Proof/Machine/Memory.lean ====
section
/-!
DEFINITION. Memory operations, and the workbench of a command: what a command changes on the chip, and the writes to
memory it makes, in order. A command's writes reach memory only through `Mem.perform`.
-/

namespace Sys2Proof.Machine

/-- A write to memory. -/
inductive Wr where
  /-- Bytes from an address upward; a 32 B code word written whole loses its poison, one written in part keeps it
  (R372). -/
  | bytes (addr : Nat) (bs : List Byte)
  /-- Zeros over n bytes (R91, R92, R142). -/
  | zero (addr n : Nat)
  /-- n bytes and their poison from src to dst, both multiples of 32 (R524). -/
  | copy (src dst n : Nat)
  /-- Mark code word number cw poisoned (R372, R393). -/
  | poison (cw : Nat)
deriving DecidableEq, Repr

/-- The byte at an address; an unlisted address reads 0 (log entry 1). -/
def Mem.read1 (m : Mem) (a : Nat) : Byte := SMap.get 0 m.cells a

/-- n bytes from an address. -/
def Mem.read (m : Mem) (a : Nat) : Nat → List Byte
  | 0 => []
  | n + 1 => m.read1 a :: Mem.read m (a + 1) n

/-- Code word number cw is poisoned. -/
def Mem.poisoned (m : Mem) (cw : Nat) : Bool := SMap.get false m.poison cw

/-- Some code word of the range is poisoned. -/
def Mem.poisonedIn (m : Mem) (a n : Nat) : Bool := m.poison.any (fun e => e.2 && a < (e.1 + 1) * 32 && e.1 * 32 < a + n)

/-- The first poisoned code word of the range. -/
def Mem.firstPoison (m : Mem) (a n : Nat) : Option Nat :=
  (m.poison.find? (fun e => e.2 && decide (a < (e.1 + 1) * 32) && decide (e.1 * 32 < a + n))).map (·.1)

/-- Store bytes upward from an address. -/
def storeBytes : SMap Byte → Nat → List Byte → SMap Byte
  | m, _, [] => m
  | m, a, b :: bs => storeBytes (SMap.set 0 m a b) (a + 1) bs

/-- Clear the poison of the code words that lie wholly in a range. -/
def clearPoison (p : SMap Bool) (a n : Nat) : SMap Bool := p.filter (fun e => !(a ≤ e.1 * 32 && (e.1 + 1) * 32 ≤ a + n))

/-- The entries of a map from a range of keys moved by an offset and set into another map. -/
def moveRange {α : Type} [DecidableEq α] (d : α) (m : SMap α) (src dst n : Nat) : SMap α :=
  (m.filter (fun e => src ≤ e.1 && e.1 < src + n)).foldl (fun a e => SMap.set d a (e.1 - src + dst) e.2)
    (m.filter (fun e => !(dst ≤ e.1 && e.1 < dst + n)))

/-- Perform one write. -/
def Mem.perform1 (m : Mem) : Wr → Mem
  | .bytes a bs => { cells := storeBytes m.cells a bs, poison := clearPoison m.poison a bs.length }
  | .zero a n => { cells := m.cells.filter (fun e => !(a ≤ e.1 && e.1 < a + n)), poison := clearPoison m.poison a n }
  | .copy src dst n =>
    ⟨moveRange 0 m.cells src dst n, moveRange false m.poison (src / 32) (dst / 32) (n / 32)⟩
  | .poison cw => { m with poison := SMap.set false m.poison cw true }

/-- Perform writes in order. -/
def Mem.perform (m : Mem) (ws : List Wr) : Mem := ws.foldl Mem.perform1 m

/-- Keys strictly rising and no entry equal to the default. -/
def canonical {α : Type} [DecidableEq α] (d : α) : SMap α → Bool
  | [] => true
  | [(_, v)] => v ≠ d
  | (j, v) :: (k, u) :: m => v ≠ d && decide (j < k) && canonical d ((k, u) :: m)

/-- Memory is in its canonical form. -/
def Mem.wf (m : Mem) : Bool := canonical 0 m.cells && canonical false m.poison

/-- What a command works on: the chip, memory as it was, the fuses, and the writes it has made so far. -/
structure Work where
  chip : Chip
  base : Mem
  fuse : Fuse
  wr : List Wr
deriving Repr

/-- The workbench of a state. -/
def Work.of (s : State) : Work := { chip := s.chip, base := s.mem, fuse := s.fuse, wr := [] }

/-- Memory as the command sees it. -/
def Work.mem (w : Work) : Mem := w.base.perform w.wr

/-- The outcome of a command that runs f on the workbench: a next state. -/
def lift (f : Work → Work) (s : State) : Host.Outcome State Fault Refusal :=
  .next { s with chip := (f (Work.of s)).chip, mem := s.mem.perform (f (Work.of s)).wr }

/-- As `lift`, for a command that is well formed; a fault for one that is not. -/
def liftIf (ok : Bool) (f : Work → Work) (s : State) : Host.Outcome State Fault Refusal :=
  if ok then lift f s else .fault .illFormed

/-- Apply f when the condition holds. -/
def Work.when (w : Work) (c : Bool) (f : Work → Work) : Work := if c then f w else w

/-- Apply f for each element of a list, in order. -/
def Work.each {β : Type} (w : Work) (l : List β) (f : Work → β → Work) : Work := l.foldl f w

/-- Add a write. -/
def Work.put (w : Work) (x : Wr) : Work := { w with wr := w.wr ++ [x] }

/-- The next free value's number, and the workbench that has taken it. -/
def Work.take (w : Work) : Nat × Work := (w.chip.free, { w with chip.free := w.chip.free + 1 })

end Sys2Proof.Machine
end

