-- ==== Sys2Proof/Machine/Codes.lean ====
section
/-!
DEFINITION. The codes of the module: CRC-32 of a Fault Rolls record (R543), CRC-8 of a Sirent header (R35), the shared
Reed-Solomon code (R391 to R393), and FNV-1a (R454).
-/

namespace Sys2Proof.Machine

/-- One bit of the reflected CRC-32 of IEEE 802.3. -/
def crc32Bit (c : W32) : W32 := if c.getLsbD 0 then (c >>> 1) ^^^ 0xEDB88320#32 else c >>> 1

/-- CRC-32 with one byte more. -/
def crc32Byte (c : W32) (b : Byte) : W32 := (List.range 8).foldl (fun a _ => crc32Bit a) (c ^^^ b.setWidth 32)

/-- CRC-32 of bytes, IEEE 802.3 (R543; log entry 13). -/
def crc32 (bs : List Byte) : W32 := (bs.foldl crc32Byte 0xFFFF_FFFF#32) ^^^ 0xFFFF_FFFF#32

/-- CRC-8 with generator x^8 + x^2 + x + 1 and initial value 0 over header bits 23:0, the highest bit first
(R35; log entry 13). -/
def crc8 (h : BitVec 24) : Byte :=
  (List.range 24).foldl (fun (c : Byte) i =>
    let top := c.getLsbD 7 ^^ h.getLsbD (23 - i)
    let c := c <<< 1
    if top then c ^^^ 0x07 else c) 0

/-- Multiplication by α = 0x02 in GF(2^8) with x^8 + x^4 + x^3 + x^2 + 1 (R391). -/
def gfX (a : Byte) : Byte := if a.getLsbD 7 then (a <<< 1) ^^^ 0x1D else a <<< 1

/-- Multiplication in GF(2^8). -/
def gfMul (a b : Byte) : Byte :=
  ((List.range 8).foldl (fun (s : Byte × Byte) i => (if b.getLsbD i then s.1 ^^^ s.2 else s.1, gfX s.2)) (0, a)).1

/-- α^k. -/
def gfPow : Nat → Byte
  | 0 => 1
  | k + 1 => gfX (gfPow k)

/-- Coefficients of (x - 1)(x - α)(x - α²)(x - α³), lowest first, without the leading 1 (R391). -/
def rsGen : List Byte :=
  let mulRoot (p : List Byte) (r : Byte) : List Byte :=
    List.zipWith (· ^^^ ·) (0 :: p) ((p.map (gfMul r)) ++ [0])
  ((List.range 4).foldl (fun p k => mulRoot p (gfPow k)) [1]).take 4

/-- Check symbols c(0) to c(3) of the 32 data bytes of a word, symbol c(4 + i) being byte i (R391). -/
def rsChecks (bs : List Byte) : List Byte :=
  bs.reverse.foldl (fun (r : List Byte) b =>
    let t := b ^^^ (r.getD 3 0)
    List.zipWith (fun x g => x ^^^ gfMul t g) (0 :: r.take 3) rsGen) [0, 0, 0, 0]

/-- The check bits of a word: c(j) in bits 8j + 7 to 8j. -/
def rsCheck (bs : List Byte) : W32 := BitVec.ofNat 32 (leNat (rsChecks bs))

/-- The poison pattern of the check symbols (R393). -/
def poisonPattern : List Byte := [0x9D, 0x6C, 0x3B, 0xA5]

/-- Syndromes of an error pattern: pairs of symbol and value (R391). -/
def syndromes (errs : List (Nat × Byte)) : List Byte :=
  (List.range 4).map (fun j => errs.foldl (fun a e => a ^^^ gfMul e.2 (gfPow (j * e.1 % 255))) 0)

/-- What decoding a word yields (R392, R393). -/
inductive Decoded where
  | good | corrected (delta : List (Nat × Byte)) | detected | poisoned
deriving DecidableEq, Repr

/-- Decode a word whose stored symbols differ from a valid word by `errs`, and which is stored poisoned or not: the
outcome is a fixed function of the pattern (R392). The result's delta is what the returned data bytes differ by. -/
def rsDecode (correcting : Bool) (errs : List (Nat × Byte)) (isPoison : Bool) : Decoded :=
  let pat := (List.range 4).map (fun j => (j, poisonPattern.getD j 0))
  let s := syndromes (if isPoison then errs ++ pat else errs)
  if s = [0, 0, 0, 0] then .good
  else if s = syndromes pat then .poisoned
  else if correcting then
    match (List.range 36).find? (fun k =>
        s.getD 0 0 ≠ 0 && s = (List.range 4).map (fun j => gfMul (s.getD 0 0) (gfPow (j * k % 255)))) with
    | some k => .corrected (((k, s.getD 0 0) :: errs).filterMap (fun e => if 4 ≤ e.1 then some (e.1 - 4, e.2) else none))
    | none => .detected
  else .detected

/-- XOR values into the bytes of a word. -/
def xorInto (bs : List Byte) (delta : List (Nat × Byte)) : List Byte :=
  delta.foldl (fun b d => modAt b d.1 (· ^^^ d.2)) bs

/-- The data bytes that reading a word yields, and whether it is returned poisoned or was detected in error. -/
def rsRead (correcting : Bool) (bs : List Byte) (errs : List (Nat × Byte)) (isPoison : Bool) : List Byte × Decoded :=
  match rsDecode correcting errs isPoison with
  | .good => (xorInto bs (errs.filterMap (fun e => if 4 ≤ e.1 then some (e.1 - 4, e.2) else none)), .good)
  | .corrected d => (xorInto bs d, .corrected d)
  | r => (bs, r)

/-- FNV-1a of 64 bits (R454; log entry 13). -/
def fnv1a (bs : List Byte) : W64 :=
  bs.foldl (fun (h : W64) b => (h ^^^ b.setWidth 64) * 0x0000_0100_0000_01B3#64) 0xCBF2_9CE4_8422_2325#64

end Sys2Proof.Machine
end

