-- ==== Sys2Proof/Machine/Granule.lean ====
section
/-!
DEFINITION. The form in which a slice stores a compressed granule: the stream that it encodes and the expansion of a stream
(R406 to R408).
-/

namespace Sys2Proof.Machine

/-- The number of times each byte value occurs. -/
def byteCounts (bs : List Byte) : SMap Nat := bs.foldl (fun m b => SMap.modify 0 m b.toNat (· + 1)) []

/-- The dictionary of a stream: at most 16 values, by descending count, ties to the lower value (R408). -/
def dictionary (bs : List Byte) : List Nat :=
  ((sortBy (fun (e : Nat × Nat) => bs.length - e.2) (byteCounts bs)).take 16).map (·.1)

/-- ceil(log2 n). -/
def log2Up (n : Nat) : Nat := if n ≤ 1 then 0 else Nat.log2 (n - 1) + 1

/-- The low n bits of a number, the least significant first. -/
def lowBits (n x : Nat) : List Bool := (List.range n).map (fun i => x.testBit i)

/-- The number whose bits these are. -/
def ofBits (l : List Bool) : Nat := l.foldr (fun b n => b2n b + 2 * n) 0

/-- The code of a byte under a dictionary; 8 bits where there is none (R407). -/
def codeByte (d : List Nat) (b : Byte) : List Bool :=
  if d.isEmpty then lowBits 8 b.toNat
  else match d.idxOf? b.toNat with
    | some k => true :: lowBits (log2Up d.length) k
    | none => false :: lowBits 8 b.toNat

/-- Dictionary and coded bits of a stream: raw where coding saves nothing (R408). -/
def codeStream (bs : List Byte) : List Nat × List Bool :=
  let d := dictionary bs
  let coded := bs.flatMap (codeByte d)
  if coded.length < 8 * bs.length then (d, coded) else ([], bs.flatMap (codeByte []))

/-- Bits as bytes, from bit 0 of each byte upward, the rest 0. -/
def packBits (l : List Bool) : List Byte :=
  (List.range ((l.length + 7) / 8)).map (fun i => BitVec.ofNat 8 (ofBits ((l.drop (8 * i)).take 8)))

/-- Bytes as bits. -/
def unpackBits (bs : List Byte) : List Bool := bs.flatMap (fun b => lowBits 8 b.toNat)

/-- The elements at even, or at odd, positions. -/
def everyOther (odd : Bool) (bs : List Byte) : List Byte := (bs.zipIdx.filter (fun e => (e.2 % 2 = 1) == odd)).map (·.1)

/-- A granule's stream in one layout (R407). -/
def streamOf (layout : Nat) (a b : List Nat × List Bool) : List Byte :=
  let byte (n : Nat) : Byte := BitVec.ofNat 8 n
  [byte layout, byte a.1.length, byte b.1.length, 0] ++ (a.1 ++ b.1).map byte ++ packBits (a.2 ++ b.2)

/-- The stream that the slice keeps for a granule: the shorter layout (R408). -/
def granuleStream (bs : List Byte) : List Byte :=
  let one := streamOf 0 (codeStream bs) ([], [])
  let two := streamOf 1 (codeStream (everyOther false bs)) (codeStream (everyOther true bs))
  if two.length < one.length then two else one

/-- The size code and the units that the slice stores for a granule; code 0 where it stays raw (R406, R408). -/
def granuleUnits (bs : List Byte) : Nat × List Byte :=
  let s := granuleStream bs
  if s.length ≤ 3584 then ((s.length + 511) / 512, s ++ List.replicate ((s.length + 511) / 512 * 512 - s.length) 0) else (0, [])

/-- n bytes of a stream from its bits; none where an index is not in the dictionary or the bits run out (R407). -/
def expandBytes (d : List Nat) : Nat → List Bool → Option (List Byte × List Bool)
  | 0, l => some ([], l)
  | n + 1, l =>
    let w := log2Up d.length
    let one : Option (Nat × List Bool) :=
      if d.isEmpty then (if l.length < 8 then none else some (ofBits (l.take 8), l.drop 8))
      else match l with
        | [] => none
        | true :: r => if r.length < w then none else (d[ofBits (r.take w)]?).map (fun b => (b, r.drop w))
        | false :: r => if r.length < 8 then none else some (ofBits (r.take 8), r.drop 8)
    match one with
    | none => none
    | some (b, r) => (expandBytes d n r).map (fun x => (BitVec.ofNat 8 b :: x.1, x.2))

/-- Two streams of equal length as one, alternating. -/
def interleave : List Byte → List Byte → List Byte
  | a :: as, b :: bs => a :: b :: interleave as bs
  | _, _ => []

/-- The 4,096 bytes that units expand to; none where a reserved field is not 0, an index is not in its dictionary, or the stream
runs past its units (R407). -/
def expandUnits (u : List Byte) : Option (List Byte) :=
  let h (i : Nat) : Nat := (u.getD i 0).toNat
  let layout := h 0
  if 2 ≤ layout || h 3 ≠ 0 || 16 < h 1 || 16 < h 2 || (layout = 0 && h 2 ≠ 0) then none
  else
    let d0 := ((u.drop 4).take (h 1)).map (·.toNat)
    let d1 := ((u.drop (4 + h 1)).take (h 2)).map (·.toNat)
    let l := unpackBits (u.drop (4 + h 1 + h 2))
    if layout = 0 then (expandBytes d0 4096 l).map (·.1)
    else match expandBytes d0 2048 l with
      | none => none
      | some (a, r) => (expandBytes d1 2048 r).map (fun b => interleave a b.1)

end Sys2Proof.Machine
end

