-- ==== Sys2Proof/Machine/Ops.lean ====
section
/-!
DEFINITION. The named operations over the state: access to each unit, who owns what under the active charter, the
address map, the Archive slices, coherence with the host-core caches, and the Fault Rolls.
-/

namespace Sys2Proof.Machine

/-! ## Access to the units -/

/-- LT_NOW in ns. -/
def Work.now (w : Work) : Nat := w.chip.time.nowPs / 1000
/-- STATE is LOCKED. -/
def Work.locked (w : Work) : Bool := w.chip.time.st = .locked

/-- Tile index t. -/
def Work.tile (w : Work) (t : Nat) : Tile := SMap.get (Tile.reset t) w.chip.tiles t
def Work.setTile (w : Work) (t : Nat) (x : Tile) : Work :=
  { w with chip.tiles := SMap.set (Tile.reset t) w.chip.tiles t x }
def Work.modTile (w : Work) (t : Nat) (f : Tile → Tile) : Work := w.setTile t (f (w.tile t))
/-- Hart h of tile t. -/
def Tile.core (x : Tile) (h : Nat) : TileCore := SMap.get TileCore.zero x.cores h
def Tile.setCore (x : Tile) (h : Nat) (c : TileCore) : Tile := { x with cores := SMap.set TileCore.zero x.cores h c }
def Tile.modCore (x : Tile) (h : Nat) (f : TileCore → TileCore) : Tile := x.setCore h (f (x.core h))
def Tile.sem (x : Tile) (s : Nat) : Nat := SMap.get 0 x.sems s
def Tile.setSem (x : Tile) (s n : Nat) : Tile := { x with sems := SMap.set 0 x.sems s n }
def Tile.mover (x : Tile) (m : Nat) : Mover := if m = 0 then x.mover0 else x.mover1
def Tile.setMover (x : Tile) (m : Nat) (v : Mover) : Tile :=
  if m = 0 then { x with mover0 := v } else { x with mover1 := v }
def Tile.ledgerSlot (x : Tile) (j : Nat) : LedgerSlot := SMap.get LedgerSlot.zero x.ledger j
def Tile.outPort (x : Tile) (p : Nat) : OutPort := SMap.get OutPort.zero x.out p
def Tile.inPort (x : Tile) (p : Nat) : InPort := SMap.get InPort.zero x.inp p
/-- Register xn of a core; x0 reads 0. -/
def TileCore.reg (c : TileCore) (n : Nat) : W64 := if n = 0 then 0 else SMap.get 0 c.x n
/-- Write xn; a write to x0 is discarded. -/
def TileCore.setReg (c : TileCore) (n : Nat) (v : W64) : TileCore :=
  if n = 0 then c else { c with x := SMap.set 0 c.x n v }

/-- Host core c. -/
def Work.core (w : Work) (c : Nat) : HostCore := SMap.get HostCore.reset w.chip.cores c
def Work.setCore (w : Work) (c : Nat) (x : HostCore) : Work :=
  { w with chip.cores := SMap.set HostCore.reset w.chip.cores c x }
def Work.modCore (w : Work) (c : Nat) (f : HostCore → HostCore) : Work := w.setCore c (f (w.core c))
/-- Pound p. -/
def Work.pound (w : Work) (p : Nat) : Pound := SMap.get Pound.none w.chip.pounds p
def Work.modPound (w : Work) (p : Nat) (f : Pound → Pound) : Work :=
  { w with chip.pounds := SMap.modify Pound.none w.chip.pounds p f }
def Work.home (w : Work) (h : Nat) : Home := SMap.get Home.zero w.chip.homes h
def Work.modHome (w : Work) (h : Nat) (f : Home → Home) : Work :=
  { w with chip.homes := SMap.modify Home.zero w.chip.homes h f }
def Work.slice (w : Work) (s : Nat) : Slice := SMap.get Slice.zero w.chip.slices s
def Work.modSlice (w : Work) (s : Nat) (f : Slice → Slice) : Work :=
  { w with chip.slices := SMap.modify Slice.zero w.chip.slices s f }
def Work.hbmCh (w : Work) (ch : Nat) : Channel := SMap.get Channel.zero w.chip.hbm ch
def Work.modHbm (w : Work) (ch : Nat) (f : Channel → Channel) : Work :=
  { w with chip.hbm := SMap.modify Channel.zero w.chip.hbm ch f }
def Work.lpdCh (w : Work) (ch : Nat) : Channel := SMap.get Channel.zero w.chip.lpd ch
def Work.modLpd (w : Work) (ch : Nat) (f : Channel → Channel) : Work :=
  { w with chip.lpd := SMap.modify Channel.zero w.chip.lpd ch f }
def Work.link (w : Work) (l : Nat) : NylLink := SMap.get NylLink.zero w.chip.nyl l
def Work.modLink (w : Work) (l : Nat) (f : NylLink → NylLink) : Work :=
  { w with chip.nyl := SMap.modify NylLink.zero w.chip.nyl l f }
def Work.port (w : Work) (p : Nat) : Port := SMap.get Port.zero w.chip.ports p
def Work.modPort (w : Work) (p : Nat) (f : Port → Port) : Work :=
  { w with chip.ports := SMap.modify Port.zero w.chip.ports p f }
def Work.eth (w : Work) (e : Nat) : Eth := SMap.get Eth.zero w.chip.eths e
def Work.modEth (w : Work) (e : Nat) (f : Eth → Eth) : Work :=
  { w with chip.eths := SMap.modify Eth.zero w.chip.eths e f }
def Work.sq (w : Work) (q : Nat) : Sq := SMap.get Sq.zero w.chip.sqs q
def Work.modSq (w : Work) (q : Nat) (f : Sq → Sq) : Work :=
  { w with chip.sqs := SMap.modify Sq.zero w.chip.sqs q f }
def Work.cq (w : Work) (q : Nat) : Cq := SMap.get Cq.zero w.chip.cqs q
def Work.modCq (w : Work) (q : Nat) (f : Cq → Cq) : Work :=
  { w with chip.cqs := SMap.modify Cq.zero w.chip.cqs q f }
def Work.srt (w : Work) (l : Nat) : SrtLink := SMap.get SrtLink.reset w.chip.srt l
def Work.modSrt (w : Work) (l : Nat) (f : SrtLink → SrtLink) : Work :=
  { w with chip.srt := SMap.modify SrtLink.reset w.chip.srt l f }
def Work.ppow (w : Work) (p : Nat) : PoundPower := SMap.get PoundPower.reset w.chip.pwr.pounds p
def Work.modPpow (w : Work) (p : Nat) (f : PoundPower → PoundPower) : Work :=
  { w with chip.pwr.pounds := SMap.modify PoundPower.reset w.chip.pwr.pounds p f }
/-- PWR_DIE before the first measurement. -/
def DiePower.zero : DiePower := { droops := 0, railMv := 0, tempC := 0, st := 0, cool := 0 }
def Work.diePow (w : Work) (d : Nat) : DiePower := SMap.get DiePower.zero w.chip.pwr.dies d
def Work.modDiePow (w : Work) (d : Nat) (f : DiePower → DiePower) : Work :=
  { w with chip.pwr.dies := SMap.modify DiePower.zero w.chip.pwr.dies d f }
/-- A pound's window in command processor n: key n * 16 + p. -/
def Work.cpWin (w : Work) (n p : Nat) : CpWindow := SMap.get CpWindow.zero w.chip.cpWins (n * 16 + p)
def Work.modCpWin (w : Work) (n p : Nat) (f : CpWindow → CpWindow) : Work :=
  { w with chip.cpWins := SMap.modify CpWindow.zero w.chip.cpWins (n * 16 + p) f }
def Work.hart (w : Work) (h : Nat) : HartCtl := SMap.get { st := .inReset, entry := 0 } w.chip.boot.hartCtl h
def Work.modHart (w : Work) (h : Nat) (f : HartCtl → HartCtl) : Work :=
  { w with chip.boot.hartCtl := SMap.modify { st := .inReset, entry := 0 } w.chip.boot.hartCtl h f }

/-! ## Ownership under the active charter (R63 to R69) -/

/-- The configuration of pound p in force: none when it is absent or its activation failed (R100). -/
def Work.cfg? (w : Work) (p : Nat) : Option PoundCfg := (w.pound p).cfg

/-- Pound p is in the draining step of a restart, or finishes one before a further charter takes it (R87, R90): its old
structure is in force. -/
def Work.drains (w : Work) (p : Nat) : Bool := (w.pound p).goal.isSome || w.chip.cht.deferred.contains p

/-- The pound whose configuration in force meets a condition; one that drains comes first. -/
def Work.ownerBy (w : Work) (f : PoundCfg → Bool) : Option Nat :=
  let has (p : Nat) : Bool := match w.cfg? p with | some c => f c | none => false
  match (List.range 16).find? (fun p => w.drains p && has p) with
  | some p => some p
  | none => (List.range 16).find? has

/-- Pound of host core c under the active charter: a core changes owner at the activation moment (R89); a pound whose
activation has failed owns nothing (R100). -/
def Work.coreOwner (w : Work) (c : Nat) : Option Nat :=
  match w.chip.cht.active with
  | some ch => (ch.pounds.find? (fun e => bit e.2.coreMask c && (w.pound e.1).st ≠ .activationFailed)).map (·.1)
  | none => none
/-- Pound of tile index t; a spare index has none. -/
def Work.tileOwner (w : Work) (t : Nat) : Option Nat := w.ownerBy (fun g => t < 144 && bit g.tileMask t)
/-- Pound of root port p. -/
def Work.portOwner (w : Work) (p : Nat) : Option Nat := w.ownerBy (fun g => bit g.portMask p)
/-- Pound of 800GbE port e. -/
def Work.ethOwner (w : Work) (e : Nat) : Option Nat := w.ownerBy (fun g => bit g.portMask (4 + e))
/-- Pound of Nyulle link l. -/
def Work.linkOwner (w : Work) (l : Nat) : Option Nat := w.ownerBy (fun g => bit g.linkMask l)
/-- Pound of submission queue q (R274). -/
def Work.sqOwner (w : Work) (q : Nat) : Option Nat := w.ownerBy (fun g => g.sqFirst ≤ q && q < g.sqFirst + g.sqCount)
/-- Pound of completion queue q (R274). -/
def Work.cqOwner (w : Work) (q : Nat) : Option Nat := w.ownerBy (fun g => g.cqFirst ≤ q && q < g.cqFirst + g.cqCount)
/-- Pound whose scratchpad way w is (R401). -/
def Work.wayOwner (w : Work) (y : Nat) : Option Nat := w.ownerBy (fun g => bit g.scratchWays y)
/-- 0xFF for no pound. -/
def optPound (p : Option Nat) : Nat := p.getD 0xFF
/-- Host core c belongs to pound p. -/
def Work.isPound (w : Work) (c p : Nat) : Bool := w.coreOwner c = some p

/-- No charter is active (R101). -/
def Work.provisioning (w : Work) : Bool := w.chip.cht.active.isNone

/-- The module's own ID (R62); bit 15 set while no charter is active (R422). -/
def Work.moduleId (w : Work) : Nat := match w.chip.cht.active with | some c => c.moduleId | none => 0x8000

/-! ## The address map (R23 to R27, R384, R401, R403) -/

/-- What an address reaches. -/
inductive Place where
  | lpd (h off : Nat)
  | hbm (off : Nat)
  | scratch (way off : Nat)
  | tile (t off : Nat)
  | cxl (port : Nat)
  | mmio (port off : Nat)
  | doorbell (q off : Nat)
  | control (off : Nat)
  | glob (module off : Nat)
  | vacant
deriving DecidableEq, Repr

/-- Mapped HBM channels in ascending number (R384). -/
def Work.mapped (w : Work) : List Nat := bitList w.chip.cht.mapNow

/-- The die is excluded (R48): C0 to C3, or H1. -/
def Work.dieOut (w : Work) (d : Nat) : Bool := if d < 4 then bit w.chip.boot.dieExcluded d else d = 5 && bit w.chip.boot.dieExcluded 4

/-- Mapped LP-DRAM channels of H-die h, 0-15 each (R403, R404); an excluded die has none (R48). -/
def Work.lpdMapped (w : Work) (h : Nat) : List Nat := idxs 16 (fun c => !w.dieOut (4 + h) && (w.lpdCh (16 * h + c)).mapped)

/-- Channel and channel-local address of an HBM window offset (R384). -/
def Work.hbmAt (w : Work) (off : Nat) : Nat × Nat :=
  let m := w.mapped
  let n := max m.length 1
  (m.getD (off / 4096 % n) 0, off / 4096 / n * 4096 + off % 4096)

/-- A byte of an HBM channel: pseudo-channel, bank, row, and byte in the row (R383). -/
structure HbmByte where
  pseudo : Nat
  bank : Nat
  row : Nat
  byte : Nat
deriving DecidableEq, Repr

/-- The byte that a channel-local address names (R383). -/
def hbmByte (a : Nat) : HbmByte :=
  { pseudo := a / 2048 % 2, bank := a / 4096 % 64, row := a / 4096 / 64, byte := a % 2048 }

/-- The channel-local address of a byte of a channel. -/
def HbmByte.address (b : HbmByte) : Nat := (b.row * 64 + b.bank) * 4096 + b.pseudo * 2048 + b.byte

/-- Channel of an LP-DRAM offset of H-die h, numbered 16h + c (R403). -/
def Work.lpdAt (w : Work) (h off : Nat) : Nat :=
  let m := w.lpdMapped h
  16 * h + m.getD (off / 4096 % max m.length 1) 0

/-- Index t is held by a tile in service (R579, R559). -/
def Work.tileInService (w : Work) (t : Nat) : Bool :=
  (w.tile t).st ≠ .offline && (w.tile t).st ≠ .quarantined

/-- Union of all SCRATCH_WAYS (R379), but for ways that are disabled, whose chunks are vacant (R402). -/
def Work.scratchUnion (w : Work) : W16 :=
  let off := w.chip.flash.summary.waysDisabled.foldl (fun a e => a ||| e.2) (0 : W16)
  (List.range 16).foldl (fun a p => match w.cfg? p with | some g => a ||| g.scratchWays | none => a) 0 &&& ~~~off
/-- Union of all CACHE_WAYS. -/
def Work.cacheUnion (w : Work) : W16 :=
  (List.range 16).foldl (fun a p => match w.cfg? p with | some g => a ||| g.cacheWays | none => a) 0

/-- What a 56-bit physical address reaches (R23, R25, R559). A global address with the module's own ID is the local
HBM address (R27). -/
def Work.place (w : Work) (a : Nat) : Place :=
  let inHbm (off : Nat) : Place :=
    if w.chip.boot.hbmWindow && off < w.mapped.length * 2684354560 then .hbm off else .vacant
  if 2 ^ 56 ≤ a then .vacant
  else if 2 ^ 55 ≤ a then
    let m := a / 2 ^ 40 % 2 ^ 15
    if m = w.moduleId then inHbm (a % 2 ^ 40) else .glob m (a % 2 ^ 40)
  else if a < 0x100_0000_0000 then
    let h := a / 2 ^ 39
    if a % 2 ^ 39 < (w.lpdMapped h).length * 2 ^ 35 then .lpd h (a % 2 ^ 39) else .vacant
  else if a < 0x200_0000_0000 then inHbm (a - 0x100_0000_0000)
  else if a < 0x200_6000_0000 then
    let y := (a - 0x200_0000_0000) / 0x600_0000
    let o := (a - 0x200_0000_0000) % 0x600_0000
    if w.chip.boot.scratch && bit w.scratchUnion y && o < (bitList w.chip.boot.scratchSlices).length * 786432
    then .scratch y o else .vacant
  else if 0x210_0000_0000 ≤ a && a < 0x210_5000_0000 then
    let t := (a - 0x210_0000_0000) / 0x80_0000
    let o := (a - 0x210_0000_0000) % 0x80_0000
    if o < 0x60_0000 && w.tileInService t then .tile t o else .vacant
  else if 0x1000_0000_0000 ≤ a && a < 0x2000_0000_0000 then
    let p := (a - 0x1000_0000_0000) / 2 ^ 42
    if p < 4 && (w.port p).st = .up && (w.port p).cxl && (w.port p).hdm.any (fun d => d.1 ≤ a && a < d.1 + d.2)
    then .cxl p else .vacant
  else if 0x2000_0000_0000 ≤ a && a < 0x3000_0000_0000 then
    let p := (a - 0x2000_0000_0000) / 2 ^ 42
    let o := (a - 0x2000_0000_0000) % 2 ^ 42
    if o < 0x400_0000 || (w.port p).st = .up || (w.port p).st = .retraining then .mmio p o else .vacant
  else if 0x3F00_0000_0000 ≤ a && a < 0x3F00_0080_0000 then
    .doorbell ((a - 0x3F00_0000_0000) / 8) ((a - 0x3F00_0000_0000) % 8)
  else if 0x3F80_0000_0000 ≤ a && a < 0x3F80_1000_0000 then .control (a - 0x3F80_0000_0000)
  else .vacant

/-- The physical address that an access is performed at: a global address of the module's own ID is served locally
(R27). -/
def Work.local_ (w : Work) (a : Nat) : Nat :=
  if 2 ^ 55 ≤ a && a < 2 ^ 56 && a / 2 ^ 40 % 2 ^ 15 = w.moduleId then 0x100_0000_0000 + a % 2 ^ 40 else a

/-- Die of a home. -/
def homeDie (h : Nat) : Nat := if h < 128 then h / 32 else h - 124

/-- Die of a requester (R366). -/
def agentDie (a : Nat) : Nat :=
  if a < 96 then 4 + a / 48
  else if a < 112 then (a - 96) / 4
  else if a < 116 then a - 112
  else if a < 120 then 4 + (a - 116) / 2
  else if a < 122 then 4 + (a - 120)
  else if 128 ≤ a && a < 176 then (a - 128) / 12
  else if a = 177 then 5
  else if 179 ≤ a && a < 183 then a - 179
  else if 256 ≤ a && a < 576 then tileDie ((a - 256) / 2)
  else 4

/-- Stream ID of an engine (R353). -/
def RemoteWho.stream : RemoteWho → Option Nat
  | .mover t m => some (2 * t + m)
  | .command q _ => some (512 + q % 16)
  | .power _ => none
  | .core _ => none
  | .tile _ => none

/-- Ends of Sirent link l: dies 0-3 for C0-C3, 4 and 5 for H0 and H1. -/
def srtEnds : List (Nat × Nat) := [(0, 1), (1, 3), (3, 2), (2, 0), (4, 0), (4, 1), (5, 2), (5, 3), (4, 5)]

/-- Dies that share a link in service with die d, and the link. -/
def Work.dieLinks (w : Work) (d : Nat) : List (Nat × Nat) :=
  (srtEnds.zipIdx.filter (fun e => !bit w.chip.boot.srtExcluded e.2)).filterMap (fun e =>
    if e.1.1 = d then some (e.1.2, e.2) else if e.1.2 = d then some (e.1.1, e.2) else none)

/-- Links between two dies on the shortest route, of at most n links. -/
def Work.dieDist (w : Work) (src dst : Nat) : Nat → Option Nat
  | 0 => if src = dst then some 0 else none
  | n + 1 =>
    if src = dst then some 0
    else ((w.dieLinks src).filterMap (fun e => w.dieDist e.1 dst n)).foldl (fun a k =>
      match a with | some m => some (min m (k + 1)) | none => some (k + 1)) none

/-- Links of the route from one die to another for a line: the shortest; of several, the one through the lower-numbered die, or
between C-dies that share no link, while no link is excluded, the one that bit 7 of the line's address selects (R20, R47). -/
def Work.dieRoute (w : Work) (src dst line : Nat) : Nat → List Nat
  | 0 => []
  | n + 1 =>
    if src = dst then []
    else match w.dieDist src dst 5 with
      | none => []
      | some k =>
        let next := sortBy (fun (e : Nat × Nat) => e.1)
          ((w.dieLinks src).filter (fun e => w.dieDist e.1 dst 5 = some (k - 1)))
        let high : Bool := w.chip.boot.srtExcluded = 0 && src < 4 && dst < 4 && line % 2 = 1
        match (if high then next.reverse else next) with
        | e :: _ => e.2 :: w.dieRoute e.1 dst line n
        | [] => []

/-- The home of an address (R317): slices 0-127, home agents 128 and 129. -/
def Work.homeOf (w : Work) (a : Nat) : Option Nat :=
  match w.place a with
  | .lpd h _ => some (128 + h)
  | .hbm off => some ((w.hbmAt off).1 / 2)
  | .cxl p => some (128 + p / 2)
  | _ => none

/-- Main memory (R327). -/
def Place.mainMemory : Place → Bool
  | .lpd _ _ | .hbm _ | .cxl _ => true
  | _ => false

/-- Byte address of offset o of tile t's store (R128). -/
def tileAddr (t o : Nat) : Nat := 0x210_0000_0000 + t * 0x80_0000 + o

/-- A region holds an address. -/
def Region.has (r : Region) (a : Nat) : Bool := r.base ≤ a && a < r.base + r.size

/-- Regions of owner COMMON of the active charter. -/
def Charter.commons (c : Charter) : List Region := c.regions.filter (fun r => r.owner = 0xFE)

/-- The region in force that holds an address (R66): those of pounds that drain, those of the other pounds, COMMON. -/
def Work.region? (w : Work) (a : Nat) : Option Region :=
  let of (f : Nat → Bool) : Option Region :=
    w.chip.pounds.findSome? (fun e => if f e.1 then e.2.regs.find? (fun r => r.has a) else none)
  match of w.drains with
  | some r => some r
  | none => match of (fun _ => true) with
    | some r => some r
    | none => match w.chip.cht.active with
      | some c => c.commons.find? (fun r => r.has a)
      | none => none

/-- The code mode of an address is correcting (R67, R127, R350, R401). -/
def Work.correcting (w : Work) (a : Nat) : Bool :=
  match w.place a with
  | .tile t _ => (match (w.tileOwner t).bind w.cfg? with | some g => g.tileClass ≠ 2 | none => true)
  | .scratch y _ => (match (w.wayOwner y).bind w.cfg? with | some g => g.scratchClass ≠ 2 | none => true)
  | _ => (match w.region? a with | some r => r.cls ≠ 2 && r.cls ≠ 5 | none => true)

/-! ## Who may reach memory (R24, R68 to R70, R92, R101, R572) -/

/-- Who makes an access. -/
inductive Who where
  | core (c : Nat)
  | engine (p : Option Nat)
  | inbound (p : Option Nat)
  /-- Completion and notice writes, and Fault Rolls records. -/
  | ring (p : Option Nat)
deriving DecidableEq, Repr

/-- What the checks say. -/
inductive Acc where
  | ok | notMapped | denied
deriving DecidableEq, Repr

/-- The pound a request is attributed to (R69). -/
def Work.whoPound (w : Work) : Who → Option Nat
  | .core c => w.coreOwner c
  | .engine p => p
  | .inbound p => p
  | .ring p => p

/-- A resource of pound o is fenced against the requester (R572). -/
def Work.fencedFrom (w : Work) (who : Who) (o : Nat) : Bool :=
  (w.pound o).fenced &&
  match who with
  | .core c => w.coreOwner c ≠ some o
  | .ring _ => false
  | _ => true

/-- A resource that is to be zeroed covers the address, and its old owner has drained (R92). -/
def Work.scrubbing (w : Work) (a : Nat) : Bool :=
  w.chip.cht.scrubs.any (fun x => x.base ≤ a && a < x.base + x.size && x.old.isNone)

/-- One byte's check. -/
def Work.acc1 (w : Work) (who : Who) (a : Nat) (isWrite : Bool) : Acc :=
  let p := w.whoPound who
  let byOwner (o : Option Nat) : Acc :=
    if w.scrubbing a then .denied
    else match o with
      | some o => if p = some o && !w.fencedFrom who o then .ok else .denied
      | none => .denied
  let inMain : Acc :=
    if w.provisioning then .ok
    else if w.scrubbing a then .denied
    else match w.region? a with
      | none => .denied
      | some r =>
        if r.owner = 0xFE then .ok
        else if w.fencedFrom who r.owner then .denied
        else if p = some r.owner then .ok
        else if r.cls = 3 && !isWrite && (match p with | some p => bit r.readers p | none => false) then .ok
        else .denied
  match w.place a with
  | .vacant | .glob _ _ => .notMapped
  | .doorbell _ _ | .control _ => (match who with | .core _ => .ok | _ => .notMapped)
  | .lpd _ _ | .hbm _ | .cxl _ => inMain
  | .scratch y _ => byOwner (w.wayOwner y)
  | .tile t _ => byOwner (w.tileOwner t)
  | .mmio q _ => (match w.portOwner q with
    | some o => if p = some o then .ok else .denied
    | none => .ok)

/-- The check of an access of n bytes: both of its ends, whose kinds of range are all larger than an access. -/
def Work.acc (w : Work) (who : Who) (a n : Nat) (isWrite : Bool) : Acc :=
  match w.acc1 who (w.local_ a) isWrite with
  | .ok => if n ≤ 1 then .ok else w.acc1 who (w.local_ (a + n - 1)) isWrite
  | x => x

/-- A channel that has failed holds the address (R400, R404). -/
def Work.dead (w : Work) (a : Nat) : Bool :=
  match w.place a with
  | .hbm off => (w.hbmCh (w.hbmAt off).1).health = 2
  | .lpd h off => (w.lpdCh (w.lpdAt h off)).health = 2
  | _ => false

/-! ## Replacement (R345, R348) -/

/-- Tree pseudo-LRU over 16 ways: 15 node bits, node 1 the root; the victim among the permitted ways. -/
def plruVictim (tree : Nat) (ok : Nat → Bool) : Nat :=
  let step (s : Nat × Nat × Nat) : Nat × Nat × Nat :=
    let half := s.2.2 / 2
    let left := (List.range half).any (fun i => ok (s.2.1 + i))
    let right := (List.range half).any (fun i => ok (s.2.1 + half + i))
    let goRight := if !left then true else if !right then false else tree.testBit s.1
    if goRight then (2 * s.1 + 1, s.2.1 + half, half) else (2 * s.1, s.2.1, half)
  (step (step (step (step (1, 0, 16))))).2.1

/-- Point every node on the way's path away from it. -/
def plruTouch (tree way : Nat) : Nat :=
  (List.range 4).foldl (fun t i =>
    let node := 2 ^ i + way / 2 ^ (4 - i)
    let right := (way / 2 ^ (3 - i)) % 2 = 1
    let cleared := t - (if t.testBit node then 2 ^ node else 0)
    if right then cleared else cleared + 2 ^ node) tree

/-! ## The Archive as a cache (R347 to R351, R385, R387) -/

/-- Slice, set and tag number (l div 512) of an HBM line (R385). -/
def Work.arcAt (w : Work) (line : Nat) : Nat × Nat × Nat :=
  let (ch, a) := w.hbmAt (line * 128 - 0x100_0000_0000)
  let l := a / 4096 * 8192 + ch % 2 * 4096 + a % 4096
  (ch / 2, l / 512 % 1536, l / 512)

/-- Ways that a pound may allocate into in a slice: those of its charter that are not disabled and no longer scratchpad (R348,
R374, R402). -/
def Work.allocWays (w : Work) (s : Nat) (p : Option Nat) : W16 :=
  match p.bind w.cfg? with
  | some g => g.cacheWays &&& ~~~w.scratchUnion &&& ~~~(SMap.get 0 w.chip.flash.summary.waysDisabled s)
  | none => 0

/-- Mapped channels that a slice homes. -/
def Work.homed (w : Work) (s : Nat) : Nat := (w.mapped.filter (fun ch => ch / 2 = s)).length

/-- The rate and the depth of a bucket in a slice (R386). -/
def Work.bucket (w : Work) (s rate depth : Nat) : Nat × Nat :=
  let n := max w.mapped.length 1
  (rate * w.homed s / n, max depth rate * w.homed s / n)

/-- Rate and depth of a pound's read or write bucket in a slice. -/
def Work.bucketOf (w : Work) (s p : Nat) (isWrite : Bool) : Nat × Nat :=
  match w.cfg? p with
  | some g => if isWrite then w.bucket s g.wrRate g.wrBucket else w.bucket s g.rdRate g.rdBucket
  | none => (0, 0)

/-- Charge bytes to a pound's bucket, which goes down to minus one depth at most (R387, R388). -/
def Work.charge (w : Work) (s : Nat) (p : Option Nat) (isWrite : Bool) (n : Nat) : Work :=
  match p with
  | none => w
  | some p =>
    let floor : Int := -((w.bucketOf s p isWrite).2 : Int)
    w.modSlice s (fun x =>
      if isWrite then { x with wrTokens := SMap.modify 0 x.wrTokens p (fun v => max (v - (n : Int)) floor) }
      else { x with rdTokens := SMap.modify 0 x.rdTokens p (fun v => max (v - (n : Int)) floor) })

/-- An access of pound p to HBM has to wait for tokens in a slice: regulation is in force and the bucket it needs is empty
(R386, R388, R390). -/
def Work.bucketEmpty (w : Work) (s : Nat) (p : Option Nat) (isWrite : Bool) : Bool :=
  match p with
  | none => false
  | some p =>
    let x := w.slice s
    x.st = .active && (match w.cfg? p with | some g => (if isWrite then g.wrRate else g.rdRate) ≠ 0 | none => false) &&
      SMap.get 0 (if isWrite then x.wrTokens else x.rdTokens) p ≤ 0

/-- A dirty sector enters the slice's eviction buffer of 32 entries, charged to the pound recorded at its allocation; the oldest
entry of a full buffer is performed in HBM first (R351, R387). -/
def Work.bufferSector (w : Work) (s l : Nat) (e : Sector) : Work :=
  (w.charge s (some e.pound) true 128).modSlice s (fun x =>
    { x with evict := (without x.evict l ++ [l]).drop (if 32 ≤ (without x.evict l).length then 1 else 0) })

/-- Remove the sectors of slice s that meet a condition, dirty ones through the eviction buffer (R351). -/
def Work.dropSectors (w : Work) (s : Nat) (out : Nat × Sector → Bool) : Work :=
  let gone := (w.slice s).sectors.filter out
  let w := w.modSlice s (fun x =>
    { x with
      sectors := x.sectors.filter (fun e => !out e)
      detectors := (gone.filterMap (fun e => e.2.prefetched)).foldl
        (fun ds d => SMap.mapVal ds (fun k v => if k = d then { v with depth := v.depth - 1 } else v)) x.detectors })
  w.each (gone.filter (fun e => e.2.dirty)) (fun w e => w.bufferSector s e.1 e.2)

/-- Remove the sectors of one way of one set. -/
def Work.evictWay (w : Work) (s set way : Nat) : Work :=
  w.dropSectors s (fun e => e.2.way = way && (w.arcAt e.1).2.1 = set)

/-- Lines of a range, when it lies in HBM and is short enough to follow one by one; long ranges are zeroing and image
copies, whose sectors are handled by their ranges. -/
def linesOf (a n : Nat) : List Nat := if n = 0 then [] else (List.range ((a + n - 1) / 128 - a / 128 + 1)).map (· + a / 128)

/-- A level-6 loop is clamped at its bound (R514). -/
def Work.clampedAt (w : Work) (c : Bool) : Work :=
  if c then { w with chip.pwr.ovr6 := satAdd 12 w.chip.pwr.ovr6 1 } else w

/-- A line of HBM is used in its slice: a hit touches its way, whatever pound owns it; a miss allocates its sector for the
pound, in a way of the pound that holds the tag or in one that it replaces, when the pound has a way (R348, R349). -/
def Work.arcUse (w : Work) (line : Nat) (p : Option Nat) (dirty : Bool) (detector : Option Nat) : Work :=
  let (s, set, tag) := w.arcAt line
  let sl := w.slice s
  match SMap.look sl.sectors line with
  | some e =>
    let atBound : Bool := match e.prefetched.bind (SMap.look sl.detectors) with
      | some v => detector.isNone && decide (SMap.get 16 sl.pfDepth v.pound ≤ v.depth)
      | none => false
    (w.clampedAt atBound).modSlice s (fun x =>
      { x with
        plru := SMap.modify 0 x.plru set (fun t => plruTouch t e.way)
        pfUsed := if e.prefetched.isSome && detector.isNone then satAdd 32 x.pfUsed 1 else x.pfUsed
        detectors := (match e.prefetched with
          | some d => if detector.isNone then SMap.mapVal x.detectors (fun k v =>
              if k = d then { v with depth := min (v.depth + 1) (SMap.get 16 x.pfDepth v.pound) } else v)
            else x.detectors
          | none => x.detectors)
        pfClamped := (match e.prefetched with
          | some d => (match SMap.look x.detectors d with
            | some v => if detector.isNone && SMap.get 16 x.pfDepth v.pound ≤ v.depth then
                SMap.modify 0 x.pfClamped v.pound (fun n => satAdd 32 n 1) else x.pfClamped
            | none => x.pfClamped)
          | none => x.pfClamped)
        sectors := SMap.insert (SMap.erase x.sectors line) line
          { e with dirty := e.dirty || dirty, prefetched := if detector.isNone then none else e.prefetched } })
  | none =>
    let ways := w.allocWays s p
    if ways = 0 then w
    else
      let same := sl.sectors.find? (fun e => (w.arcAt e.1).2.2 = tag && bit ways e.2.way)
      let used (y : Nat) : Bool := sl.sectors.any (fun e => e.2.way = y && (w.arcAt e.1).2.1 = set)
      let way := match same with
        | some e => e.2.way
        | none => match (List.range 16).find? (fun y => bit ways y && !used y) with
          | some y => y
          | none => plruVictim (SMap.get 0 sl.plru set) (fun y => bit ways y)
      let w := if same.isSome || !used way then w else w.evictWay s set way
      w.modSlice s (fun x =>
        { x with
          plru := SMap.modify 0 x.plru set (fun t => plruTouch t way)
          sectors := SMap.insert x.sectors line
            { way := way, dirty := dirty, pound := p.getD 0, prefetched := detector } })

/-- Bytes of line l among the n bytes from a on. -/
def lineShare (a n l : Nat) : Nat := min (a + n) ((l + 1) * 128) - max a (l * 128)

/-- What an access of n bytes of a line is charged: a sector, or, where nothing is allocated, its bytes rounded up to 32
(R387). -/
def sectorCharge (allocates : Bool) (n : Nat) : Nat := if allocates then 128 else (n + 31) / 32 * 32

/-- A compressed granule is expanded: from an expansion buffer that holds it, or by a read of all its units (R387, R406). -/
def Work.expandGranule (w : Work) (s granule code : Nat) (p : Option Nat) : Work :=
  if (w.slice s).expand.contains granule then w.modSlice s (fun x => { x with expHits := satAdd 32 x.expHits 1 })
  else (w.charge s p false (512 * code)).modSlice s (fun x =>
    { x with
      expansions := satAdd 32 x.expansions 1
      expand := (x.expand ++ [granule]).drop (if 8 ≤ x.expand.length then 1 else 0) })

/-- A read of n bytes of an HBM line at its slice: a hit in a sector or in the eviction buffer, or a fill of the sector charged
to the pound; a compressed granule is expanded (R349, R351, R387, R406). -/
def Work.arcRead (w : Work) (line : Nat) (p : Option Nat) (n : Nat := 128) : Work :=
  let (s, _, _) := w.arcAt line
  let granule := line / 32
  let code := SMap.get 0 w.chip.sizeCodes granule
  if (SMap.look (w.slice s).sectors line).isSome then w.arcUse line p false none
  else if (w.slice s).evict.contains line then w
  else
    let w :=
      if code = 0 then w.charge s p false (sectorCharge (w.allocWays s p ≠ 0) n)
      else w.expandGranule s granule code p
    w.arcUse line p false none

/-- A new detector of a stream (R353). -/
def Detector.fresh (key pound line age : Nat) : Detector :=
  { key := key, pound := pound, last := line, stride := 0, hits := 1, trained := false, depth := 0, age := age }

/-- A detector after one more access of its stream: three at one constant stride train it, with a depth of n. -/
def Detector.next (d : Detector) (line n age : Nat) (okStride : Int → Bool) : Detector :=
  let gap : Int := (line : Int) - (d.last : Int)
  if gap = 0 then d
  else if gap = d.stride && okStride gap then
    let hits := min 3 (d.hits + 1)
    { d with last := line, hits := hits, trained := decide (3 ≤ hits), depth := if hits = 3 && !d.trained then n else d.depth,
             age := if hits = 3 && !d.trained then age else d.age }
  else { d with last := line, stride := gap, hits := if okStride gap then 2 else 1, trained := false }

/-- Key of a detector of a set of n: the one that follows the stream, a free one, or the least recently trained (R352). -/
def detectorFor (ds : SMap Detector) (n key : Nat) : Nat × Bool :=
  match ds.find? (fun e => e.2.key = key) with
  | some e => (e.1, true)
  | none => match SMap.free? ds n with
    | some k => (k, false)
    | none => (((sortBy (fun (e : Nat × Detector) => e.2.age) ds).map (·.1)).headD 0, false)

/-- The latest age of a set of detectors. -/
def newestAge (ds : SMap Detector) : Nat := ds.foldl (fun m e => max m e.2.age) 0

/-- An access of a stream trains its detector in a slice; the depth it starts with is open (R353; log entry 3). -/
def Work.arcTrain (w : Work) (line stream : Nat) (p : Option Nat) : Work :=
  let (s, _, _) := w.arcAt line
  let ds := (w.slice s).detectors
  let age := newestAge ds + 1
  match detectorFor ds 64 stream, p with
  | _, none => w
  | (k, true), some p =>
    let (n, w) := w.take
    let depth := Config.freeNat n % (SMap.get 16 (w.slice s).pfDepth p + 1)
    w.modSlice s (fun x => { x with detectors := SMap.mapVal x.detectors (fun j d =>
      if j = k then d.next line depth age (fun _ => true) else d) })
  | (k, false), some p => w.modSlice s (fun x =>
      { x with detectors := SMap.insert (SMap.erase x.detectors k) k (Detector.fresh stream p line age) })

/-- As `arcTrain`, for an access that may belong to no stream. -/
def Work.train (w : Work) (line : Nat) (stream p : Option Nat) : Work :=
  match stream with
  | some k => w.arcTrain line k p
  | none => w

/-- A volatile read of a range by an engine of pound p passes through the slices (R337, R349), and trains the detectors of
its stream. -/
def Work.arcReads (w : Work) (a n : Nat) (p : Option Nat) (stream : Option Nat) : Work :=
  let a := w.local_ a
  match w.place a with
  | .hbm _ => w.each (linesOf a n) (fun w l =>
      (w.arcRead l p (lineShare a n l)).train l stream p)
  | _ => w

/-- A write to a compressed granule: it is expanded, the write merges into it, and all of it is stored raw, charged as the bytes
that HBM takes (R387, R406; log entry 43). -/
def Work.storeRaw (w : Work) (s granule code : Nat) (p : Option Nat) : Work :=
  let w := (w.expandGranule s granule code p).charge s p true 4096
  { w.modSlice s (fun x => { x with expand := without x.expand granule }) with
    chip.sizeCodes := SMap.set 0 w.chip.sizeCodes granule 0
    chip.units := SMap.erase w.chip.units granule }

/-- A write of n bytes of an HBM line at its slice: a whole line allocates without reading; part of one fills first; the eviction
buffer takes a write to the line it holds where nothing is allocated (R349, R351). A compressed granule becomes raw (R406). -/
def Work.arcWrite (w : Work) (line : Nat) (p : Option Nat) (n : Nat := 128) : Work :=
  let (s, _, _) := w.arcAt line
  let granule := line / 32
  let code := SMap.get 0 w.chip.sizeCodes granule
  let held := (w.slice s).evict.contains line
  if code ≠ 0 then
    let w := w.storeRaw s granule code p
    if (SMap.look (w.slice s).sectors line).isSome then w.arcUse line p false none else w
  else if (w.allocWays s p).toNat = 0 && (SMap.look (w.slice s).sectors line).isNone then
    (if held then w else w.charge s p true (sectorCharge false n))
  else
    let w := if 128 ≤ n || held || (SMap.look (w.slice s).sectors line).isSome then w else w.charge s p false 128
    (w.modSlice s (fun x => { x with evict := without x.evict line })).arcUse line p true none

/-- The bucket that an access of n bytes of a line needs in its slice: the read bucket for a read or a fill, the write bucket for a
write that allocates nothing; none on a hit (R349, R351, R387, R406). -/
def Work.lineUse (w : Work) (line : Nat) (p : Option Nat) (isWrite : Bool) (n : Nat) : Option Bool :=
  let s := (w.arcAt line).1
  let x := w.slice s
  let packed : Bool := SMap.get 0 w.chip.sizeCodes (line / 32) ≠ 0
  let expanded := x.expand.contains (line / 32)
  if isWrite && packed then some expanded
  else if (SMap.look x.sectors line).isSome || x.evict.contains line then none
  else if !isWrite then (if packed && expanded then none else some false)
  else if (w.allocWays s p).toNat = 0 then some true
  else if 128 ≤ n then none else some false

/-- An access of a pound to HBM waits for tokens: its slice, the pound, and the bucket (R388). -/
def Work.tokenWait (w : Work) (a n : Nat) (isWrite : Bool) (p : Option Nat) : Option (Nat × Nat × Bool) :=
  match w.place a, p with
  | .hbm _, some q => (linesOf a n).findSome? (fun l =>
      let s := (w.arcAt l).1
      match w.lineUse l p isWrite (lineShare a n l) with
      | some b => if w.bucketEmpty s p b then some (s, q, b) else none
      | none => none)
  | _, _ => none

/-- An access waits in a slice for tokens of a pound: the wait counts until the next refill (R388, R414). -/
def Work.markWait (w : Work) (x : Nat × Nat × Bool) : Work :=
  w.modSlice x.1 (fun s =>
    if x.2.2 then { s with wrHeld := without s.wrHeld x.2.1 ++ [x.2.1] }
    else { s with rdHeld := without s.rdHeld x.2.1 ++ [x.2.1] })

/-! ## Coherence with the host-core caches (R335, R358, R363, R364) -/

/-- Another hart than c holds a line of a range after an LR (R326, R368). -/
def Work.heldBy (w : Work) (c : Option Nat) (lo hi : Nat) : Bool :=
  w.chip.cores.any (fun e => c ≠ some e.1 && e.2.lrHold && match e.2.resv with | some g => lo ≤ g && g < hi | none => false)

/-- Bytes of a line's data. -/
def lineBytes (d : LineData) : List Byte := leBytes 128 d.toNat
/-- A line's data from its bytes. -/
def lineOf (bs : List Byte) : LineData := BitVec.ofNat 1024 (leNat bs)

/-- A line written back, with its poison. -/
def Work.putLine (w : Work) (line : Nat) (d : LineData) (poison : BitVec 4) : Work :=
  { w with wr := w.wr ++ (.bytes (line * 128) (lineBytes d) :: (bitList poison).map (fun i => Wr.poison (line * 4 + i))) }

/-- Dirty copies of the lines from lo to hi - 1 in the L2s and their eviction buffers. -/
def Work.dirtyIn (w : Work) (lo hi : Nat) : List (Nat × LineData × BitVec 4) :=
  w.chip.cores.flatMap (fun e =>
    (e.2.lines.filterMap (fun l => if lo ≤ l.1 && l.1 < hi && (l.2.st = .m || l.2.st = .o)
      then some (l.1, l.2.data, l.2.poison) else none)) ++
    (e.2.evict.filterMap (fun l => if lo ≤ l.line && l.line < hi then some (l.line, l.data, l.poison) else none)))

/-- Directory entries of lines lo to hi - 1 after every copy, or every owned copy, has gone. -/
def dirDrop (lo hi : Nat) (keepS : Bool) (d : SMap DirEntry) : SMap DirEntry :=
  d.filterMap (fun e =>
    if e.1 < lo || hi ≤ e.1 then some e
    else if !keepS then none
    else match e.2.st with
      | .s => some e
      | .i => none
      | _ =>
        let p := setBit e.2.present e.2.owner false
        if p = 0 then none else some (e.1, { e.2 with st := .s, present := p }))

/-- Clear the reservations on a range of lines, except one core's (R325, R616). -/
def Work.clearResv (w : Work) (lo hi : Nat) (except : Option Nat) : Work :=
  let dropHost (k : Nat) (x : HostCore) : HostCore := match x.resv with
    | some g => if lo ≤ g && g < hi && except ≠ some k then { x with resv := none } else x
    | none => x
  let dropTile (x : TileCore) : TileCore := match x.reserved with
    | some g => if lo ≤ g && g < hi then { x with reserved := none } else x
    | none => x
  { w with
    chip.cores := SMap.mapVal w.chip.cores dropHost
    chip.tiles := SMap.mapVal w.chip.tiles (fun _ t => { t with cores := SMap.mapVal t.cores (fun _ c => dropTile c) }) }

/-- Take lines lo to hi - 1 from the L2s: dirty data is written to the point of coherence unless the write overwrites
it whole (`discard`); copies in S stay when `keepS` (R335). -/
def Work.snoopRange (w : Work) (lo hi : Nat) (keepS discard : Bool) : Work :=
  let w := if discard then w else w.each (w.dirtyIn lo hi) (fun w l => w.putLine l.1 l.2.1 l.2.2)
  let snoop (x : HostCore) : HostCore :=
    { x with
      lines := x.lines.filter (fun l => !(lo ≤ l.1 && l.1 < hi && (!keepS || l.2.st ≠ .s)))
      evict := x.evict.filter (fun l => !(lo ≤ l.line && l.line < hi)) }
  { w with
    chip.cores := SMap.mapVal w.chip.cores (fun _ x => snoop x)
    chip.homes := SMap.mapVal w.chip.homes (fun _ h => { h with dir := dirDrop lo hi keepS h.dir }) }

/-- Drop the read-ahead entries of lines lo to hi - 1 (R341). -/
def Work.dropAhead (w : Work) (lo hi : Nat) : Work :=
  { w with chip.readAhead := SMap.mapVal w.chip.readAhead (fun _ l => l.filter (fun r => !(lo ≤ r.line && r.line < hi))) }

/-- Drop the lines that a write at SYSTEM scope covers from every read-ahead buffer (R319, R341). -/
def Work.dropLines (w : Work) (lines : List Nat) : Work :=
  { w with chip.readAhead := SMap.mapVal w.chip.readAhead (fun _ l => l.filter (fun r => !lines.contains r.line)) }

/-- Drop every read-ahead entry whose line has been written since it was filled (R319, R321). -/
def Work.dropStale (w : Work) : Work :=
  { w with chip.readAhead := SMap.mapVal w.chip.readAhead (fun _ l => l.filter (fun r => !r.stale)) }

/-- A plain write leaves the read-ahead entries of its lines in place, which then hold old bytes (R335, R341). -/
def Work.staleAhead (w : Work) (lo hi : Nat) : Work :=
  { w with chip.readAhead := SMap.mapVal w.chip.readAhead (fun _ l => l.map (fun r =>
      if lo ≤ r.line && r.line < hi then { r with stale := true } else r)) }

/-- Lines of n bytes at a: the first, and the one past the last. -/
def lineLo (a : Nat) : Nat := a / 128
def lineHi (a n : Nat) : Nat := if n = 0 then a / 128 else (a + n - 1) / 128 + 1

/-- Memory as a volatile read sees it: dirty copies of the range laid over the point of coherence (R337, R363). -/
def Work.seen (w : Work) (a n : Nat) : Mem :=
  (w.each (w.dirtyIn (lineLo a) (lineHi a n)) (fun w l => w.putLine l.1 l.2.1 l.2.2)).mem

/-- Bytes of a tile store whose index is being exchanged as they are once the exchange has completed: the writes that came first and
are held lie over them (R30). -/
def Work.afterExchange (w : Work) (a : Nat) (bs : List Byte) : List Byte :=
  match w.place a with
  | .tile t o =>
    if (w.tile t).st ≠ .exchanging then bs
    else (w.tile t).heldWrites.foldl (fun bs e => bs.zipIdx.map (fun b =>
      if e.1 ≤ o + b.2 && o + b.2 < e.1 + e.2.1.length then e.2.1.getD (o + b.2 - e.1) 0 else b.1)) bs
  | _ => bs

/-- A volatile read of n bytes. -/
def Work.vread (w : Work) (a n : Nat) : List Byte :=
  w.afterExchange (w.local_ a) ((w.seen (w.local_ a) n).read (w.local_ a) n)

/-- A granule of the HBM window has no readable contents: its size code is reserved, or its units do not expand (R406, R407). -/
def Work.badGranule (w : Work) (a : Nat) : Bool :=
  let code := SMap.get 0 w.chip.sizeCodes (a / 4096)
  code ≠ 0 && (8 ≤ code || (expandUnits (SMap.get [] w.chip.units (a / 4096))).isNone)

/-- The first byte that a volatile read finds poisoned (R372, R400, R406). -/
def Work.vpoison (w : Work) (a n : Nat) : Option Nat :=
  let a := w.local_ a
  if n = 0 then none
  else if w.dead a || w.badGranule a then some a
  else if w.dead (a + n - 1) || w.badGranule (a + n - 1) then some (a + n - 1)
  else ((w.seen a n).firstPoison a n).map (fun cw => max a (cw * 32))

/-- Some byte of a range of the tile's store is held by an open chain (R235, R236). -/
def Tile.holds (x : Tile) (off n : Nat) : Bool :=
  x.array.chains.any (fun c => c.ranges.any (fun r => r.1 < off + n && off < r.1 + r.2))

/-- A posted write enters the root port of its address, with the command that issued it (R482). -/
def Work.post (w : Work) (a : Nat) (bs : List Byte) (issuer : Option RemoteWho) : Work :=
  match w.place a with
  | .cxl q | .mmio q _ => w.modPort q (fun x => { x with posted := x.posted ++ [(a, bs, issuer)] })
  | _ => w

/-- The address lies in a root port's MMIO window: its bytes are the device's, not the module's. -/
def Place.isMmio : Place → Bool
  | .mmio _ _ => true
  | _ => false

/-- The address lies in the store of a tile index whose exchange is in progress: an access to it is held (R30). -/
def Work.exchangingAt (w : Work) (a : Nat) : Bool :=
  match w.place a with
  | .tile t _ => (w.tile t).st = .exchanging
  | _ => false

/-- Two names of one writer: a tile's mover, and what it has left outstanding (R334). -/
def sameWriter : Option RemoteWho → Option RemoteWho → Bool
  | some (.mover t m), some (.mover u n) => t = u && m = n
  | some (.mover t _), some (.tile u) => t = u
  | none, _ => false
  | a, b => a = b

/-- A write to a tile store waits: its bytes are held, an exchange of the index is in progress, or an earlier write of its writer
to one of its lines waits (R30, R236, R334). -/
def Work.tileWaits (w : Work) (a n : Nat) (issuer : Option RemoteWho) : Bool :=
  match w.place a with
  | .tile t o =>
    (w.tile t).holds o n || (w.tile t).st = .exchanging ||
    (w.tile t).heldWrites.any (fun e =>
      sameWriter issuer e.2.2 && lineLo e.1 < lineHi o n && lineLo o < lineHi e.1 e.2.1.length)
  | _ => false

/-- A granule written with COMP 0b01: host copies go as the write's kind requires, its slice drops every cached sector of it and
stores it in the form that the granule compresses to (R335, R387, R405). -/
def Work.writeGranule (w : Work) (a : Nat) (bs : List Byte) (publish : Bool) (p : Option Nat) (stream : Option Nat) : Work :=
  let a := w.local_ a
  if w.dead a then w
  else
    let lo := lineLo a
    let hi := lineHi a bs.length
    let g := a / 4096
    let s := (w.arcAt lo).1
    let u := granuleUnits bs
    let w := w.snoopRange lo hi (!publish) false
    let w := w.clearResv lo hi none
    let w := if publish then w.dropAhead lo hi else w.staleAhead lo hi
    let w := (w.charge s p true (if u.1 = 0 then 4096 else 512 * u.1)).modSlice s (fun x =>
      { x with
        sectors := x.sectors.filter (fun e => e.1 / 32 ≠ g)
        evict := x.evict.filter (fun l => l / 32 ≠ g)
        expand := without x.expand g })
    let w := w.each (linesOf a bs.length) (fun w l => w.train l stream p)
    { w with
      chip.sizeCodes := SMap.set 0 w.chip.sizeCodes g u.1
      chip.units := SMap.set [] w.chip.units g u.2 }.put (.bytes a bs)

/-- A write of bytes by an engine or device at the point of coherence: plain or publish (R335), performed; a write to a
channel that has failed is discarded (R400); one to a root port enters it (R482). -/
def Work.pwrite (w : Work) (a : Nat) (bs : List Byte) (publish : Bool) (p : Option Nat)
    (issuer : Option RemoteWho := none) (stream : Option Nat := none) : Work :=
  let a := w.local_ a
  if bs.isEmpty || w.dead a then w
  else if (w.place a).isMmio then w.post a bs issuer
  else if w.tileWaits a bs.length issuer then
    match w.place a with
    | .tile t o => w.modTile t (fun x => { x with heldWrites := x.heldWrites ++ [(o, bs, issuer)] })
    | _ => w
  else
    let w := w.post a bs issuer
    let lo := lineLo a
    let hi := lineHi a bs.length
    let w := w.snoopRange lo hi (!publish) false
    let w := w.clearResv lo hi none
    let w := if publish then w.dropAhead lo hi else w.staleAhead lo hi
    let w := match w.place a with
      | .hbm _ => w.each (linesOf a bs.length) (fun w l =>
          (w.arcWrite l p (lineShare a bs.length l)).train l stream p)
      | _ => w
    w.put (.bytes a bs)

/-- Perform the writes that waited on tile t's held bytes or on its exchange, in order, where nothing holds them now. -/
def Work.releaseHeld (w : Work) (t : Nat) : Work :=
  let l := (w.tile t).heldWrites
  let w := w.modTile t (fun x => { x with heldWrites := [] })
  w.each l (fun w e => w.pwrite (tileAddr t e.1) e.2.1 false none e.2.2)

/-- Poison the code words that a write would hold (R186, R241). -/
def Work.pokePoison (w : Work) (a n : Nat) : Work :=
  if n = 0 then w else w.each ((List.range ((a + n - 1) / 32 - a / 32 + 1)).map (· + a / 32)) (fun w cw => w.put (.poison cw))

/-- Zeros over a range, every copy of it dropped; its granules are raw (R91, R356, R406). -/
def Work.pzero (w : Work) (a n : Nat) : Work :=
  let w := w.snoopRange (lineLo a) (lineHi a n) false (a % 128 = 0 && n % 128 = 0)
  let w := w.clearResv (lineLo a) (lineHi a n) none
  let w := { w with
    chip.sizeCodes := w.chip.sizeCodes.filter (fun e => !(a < (e.1 + 1) * 4096 && e.1 * 4096 < a + n))
    chip.units := w.chip.units.filter (fun e => !(a < (e.1 + 1) * 4096 && e.1 * 4096 < a + n)) }
  (w.dropAhead (lineLo a) (lineHi a n)).put (.zero a n)

/-! ## Interrupt identities and the APLIC's sources (R463, R464; log entry 20) -/

/-- Make identity n pending in file f; identities are 1 to 2,047. -/
def Work.imsicSet (w : Work) (f n : Nat) : Work :=
  if 1 ≤ n && n ≤ 2047 then
    { w with chip.aia.pend := SMap.modify [] w.chip.aia.pend f (fun l => insertBy id n (without l n)) }
  else w

/-- Word of the APLIC at an offset from its M domain. -/
def Work.aplicReg (w : Work) (off : Nat) : W32 := SMap.get 0 w.chip.aia.regs off

/-- Base offset of the domain that holds a source: sourcecfg.D of the M domain delegates it to the S domain. -/
def Work.aplicDomain (w : Work) (src : Nat) : Nat := if bit (w.aplicReg (4 * src)) 10 then 0x8000 else 0

/-- Source mode of a source: 0 inactive, 1 detached, 4 rising, 5 falling, 6 high, 7 low. -/
def Work.aplicMode (w : Work) (src : Nat) : Nat := bits (w.aplicReg (w.aplicDomain src + 4 * src)) 2 0

/-- A source becomes pending; where its domain delivers and the source is enabled, it is sent to its target's file and
is no longer pending. -/
def Work.aplicPend (w : Work) (src : Nat) : Work :=
  let d := w.aplicDomain src
  let t := w.aplicReg (d + 0x3000 + 4 * src)
  if bit (w.aplicReg d) 8 && bit (w.aplicReg (d + 0x1E00 + 4 * (src / 32))) (src % 32) then
    let h := bits t 31 18
    w.imsicSet (if d = 0 then h else 4096 + h * 16 + bits t 17 12) (bits t 10 0)
  else { w with chip.aia.aplic := setBit w.chip.aia.aplic src true }

/-- The event of a wired source: a source that follows its wire becomes pending. -/
def Work.aplicRaise (w : Work) (src : Nat) : Work := if 4 ≤ w.aplicMode src then w.aplicPend src else w

/-- The wire of a source changes to a level: an edge or a level makes it pending, and a level that ends takes its pending bit
back. -/
def Work.aplicWire (w : Work) (src : Nat) (high : Bool) : Work :=
  let was := bit w.chip.aia.wires src
  let w := { w with chip.aia.wires := setBit w.chip.aia.wires src high }
  let mode := w.aplicMode src
  let on := mode = 6 && high || mode = 7 && !high
  let edge := mode = 4 && high && !was || mode = 5 && !high && was
  if on && was ≠ high || edge then w.aplicPend src
  else if 6 ≤ mode && !on then { w with chip.aia.aplic := setBit w.chip.aia.aplic src false }
  else w

/-! ## Fault Rolls (R543 to R548) -/

/-- The contents of a record (R543, R615). -/
structure Rec where
  cls : Nat
  kind : Nat := 0
  id : Nat := 0
  pound : Nat := 0xFF
  action : Nat := 0
  count : Nat := 1
  addr : Nat := 0
  d0 : Nat := 0
  d1 : Nat := 0
  d2 : Nat := 0
  stamp : Option Nat := none
  /-- Written to the summary too, beyond what R544 gives the class (R535, R548, R555). -/
  summary : Bool := false

/-- Classes with SUMMARY set (R544). -/
def summaryClass (c : Nat) : Bool :=
  [0x0104, 0x0107, 0x0108, 0x0305, 0x0306, 0x0402, 0x0403, 0x0405, 0x050C, 0x050E, 0x0701].contains c

/-- The 64 bytes of a record (R543). -/
def Record.bytes (r : Record) : List Byte :=
  let body := leBytes 8 r.stamp.toNat ++ leBytes 4 r.seq.toNat ++ leBytes 2 r.cls.toNat ++ [r.kind, r.flags] ++
    leBytes 2 r.sourceId.toNat ++ [r.pound, r.action] ++ leBytes 4 r.count.toNat ++ leBytes 8 r.addr.toNat ++
    leBytes 8 r.detail0.toNat ++ leBytes 8 r.detail1.toNat ++ leBytes 8 r.detail2.toNat ++ leBytes 4 0
  body ++ leBytes 4 (crc32 body).toNat

/-- Number of records the ring holds, LOG2 bounded to 6-20 (R546). -/
def Rolls.size (r : Rolls) : Nat := 2 ^ (min 20 (max 6 r.log2.toNat))

/-- Keep a record in the buffer while the ring is not enabled (R547). -/
def Work.bufferRecord (w : Work) (r : Record) : Work :=
  let f := w.chip.rolls
  if f.buffer.length < 1024 then { w with chip.rolls.buffer := f.buffer ++ [r] }
  else { w with chip.rolls.lost := satAdd 32 f.lost 1, chip.rolls.lostRun := f.lostRun + 1 }

/-- Write one record to its slot, HEAD after it, and APLIC source 19 (R464, R546). When the write is refused at its
point of coherence, the ring is disabled and the record goes to the buffer (R547). -/
def Work.ringWrite (w : Work) (r : Record) : Work :=
  let f := w.chip.rolls
  let a := f.base.toNat * 4096 + f.head.toNat % f.size * 64
  if !f.enable then w.bufferRecord r
  else if w.dead a then
    { w with chip.rolls.enable := false, chip.rolls.owner := 0xFF }.bufferRecord r
  else
    let w := w.pwrite a r.bytes true none
    { w with chip.rolls.head := f.head + 1 }.aplicRaise 19

/-- A record that has taken its SEQ goes to the ring, after a record of the losses before it; or is lost (R546). -/
def Work.storeRecord (w : Work) (r : Record) : Work :=
  let f := w.chip.rolls
  if !f.enable then w.bufferRecord r
  else
    let used := (f.head - f.tail).toNat
    let need := if f.lostRun = 0 then 1 else 2
    if used + need ≤ f.size then
      if f.lostRun = 0 then w.ringWrite r
      else
        let lostRec : Record := { r with
          seq := 0, cls := 0x0F01, kind := 0, sourceId := 0, pound := 0xFF, action := 0
          count := BitVec.ofNat 32 f.lostRun, addr := 0, detail0 := 0, detail1 := 0, detail2 := 0
          flags := r.flags &&& 2, stamp := BitVec.ofNat 64 w.now }
        { (w.ringWrite lostRec) with chip.rolls.lostRun := 0 }.ringWrite r
    else { w with chip.rolls.lost := satAdd 32 f.lost 1, chip.rolls.lostRun := f.lostRun + 1 }

/-- Write a record to the persistent summary, at most 64 in a second, the newest 8,192 kept (R548). -/
def Work.summaryRecord (w : Work) (r : Record) : Work :=
  let f := w.chip.rolls
  if 64 ≤ f.rateSummary then { w with chip.rolls.sumSuppressed := satAdd 16 f.sumSuppressed 1 }
  else
    let l := w.chip.flash.summary.records ++ [r]
    { w with
      chip.rolls.rateSummary := f.rateSummary + 1
      chip.rolls.sumWritten := satAdd 32 f.sumWritten 1
      chip.flash.summary.records := l.drop (l.length - 8192) }

/-- Create a record: it takes the next SEQ, and goes to the ring or the buffer, and to the summary when SUMMARY is set
(R543, R546 to R548). -/
def Work.record (w : Work) (x : Rec) : Work :=
  let s := x.summary || summaryClass x.cls
  let seq := w.chip.rolls.seq + 1
  let r : Record := {
    stamp := BitVec.ofNat 64 (x.stamp.getD w.now)
    seq := seq
    cls := BitVec.ofNat 16 x.cls
    kind := BitVec.ofNat 8 x.kind
    flags := BitVec.ofNat 8 (b2n s + 2 * b2n w.locked)
    sourceId := BitVec.ofNat 16 x.id
    pound := BitVec.ofNat 8 x.pound
    action := BitVec.ofNat 8 x.action
    count := BitVec.ofNat 32 x.count
    addr := BitVec.ofNat 64 x.addr
    detail0 := BitVec.ofNat 64 x.d0
    detail1 := BitVec.ofNat 64 x.d1
    detail2 := BitVec.ofNat 64 x.d2 }
  let w := { w with chip.rolls.seq := seq, chip.rolls.seqReg := seq }
  let w := w.storeRecord r
  if s then w.summaryRecord r else w

/-- A record of class "register access" by a host core (R8, R11). -/
def Work.recReg (w : Work) (c a : Nat) (isWrite : Bool) (size : Nat) (v : Nat) : Work :=
  w.record { cls := 0x0101, kind := 1, id := c, pound := optPound (w.coreOwner c), action := if isWrite then 6 else 0,
             addr := a, d0 := b2n isWrite + size % 16 * 256, d1 := if isWrite then v else 0 }

/-- A record of class "ownership", at most 1,000 in a second for each pound; further ones count only (R70, R545). -/
def Work.recOwner (w : Work) (kind id : Nat) (p : Option Nat) (a status : Nat) : Work :=
  let k := optPound p
  let n := SMap.get 0 w.chip.rolls.rateOwner k
  if 1000 ≤ n then
    let w := { w with chip.rolls.suppressed := satAdd 32 w.chip.rolls.suppressed 1 }
    match p with
    | some p => { w with chip.rolls.deny := SMap.modify 0 w.chip.rolls.deny p (fun n => satAdd 32 n 1) }
    | none => w
  else
    { w with chip.rolls.rateOwner := SMap.set 0 w.chip.rolls.rateOwner k (n + 1) }.record
      { cls := 0x0302, kind := kind, id := id, pound := k, action := 6, addr := a, d0 := k, d1 := status }

/-- A record of class "address" (R24). -/
def Work.recAddr (w : Work) (kind id : Nat) (p : Option Nat) (a status : Nat) : Work :=
  w.record { cls := 0x0301, kind := kind, id := id, pound := optPound p, action := 6, addr := a, d0 := status }

/-- The record that a refused access of an engine or device writes (R24, R70). -/
def Work.recAcc (w : Work) (acc : Acc) (kind id : Nat) (p : Option Nat) (a statusMapped statusDenied : Nat) : Work :=
  match acc with
  | .ok => w
  | .notMapped => w.recAddr kind id p a statusMapped
  | .denied => w.recOwner kind id p a statusDenied

/-- Record that a remote operation failed, at most 1,000 in a second (R446). -/
def Work.recRemote (w : Work) (kind id : Nat) (p : Option Nat) (gaddr status : Nat) : Work :=
  if 1000 ≤ w.chip.rolls.rateRemote then { w with chip.rolls.suppressed := satAdd 32 w.chip.rolls.suppressed 1 }
  else { w with chip.rolls.rateRemote := w.chip.rolls.rateRemote + 1 }.record
    { cls := 0x0705, kind := kind, id := id, pound := optPound p, action := 6, addr := gaddr, d0 := status }

/-- Drive FAULT_N low (R597): 1 released by module cold reset only, 2 by an uncore warm reset too. -/
def Work.driveFault (w : Work) (waits : Nat) : Work :=
  { w with chip.boot.faultN := true, chip.boot.waits := if w.chip.boot.waits = 1 then 1 else waits }

end Sys2Proof.Machine
end

