-- ==== Sys2Proof/Machine/Fabric.lean ====
section
/-!
DEFINITION. Messages of the Nyulle fabric, their routes, and the remote requests of this module's engines,
and the messages of its collectives (R434 to R446, R454, R456).
-/

namespace Sys2Proof.Machine

/-! ## Message bodies (R441, R454) -/

/-- The 48 body bytes of a request or a response (R441). -/
def nylBody (dst src op hops len offset tag status : Nat) (operand : List Byte) : List Byte :=
  leBytes 2 dst ++ leBytes 2 src ++ leBytes 1 op ++ leBytes 1 hops ++ leBytes 2 len ++ leBytes 8 offset ++ leBytes 4 tag ++
  leBytes 2 status ++ leBytes 2 0 ++ splice (List.replicate 16 0) 0 operand ++ leBytes 8 0

def NylMsg.dst (m : NylMsg) : Nat := leAt m.body 0 2
def NylMsg.src (m : NylMsg) : Nat := leAt m.body 2 2
def NylMsg.op (m : NylMsg) : Nat := leAt m.body 4 1
def NylMsg.hops (m : NylMsg) : Nat := leAt m.body 5 1
def NylMsg.len (m : NylMsg) : Nat := leAt m.body 6 2 + 1
def NylMsg.offset (m : NylMsg) : Nat := leAt m.body 8 8
def NylMsg.tag (m : NylMsg) : Nat := leAt m.body 16 4
def NylMsg.status (m : NylMsg) : Nat := leAt m.body 20 2
def NylMsg.operand (m : NylMsg) : List Byte := (m.body.drop 24).take 16
/-- Classes of messages (R428). -/
def NylMsg.isRequest (m : NylMsg) : Bool := 1 ≤ m.op && m.op ≤ 6
def NylMsg.isResponse (m : NylMsg) : Bool := 0x41 ≤ m.op && m.op ≤ 0x4F
def NylMsg.isCollective (m : NylMsg) : Bool := 0x81 ≤ m.op && m.op ≤ 0x83
/-- Data flits of a message (R420). -/
def NylMsg.ndata (m : NylMsg) : Nat := (m.data.length + 63) / 64
/-- Flits of a message. -/
def NylMsg.flits (m : NylMsg) : Nat := 1 + m.ndata

/-! ## Routes (R436, R437) -/

/-- The pound that sets TRANSIT_DEFAULT. -/
def Work.transitDefault (w : Work) : Option Nat :=
  w.ownerBy (fun g => match g.routes with | some r => r.transitDefault | none => false)

/-- The link is up, a retry of it under way included. -/
def Work.linkUp (w : Work) (l : Nat) : Bool := (w.link l).st = .up || (w.link l).st = .retrying

/-- The hash of R437. -/
def routeHash (dst src offset : Nat) : Nat :=
  let x : W32 := BitVec.ofNat 32 dst * 0x9E37_79B9#32
  let x := x ^^^ BitVec.ofNat 32 (offset / 4096)
  let x := x ^^^ (BitVec.ofNat 32 src <<< 16)
  let x := x * 0x85EB_CA6B#32
  (x ^^^ (x >>> 13)).toNat

/-- The link that the table of pound p gives a message (R437). -/
def Work.route (w : Work) (p : Option Nat) (dst src offset : Nat) : Option Nat :=
  match (p.bind w.cfg?).bind (fun g => g.routes) with
  | none => none
  | some r =>
    match r.entries.find? (fun e => e.modFirst ≤ dst && dst ≤ e.modLast) with
    | none => none
    | some e =>
      let up := (bitList e.links).filter w.linkUp
      if up.isEmpty then none
      else if e.ordered then up.head?
      else up[routeHash dst src offset % up.length]?

/-- Route a message by the table of a pound and queue it on its link; none where there is no route. On forwarding, the
escape bit follows R438. -/
def Work.sendMsg (w : Work) (p : Option Nat) (m : NylMsg) : Work × Option Nat :=
  match w.route p m.dst m.src m.offset with
  | none => (w, none)
  | some l =>
    let esc := match m.inbound, (p.bind w.cfg?).bind (fun g => g.routes) with
      | some i, some r =>
        let keep := if r.group.getD l 0 = r.group.getD i 0 then m.vc % 2 else 0
        if bit r.dateline l then 1 else keep
      | _, _ => 0
    (w.modLink l (fun x => { x with queue := x.queue ++ [{ m with vc := m.vc / 2 * 2 + esc, pound := p }] }), some l)

/-! ## Remote requests of this module (R440 to R446) -/

/-- SOURCE_KIND and SOURCE_ID of an engine. -/
def RemoteWho.source : RemoteWho → Nat × Nat
  | .mover t _ => (2, t)
  | .command q _ => (8, q % 16)
  | .power _ => (8, 0)
  | .core c => (1, c)
  | .tile t => (2, t)

/-- Requests of an engine that are outstanding. -/
def Work.outstanding (w : Work) (who : RemoteWho) : Nat := (w.chip.remotes.filter (fun e => e.2.who = who)).length

/-- A write of the engine waits on held bytes of a tile, or on an exchange (R30, R236). -/
def Work.heldFor (w : Work) (who : RemoteWho) : Bool :=
  w.chip.tiles.any (fun e => e.2.heldWrites.any (fun h => h.2.2 = some who))

/-- Every request of the engine has its response, and every write is visible, none held in a root port (R143, R444, R482). -/
def Work.xferQuiet (w : Work) (who : RemoteWho) : Bool :=
  w.outstanding who = 0 && !w.heldFor who &&
  !w.chip.ports.any (fun p => p.2.reqs.any (fun r => r.who = some who) || p.2.posted.any (fun x => x.2.2 = some who))

/-- What an engine still waits for when it stops at once: its reads are forgotten, and its writes that are not visible yet stay
outstanding under another name (R144, R156, R319, R444). -/
def Work.leaveWrites (w : Work) (who as : RemoteWho) : Work :=
  let name (r : Option RemoteWho) : Option RemoteWho := if r = some who then some as else r
  { w with
    chip.remotes := (w.chip.remotes.filter (fun r => !(r.2.who = who && r.2.op = 1))).map (fun r =>
      if r.2.who = who then (r.1, { r.2 with who := as }) else r)
    chip.ports := SMap.mapVal w.chip.ports (fun _ p => { p with
      posted := p.posted.map (fun x => (x.1, x.2.1, name x.2.2))
      reqs := p.reqs.map (fun r => if r.who = some who then { r with who := none, dst := none } else r) })
    chip.tiles := SMap.mapVal w.chip.tiles (fun _ t => { t with heldWrites := t.heldWrites.map (fun x => (x.1, x.2.1, name x.2.2)) }) }

/-- Outstanding requests that an engine may have (R442). -/
def RemoteWho.limit : RemoteWho → Nat
  | .mover _ _ => 64
  | .command _ _ => 256
  | .power _ => 256
  | .core _ => 0
  | .tile _ => 0

/-- Send a remote request, all of it within one granule: nothing, or the status 0x0102 where there is no route, with a
record (R437, R446). -/
def Work.issueRemote (w : Work) (who : RemoteWho) (p : Option Nat) (op gaddr len : Nat) (data operand : List Byte)
    (r : Remote) : Work × Option Nat :=
  let tag := w.chip.nextTag
  let m : NylMsg :=
    { vc := 0, body := nylBody (gaddr / 2 ^ 40 % 2 ^ 15) w.moduleId op 0 (len - 1) (gaddr % 2 ^ 40) tag 0 operand, data := data,
      poison := [], inbound := none, pound := p }
  match w.sendMsg p m with
  | (w, none) => (w.recRemote who.source.1 who.source.2 p gaddr 0x102, some 0x102)
  | (w, some l) =>
    ({ w with
      chip.nextTag := (tag + 1) % 2 ^ 32
      chip.remotes := SMap.insert (SMap.erase w.chip.remotes tag) tag
        { r with who := who, gaddr := BitVec.ofNat 64 gaddr, link := some l, op := op, len := len } }, none)

/-- A request of no engine yet. -/
def Remote.blank : Remote :=
  { who := .command 0 0, gaddr := 0, link := none, op := 0, len := 0, va := 0, lost := false, dst := none, pos := 0, publish := false }

/-! ## Messages of collectives (R454, R456) -/

/-- The 48 body bytes of a collective message. -/
def collBody (dst src op len offset group inst hash piece phase blocks status : Nat) : List Byte :=
  leBytes 2 dst ++ leBytes 2 src ++ leBytes 1 op ++ leBytes 1 0 ++ leBytes 2 len ++ leBytes 8 offset ++ leBytes 4 group ++
  leBytes 4 inst ++ leBytes 8 hash ++ leBytes 4 piece ++ leBytes 1 phase ++ leBytes 1 blocks ++ leBytes 2 status ++ leBytes 8 0

def NylMsg.group (m : NylMsg) : Nat := leAt m.body 16 4
def NylMsg.inst (m : NylMsg) : Nat := leAt m.body 20 4
def NylMsg.hash (m : NylMsg) : Nat := leAt m.body 24 8
def NylMsg.piece (m : NylMsg) : Nat := leAt m.body 32 4
def NylMsg.phase (m : NylMsg) : Nat := leAt m.body 36 1

/-- Module IDs of a member's successor and predecessor (R449). -/
def Coll.succ (c : Coll) : Nat := c.members.getD ((c.rank + 1) % max 1 c.members.length) 0
def Coll.pred (c : Coll) : Nat := c.members.getD ((c.rank + c.members.length - 1) % max 1 c.members.length) 0

/-- Send a collective message; without a route it is dropped (R437). -/
def Work.sendColl (w : Work) (c : Coll) (dst op len offset piece phase blocks status : Nat) (data : List Byte) : Work :=
  (w.sendMsg (some c.pound)
    { vc := 4, body := collBody dst w.moduleId op len offset c.groupId.toNat c.inst.toNat c.hash.toNat piece phase blocks status
      data := data, poison := [], inbound := none, pound := none }).1

/-- A collective ends with a status: CABORT goes to its predecessor and its successor, and its engine slot is free (R456). -/
def Work.endColl (w : Work) (c : Coll) (status : Nat) : Work :=
  let w := { w with chip.colls := w.chip.colls.filter (fun d => !(d.sq = c.sq && d.seq = c.seq)) }
  w.each [c.pred, c.succ].eraseDups (fun w d => w.sendColl c d 0x83 0 0 0 0 0 status [])

end Sys2Proof.Machine
end

