-- ==== Sys2Proof/Machine/Iommu.lean ====
section
/-!
DEFINITION. The IOMMU and the interrupt files: translation of every address that an engine or a device presents, the
fault queue, MSI translation, and the APLIC's sources (R463, R464, R467 to R470). The walks follow the RISC-V IOMMU
specification v1.0 and the AIA, which the rules name (log entry 20).
-/

namespace Sys2Proof.Machine

/-! ## IMSIC and APLIC (R463, R464) -/

/-- The interrupt file that a control-region offset lies in: M-level and S-level or guest files. -/
def imsicFile (off : Nat) : Option Nat :=
  if 0x0800_0000 ≤ off && off < 0x0800_0000 + 96 * 0x1000 then some ((off - 0x0800_0000) / 0x1000)
  else if 0x0A00_0000 ≤ off && off < 0x0A00_0000 + 96 * 0x1_0000 then some (4096 + (off - 0x0A00_0000) / 0x1000)
  else none

/-- Hart of an interrupt file. -/
def imsicHart (f : Nat) : Nat := if f < 4096 then f else (f - 4096) / 16

/-! ## Registers of the IOMMU -/

/-- 32-bit word of the register file at an offset. -/
def Work.iommu32 (w : Work) (off : Nat) : W32 := SMap.get 0 w.chip.iommu.regs off
def Work.setIommu32 (w : Work) (off v : Nat) : Work :=
  { w with chip.iommu.regs := SMap.set 0 w.chip.iommu.regs off (BitVec.ofNat 32 v) }
/-- 64-bit register at an offset. -/
def Work.iommu64 (w : Work) (off : Nat) : W64 :=
  BitVec.ofNat 64 ((w.iommu32 off).toNat + (w.iommu32 (off + 4)).toNat * 2 ^ 32)

/-- Send an interrupt of the IOMMU by MSI: vector v of its table, when it is not masked (R467). -/
def Work.iommuMsi (w : Work) (v : Nat) : Work :=
  let a := bits (w.iommu64 (0x300 + 16 * v)) 55 0
  if bit (w.iommu32 (0x30C + 16 * v)) 0 then w
  else match w.place a with
    | .control o => (match imsicFile o with | some f => w.imsicSet f (w.iommu32 (0x308 + 16 * v)).toNat | none => w)
    | .lpd _ _ | .hbm _ => w.pwrite a (leBytes 4 (w.iommu32 (0x308 + 16 * v)).toNat) true none
    | _ => w

/-- Set pending bit i of ipsr and send its interrupt. -/
def Work.iommuIrq (w : Work) (i : Nat) : Work :=
  (w.setIommu32 0x54 (setBit (w.iommu32 0x54) i true).toNat).iommuMsi (bits (w.iommu64 0x2F8) (4 * i + 3) (4 * i))

/-- Write a record to the fault queue: cause, transaction type, device ID, PASID and address (R469). -/
def Work.iommuFault (w : Work) (cause ttyp dev : Nat) (pasid : Option Nat) (va va2 : Nat) : Work :=
  let csr := w.iommu32 0x4C
  if !bit csr 16 || bit csr 9 || bit csr 8 then w
  else
    let q := w.iommu64 0x28
    let size := 2 ^ (bits q 4 0 + 1)
    let head := (w.iommu32 0x30).toNat
    let tail := (w.iommu32 0x34).toNat
    if (tail + 1) % size = head % size then
      let w := w.setIommu32 0x4C (setBit csr 9 true).toNat
      if bit csr 1 then w.iommuIrq 1 else w
    else
      let rec0 := cause + pasid.getD 0 * 2 ^ 12 + b2n pasid.isSome * 2 ^ 32 + ttyp * 2 ^ 34 + dev * 2 ^ 40
      let w := w.pwrite (bits q 53 10 * 4096 + tail % size * 32) (leBytes 8 rec0 ++ leBytes 8 0 ++ leBytes 8 va ++ leBytes 8 va2)
        true none
      let w := w.setIommu32 0x34 ((tail + 1) % size)
      if bit csr 1 then w.iommuIrq 1 else w

/-! ## Page-table walks -/

/-- A doubleword of a table in memory, read at the point of coherence: cause `af` where it lies nowhere, `dc` where it is
poisoned. -/
def Work.table64 (w : Work) (af dc a : Nat) : Except (Nat × Nat) W64 :=
  if !(w.place a).mainMemory then .error (af, 0)
  else if (w.vpoison a 8).isSome then .error (dc, 0)
  else .ok (BitVec.ofNat 64 (leNat (w.vread a 8)))

/-- The result of a walk: a physical address, or the cause of the fault and the second address of its record. -/
abbrev Walk := Work × Except (Nat × Nat) Nat

/-- Walk a page table of n levels from page `table`. `s2` translates the address of each entry, for a read or, where A or D
is updated, a write; `wide` gives the first index two bits more; `pf` is what a page fault reports and `af` the access-fault
cause; `ade` lets hardware update A and D. -/
def Work.ptWalk (w : Work) (s2 : Work → Bool → Nat → Walk) (wide : Bool) (pf : Nat × Nat) (af : Nat) (ade isWrite : Bool)
    (va : Nat) : Nat → Nat → Walk
  | 0, _ => (w, .error pf)
  | n + 1, table =>
    let entry := table * 4096 + va / 2 ^ (12 + 9 * n) % (if wide then 2048 else 512) * 8
    match s2 w false entry with
    | (w, .error e) => (w, .error e)
    | (w, .ok a) =>
      match w.table64 af 274 a with
      | .error e => (w, .error e)
      | .ok pte =>
        let ppn := bits pte 53 10
        if !bit pte 0 || (!bit pte 1 && bit pte 2) || bits pte 60 54 ≠ 0 || bits pte 62 61 = 3 then (w, .error pf)
        else if bit pte 1 || bit pte 3 then
          let napot := bit pte 63
          let low := if napot then 16 else 2 ^ (9 * n)
          if !bit pte 4 || !(if isWrite then bit pte 2 else bit pte 1) then (w, .error pf)
          else if napot && (n ≠ 0 || ppn % 16 ≠ 8) || !napot && ppn % low ≠ 0 then (w, .error pf)
          else
            let pa := (ppn / low * low + va / 4096 % low) * 4096 + va % 4096
            if bit pte 6 && (bit pte 7 || !isWrite) then (w, .ok pa)
            else if !ade then (w, .error pf)
            else match s2 w true entry with
              | (w, .error e) => (w, .error e)
              | (w, .ok a) =>
                (w.pwrite a (leBytes 8 (setBit (setBit pte 6 true) 7 (bit pte 7 || isWrite)).toNat) false none, .ok pa)
        else if bit pte 4 || bit pte 6 || bit pte 7 || bit pte 63 || bits pte 62 61 ≠ 0 then (w, .error pf)
        else Work.ptWalk w s2 false pf af ade isWrite va n ppn

/-- Levels of a page-table mode: 8 Sv39, 9 Sv48, 10 Sv57. -/
def ptLevels (mode : Nat) : Nat := if mode = 8 then 3 else if mode = 9 then 4 else if mode = 10 then 5 else 0

/-- Second stage: iohgatp and GADE of the device context. The guest page fault carries the guest address; for the implicit
access to a table it also says so (`implicit`), and its cause follows the access that is translated (`causeWrite`). -/
def Work.gStage (w : Work) (gatp : W64) (gade causeWrite implicit isWrite : Bool) (gpa : Nat) : Walk :=
  let mode := bits gatp 63 60
  let pf := (if causeWrite then 23 else 21, gpa / 4 * 4 + (if implicit then 1 + 2 * b2n isWrite else 0))
  if mode = 0 then (w, .ok gpa)
  else
    let n := ptLevels mode
    if 2 ^ (14 + 9 * n) ≤ gpa then (w, .error pf)
    else w.ptWalk (fun w _ a => (w, .ok a)) true pf (if causeWrite then 7 else 5) gade isWrite gpa n (bits gatp 43 0)

/-- First stage: an iosatp word. A virtual address is canonical: its upper bits repeat the highest one translated. -/
def Work.fStage (w : Work) (satp gatp : W64) (sade gade isWrite : Bool) (va : Nat) : Walk :=
  let mode := bits satp 63 60
  let pf := (if isWrite then 15 else 13, 0)
  if mode = 0 then (w, .ok va)
  else
    let n := ptLevels mode
    let width := 12 + 9 * n
    let top := va / 2 ^ (width - 1)
    if top ≠ 0 && top ≠ 2 ^ (65 - width) - 1 then (w, .error pf)
    else w.ptWalk (fun w wr a => w.gStage gatp gade isWrite true wr a) false pf (if isWrite then 7 else 5) sade isWrite va n
      (bits satp 43 0)

/-- A device context in extended format (R467). -/
structure DevCtx where
  tc : W64
  gatp : W64
  ta : W64
  fsc : W64
  msiptp : W64
  msiMask : W64
  msiPattern : W64
deriving DecidableEq, Repr

/-- A mode field that names no page table of R467. -/
def badMode (mode : Nat) : Bool := mode ≠ 0 && ptLevels mode = 0

/-- A device context that is misconfigured: reserved bits; PRI or T2GPA without ATS; a default process without a process
directory; modes that R467 does not name; a second-stage root that is not aligned to 16 KiB. -/
def DevCtx.bad (c : DevCtx) : Bool :=
  bits c.tc 63 10 ≠ 0 || bit c.tc 3 || (!bit c.tc 1 && bit c.tc 2) || (!bit c.tc 2 && bit c.tc 6) || (!bit c.tc 5 && bit c.tc 9) ||
  (if bit c.tc 5 then 3 < bits c.fsc 63 60 else badMode (bits c.fsc 63 60)) || bits c.fsc 59 44 ≠ 0 ||
  badMode (bits c.gatp 63 60) || (bits c.gatp 63 60 ≠ 0 && bits c.gatp 1 0 ≠ 0) ||
  bits c.ta 11 0 ≠ 0 || bits c.ta 63 32 ≠ 0 ||
  1 < bits c.msiptp 63 60 || bits c.msiptp 59 44 ≠ 0 || bits c.msiMask 63 52 ≠ 0 || bits c.msiPattern 63 52 ≠ 0

/-- Walk the device directory of n levels from page `table`. -/
def Work.ddtWalk (w : Work) (dev : Nat) : Nat → Nat → Except (Nat × Nat) DevCtx
  | 0, _ => .error (259, 0)
  | 1, table => do
    let word (i : Nat) := w.table64 257 268 (table * 4096 + dev % 64 * 64 + 8 * i)
    let c : DevCtx :=
      { tc := ← word 0, gatp := ← word 1, ta := ← word 2, fsc := ← word 3, msiptp := ← word 4, msiMask := ← word 5
        msiPattern := ← word 6 }
    let last ← word 7
    if !bit c.tc 0 then .error (258, 0)
    else if c.bad || last ≠ 0 then .error (259, 0)
    else .ok c
  | n + 2, table => do
    let idx := if n = 0 then dev / 64 % 512 else dev / 2 ^ 15 % 512
    let e ← w.table64 257 268 (table * 4096 + idx * 8)
    if !bit e 0 then .error (258, 0)
    else if bits e 9 1 ≠ 0 || bits e 63 54 ≠ 0 then .error (259, 0)
    else Work.ddtWalk w dev (n + 1) (bits e 53 10)

/-- Walk the process directory of n levels; its addresses are guest physical. -/
def Work.pdtWalk (w : Work) (c : DevCtx) (isWrite : Bool) (pid : Nat) : Nat → Nat → Work × Except (Nat × Nat) (W64 × W64)
  | 0, _ => (w, .error (267, 0))
  | n + 1, table =>
    let idx := if n = 0 then pid % 256 else if n = 1 then pid / 256 % 512 else pid / 2 ^ 17
    let size := if n = 0 then 16 else 8
    match w.gStage c.gatp (bit c.tc 7) isWrite true false (table * 4096 + idx * size) with
    | (w, .error e) => (w, .error e)
    | (w, .ok a) =>
      match w.table64 265 269 a with
      | .error e => (w, .error e)
      | .ok e =>
        if !bit e 0 then (w, .error (266, 0))
        else if n = 0 then
          match w.table64 265 269 (a + 8) with
          | .error e => (w, .error e)
          | .ok f =>
            if bits e 11 3 ≠ 0 || bits e 63 32 ≠ 0 || badMode (bits f 63 60) || bits f 59 44 ≠ 0 then (w, .error (267, 0))
            else (w, .ok (e, f))
        else if bits e 9 1 ≠ 0 || bits e 63 54 ≠ 0 then (w, .error (267, 0))
        else Work.pdtWalk w c isWrite pid n (bits e 53 10)

/-- The device context of a device ID: ddtp's mode selects the levels; Off allows nothing. None in Bare mode. -/
def Work.devCtx (w : Work) (dev : Nat) : Except (Nat × Nat) (Option DevCtx) :=
  let p := w.iommu64 0x10
  match bits p 3 0 with
  | 1 => .ok none
  | 2 => if 64 ≤ dev then .error (260, 0) else (w.ddtWalk dev 1 (bits p 53 10)).map some
  | 3 => if 2 ^ 15 ≤ dev then .error (260, 0) else (w.ddtWalk dev 2 (bits p 53 10)).map some
  | 4 => (w.ddtWalk dev 3 (bits p 53 10)).map some
  | _ => .error (256, 0)

/-- An address that the MSI pattern of a device context covers. -/
def DevCtx.isMsi (c : DevCtx) (gpa : Nat) : Bool :=
  bits c.msiptp 63 60 = 1 &&
  (BitVec.ofNat 52 (gpa / 4096)) &&& ~~~(c.msiMask.setWidth 52) = (c.msiPattern.setWidth 52) &&& ~~~(c.msiMask.setWidth 52)

/-- Translate an address through the flat MSI page table (R468). -/
def Work.msiWalk (w : Work) (c : DevCtx) (gpa : Nat) : Except (Nat × Nat) Nat := do
  let page := BitVec.ofNat 52 (gpa / 4096)
  let n := ((List.range 52).foldl (fun (a : Nat × Nat) i =>
    if bit c.msiMask i then (a.1 + (if page.getLsbD i then 2 ^ a.2 else 0), a.2 + 1) else a) (0, 0)).1
  let e ← w.table64 261 270 (bits c.msiptp 43 0 * 4096 + n * 16)
  if !bit e 0 then .error (262, 0)
  else if bits e 2 1 ≠ 3 || bits e 9 3 ≠ 0 || bits e 63 54 ≠ 0 then .error (263, 0)
  else .ok (bits e 53 10 * 4096 + gpa % 4096)

/-- The full walk for a device, PASID and virtual address: the physical address with the GSCID and PSCID, and whether it came
through an MSI page table. -/
def Work.walk (w : Work) (dev : Nat) (pasid : Option Nat) (va : Nat) (isWrite : Bool) :
    Work × Except (Nat × Nat) (Nat × Nat × Nat × Bool) :=
  match w.devCtx dev with
  | .error e => (w, .error e)
  | .ok none => (w, .ok (va, 0, 0, false))
  | .ok (some c) =>
    let gscid := bits c.gatp 59 44
    let stage2 (r : Walk) (pscid : Nat) : Work × Except (Nat × Nat) (Nat × Nat × Nat × Bool) :=
      match r with
      | (w, .error e) => (w, .error e)
      | (w, .ok gpa) =>
        if c.isMsi gpa then (w, (w.msiWalk c gpa).map (fun a => (a, gscid, pscid, true)))
        else match w.gStage c.gatp (bit c.tc 7) isWrite false isWrite gpa with
          | (w, .error e) => (w, .error e)
          | (w, .ok a) => (w, .ok (a, gscid, pscid, false))
    let first (satp : W64) (pscid : Nat) :=
      stage2 (w.fStage satp c.gatp (bit c.tc 8) (bit c.tc 7) isWrite va) pscid
    if !bit c.tc 5 then (match pasid with
      | some _ => (w, .error (260, 0))
      | none => first c.fsc (bits c.ta 31 12))
    else
      let pid := match pasid with | some p => some p | none => if bit c.tc 9 then some 0 else none
      let mode := bits c.fsc 63 60
      match pid with
      | none => stage2 (w, .ok va) 0
      | some pid =>
        if mode = 0 then stage2 (w, .ok va) 0
        else if (mode = 1 && 256 ≤ pid) || (mode = 2 && 2 ^ 17 ≤ pid) then (w, .error (260, 0))
        else match w.pdtWalk c isWrite pid mode (bits c.fsc 43 0) with
          | (w, .error e) => (w, .error e)
          | (w, .ok (ta, fsc)) =>
            stage2 (w.fStage fsc c.gatp (bit c.tc 8) (bit c.tc 7) isWrite va) (bits ta 31 12)

/-- Causes that are reported although the device context disables fault reports (DTF): those before it is known. -/
def alwaysReported (cause : Nat) : Bool := (256 ≤ cause && cause ≤ 259) || cause = 268

/-- The device context of a device ID disables the report of its faults. -/
def Work.faultsOff (w : Work) (dev : Nat) : Bool :=
  match w.devCtx dev with
  | .ok (some c) => bit c.tc 4
  | _ => false

/-- Entries that a translation cache holds (R470); the IOMMU's own is given 512 (log entry 21). -/
def cacheSize (id : Nat) : Nat := if id < 160 then 128 else 512

/-- Translate an address that an agent presents, through the cache that serves it: a cached translation is used until
it is invalidated or displaced; a fault is written to the fault queue (R469, R470). -/
def Work.translateMsi (w : Work) (cache dev : Nat) (pasid : Option Nat) (va : Nat) (isWrite : Bool) :
    Work × Option (Nat × Bool) :=
  let id := pasid.getD (2 ^ 20)
  let entries := SMap.get [] w.chip.iommu.cache cache
  match entries.find? (fun e => e.dev = dev && e.pasid = id && e.vpage = va / 4096 && (e.writes || !isWrite)) with
  | some e => (w, some (e.ppage * 4096 + va % 4096, e.msi))
  | none =>
    match w.walk dev pasid va isWrite with
    | (w, .error (cause, va2)) =>
      (if !alwaysReported cause && w.faultsOff dev then w else w.iommuFault cause (if isWrite then 3 else 2) dev pasid va va2, none)
    | (w, .ok (a, g, p, msi)) =>
      let e : Xlat :=
        { dev := dev, pasid := id, vpage := va / 4096, ppage := a / 4096, writes := isWrite, gscid := g, pscid := p, msi := msi }
      let l := (entries ++ [e]).drop (entries.length + 1 - cacheSize cache)
      ({ w with chip.iommu.cache := SMap.set [] w.chip.iommu.cache cache l }, some (a, msi))

/-- Translate an address. -/
def Work.translate (w : Work) (cache dev : Nat) (pasid : Option Nat) (va : Nat) (isWrite : Bool) : Work × Option Nat :=
  let (w, r) := w.translateMsi cache dev pasid va isWrite
  (w, r.map (·.1))

/-- Device ID of the engines of a pound (R468). -/
def poundDev (p : Nat) : Nat := 0x10_0000 + p
/-- Device ID of a RoCE engine. -/
def roceDev (e : Nat) : Nat := 0x10_0100 + e
/-- Translation cache of command processor n, and the IOMMU's own. -/
def cpCache (n : Nat) : Nat := 160 + n
def ownCache : Nat := 176

/-- The outcome of one access of an engine (R24, R70, R372, R469): a status of R297, or performed. -/
inductive Res (α : Type) where
  | ok (x : α)
  | bad (status : Nat) (addr : Nat)
deriving Repr

/-- Ring, acknowledgement and notice accesses, whose failures have records of their own (R285, R302). -/
def Who.quiet : Who → Bool
  | .ring _ => true
  | _ => false

/-- Translate and check an access that does not cross a page: the physical address, or the status and a record, which
holds the mover status where a mover asks (R24, R70, R144, R469). A global address comes back as it is. -/
def Work.reach (w : Work) (cache dev : Nat) (pasid : Option Nat) (who : Who) (kind id va n : Nat) (isWrite : Bool) :
    Work × Res Nat :=
  match w.translate cache dev pasid va isWrite with
  | (w, none) => (w, .bad 6 va)
  | (w, some a) =>
    match w.place a with
    | .glob _ _ => (w, .ok a)
    | _ =>
      match w.acc who a n isWrite with
      | .ok => (w, .ok (w.local_ a))
      | .notMapped => (if who.quiet then w else w.recAddr kind id (w.whoPound who) a (if kind = 2 then 1 else 4), .bad 4 va)
      | .denied => (if who.quiet then w else w.recOwner kind id (w.whoPound who) a (if kind = 2 then 2 else 5), .bad 5 va)

/-- Cut a range of virtual addresses at page boundaries: (address, bytes) in order. -/
def pieces (va n : Nat) : List (Nat × Nat) :=
  if n = 0 then []
  else (List.range ((va + n - 1) / 4096 - va / 4096 + 1)).map (fun i =>
    let lo := if i = 0 then va else (va / 4096 + i) * 4096
    let hi := min (va + n) ((va / 4096 + i + 1) * 4096)
    (lo, hi - lo))

/-- Bytes that a device gives: free values (log entry 3). -/
def Work.deviceBytes (w : Work) (n : Nat) : Work × List Byte :=
  ({ w with chip.free := w.chip.free + n },
    (List.range n).map (fun i => (Config.freeWord (w.chip.free + i)).setWidth 8))

/-! ## Inbound read-ahead (R341) -/

/-- A read of a range through inbound read-ahead buffer b: a line that the buffer holds gives the entry's bytes, another one is read
at the point of coherence. The bytes, and the first poisoned one. -/
def Work.aheadRead (w : Work) (b : Nat) (p : Option Nat) (a n : Nat) : Work × List Byte × Option Nat :=
  (linesOf a n).foldl (fun (r : Work × List Byte × Option Nat) l =>
    let (w, bs, bad) := r
    let lo := max a (l * 128)
    let len := min (a + n) ((l + 1) * 128) - lo
    match (SMap.get [] w.chip.readAhead b).find? (fun e => e.line = l) with
    | some e =>
      (w, bs ++ ((lineBytes e.data).drop (lo - l * 128)).take len,
        bad.orElse (fun _ => ((List.range len).map (· + lo)).find? (fun i => bit e.poison (i % 128 / 32))))
    | none => (w.arcReads lo len p none, bs ++ w.vread lo len, bad.orElse (fun _ => w.vpoison lo len)))
    (w, [], none)

/-- Line l as a read-ahead buffer takes it. -/
def Work.aheadLine (w : Work) (l : Nat) : ReadAhead :=
  { line := l
    data := lineOf (w.vread (l * 128) 128)
    poison := maskOf 4 (fun i => (w.vpoison (l * 128 + 32 * i) 32).isSome)
    stale := false }

/-- Buffer b fetches lines ahead of a read of LP-DRAM or of the HBM window. When reads count as sequential, and how far ahead of them
it fetches, the manual leaves open: a free value, 0 where it fetches nothing (R341; log entry 42). -/
def Work.fetchAhead (w : Work) (b : Nat) (who : Who) (a n : Nat) : Work :=
  let (i, w) := w.take
  let last := (a + n - 1) / 128
  w.each (List.range (Config.freeNat i % 65)) (fun w k =>
    let l := last + 1 + k
    let ours : Bool := match w.place (l * 128) with | .lpd _ _ | .hbm _ => true | _ => false
    if !ours || w.acc who (l * 128) 128 false ≠ .ok || w.heldBy none l (l + 1) then w
    else
      let w := w.arcReads (l * 128) 128 (w.whoPound who) none
      { w with chip.readAhead := SMap.modify [] w.chip.readAhead b (fun x =>
          let x := x.filter (fun e => e.line ≠ l) ++ [w.aheadLine l]
          x.drop (x.length - 64)) })

/-- An inbound read of a range that lies in one page, through buffer b. -/
def Work.bufferRead (w : Work) (b : Nat) (who : Who) (a n : Nat) : Work × List Byte × Option Nat :=
  match w.place a with
  | .lpd _ _ | .hbm _ =>
    let (w, bs, bad) := w.aheadRead b (w.whoPound who) a n
    (w.fetchAhead b who a n, bs, bad)
  | _ => (w.arcReads a n (w.whoPound who) none, w.vread a n, w.vpoison a n)

/-- Read a range of virtual addresses at the point of coherence, or through an inbound read-ahead buffer; it stops at the first
error. `stream` trains a detector (R353). -/
def Work.vaRead (w : Work) (cache dev : Nat) (pasid : Option Nat) (who : Who) (kind id va n : Nat)
    (stream : Option Nat := none) (ahead : Option Nat := none) : Work × Res (List Byte) :=
  (pieces va n).foldl (fun (r : Work × Res (List Byte)) p =>
    match r with
    | (w, .bad s a) => (w, .bad s a)
    | (w, .ok bs) =>
      match w.reach cache dev pasid who kind id p.1 p.2 false with
      | (w, .bad s a) => (w, .bad s a)
      | (w, .ok a) =>
        match w.place a with
        | .glob _ _ => (w, .bad 4 p.1)
        | .mmio _ _ => let (w, d) := w.deviceBytes p.2; (w, .ok (bs ++ d))
        | _ =>
          match ahead with
          | some b =>
            (match w.bufferRead b who (w.local_ a) p.2 with
            | (w, _, some q) => (w, .bad 7 (p.1 + (q - w.local_ a)))
            | (w, d, none) => (w, .ok (bs ++ d)))
          | none =>
            match w.vpoison a p.2 with
            | some q => (w, .bad 7 (p.1 + (q - a)))
            | none => (w.arcReads a p.2 (w.whoPound who) stream, .ok (bs ++ w.vread a p.2))) (w, .ok [])

/-- Write bytes to a range of virtual addresses; what precedes the first error stays written. -/
def Work.vaWrite (w : Work) (cache dev : Nat) (pasid : Option Nat) (who : Who) (kind id va : Nat) (bs : List Byte)
    (publish : Bool) (issuer : Option RemoteWho := none) : Work × Res Unit :=
  (pieces va bs.length).foldl (fun (r : Work × Res Unit) p =>
    match r with
    | (w, .bad s a) => (w, .bad s a)
    | (w, .ok _) =>
      match w.reach cache dev pasid who kind id p.1 p.2 true with
      | (w, .bad s a) => (w, .bad s a)
      | (w, .ok a) =>
        match w.place a with
        | .glob _ _ => (w, .bad 4 p.1)
        | _ => (w.pwrite a ((bs.drop (p.1 - va)).take p.2) publish (w.whoPound who) issuer, .ok ())) (w, .ok ())

end Sys2Proof.Machine
end

