-- ==== Sys2Proof/Machine/TileOps.lean ====
section
/-!
DEFINITION. Operations on a tile that several families share: its semaphores, its faults, and the ends of its program.
-/

namespace Sys2Proof.Machine

/-- Add to a semaphore: a count beyond 0xFFFF_FFFF stays there and sets its overflow bit (R149). -/
def Work.semAdd (w : Work) (t s n : Nat) : Work :=
  w.modTile t (fun x =>
    if 0xFFFF_FFFF < x.sem s + n then
      { x.setSem s 0xFFFF_FFFF with semOverflow := setBit x.semOverflow s true }
    else x.setSem s (x.sem s + n))

/-- Word k of a Ledger slot, 0 to 36 (R242, R243). -/
def LedgerSlot.word (s : LedgerSlot) (k : Nat) : W64 :=
  let two (hi lo : Nat) : W64 := BitVec.ofNat 64 (hi * 2 ^ 32 + lo)
  if k < 32 then two (SMap.get 0 s.bins (2 * k + 1)) (SMap.get 0 s.bins (2 * k))
  else match k with
    | 32 => two s.nan s.zeros
    | 33 => two s.flushed s.inf
    | 34 => two s.vanished s.clipped
    | 35 => BitVec.ofNat 64 s.elements
    | 36 => two s.drains s.outOfWindow
    | _ => 0

/-- Bytes 0x000 to 0x127 of a Ledger slot. -/
def LedgerSlot.bytes (s : LedgerSlot) : List Byte := (List.range 37).flatMap (fun k => leBytes 8 (s.word k).toNat)

/-- Record the first cause of a program's end (R164). -/
def Tile.setFault (x : Tile) (hart kind cause : Nat) (pc tval : W64) : Tile :=
  if x.fault.valid then x
  else { x with fault := { valid := true, hart := hart, kind := kind, cause := cause, pc := pc, tval := tval } }

/-- Stop all five cores: no core waits, and the trap has cleared their reservations (R616). -/
def Tile.stopCores (x : Tile) : Tile :=
  { x with
    cores := SMap.mapVal x.cores (fun _ c => { c with running := false, stalled := false, reserved := none })
    waiters := []
    seqWaiting := [] }

/-- Discard the descriptors of a mover that have not completed (R155). -/
def Mover.drop (m : Mover) : Mover := { m with queue := [], run := none, waiting := none }

/-- End the array work: every queued instruction is discarded, every chain too, and its inputs are released (R184). -/
def Array_.discard (a : Array_) : Array_ :=
  { a with
    queue := []
    signals := []
    feed := none
    flying := []
    words := []
    laneM := []
    laneN := []
    chains := []
    open0 := none
    open1 := none
    active := none
    pending := none
    activeOk := false
    replay := none
    restart := []
    fencing := false
    waiting := none }

/-- A program runs on the tile, or is being loaded, and has not ended. -/
def Tile.busy (x : Tile) : Bool := x.launch.isSome && x.ended.isNone

/-- A program of the tile ends by a non-normal cause (R155): the tile's own part. -/
def Tile.endBad (x : Tile) (hart kind cause : Nat) (pc tval : W64) : Tile :=
  let x := x.setFault hart kind cause pc tval
  { x.stopCores with
    mover0 := x.mover0.drop
    mover1 := x.mover1.drop
    array := x.array.discard
    endWait := false
    ended := some { kind := kind, cause := cause, code := 0, pc := pc } }

/-- The tiles whose program is the launch of queue q with sequence n. -/
def Work.groupOf (w : Work) (q : Nat) (n : W32) : List Nat :=
  (w.chip.tiles.filter (fun e => match e.2.launch with | some l => l.sq = q && l.seq = n | none => false)).map (·.1)

/-- Zero a tile's store (R92). -/
def Work.zeroStore (w : Work) (t : Nat) : Work := w.pzero (tileAddr t 0) 0x60_0000

/-- Drop what the model holds of a tile's work outside the tile, before its array work is discarded: Collation samples of
chains that have not drained, reads of its movers, and the copies on other tiles, which are zeroed; writes that its movers have
issued stay outstanding (R156). -/
def Work.dropTileWork (w : Work) (t : Nat) : Work :=
  let gone := w.chip.samples.filter (fun s => s.source = t && s.captured.isNone)
  let used := gone.map (fun s => s.checker) ++
    (match (w.tile t).array.replay with | some r => r.tile2.toList | none => [])
  let w := { w with
    chip.samples := w.chip.samples.filter (fun s => !(s.source = t && s.captured.isNone)) }
  let w := (w.leaveWrites (.mover t 0) (.tile t)).leaveWrites (.mover t 1) (.tile t)
  w.each used (fun w u => w.zeroStore u)

/-- End one tile's program by a non-normal cause, when it has not ended. -/
def Work.endOne (w : Work) (t hart kind cause : Nat) (pc tval : W64) : Work :=
  if (w.tile t).busy then
    ((w.dropTileWork t).modTile t (fun x => x.endBad hart kind cause pc tval)).releaseHeld t
  else w

/-- A tile's program ends by a non-normal cause; the other tiles of its group stop, but for those whose control core has
executed the ECALL of a normal end (R155). -/
def Work.endTile (w : Work) (t hart kind cause : Nat) (pc tval : W64) : Work :=
  if (w.tile t).busy then
    let others := match (w.tile t).launch with
      | some l => (w.groupOf l.sq l.seq).filter (fun u => u ≠ t && !(w.tile u).endWait)
      | none => []
    (w.endOne t hart kind cause pc tval).each others (fun w u => w.endOne u 0 5 0 0 0)
  else w

/-- The tile leaves its launch: a draining tile becomes disabled, any other idle (R156, R158). -/
def Tile.leave (x : Tile) : Tile :=
  { x with
    st := if x.st = .draining then .disabled else if x.st = .loading || x.st = .running then .idle else x.st
    launch := none
    endWait := false
    ended := none
    heavy := false }

/-- Stop a launch at once: every tile that still runs ends with this KIND, and every tile leaves it (R155, R156). -/
def Work.stopLaunch (w : Work) (q : Nat) (n : W32) (kind : Nat) : Work :=
  (w.groupOf q n).foldl (fun w t => (w.endOne t 0 kind 0 0 0).modTile t Tile.leave) w

/-- An exception on a core of a tile ends the program with KIND 0x01 (R131, R155). -/
def Work.tileTrap (w : Work) (t h cause : Nat) (tval : W64) : Work :=
  w.endTile t h 1 cause ((w.tile t).core h).pc tval

/-- A hart of a tile executes: it runs, is not stalled, and no preemption point holds it (R525). -/
def Work.runs (w : Work) (t h : Nat) : Bool :=
  ((w.tile t).core h).running && !((w.tile t).core h).stalled && !(w.tile t).halted

/-- The core goes on to the next instruction, counting it; its row of 64 B is in the instruction cache, which holds 512
(R139). -/
def Tile.advance (x : Tile) (h : Nat) : Tile :=
  x.modCore h (fun c =>
    let row := c.pc.toNat / 64
    let rows := without c.icache row ++ [row]
    { c with pc := c.pc + 4, instret := c.instret + 1, icache := rows.drop (rows.length - 512) })

end Sys2Proof.Machine
end

