-- ==== Sys2Proof/Machine/QueueOps.lean ====
section
/-!
DEFINITION. Operations on submission and completion queues that several families share: contexts, reservations,
completion entries, notices, stops, drains and aborts (R273 to R316).
-/

namespace Sys2Proof.Machine

/-! ## Contexts as bytes (R280 to R282) -/

def SqState.code : SqState → Nat
  | .disabled => 0 | .running => 1 | .draining => 2 | .stopped => 3 | .held => 4

def CqState.code : CqState → Nat
  | .disabled => 0 | .enabled => 1 | .faulted => 2

/-- The 64 bytes of a submission queue context (R280). -/
def Sq.bytes (s : Sq) : List Byte :=
  leBytes 8 s.base.toNat ++ leBytes 1 s.log2 ++ leBytes 1 s.st.code ++ leBytes 1 s.csv ++ leBytes 1 s.phase ++
  leBytes 4 s.cq ++ leBytes 4 s.pasid ++ leBytes 4 s.tail.toNat ++ leBytes 4 s.head.toNat ++ leBytes 4 s.fetched.toNat ++
  leBytes 4 s.started.toNat ++ leBytes 4 s.completed.toNat ++ leBytes 4 s.fenceSeq.toNat ++ leBytes 4 s.refused ++
  leBytes 2 s.error ++ leBytes 14 0

/-- The 64 bytes of a completion queue context (R282). -/
def Cq.bytes (c : Cq) : List Byte :=
  leBytes 8 c.base.toNat ++ leBytes 1 c.log2 ++ leBytes 1 c.st.code ++ leBytes 1 c.irq ++ leBytes 1 0 ++
  leBytes 4 c.pasid ++ leBytes 8 c.ackAddr.toNat ++ leBytes 4 c.lastWritten.toNat ++ leBytes 4 c.lastAck.toNat ++
  leBytes 4 c.reserved ++ leBytes 4 c.bound ++ leBytes 8 c.msiAddr.toNat ++ leBytes 4 c.msiData.toNat ++
  leBytes 2 c.coalesce ++ leBytes 2 c.error ++ leBytes 8 0

/-- The H fields of a submission queue context: offset and size (R280). -/
def sqFields : List (Nat × Nat) := [(0, 8), (8, 1), (0x0A, 1), (0x0C, 4), (0x10, 4), (0x1C, 4)]
/-- The H fields of a completion queue context (R282). -/
def cqFields : List (Nat × Nat) :=
  [(0, 8), (8, 1), (0x0A, 1), (0x0C, 4), (0x10, 8), (0x18, 4), (0x28, 8), (0x30, 4), (0x34, 2)]
/-- Every field of a context, those of the device among them. -/
def ctxFields (isCq : Bool) : List (Nat × Nat) :=
  if isCq then cqFields ++ [(9, 1), (0x0B, 1), (0x1C, 4), (0x20, 4), (0x24, 4), (0x36, 2), (0x38, 8)]
  else sqFields ++ [(9, 1), (0x0B, 1), (0x14, 4), (0x18, 4), (0x20, 4), (0x24, 4), (0x28, 4), (0x2C, 4), (0x30, 2), (0x32, 14)]
/-- Byte o lies in a field that a write of the len bytes from lo on reaches: the field lies wholly within it (R610). -/
def inField (fields : List (Nat × Nat)) (lo len o : Nat) : Bool :=
  fields.any (fun f => lo ≤ f.1 && f.1 + f.2 ≤ lo + len && f.1 ≤ o && o < f.1 + f.2)

/-- The H fields taken from context bytes. -/
def Sq.withBytes (s : Sq) (b : List Byte) : Sq :=
  { s with
    base := BitVec.ofNat 64 (leAt b 0 8)
    log2 := leAt b 8 1
    csv := leAt b 0x0A 1
    cq := leAt b 0x0C 4
    pasid := leAt b 0x10 4
    fetched := BitVec.ofNat 32 (leAt b 0x1C 4) }

/-- The H fields taken from context bytes. -/
def Cq.withBytes (c : Cq) (b : List Byte) : Cq :=
  { c with
    base := BitVec.ofNat 64 (leAt b 0 8)
    log2 := leAt b 8 1
    irq := leAt b 0x0A 1
    pasid := leAt b 0x0C 4
    ackAddr := BitVec.ofNat 64 (leAt b 0x10 8)
    lastWritten := BitVec.ofNat 32 (leAt b 0x18 4)
    msiAddr := BitVec.ofNat 64 (leAt b 0x28 8)
    msiData := BitVec.ofNat 32 (leAt b 0x30 4)
    coalesce := leAt b 0x34 2 }

/-- Completion queue that a submission queue is bound to. -/
def Sq.cqNum (s : Sq) : Nat := s.cq % 2 ^ 18
/-- PASID of a queue (R275). -/
def Sq.pid (s : Sq) : Nat := s.pasid % 2 ^ 20
def Cq.pid (c : Cq) : Nat := c.pasid % 2 ^ 20
/-- Bytes of a ring. -/
def Sq.slots (s : Sq) : Nat := 2 ^ s.log2
def Cq.slots (c : Cq) : Nat := 2 ^ c.log2

/-! ## Reservations (R299) -/

/-- The queue is its pound's notice queue. -/
def Work.isNotice (w : Work) (c : Nat) : Bool :=
  match w.cqOwner c with
  | some p => (w.pound p).noticeValid && (w.pound p).noticeCq = c
  | none => false

/-- Entries neither reserved, nor written and unacknowledged. -/
def Cq.room (c : Cq) : Int := (c.slots : Int) - ((c.lastWritten - c.lastAck).toNat : Int) - (c.reserved : Int)

/-- The free count of R299. -/
def Work.cqFree (w : Work) (c : Nat) : Int := (w.cq c).room - (if w.isNotice c then 8 else 0)

/-! ## Stops and faults (R285, R302) -/

/-- A submission queue becomes STOPPED with an ERROR, and a record of class "queue stopped" (R278, R285, R615). -/
def Work.stopSq (w : Work) (q error addr detail : Nat) : Work :=
  (w.modSq q (fun s => { s with st := .stopped, error := error })).record
    { cls := 0x0602, kind := 8, id := q % 16, pound := optPound (w.sqOwner q), action := 6, addr := addr, d0 := q,
      d1 := error, d2 := detail }

/-- A record of class "completion queue fault" (R302, R615). -/
def Work.recCqFault (w : Work) (c count addr status access : Nat) : Work :=
  w.record { cls := 0x0605, kind := 8, id := c % 16, pound := optPound (w.cqOwner c), action := 6, count := count,
             addr := addr, d0 := c, d1 := status, d2 := access }

/-- A completion queue becomes FAULTED; RUNNING submission queues bound to it become STOPPED with ERROR 0x0008
(R302). -/
def Work.faultCq (w : Work) (c status addr : Nat) : Work :=
  let w := w.modCq c (fun x => { x with st := .faulted, error := status })
  let w := w.recCqFault c 1 addr status 0
  { w with chip.sqs := SMap.mapVal w.chip.sqs (fun _ s =>
      if s.st = .running && s.cqNum = c then { s with st := .stopped, error := 8 } else s) }

/-! ## Entries (R295, R296) -/

/-- The 64 bytes of an entry. -/
def Entry.bytes (e : Entry) (nseq : W32) (fetched : W32) (stamp : Nat) : List Byte :=
  leBytes 4 nseq.toNat ++ leBytes 4 e.seq.toNat ++ leBytes 4 e.tag.toNat ++ leBytes 2 e.status ++ leBytes 1 e.flags ++
  leBytes 1 0 ++ leBytes 4 e.sq.toNat ++ leBytes 4 fetched.toNat ++ leBytes 8 e.d0.toNat ++ leBytes 8 e.d1.toNat ++
  leBytes 8 stamp ++ leBytes 16 0

/-- Write one entry to its slot; false when the write fails, and the queue is then FAULTED (R296, R302). -/
def Work.writeEntry (w : Work) (c : Nat) (e : Entry) : Work × Bool :=
  let x := w.cq c
  let p := w.cqOwner c
  let nseq := x.lastWritten + 1
  let va := x.base.toNat + nseq.toNat % x.slots * 64
  let fetched := if e.sq = 0xFFFF_FFFF then 0 else (w.sq e.sq.toNat).fetched
  match w.vaWrite (cpCache (c % 16)) (poundDev (p.getD 0)) (some x.pid) (.ring p) 8 (c % 16) va
      (e.bytes nseq fetched w.now) true with
  | (w, .bad status addr) => (w.faultCq c status addr, false)
  | (w, .ok _) =>
    (w.modCq c (fun x =>
      { x with
        lastWritten := nseq
        reserved := if e.reserved then x.reserved - 1 else x.reserved
        msiDue := x.msiDue || x.irq % 2 = 1 }), true)

/-- LAST_COMPLETED after entries have become visible: every command up to it has completed, and it does not pass
LAST_STARTED (R280, R311). -/
def Sq.settle (s : Sq) : Sq :=
  let last := match s.cmds with
    | [] => s.fetched
    | c :: _ => c.seq - 1
  { s with completed := if (s.started - s.completed).toNat < (last - s.completed).toNat then s.started else last }

/-- The entry of command (q, seq) is visible, or it needs none: the command leaves its queue. -/
def Work.retireCmd (w : Work) (q : Nat) (n : W32) : Work :=
  w.modSq q (fun s => Sq.settle { s with cmds := s.cmds.filter (fun c => c.seq ≠ n) })

/-- Every write of a command is visible, those of its launch's tiles among them; at a module fault nothing waits (R156, R296,
R308). -/
def Work.entryReady (w : Work) (e : Entry) : Bool :=
  e.sq = 0xFFFF_FFFF || e.status = 0x10 ||
  (w.xferQuiet (.command e.sq.toNat e.seq) &&
    match (w.sq e.sq.toNat).cmds.find? (fun c => c.seq = e.seq) with
    | some c => c.tiles.all (fun t => w.xferQuiet (.tile t) && w.xferQuiet (.mover t 0) && w.xferQuiet (.mover t 1))
    | none => true)

/-- Write the entry at the front of a completion queue, once every write of its command is visible (R296). -/
def Work.writeFront (w : Work) (c : Nat) : Work :=
  match (w.cq c).pend with
  | [] => w
  | e :: rest =>
    if !w.entryReady e then w
    else match w.writeEntry c e with
    | (w, false) => w
    | (w, true) =>
      let w := w.modCq c (fun x => { x with pend := rest })
      if e.sq = 0xFFFF_FFFF || e.status = 0x13 || e.status = 3 then w else w.retireCmd e.sq.toNat e.seq

/-- Hand an entry that holds a reservation to its completion queue. -/
def Work.pushEntry (w : Work) (c : Nat) (e : Entry) : Work := w.modCq c (fun x => { x with pend := x.pend ++ [e] })

/-- Command header fields (R284). -/
def Cmd.at_ (c : Cmd) (o k : Nat) : Nat := leAt c.bytes o k
def Cmd.op (c : Cmd) : Nat := c.at_ 0 1
def Cmd.ctl (c : Cmd) : Nat := c.at_ 1 1
def Cmd.extra (c : Cmd) : Nat := c.ctl % 8
def Cmd.fence (c : Cmd) : Bool := c.ctl.testBit 3
def Cmd.quiet (c : Cmd) : Bool := c.ctl.testBit 4
def Cmd.scope (c : Cmd) : Nat := c.ctl / 32 % 4
def Cmd.tag (c : Cmd) : W32 := BitVec.ofNat 32 (c.at_ 8 4)
/-- The phase tag a command runs under (R286). -/
def Cmd.phaseTag (c : Cmd) (queuePhase : Nat) : Nat := if (c.at_ 2 1).testBit 7 then c.at_ 2 1 % 16 else queuePhase
/-- The command has completed. -/
def Cmd.isDone (c : Cmd) : Bool := match c.phase with | .completed _ _ _ _ => true | _ => false

/-- Update command (q, seq). -/
def Work.modCmd (w : Work) (q : Nat) (n : W32) (f : Cmd → Cmd) : Work :=
  w.modSq q (fun s => { s with cmds := s.cmds.map (fun c => if c.seq = n then f c else c) })

/-- Command (q, seq). -/
def Work.cmd? (w : Work) (q : Nat) (n : W32) : Option Cmd := (w.sq q).cmds.find? (fun c => c.seq = n)

/-- A command of this opcode that has started and not completed. -/
def Work.started? (w : Work) (q : Nat) (n : W32) (op : Nat) : Option Cmd :=
  match w.cmd? q n with
  | some c => if c.phase = .started && c.op = op then some c else none
  | none => none

/-- The drain of a self-reset ends when no started command of the pound runs: the fence comes into force (R571). -/
def Work.settleSelfReset (w : Work) (p : Nat) : Work :=
  let x := w.pound p
  let busy := w.chip.sqs.any (fun e => w.sqOwner e.1 = some p && e.2.cmds.any (fun c => !c.isDone))
  if x.selfReset && x.st = .draining && x.goal.isNone && !busy then w.modPound p (fun x => { x with st := .waitingOwner, fenced := true }) else w

/-- As `settleSelfReset`, for the pound of a queue. -/
def Work.settleQueue (w : Work) (q : Nat) : Work := match w.sqOwner q with | some p => w.settleSelfReset p | none => w

/-- A command completes: its entry goes to the completion queue of its queue, unless it is QUIET with status 0, which
writes none and returns its reservation (R296, R299). -/
def Work.complete (w : Work) (q : Nat) (c : Cmd) (status : Nat) (flags : Nat := 0) (d0 : W64 := 0) (d1 : W64 := 0) : Work :=
  let w := w.modCmd q c.seq (fun c => { c with phase := .completed status flags d0 d1 })
  let cq := (w.sq q).cqNum
  let w := if c.quiet && status = 0 then
      (w.modCq cq (fun x => { x with reserved := x.reserved - 1 })).retireCmd q c.seq
    else
      w.pushEntry cq { seq := c.seq, tag := c.tag, status := status, flags := flags, sq := BitVec.ofNat 32 q, d0 := d0,
                       d1 := d1, reserved := true }
  w.settleQueue q

/-! ## Notices (R303) -/

/-- A notice or checkpoint-fence entry that cannot be written is dropped, counted and recorded. -/
def Work.dropNotice (w : Work) (p : Nat) (d0 at_ reason : Nat) : Work :=
  (w.modPound p (fun x => { x with noticeDropped := satAdd 16 x.noticeDropped 1 })).record
    { cls := 0x0604, kind := 8, id := (w.pound p).noticeCq % 16, pound := p, action := 6, d0 := d0, d1 := at_, d2 := reason }

/-- Write a notice (STATUS 0x0014) or a checkpoint-fence entry (0x0015) to the pound's notice queue. `d0` is the record's
DETAIL0, 0 for a fence entry. -/
def Work.notice (w : Work) (p status : Nat) (e0 e1 d0 at_ : Nat) : Work :=
  let x := w.pound p
  if !x.noticeValid then w.dropNotice p d0 at_ 1
  else if (w.cq x.noticeCq).st = .faulted then w.dropNotice p d0 at_ 3
  else if (w.cq x.noticeCq).room < 1 then w.dropNotice p d0 at_ 2
  else
    let e : Entry :=
      { seq := 0, tag := 0, status := status, flags := 0, sq := 0xFFFF_FFFF, d0 := BitVec.ofNat 64 e0,
        d1 := BitVec.ofNat 64 e1, reserved := false }
    match w.writeEntry x.noticeCq e with
    | (w, true) => w
    | (w, false) => w.dropNotice p d0 at_ 3

/-! ## Starting (R286, R288) -/

/-- The next command of a queue to start: it has been fetched, every command before it has started, and every earlier
command has completed where it says so, or its opcode does. -/
def Work.next? (w : Work) (q : Nat) : Option Cmd :=
  let s := w.sq q
  match s.cmds.find? (fun c => c.phase = .fetched) with
  | none => none
  | some c =>
    let alone := c.fence || c.op = 5 || c.op = 9
    if alone && !((s.cmds.takeWhile (fun d => d.seq ≠ c.seq)).all Cmd.isDone) then none else some c

/-- The next command of a queue, when it has this opcode. -/
def Work.turn? (w : Work) (q op : Nat) : Option Cmd :=
  match w.next? q with
  | some c => if c.op = op then some c else none
  | none => none

/-- The command has started. -/
def Work.begin (w : Work) (q : Nat) (c : Cmd) : Work :=
  (w.modCmd q c.seq (fun c => { c with phase := .started, startPs := w.chip.refPs })).modSq q (fun s =>
    { s with started := c.seq })

/-- Bytes lo to hi - 1 of a command are 0. -/
def Cmd.zero (c : Cmd) (lo hi : Nat) : Bool := ((c.bytes.take hi).drop lo).all (· = 0)

/-- The header's own rules: SCOPE, reserved fields, and EXTRA within its range (R284, R288). -/
def Cmd.headerOk (c : Cmd) (lo hi : Nat) : Bool :=
  c.scope ≠ 0 && !c.ctl.testBit 7 && c.at_ 2 1 / 16 % 8 = 0 && c.at_ 3 1 = 0 && lo ≤ c.extra && c.extra ≤ hi

/-- The command starts and completes at once with a status. -/
def Work.beginDone (w : Work) (q : Nat) (c : Cmd) (status : Nat) (flags : Nat := 0) (d0 d1 : W64 := 0) : Work :=
  (w.begin q c).complete q c status flags d0 d1

/-- Tiles that a LAUNCH names (R289). -/
def Cmd.launchTiles (c : Cmd) : List Nat := idxs 144 (fun t => (c.at_ 0x0C 18).testBit t)

/-- Launches that wait for tile t, checked already, complete with a status: "tile disabled" or "tile quarantined" (R158,
R159). -/
def Work.refuseWaiting (w : Work) (t status : Nat) : Work :=
  w.each (w.chip.sqs.map (·.1)) (fun w q =>
    match w.turn? q 1 with
    | some c => if c.count = 1 && c.launchTiles.contains t then w.beginDone q c status else w
    | none => w)

/-! ## Aborts and drains (R307 to R309) -/

/-- A collective that is aborted tells the other members (R447, R456, R571). -/
def Work.dropColl (w : Work) (q : Nat) (n : W32) (status : Nat) : Work :=
  match w.chip.colls.find? (fun c => c.sq = q && c.seq = n) with
  | some c => w.endColl c status
  | none => w

/-- A command stops waiting: its reads are forgotten, and it issues no further write; what it has issued stays outstanding, and at
SYSTEM scope the read-ahead entries of its lines go (R307, R341, R444). -/
def Work.stopXfer (w : Work) (q : Nat) (c : Cmd) : Work :=
  let who := RemoteWho.command q c.seq
  let w := (w.leaveWrites who who).modCmd q c.seq (fun c => { c with xf := { c.xf with todo := [], group := none } })
  if c.scope = 3 then w.dropLines c.xf.lines else w

/-- Abort one command that has not completed, with this status and, for a launch, this KIND. -/
def Work.abort (w : Work) (q : Nat) (c : Cmd) (status kind : Nat) : Work :=
  let w := if c.op = 1 then w.stopLaunch q c.seq kind else w
  let w := if c.op = 6 then w.dropColl q c.seq status else w
  let w := w.stopXfer q c
  (w.complete q c status).modSq q (fun s => { s with aborted := s.aborted + 1 })

/-- Complete the commands of a queue that have been fetched and not started (R307, R309). -/
def Work.abortFetched (w : Work) (q status : Nat) : Work :=
  w.each ((w.sq q).cmds.filter (fun c => c.phase = .fetched)) (fun w c => w.abort q c status 7)

/-- Abort the commands of a queue that have started and not completed. -/
def Work.abortStarted (w : Work) (q status kind : Nat) : Work :=
  w.each ((w.sq q).cmds.filter (fun c => c.phase = .started)) (fun w c => w.abort q c status kind)

/-- Numbers of the submission queues of pound p whose contexts are not zero. -/
def Work.sqsOf (w : Work) (p : Nat) : List Nat := (w.chip.sqs.map (·.1)).filter (fun q => w.sqOwner q = some p)
def Work.cqsOf (w : Work) (p : Nat) : List Nat := (w.chip.cqs.map (·.1)).filter (fun q => w.cqOwner q = some p)

/-- Some command of a queue has not completed. -/
def Work.sqBusy (w : Work) (q : Nat) : Bool := (w.sq q).cmds.any (fun c => !c.isDone)

/-- A module fault: every pound stops fetching, every command in flight completes with status 0x0010, and every running
program stops with KIND 0x08 (R33, R46, R155, R308, R376). -/
def Work.moduleFault (w : Work) : Work :=
  let w := w.each (w.chip.sqs.map (·.1)) (fun w q =>
    w.each ((w.sq q).cmds.filter (fun c => !c.isDone)) (fun w c => w.abort q c 0x10 8))
  let busy := (w.chip.tiles.filter (fun e => e.2.busy)).map (·.1)
  w.each busy (fun w t => (w.endOne t 0 8 0 0 0).modTile t Tile.leave)

/-- The host complex receives a machine check: a hardware error exception on every running hart (R46; log entry 22). -/
def Work.machineCheck (w : Work) : Work :=
  w.each ((w.chip.boot.hartCtl.filter (fun e => e.2.st = .running)).map (·.1))
    (fun w c => w.modCore c (fun x => { x with hwError := some 0 }))

/-- No queue fetches: a module fault is in force (R33, R46, R376), or the reference is lost. -/
def Work.halted (w : Work) : Bool := w.chip.boot.waits ≠ 0 || !w.chip.boot.refOk || w.chip.boot.uncorePhase1

end Sys2Proof.Machine
end

