-- ==== Sys2Proof/Machine/Operands.lean ====
section
/-!
DEFINITION. Operand forms of register accesses by host cores: size and half, the merge of a 32-bit write (R610), which blocks
answer (R559, R612), and what a refused access does (R70).
-/

namespace Sys2Proof.Machine

/-- The access sizes that reach a register (R7). -/
def regSize (z : Size) : Bool := z = .b4 || z = .b8

/-- A register after a write of this size to it or to one of its halves (R610); `w64` is the register. -/
def merge (old : W64) (z : Size) (high : Bool) (v : W64) : W64 :=
  if z = .b8 then v
  else if high then setBits old 63 32 (bits v 31 0)
  else setBits old 31 0 (bits v 31 0)

/-- The write reaches the half with bits 31:0, or the one with bits 63:32. -/
def writesLow (z : Size) (high : Bool) : Bool := z = .b8 || !high
def writesHigh (z : Size) (high : Bool) : Bool := z = .b8 || high

/-- A field hi:lo lies wholly within what a write of this size and half reaches (R610). -/
def reaches (z : Size) (high : Bool) (hi lo : Nat) : Bool := z = .b8 || (if high then 32 ≤ lo else hi < 32)

/-- The value written, in its place in the register. -/
def inPlace (z : Size) (high : Bool) (v : W64) : W64 :=
  if z = .b8 then v else if high then BitVec.ofNat 64 (bits v 31 0 * 2 ^ 32) else BitVec.ofNat 64 (bits v 31 0)

/-- A field after a write: its old value where the write does not reach it (R610). -/
def newField (z : Size) (high : Bool) (v : W64) (hi lo old : Nat) : Nat :=
  if reaches z high hi lo then bits (inPlace z high v) hi lo else old

/-- Control region base (R9). -/
def ctlBase : Nat := 0x3F80_0000_0000

/-- A host core takes an exception: cause and tval. A trap ends its reservation and its hold (R325, R326). -/
def Work.hostTrap (w : Work) (c cause a : Nat) : Work :=
  w.modCore c (fun x => { x with trap := some (cause, BitVec.ofNat 64 a), resv := none, lrHold := false })

/-- Store access fault, and load access fault, of a host core (R70). -/
def Work.denyStore (w : Work) (c a : Nat) : Work := w.hostTrap c 7 a
def Work.denyLoad (w : Work) (c a : Nat) : Work := w.hostTrap c 5 a

/-- A value returned to a host core. -/
def Work.hostRet (w : Work) (c v : Nat) : Work := w.modCore c (fun x => { x with rd := BitVec.ofNat 128 v, trap := none })

/-- The C-die or H1 whose TL_, HBM_, ARC_, NYL_, CP_ or HIO_ block holds a control offset (R608, R612); none where the
exclusion of a die does not matter: CP_CAPS and the blocks of the module. -/
def blockDie (off : Nat) : Option Nat :=
  if 0x10_0000 ≤ off && off < 0x20_0000 then
    (if (off - 0x10_0000) % 0x1_0000 < 8 then none else some ((off - 0x10_0000) / 0x1_0000 / 4))
  else if 0x100_0000 ≤ off && off < 0x1A0_0000 then some (tileDie ((off - 0x100_0000) / 0x1_0000))
  else if 0x200_0000 ≤ off && off < 0x210_0000 then some ((off - 0x200_0000) / 0x1000 / 64)
  else if 0x300_0000 ≤ off && off < 0x308_0000 then some ((off - 0x300_0000) / 0x1000 / 32)
  else if 0x400_0000 ≤ off && off < 0x430_0000 then some ((off - 0x400_0000) / 0x1_0000 / 12)
  else if 0x600_1200 ≤ off && off < 0x600_1400 || 0x600_2100 ≤ off && off < 0x600_2200 ||
      0x600_8100 ≤ off && off < 0x600_8200 then some 5
  else none

/-- The offset lies in a block of an excluded die (R612). -/
def Work.blockOut (w : Work) (off : Nat) : Bool := match blockDie off with | some d => w.dieOut d | none => false

/-- The offset lies in the CP_ block of a command processor that is not in service, beyond CP_CAPS (R559). -/
def Work.cpOut (w : Work) (off : Nat) : Bool :=
  0x10_0000 ≤ off && off < 0x20_0000 && 8 ≤ (off - 0x10_0000) % 0x1_0000 && !bit w.chip.boot.cp ((off - 0x10_0000) / 0x1_0000)

/-- The offset is a TL_ register that a tile index not in service answers with 0 and ignores (R559). -/
def Work.tileOut (w : Work) (off : Nat) : Bool :=
  0x100_0000 ≤ off && off < 0x1A0_0000 && !w.tileInService ((off - 0x100_0000) / 0x1_0000) &&
  0x18 ≤ off % 0x1_0000 && !(0x5000 ≤ off % 0x1_0000 && off % 0x1_0000 < 0x6000)

/-- Bytes from the start of a register to the half that an access names. -/
def halfOff (z : Size) (high : Bool) : Nat := if high && z ≠ .b8 then 4 else 0

/-- A write that a register's own rules ignore and record as "register access". -/
def Work.ignoreReg (w : Work) (c off : Nat) (z : Size) (v : W64) : Work := w.recReg c (ctlBase + off) true z.bytes v.toNat

/-- A write to a field with code CL: recorded as class "charter field write" (R11, R615). -/
def Work.recCharterField (w : Work) (c off : Nat) (v : W64) : Work :=
  w.record { cls := 0x0102, kind := 1, id := c, pound := optPound (w.coreOwner c), action := 6, addr := ctlBase + off,
             d0 := v.toNat }

/-- Control offsets of the per-pound and per-unit register blocks (R608). -/
def cpOff (n : Nat) : Nat := 0x10_0000 + n * 0x1_0000
/-- Bases of the single blocks: LT_, PWR_, CHT_, FLT_. -/
def ltBase : Nat := 0x1_0000
def pwrBase : Nat := 0x2_0000
def chtBase : Nat := 0x3_0000
def fltBase : Nat := 0x4_0000
def tlOff (t : Nat) : Nat := 0x100_0000 + t * 0x1_0000

end Sys2Proof.Machine
end

