-- ==== Sys2Proof/Machine/Stores.lean ====
section
/-!
DEFINITION. The caches and store buffers of the host cores: fills and evictions of the L2 (R345, R358, R363), stores that
become visible (R322, R333), the write-combining buffer (R330, R331), and warm core reset (R332).
-/

namespace Sys2Proof.Machine

/-! ## Directories (R359) -/

/-- Sets of a home's directory: 1,024 in a slice, 65,536 in the home agents of an H-die. -/
def dirSets (h : Nat) : Nat := if h < 128 then 1024 else 65536

/-- The home of line l; 128 for a line that has none. -/
def Work.lineHome (w : Work) (l : Nat) : Nat := (w.homeOf (l * 128)).getD 128

/-- Directory entry of line l. -/
def Work.dirAt (w : Work) (l : Nat) : DirEntry := SMap.get DirEntry.none (w.home (w.lineHome l)).dir l

/-- Data and poison of a line at its point of coherence; a failed channel and an unreadable granule read as poisoned (R400,
R406). -/
def Work.lineData (w : Work) (l : Nat) : LineData × BitVec 4 :=
  let poison := if w.dead (l * 128) || w.badGranule (l * 128) then 0xF else maskOf 4 (fun i => w.mem.poisoned (l * 4 + i))
  (lineOf (w.mem.read (l * 128) 128), poison)

/-- A read of line l at its home for a requester of pound p: an Archive slice fills and is charged (R349, R387). -/
def Work.homeRead (w : Work) (l : Nat) (p : Option Nat) : Work :=
  match w.place (l * 128) with
  | .hbm _ => w.arcRead l p
  | _ => w

/-- A whole line is written back to its home. -/
def Work.homeWrite (w : Work) (l : Nat) (d : LineData) (poison : BitVec 4) (p : Option Nat) : Work :=
  if w.dead (l * 128) then w
  else
    let w := w.putLine l d poison
    match w.place (l * 128) with
    | .hbm _ => w.arcWrite l p
    | _ => w

/-- Remove a line from every L2, as a SnpFlush does: dirty data goes to the home, and reservations on the line end (R325, R359,
R364). -/
def Work.recallLine (w : Work) (l : Nat) : Work :=
  let w := w.each (w.dirtyIn l (l + 1)) (fun w e => w.homeWrite e.1 e.2.1 e.2.2 (w.coreOwner (w.dirAt l).owner))
  let w := { w with chip.cores := SMap.mapVal w.chip.cores (fun _ x => if x.resv = some l then { x with resv := none } else x) }
  w.snoopRange l (l + 1) false true

/-- Set the directory entry of line l; a new entry whose set is full removes a victim, which any entry of the set may
be (R359; log entry 3). -/
def Work.setDir (w : Work) (l : Nat) (e : DirEntry) : Work :=
  let h := w.lineHome l
  let others := ((w.home h).dir.filter (fun x => x.1 ≠ l && x.1 % dirSets h = l % dirSets h)).map (·.1)
  let put (w : Work) : Work := w.modHome h (fun x => { x with dir := SMap.set DirEntry.none x.dir l e })
  if e = DirEntry.none || others.length < 16 then put w
  else
    let (n, w) := w.take
    let v := others.getD (Config.freeNat n % others.length) 0
    let w := (w.recallLine v).modHome h (fun x => { x with dir := SMap.erase x.dir v, backInval := satAdd 32 x.backInval 1 })
    put w

/-! ## Messages and transactions (R360 to R367) -/

/-- Class of a message: request, snoop, response, data (R35, R361). -/
def MsgKind.cls : MsgKind → Nat
  | .snpShared | .snpUnique | .snpInv | .snpFlush | .snpClean | .snpRecall | .snpCopy => 1
  | .comp | .retry | .grant | .wbGo | .wbCancel | .noData | .snpResp | .compAck => 2
  | .dataResp | .snpData | .wbData => 3
  | _ => 0

/-- The message goes from a home to a requester or an L2 (R361). -/
def MsgKind.fromHome : MsgKind → Bool
  | .comp | .retry | .grant | .wbGo | .wbCancel | .noData | .dataResp => true
  | k => k.cls = 1

/-- The home's open transaction on line l. -/
def Work.txn? (w : Work) (h l : Nat) : Option Txn := SMap.look (w.home h).txns l
def Work.setTxn (w : Work) (h l : Nat) (t : Txn) : Work :=
  w.modHome h (fun x => { x with txns := SMap.insert (SMap.erase x.txns l) l t })

/-- The requester whose transaction a message belongs to (R360). -/
def Work.opener (w : Work) (kind : MsgKind) (h a l : Nat) : Nat :=
  if kind.cls = 1 || kind = .snpResp || kind = .snpData then (match w.txn? h l with | some t => t.agent | none => a) else a

/-- Put a message on the network from one die to another; channel 0 of its class for a transaction that an L2 opened (R360). -/
def Work.sendFrom (w : Work) (src dst : Nat) (kind : MsgKind) (h a l : Nat) (req : MsgKind) (st : LineState)
    (poison : BitVec 4 := 0) : Work :=
  { w with chip.net := w.chip.net ++ [{
      kind := kind, home := h, agent := a, line := l, req := req, st := st, src := src, dst := dst
      vc := 2 * kind.cls + (if w.opener kind h a l < 96 then 0 else 1), poison := poison }] }

/-- Send a message of a home or of a requester. -/
def Work.send (w : Work) (kind : MsgKind) (h a l : Nat) (req : MsgKind) (st : LineState) : Work :=
  if kind.fromHome then w.sendFrom (homeDie h) (agentDie a) kind h a l req st
  else w.sendFrom (agentDie a) (homeDie h) kind h a l req st

/-- Core c sends the data that a snoop supplies: to a requester, or to home h as agent h + 1000. -/
def Work.sendData (w : Work) (h c a l : Nat) (req : MsgKind) : Work :=
  w.sendFrom (agentDie c) (if a = h + 1000 then homeDie h else agentDie a) .snpData h a l req .i

/-- This message is of the kind and for the line. -/
def Msg.is (m : Msg) (kind : MsgKind) (h a l : Nat) : Bool := m.kind = kind && m.home = h && m.agent = a && m.line = l

/-- A message is on the network, and none about its line between its dies left before it (R21). -/
def Work.arrived (w : Work) (kind : MsgKind) (h a l : Nat) : Bool :=
  match w.chip.net.find? (fun m => m.is kind h a l) with
  | none => false
  | some m => m.src = m.dst ||
    !(w.chip.net.takeWhile (fun x => !x.is kind h a l)).any (fun x => x.line = l && x.src = m.src && x.dst = m.dst)

/-- Take the first message of a kind off the network: the message, if there is one. -/
def Work.receive (w : Work) (kind : MsgKind) (h a l : Nat) : Option Msg × Work :=
  match w.chip.net.find? (fun m => m.is kind h a l) with
  | some m => (some m, { w with chip.net := w.chip.net.erase m })
  | none => (none, w)

/-- What an agent does on receiving a message; nothing happens while the message has not arrived (R21; log entry 7). -/
def Work.deliver (w : Work) (kind : MsgKind) (h a l : Nat) (f : Work → Msg → Work) : Work :=
  if !w.arrived kind h a l then w
  else match w.receive kind h a l with
    | (some m, w) => f w m
    | (none, w) => w

/-- Trackers of a home (R367). -/
def trackers (h : Nat) : Nat := if h < 128 then 64 else 512

/-- A tracker is free. -/
def Home.free (x : Home) (h : Nat) : Bool := x.txns.length + (x.retry.filter (fun e => e.granted)).length < trackers h

/-- Freed trackers go to the oldest entries whose line has no open transaction, each with a Grant (R367). -/
def Work.grantNext (w : Work) (h : Nat) : Work :=
  let x := w.home h
  match x.retry.find? (fun e => !e.granted && (SMap.look x.txns e.line).isNone) with
  | some e =>
    if x.free h then
      (w.modHome h (fun x => { x with retry := x.retry.map (fun y => if y = e then { y with granted := true } else y) })).send
        .grant h e.agent e.line e.kind .i
    else w
  | none => w

/-- A transaction closes (R365). -/
def Work.closeTxn (w : Work) (h l : Nat) : Work :=
  (w.modHome h (fun x => { x with txns := SMap.erase x.txns l })).grantNext h

/-! ## The L2 (R345, R351) -/

/-- A way for a new entry: a free one, else the victim of tree pseudo-LRU among the first n. -/
def pickWay (tree n : Nat) (used : Nat → Bool) : Nat :=
  match (List.range n).find? (fun y => !used y) with
  | some y => y
  | none => plruVictim tree (fun y => y < n)

/-- Line l of core c's L2. -/
def Work.l2 (w : Work) (c l : Nat) : Option L2Line := SMap.look (w.core c).lines l

/-- The directory after core c has given up line l: the rest share it, or nobody holds it. -/
def DirEntry.drop (e : DirEntry) (c : Nat) : DirEntry :=
  let p := setBit e.present c false
  if p = 0 then DirEntry.none
  else if e.owner = c && (e.st = .o || e.st = .em) then { st := .s, owner := 0, present := p }
  else { e with present := p }

/-- The transaction of core c's writeback, where it is open, closes; a request that has joined it goes on by a Grant, on the
tracker that the writeback held (R367, R369). -/
def Work.endWbTxn (w : Work) (c l : Nat) : Work :=
  let h := w.lineHome l
  match w.txn? h l with
  | none => w
  | some t =>
    if t.kind ≠ .wbReq || t.agent ≠ c then w
    else match t.joined with
      | none => w.closeTxn h l
      | some (k, a, _) =>
        (w.modHome h (fun x => { x with
          txns := SMap.erase x.txns l
          retry := x.retry ++ [{ kind := k, agent := a, line := l, granted := true }] })).send .grant h a l k .i

/-- The writeback of an eviction entry completes: its home takes the data when the directory lists the sender as owner
(R369). -/
def Work.finishWriteback (w : Work) (c : Nat) (e : EvictEntry) : Work :=
  let d := w.dirAt e.line
  let w := w.modCore c (fun x => { x with evict := x.evict.filter (fun y => y.line ≠ e.line) })
  let w := { w with chip.net := w.chip.net.filter (fun (m : Msg) => !(m.agent = c && m.line = e.line &&
      (m.kind = MsgKind.wbReq || m.kind = MsgKind.wbGo || m.kind = MsgKind.wbCancel || m.kind = MsgKind.wbData))) }
  let w := if (d.st = .o || d.st = .em) && d.owner = c then
      (w.homeWrite e.line e.data e.poison (w.coreOwner c)).setDir e.line (d.drop c)
    else w
  w.endWbTxn c e.line

/-- An L2 waits for its own writeback of a line before it asks for the line again (R351). -/
def Work.reclaim (w : Work) (c l : Nat) : Work :=
  match (w.core c).evict.find? (fun e => e.line = l) with
  | some e => w.finishWriteback c e
  | none => w

/-- Lower the depth of a detector of core c whose prefetched line has left unused (R354). -/
def Work.unusedPrefetch (w : Work) (c : Nat) (l : L2Line) : Work :=
  match l.prefetched with
  | some d => w.modCore c (fun x => { x with detectors := SMap.mapVal x.detectors (fun k v =>
      if k = d then { v with depth := v.depth - 1 } else v) })
  | none => w

/-- Core c's L2 gives up line l: dirty data goes to the eviction buffer and WbReq to the home; the oldest entry of a full
buffer is written back first (R351, R358, R369). -/
def Work.evict (w : Work) (c l : Nat) : Work :=
  match w.l2 c l with
  | none => w
  | some x =>
    let w := w.unusedPrefetch c x
    let w := w.modCore c (fun y =>
      { y with lines := SMap.erase y.lines l, resv := if x.l1d.isSome && y.resv = some l then none else y.resv })
    if x.st = .m || x.st = .o then
      let w := match (w.core c).evict with
        | e :: _ => if 8 ≤ (w.core c).evict.length then w.finishWriteback c e else w
        | [] => w
      let w := w.modCore c (fun y => { y with evict := y.evict ++ [{ line := l, st := x.st, data := x.data, poison := x.poison }] })
      w.send .wbReq (w.lineHome l) c l .wbReq .i
    else w

/-- Install line l in core c's L2. -/
def Work.install (w : Work) (c l : Nat) (st : LineState) (d : LineData) (poison : BitVec 4) (prefetched : Option Nat) : Work :=
  let set := l % 1024
  let x := w.core c
  let old := w.l2 c l
  let same := x.lines.filter (fun e => e.1 % 1024 = set)
  let tree := SMap.get 0 x.plru set
  let way := match old with
    | some o => o.way
    | none => pickWay tree 16 (fun y => same.any (fun e => e.2.way = y))
  let w := match same.find? (fun e => e.2.way = way && e.1 ≠ l) with
    | some v => w.evict c v.1
    | none => w
  w.modCore c (fun x => { x with
    lines := SMap.insert (SMap.erase x.lines l) l
      { st := st, data := d, poison := poison, l1i := (old.bind (fun o => o.l1i)), l1d := (old.bind (fun o => o.l1d)),
        way := way, prefetched := prefetched }
    plru := SMap.set 0 x.plru set (plruTouch tree way) })

/-- Core c uses line l of its L2 through its L1D: a prefetched line has been used (R345, R354). -/
def Work.touch (w : Work) (c l : Nat) : Work :=
  match w.l2 c l with
  | none => w
  | some v =>
    let x := w.core c
    let key := 2048 + l % 64
    let same := x.lines.filter (fun e => e.1 % 64 = l % 64 && e.2.l1d.isSome && e.1 ≠ l)
    let tree := SMap.get 0 x.plru key
    let way := match v.l1d with
      | some y => y
      | none => pickWay tree 8 (fun y => same.any (fun e => e.2.l1d = some y))
    let out := same.find? (fun e => e.2.l1d = some way)
    let set := l % 1024
    let raised (d : Detector) : Detector := { d with depth := min (d.depth + 1) x.depth }
    let atBound : Bool := match v.prefetched.bind (SMap.look x.detectors) with
      | some d => decide (x.depth ≤ d.depth)
      | none => false
    (w.clampedAt atBound).modCore c (fun x => { x with
      lines := SMap.mapVal x.lines (fun k e =>
        if k = l then { e with l1d := some way, prefetched := none }
        else match out with
          | some o => if k = o.1 then { e with l1d := none } else e
          | none => e)
      resv := match out with
        | some o => if x.resv = some o.1 then none else x.resv
        | none => x.resv
      detectors := match v.prefetched with
        | some n => SMap.mapVal x.detectors (fun k d => if k = n then raised d else d)
        | none => x.detectors
      clamped := if atBound then satAdd 32 x.clamped 1 else x.clamped
      plru := SMap.set 0 (SMap.set 0 x.plru key (plruTouch tree way)) set (plruTouch (SMap.get 0 x.plru set) v.way) })

/-- The copy of line l that core q holds in M, O or E, in its L2 or its eviction buffer: state, data, poison. -/
def Work.holder (w : Work) (q l : Nat) : Option (LineState × LineData × BitVec 4) :=
  match (w.core q).evict.find? (fun e => e.line = l) with
  | some e => some (e.st, e.data, e.poison)
  | none => match w.l2 q l with
    | some x => if x.st = .s || x.st = .i then none else some (x.st, x.data, x.poison)
    | none => none

/-- The state of core q's copy of line l, in its L2 or its eviction buffer. -/
def Work.setCopy (w : Work) (q l : Nat) (st : LineState) : Work :=
  w.modCore q (fun x => { x with
    lines := SMap.mapVal x.lines (fun k e => if k = l then { e with st := st } else e)
    evict := x.evict.map (fun e => if e.line = l then { e with st := st } else e) })

/-- Core q gives up line l with nothing written back (R346, R364). -/
def Work.dropCopy (w : Work) (q l : Nat) : Work :=
  w.modCore q (fun x => { x with
    lines := SMap.erase x.lines l
    evict := x.evict.filter (fun e => e.line ≠ l)
    resv := if x.resv = some l then none else x.resv })

/-- A read for a copy by core c, served whole (R363, R364). -/
def Work.fillShared (w : Work) (c l : Nat) (prefetched : Option Nat) : Work :=
  let w := w.reclaim c l
  let e := w.dirAt l
  let q := e.owner
  let others := setBit e.present c false
  let fromHome (st : LineState) (w : Work) : Work :=
    let w := w.homeRead l (w.coreOwner c)
    let (d, p) := w.lineData l
    let w := w.install c l st d p prefetched
    w.setDir l (if st = .e then { st := .em, owner := c, present := setBit 0 c true }
      else { st := .s, owner := 0, present := setBit others c true })
  match e.st with
  | .i => fromHome .e w
  | .s => fromHome .s w
  | _ =>
    match (if q = c then none else w.holder q l) with
    | none => if setBit others q false = 0 then fromHome .e w else fromHome .s w
    | some (st, d, p) =>
      let w := w.setCopy q l (if st = .e then .s else .o)
      let w := w.install c l .s d p prefetched
      w.setDir l { st := if st = .e then .s else .o, owner := if st = .e then 0 else q, present := setBit e.present c true }

/-- Every core that the directory lists for line l, but c. -/
def Work.holders (w : Work) (c l : Nat) : List Nat := (bitList (w.dirAt l).present).filter (fun q => q ≠ c)

/-- Line l is brought to M or E in core c's L2, served whole: an upgrade where it holds the line, else a read for
ownership (R363). -/
def Work.fillUnique (w : Work) (c l : Nat) : Work :=
  let w := w.reclaim c l
  let e := w.dirAt l
  let mine := w.l2 c l
  let dirty := if (e.st = .o || e.st = .em) && e.owner ≠ c then
      (match w.holder e.owner l with | some (st, d, p) => if st = .e then none else some (d, p) | none => none)
    else none
  let w := w.each (w.holders c l) (fun w q => w.dropCopy q l)
  let w := match mine with
    | some x => w.setCopy c l (if x.st = LineState.e then LineState.e else LineState.m)
    | none => match dirty with
      | some (d, p) => w.install c l .m d p none
      | none =>
        let w := w.homeRead l (w.coreOwner c)
        let (d, p) := w.lineData l
        w.install c l .e d p none
  w.setDir l { st := .em, owner := c, present := setBit 0 c true }

/-! ## Stride detectors of the L2 (R352) -/

/-- A miss of core c on line l trains the detector of the load or store's instruction, whose address no command carries; the
depth it starts with is open (log entry 3). -/
def Work.l2Train (w : Work) (c l : Nat) : Work :=
  let (i, w) := w.take
  let x := w.core c
  let key := Config.freeNat i
  let age := newestAge x.detectors + 1
  let okStride (g : Int) : Bool := -64 ≤ g && g ≤ 64
  match detectorFor x.detectors 16 key with
  | (k, true) =>
    let (n, w) := w.take
    let depth := Config.freeNat n % (x.depth + 1)
    w.modCore c (fun x => { x with detectors := SMap.mapVal x.detectors (fun j d =>
      if j = k then d.next l depth age okStride else d) })
  | (k, false) => w.modCore c (fun x =>
      { x with detectors := SMap.insert (SMap.erase x.detectors k) k (Detector.fresh key 0 l age) })

/-- As `l2Train`, for a line that the L2 may hold. -/
def Work.l2Miss (w : Work) (c l : Nat) : Work := if (w.l2 c l).isSome then w else w.l2Train c l

/-- Line l may be written in core c's L2 without a request. -/
def Work.ownsLine (w : Work) (c l : Nat) : Bool := match w.l2 c l with | some x => x.st = .m || x.st = .e | none => false

/-- As `fillUnique`, for a line that is overwritten whole: nothing is read, dirty data elsewhere is discarded (R355). -/
def Work.takeWhole (w : Work) (c l : Nat) : Work :=
  let w := w.reclaim c l
  let w := w.each (w.holders c l) (fun w q => w.dropCopy q l)
  (w.install c l .m 0 0 none).setDir l { st := .em, owner := c, present := setBit 0 c true }

/-- Write bytes into lines that core c owns: the lines become M, reservations of others on them end, read-ahead
entries go, and whole code words lose their poison (R325, R336, R358, R372). -/
def Work.writeLine (w : Work) (c a : Nat) (bs : List Byte) : Work :=
  w.each (linesOf a bs.length) (fun w l =>
    let whole := a ≤ l * 128 && (l + 1) * 128 ≤ a + bs.length
    let w := if w.ownsLine c l then w else if whole then w.takeWhole c l else (w.l2Miss c l).fillUnique c l
    let w := (w.touch c l).clearResv l (l + 1) (some c)
    let w := w.dropAhead l (l + 1)
    let lo := max a (l * 128)
    let part := (bs.drop (lo - a)).take ((l + 1) * 128 - lo)
    w.modCore c (fun x => { x with lines := SMap.mapVal x.lines (fun k e =>
      if k ≠ l then e
      else
        let clean (i : Nat) : Bool := lo ≤ l * 128 + 32 * i && l * 128 + 32 * (i + 1) ≤ lo + part.length
        { e with
          st := .m
          data := lineOf (splice (lineBytes e.data) (lo - l * 128) part)
          poison := maskOf 4 (fun i => bit e.poison i && !clean i) }) }))

/-! ## Stores that become visible (R322, R332, R333) -/

/-- A store is refused at its point of coherence: it is dropped, recorded, and interrupt 35 becomes pending (R333). -/
def Work.dropStore (w : Work) (c a : Nat) : Work :=
  (w.modCore c (fun x => { x with int35 := true })).record
    { cls := 0x0307, kind := 1, id := c, pound := optPound (w.coreOwner c), action := 6, addr := a }

/-- The point of coherence takes a store of core c. -/
def Work.storeOk (w : Work) (c a n : Nat) : Bool := w.acc (.core c) a n true = .ok && !w.dead (w.local_ a)

/-- A write at the point of coherence by core c, with the effect of publish: the core's own reservation stays (R325). -/
def Work.coreWriteOut (w : Work) (c a : Nat) (bs : List Byte) : Work :=
  let r := (w.core c).resv
  (w.pwrite a bs true (w.coreOwner c) (some (.core c))).modCore c (fun x => { x with resv := r })

/-- One unit of core c's store buffer becomes visible. -/
def Work.drainUnit (w : Work) (c : Nat) (u : StoreUnit) : Work :=
  let a := w.local_ u.addr
  if !w.storeOk c u.addr u.bytes.length then w.dropStore c u.addr
  else if (w.place a).mainMemory && !u.nc then w.writeLine c a u.bytes
  else w.coreWriteOut c a u.bytes

/-- Core c's oldest store becomes visible. -/
def Work.drainOne (w : Work) (c : Nat) : Work :=
  match (w.core c).storeBuf with
  | [] => w
  | u :: rest => (w.modCore c (fun x => { x with storeBuf := rest })).drainUnit c u

/-- Core c's store buffer drains. -/
def Work.drainStores (w : Work) (c : Nat) : Work :=
  match (w.core c).storeBuf with
  | [] => w
  | l => (w.modCore c (fun x => { x with storeBuf := [] })).each l (fun w u => w.drainUnit c u)

/-! ## The write-combining buffer (R330, R331) -/

/-- Runs of set bits of a mask: start and length. -/
def maskRuns (mask : BitVec 128) : List (Nat × Nat) :=
  (idxs 128 (fun i => bit mask i && (i = 0 || !bit mask (i - 1)))).map (fun i =>
    (i, (((List.range 128).drop i).takeWhile (fun j => bit mask j)).length))

/-- An entry of core c's write-combining buffer drains: a publish write of its bytes that allocates no sector
(R330, R349). -/
def Work.drainWcEntry (w : Work) (c : Nat) (e : WcEntry) : Work :=
  let w := w.modCore c (fun x => { x with wc := x.wc.filter (fun y => y.line ≠ e.line) })
  let a := e.line * 128
  if !w.storeOk c a 128 then w.dropStore c a
  else
    let r := (w.core c).resv
    let w := w.snoopRange e.line (e.line + 1) false (e.mask = BitVec.allOnes 128)
    let w := (w.clearResv e.line (e.line + 1) none).dropAhead e.line (e.line + 1)
    let w := w.modCore c (fun x => { x with resv := r })
    let bs := lineBytes e.data
    let w := w.each (maskRuns e.mask) (fun w x => (w.post (a + x.1) ((bs.drop x.1).take x.2) (some (.core c))).put
      (.bytes (a + x.1) ((bs.drop x.1).take x.2)))
    match w.place a with
    | .hbm _ =>
      let (s, _, _) := w.arcAt e.line
      let p := w.coreOwner c
      let code := SMap.get 0 w.chip.sizeCodes (e.line / 32)
      let hit := (SMap.look (w.slice s).sectors e.line).isSome
      if code ≠ 0 then
        let w := w.storeRaw s (e.line / 32) code p
        if hit then w.arcUse e.line p false none else w
      else if hit then w.arcUse e.line p true none
      else if (w.slice s).evict.contains e.line then w
      else w.charge s p true (sectorCharge false ((maskRuns e.mask).foldl (fun n x => n + x.2) 0))
    | _ => w

/-- Every entry of core c's write-combining buffer drains. -/
def Work.drainWc (w : Work) (c : Nat) : Work := w.each (w.core c).wc (fun w e => w.drainWcEntry c e)

/-- The entry of line l drains. -/
def Work.drainWcLine (w : Work) (c l : Nat) : Work :=
  match (w.core c).wc.find? (fun e => e.line = l) with
  | some e => w.drainWcEntry c e
  | none => w

/-! ## Warm core reset (R332, R377) -/

/-- A write of core c to an address stalls: its resource is being scrubbed (R92), or its way to the home leads over a failed
link. -/
def Work.stalls (w : Work) (c a : Nat) : Bool :=
  let la := w.local_ a
  w.scrubbing la || match w.homeOf la with
    | some h => (w.dieRoute (agentDie c) (homeDie h) (la / 128) 6).any (fun l => (w.srt l).a.st = .failed)
    | none => false

/-- Units of 8 B that a store touches. -/
def StoreUnit.count (u : StoreUnit) : Nat := if u.bytes.isEmpty then 0 else (u.addr + u.bytes.length - 1) / 8 - u.addr / 8 + 1

/-- Warm core reset of core c: its buffers drain; a store that stalls is discarded with every store behind it, as is an entry that
stalls, and recorded; dirty lines are written back and everything is invalidated (R332). -/
def Work.warmCoreReset (w : Work) (c : Nat) : Work :=
  let x := w.core c
  let units := x.storeBuf.dropWhile (fun u => !w.stalls c u.addr)
  let entries := x.wc.filter (fun e => w.stalls c (e.line * 128))
  let w := w.modCore c (fun x => { x with
    storeBuf := x.storeBuf.takeWhile (fun u => !w.stalls c u.addr)
    wc := x.wc.filter (fun e => !w.stalls c (e.line * 128)) })
  let w := (w.drainStores c).drainWc c
  let k := units.foldl (fun n u => n + u.count) 0
  let n := k + entries.length
  let w := if n = 0 then w else w.record
    { cls := 0x0308, kind := 1, id := c, pound := optPound (w.coreOwner c), action := 6, count := n, d0 := k,
      d1 := entries.length }
  let x := w.core c
  let dirty := (x.lines.filterMap (fun (e : Nat × L2Line) => if e.2.st = .m || e.2.st = .o then
      some (EvictEntry.mk e.1 e.2.st e.2.data e.2.poison) else none)) ++ x.evict
  let w := w.each dirty (fun w e => w.finishWriteback c e)
  let w := { w with chip.homes := SMap.mapVal w.chip.homes (fun _ h =>
      { h with dir := h.dir.filterMap (fun (e : Nat × DirEntry) => let d := e.2.drop c; if d = DirEntry.none then none else some (e.1, d)) }) }
  w.setCore c HostCore.reset

/-- Every core that holds anything. -/
def Work.warmResetAll (w : Work) : Work := w.each (w.chip.cores.map (·.1)) (fun w c => w.warmCoreReset c)

end Sys2Proof.Machine
end

