-- ==== Sys2Proof/Machine/HostRegs.lean ====
section
/-!
DEFINITION. When an instruction of a host core runs, and its stores to I/O regions: a store there waits until every earlier store
is visible (R320 to R322, R329, R371), and a register write takes effect where it is allowed (R7, R8, R70).
-/

namespace Sys2Proof.Machine

/-- A load of core c from a port is outstanding: RVTSO keeps every later access of the hart behind it (R322, R328). -/
def Work.hartBusy (w : Work) (c : Nat) : Bool := w.chip.ports.any (fun p => p.2.reqs.any (fun r => r.core = some c))

/-- A hardware error that is due is taken before the next instruction (R371); the instruction waits for a load that is outstanding
(log entry 7). -/
def Work.hostInstr (w : Work) (c : Nat) (f : Work → Work) : Work :=
  match (w.core c).hwError with
  | some v => (w.modCore c (fun x => { x with hwError := none })).hostTrap c 19 v.toNat
  | none => if w.hartBusy c then w else f (w.modCore c (fun x => { x with trap := none }))

/-- A store of core c to an I/O region: every earlier store of the hart is visible at SYSTEM first (R320, R321, R329). -/
def Work.hostIo (w : Work) (c : Nat) (f : Work → Work) : Work :=
  match (w.core c).hwError with
  | some v => (w.modCore c (fun x => { x with hwError := none })).hostTrap c 19 v.toNat
  | none => if w.hartBusy c then w else f (w.drainStores c)

/-- A register write of a host core at control offset `off`: malformed unless its size is that of a register or of a half
of one; ignored and recorded where its unit is excluded or its command processor not in service; ignored for a tile index
not in service; refused unless allowed; else it acts (R7, R8, R70, R559, R612). -/
def Work.regDo (w : Work) (c off : Nat) (z : Size) (high allowed : Bool) (v : W64) (f : Work → Work) : Work :=
  let a := ctlBase + off + halfOff z high
  if !regSize z then (w.recReg c a true z.bytes v.toNat).modCore c (fun x => { x with trap := none })
  else if w.blockOut off then (w.recReg c a true z.bytes v.toNat).modCore c (fun x => { x with trap := none })
  else if !allowed then w.denyStore c a
  else if w.cpOut off then (w.recReg c a true z.bytes v.toNat).modCore c (fun x => { x with trap := none })
  else if w.tileOut off then w.modCore c (fun x => { x with trap := none })
  else (f w).modCore c (fun x => { x with trap := none })

/-- A command that names the register it writes: the store of a host core to it (R329). -/
def Work.regStore (w : Work) (c off : Nat) (z : Size) (high allowed : Bool) (v : W64) (f : Work → Work) : Work :=
  w.hostIo c (fun w => w.regDo c off z high allowed v f)

end Sys2Proof.Machine
end

