-- ==== Sys2Proof/Machine/Rotation.lean ====
section
/-!
DEFINITION. What replay, Collation, Ballast and Audit share: spares of a die, confirmed mismatches, quarantine, priority
audits, and the start and end of a Collation sample (R159, R240, R527 to R535).
-/

namespace Sys2Proof.Machine

/-- Spare indices of C-die d ("Tile indices and spare tiles"). -/
def spareIdxs (d : Nat) : List Nat := (List.range 4).map (fun i => 144 + 4 * d + i)

/-- Indices of the die whose tile is in state spare. -/
def Work.sparesOf (w : Work) (d : Nat) : List Nat := (spareIdxs d).filter (fun t => (w.tile t).st = .spare)

/-- The tile serves a replay's attempt 2 (R240). -/
def Work.serves (w : Work) (t : Nat) : Bool :=
  w.chip.tiles.any (fun e => match e.2.array.replay with | some r => r.tile2 = some t | none => false)

/-- The tile holds a Collation sample, check or arbitration (R532, R534). -/
def Work.holdsSample (w : Work) (t : Nat) : Bool := w.chip.samples.any (fun s => s.checker = t || s.arbiter = some t)

/-- End a sample: its tiles' stores are zeroed and are free again (R533). -/
def Work.endSample (w : Work) (s : Sample) : Work :=
  let w := { w with chip.samples := without w.chip.samples s }
  let w := w.zeroStore s.checker
  match s.arbiter with
  | some a => w.zeroStore a
  | none => w

/-- Count a sample that was skipped (R532, R535). -/
def Work.countSkipped (w : Work) (p : Nat) : Work :=
  { w with chip.rolls.skipped := SMap.modify 0 w.chip.rolls.skipped p (fun n => satAdd 32 n 1) }

/-- The samples that hold a tile yield it (R535). -/
def Work.yieldSamples (w : Work) (t : Nat) : Work :=
  w.each (w.chip.samples.filter (fun s => s.checker = t || s.arbiter = some t))
    (fun w s => (w.endSample s).countSkipped s.pound)

/-- A chain's sample is dropped (R530). -/
def Work.dropSample (w : Work) (t chain : Nat) : Work :=
  w.each (w.chip.samples.filter (fun s => s.source = t && s.chain.id = chain)) (fun w s => w.endSample s)

/-! ## Charges and quarantine (R527 to R529) -/

/-- Mark the tile that holds an index for a priority audit (R528). -/
def Work.priorityAudit (w : Work) (t : Nat) : Work :=
  w.modTile t (fun x => { x with phys.priority := true, phys.audDue := BitVec.ofNat 64 w.now })

/-- Reservations that other pounds have on die d, where they own an active tile, and that no quarantine has used (R64,
R529). -/
def Work.unusedReservations (w : Work) (p d : Nat) : Nat :=
  (List.range 16).foldl (fun a q => match w.cfg? q with
    | some g =>
      if q ≠ p && (List.range 36).any (fun i => bit g.tileMask (36 * d + i)) then
        a + (g.sparesReserved - SMap.get 0 (w.pound q).sparesGone d)
      else a
    | none => a) 0

/-- A spare is available to a quarantined tile of index t (R529). -/
def Work.spareAvailable (w : Work) (t : Nat) : Bool :=
  let d := tileDie t
  let n := (w.sparesOf d).length
  match w.tileOwner t with
  | none => false
  | some p =>
    match w.cfg? p with
    | none => false
    | some g =>
      if g.sparePolicy = 1 then w.unusedReservations p d < n
      else if g.sparePolicy = 2 then 0 < n && SMap.get 0 (w.pound p).sparesGone d < g.sparesReserved
      else false

/-- A tile whose quarantine is due and which has finished its launch enters state quarantined when no spare is
available (R159, R529). -/
def Work.settleQuarantine (w : Work) (t : Nat) : Work :=
  let x := w.tile t
  if x.exDue = some .quarantine && (x.st = .idle || x.st = .disabled || x.st = .unowned || x.st = .spare) &&
      !w.spareAvailable t
  then (w.modTile t (fun x => { x with st := .quarantined, exDue := none })).refuseWaiting t 0x0B
  else w

/-- The tile that holds index t is quarantined: 1 by its third charge, 2 by a failed audit (R528, R529). -/
def Work.quarantine (w : Work) (t cause : Nat) : Work :=
  let x := w.tile t
  let w := w.record { cls := 0x050C, kind := 2, id := t, pound := optPound (w.tileOwner t), action := 8, d0 := cause,
                      d1 := x.phys.die * 64 + x.phys.pos }
  if 144 ≤ t then w.modTile t (fun x => { x with st := .quarantined, exDue := none })
  else (w.modTile t (fun x => { x with exDue := some .quarantine })).settleQuarantine t

/-- One confirmed mismatch is charged to the tile that holds index t; the third within 86,400 s of the first of the last
three quarantines it (R527, R528). -/
def Work.chargeTile (w : Work) (t : Nat) : Work :=
  let x := w.tile t
  let l := x.phys.charges ++ [w.now]
  let l := l.drop (l.length - 3)
  let w := w.modTile t (fun x => { x with phys.charges := l, phys.total := satAdd 32 x.phys.total 1 })
  if l.length = 3 && w.now - l.headD 0 ≤ 86_400_000_000_000 && x.st ≠ .quarantined && x.exDue ≠ some .quarantine
  then w.quarantine t 1 else w

/-! ## Collation samples (R530 to R532) -/

/-- The probability that pound p samples a chain is not 0 (R530, R531). -/
def Work.sampling (w : Work) (p : Nat) : Bool :=
  match w.cfg? p with
  | some g => g.collationLog2 ≠ 0 || w.now < (w.pound p).collWindowEnd
  | none => false

/-- The first instruction of a chain of tile t issues: whether the chain is sampled is a free choice; a sample takes a
checker, or is skipped (R530, R532). -/
def Work.sampleChain (w : Work) (t : Nat) (c : Chain) : Work :=
  match w.tileOwner t, (w.tile t).launch with
  | some p, some l =>
    if !w.sampling p then w
    else
      let (n, w) := w.take
      if !Config.freeBool n then w
      else
        let w := { w with chip.rolls.sampled := SMap.modify 0 w.chip.rolls.sampled p (fun n => satAdd 32 n 1) }
        let w := w.modTile t (fun x => { x with phys.colSampled := satAdd 32 x.phys.colSampled 1 })
        match (w.sparesOf (tileDie t)).find? (fun u => !w.holdsSample u && !w.serves u) with
        | none => w.countSkipped p
        | some u => { w with chip.samples := w.chip.samples ++
            [{ source := t, checker := u, arbiter := none, chain := c, captured := none, disputed := false, stamp := 0,
               sq := l.sq, seq := l.seq, outBase := 0, pound := p }] }
  | _, _ => w

end Sys2Proof.Machine
end

