-- ==== Sys2Proof/Machine/Orders.lean ====
section
/-!
DEFINITION. Lock orders: posting, notices, the start and end of an action, lateness, and cancels (R110 to R119).
-/

namespace Sys2Proof.Machine

/-- Order at a table index. -/
def Work.order? (w : Work) (i : Nat) : Option Order := SMap.look w.chip.time.orders i

/-- Orders posted by anyone but the power controller and the Lockkeeper (R112). -/
def Work.outsideOrders (w : Work) : Nat :=
  (w.chip.time.orders.filter (fun e => match e.2.poster with | .management | .pound _ => true | _ => false)).length

/-- Pounds that the active charter names. -/
def Work.present (w : Work) : List Nat := (List.range 16).filter (fun p => (w.cfg? p).isSome)

/-- Pounds that an order affects (R113). -/
def Work.affects (w : Work) (o : Order) : List Nat :=
  if o.action = 2 || o.action = 4 then w.present else if o.pound < 16 then [o.pound] else []

/-- Each affected pound receives the notice of order i (R118, R298, R303). -/
def Work.sendNotice (w : Work) (i : Nat) (o : Order) : Work :=
  let d0 := o.action + i * 2 ^ 16
  let w := { w with chip.time.orders := SMap.insert (SMap.erase w.chip.time.orders i) i { o with noticed := true } }
  w.each (w.affects o) (fun w p => w.notice p 0x14 d0 o.at_ d0 o.at_)

/-- The moment of an order's notice has come and its notice has not gone. -/
def Work.noticeDue (w : Work) (o : Order) : Bool := o.notice ≠ 0 && !o.noticed && o.at_ ≤ w.now + o.notice * 1000

/-- A free entry of the table: any one (R112; log entry 3). -/
def Work.freeEntry (w : Work) : Work × Option Nat :=
  let (n, w) := w.take
  (w, ((List.range 4096).map (fun i => (Config.freeNat n + i) % 4096)).find? (fun i => (w.order? i).isNone))

/-- Statuses of LT_ORDER_RESULT (R124). -/
def ltFull : Nat := 1
def ltUnavailable : Nat := 2
def ltTooSoon : Nat := 3
def ltTooFar : Nat := 4
def ltNotPermitted : Nat := 5
def ltBadArgument : Nat := 6
def ltNotFound : Nat := 7
def ltTooLate : Nat := 8

/-- The status with which the table refuses an order, 0 where it accepts it (R110, R112, R114). -/
def Work.postStatus (w : Work) (poster : Poster) (at_ : Nat) : Nat :=
  let outside := match poster with | .management | .pound _ => true | _ => false
  if !w.locked then ltUnavailable
  else if at_ < w.now + 2000 then ltTooSoon
  else if w.now + 86_400_000_000_000 < at_ then ltTooFar
  else if outside && 3840 ≤ w.outsideOrders then ltFull
  else 0

/-- Post an order: its status, and its index when it is accepted (R112, R114, R118). -/
def Work.post_ (w : Work) (poster : Poster) (action at_ pound notice arg : Nat) : Work × Nat × Nat :=
  match w.postStatus poster at_ with
  | 0 =>
    (match w.freeEntry with
    | (w, none) => (w, ltFull, 0)
    | (w, some i) =>
      let o : Order :=
        { action := action, at_ := at_, pound := pound, notice := notice, arg := arg, poster := poster,
          accepted := w.chip.time.accepted, began := none, deadline := none, noticed := false }
      let w := { w with chip.time.orders := SMap.insert w.chip.time.orders i o, chip.time.accepted := o.accepted + 1 }
      (if w.noticeDue o then w.sendNotice i o else w, 0, i))
  | s => (w, s, 0)

/-- As `post_`, by the power controller or the Lockkeeper. -/
def Work.postOwn (w : Work) (poster : Poster) (action at_ pound notice arg : Nat) : Work :=
  (w.post_ poster action at_ pound notice arg).1

/-- An order with the same AT starts before order o: its ACTION is lower, or it was accepted first (R115). -/
def Work.startsAfter (w : Work) (o : Order) : Bool :=
  w.chip.time.orders.any (fun e => e.2.at_ = o.at_ && e.2.began.isNone &&
    (e.2.action < o.action || e.2.action = o.action && e.2.accepted < o.accepted))

/-- The action of order i may start: Lock Time is LOCKED and has reached AT, and no order of the same AT starts before it (R110,
R115). -/
def Work.startable (w : Work) (i action : Nat) : Option Order :=
  match w.order? i with
  | some o => if o.action = action && o.began.isNone && w.locked && o.at_ ≤ w.now && !w.startsAfter o then some o else none
  | none => none

/-- The action of an order starts late at time b: more than 1 us after AT, or because Lock Time has returned after AT (R83, R116,
R117). -/
def Work.startsLate (w : Work) (o : Order) (b : Nat) : Bool :=
  decide (o.at_ + 1000 < b) || (o.at_ < w.chip.time.lockedAt && w.chip.time.lockedAt ≤ b)

/-- The action of order i starts: a notice still due goes first, and a late start sets LATE (R116, R118). -/
def Work.beginOrder (w : Work) (i : Nat) (o : Order) (deadline : Option Nat) : Work :=
  let w := if w.noticeDue o then w.sendNotice i o else w
  let o := { o with began := some w.now, deadline := deadline, noticed := true }
  { w with
    chip.time.orders := SMap.insert (SMap.erase w.chip.time.orders i) i o
    chip.time.late := w.chip.time.late || w.startsLate o w.now }

/-- Lateness of an order that ends now, in ns; 0 when it is not late (R116, R615). -/
def Work.lateness (w : Work) (o : Order) : Nat :=
  max (o.began.getD w.now - (o.at_ + 1000)) (match o.deadline with | some d => w.now - (o.at_ + d) | none => 0)

/-- Free entry i. -/
def Work.freeOrder (w : Work) (i : Nat) : Work := { w with chip.time.orders := SMap.erase w.chip.time.orders i }

/-- Order i ends: its entry is free; a late one, or one left unfinished, sets LATE and writes a record (R112, R116,
R511). -/
def Work.endOrder (w : Work) (i : Nat) (unfinished : Bool := false) : Work :=
  match w.order? i with
  | none => w
  | some o =>
    let n := w.lateness o
    let late := n ≠ 0 || w.startsLate o (o.began.getD w.now)
    let w := w.freeOrder i
    if !late && !unfinished then w
    else
      let w := { w with chip.time.late := true }
      let w := if o.action = 1 || o.action = 2 then { w with chip.pwr.lateCnt := satAdd 8 w.chip.pwr.lateCnt 1 } else w
      w.record { cls := 0x0203, kind := if o.action = 3 then 0xC else 0xB, pound := o.pound, d0 := o.action, d1 := o.at_,
                 d2 := n }

/-- Cancel the orders that have not started and meet a condition. -/
def Work.cancelOrders (w : Work) (f : Order → Bool) : Work :=
  { w with chip.time.orders := w.chip.time.orders.filter (fun e => !(e.2.began.isNone && f e.2)) }

/-- A restart or a self-reset of pound p cancels the orders that its host cores posted (R119). -/
def Work.cancelPoundOrders (w : Work) (p : Nat) : Work := w.cancelOrders (fun o => o.poster = .pound p)

/-- An uncore warm reset empties the table (R119). -/
def Work.discardOrders (w : Work) : Work :=
  let n := w.chip.time.orders.length
  { w with chip.time.orders := [] }.record { cls := 0x0205, kind := 0xB, action := 6, count := n }

/-- A held order of kind "Drop" is freed without taking effect (R117, R615). -/
def Work.dropOrder (w : Work) (i : Nat) (o : Order) : Work :=
  (w.freeOrder i).record { cls := 0x0204, kind := 0xB, pound := o.pound, action := 6, d0 := o.action, d1 := o.at_,
                           d2 := w.now - o.at_ }

/-! ## Checkpoint fences and Collation windows (R304, R531) -/

/-- Action 0x07: FENCE_SEQ takes LAST_STARTED in every submission queue of the pound (R304). -/
def Work.fenceStart (w : Work) (i : Nat) : Work :=
  match w.startable i 7 with
  | none => w
  | some o =>
    let w := w.beginOrder i o (some 1_000_000)
    let qs := w.sqsOf o.pound
    let w := w.each qs (fun w q => w.modSq q (fun s => { s with fenceSeq := s.started }))
    (w.modPound o.pound (fun x => { x with fences := x.fences ++ [(o.at_, qs.map (fun q => (q, (w.sq q).fenceSeq)))] })).endOrder i

def execCheckpointFence (index : OrderIdx) (s : State) := lift (fun w => w.fenceStart index.val) s

/-- Every command of queue q with SEQ up to n has completed. -/
def Work.upTo (w : Work) (q : Nat) (n : W32) : Bool :=
  (w.sq q).cmds.all (fun c => c.isDone || 2 ^ 31 ≤ (n - c.seq).toNat)

/-- The oldest fence of a pound has been reached: its entry goes to the notice queue (R304, R298). -/
def Work.fenceReached (w : Work) (p : Nat) : Work :=
  match (w.pound p).fences.find? (fun f => f.2.all (fun e => w.upTo e.1 e.2)) with
  | none => w
  | some f =>
    (w.modPound p (fun x => { x with fences := x.fences.erase f })).notice p 0x15 f.1 0 0 f.1

def execCheckpointFenceReached (pound : PoundId) (s : State) := lift (fun w => w.fenceReached pound.val) s

/-- Action 0x06: a Collation window runs for ARG us; windows that overlap extend the period. It ends at its deadline, AT + ARG us, so
that only its start can be late (R113, R116, R531). -/
def Work.windowStart (w : Work) (i : Nat) : Work :=
  match w.startable i 6 with
  | none => w
  | some o =>
    (w.beginOrder i o none).modPound o.pound (fun x =>
      { x with collWindowEnd := max x.collWindowEnd (o.at_ + o.arg * 1000) })

def execCollationWindow (index : OrderIdx) (s : State) := lift (fun w => w.windowStart index.val) s

/-- The windows of a pound whose time has passed end (R531). -/
def Work.windowEnd (w : Work) (p : Nat) : Work :=
  w.each (w.chip.time.orders.filter (fun e => e.2.action = 6 && e.2.pound = p && e.2.began.isSome &&
    e.2.at_ + e.2.arg * 1000 ≤ w.now)) (fun w e => w.endOrder e.1)

def execCollationWindowEnd (pound : PoundId) (s : State) := lift (fun w => w.windowEnd pound.val) s

end Sys2Proof.Machine
end

