-- ==== Sys2Proof/Machine/PowerOps.lean ====
section
/-!
DEFINITION. What the commands of the power controller share: voltage tables, targets and bounds, operating-point changes,
reductions, and the division of the clocks (R488 to R515).
-/

namespace Sys2Proof.Machine

/-! ## Voltage tables and rails (R489, R490) -/

/-- F(i) and V(i) of die d: 0-3 C-dies, 4 and 5 H-dies (R489; log entry 4). -/
def Fuse.freqOf (f : Fuse) (d i : Nat) : Nat :=
  SMap.get (if d < 4 then 600 + 1800 * i / 63 else 1200 + 2400 * i / 63) f.vfMhz (d * 64 + i)
def Fuse.voltOf (f : Fuse) (d i : Nat) : Nat := SMap.get 0 f.vfMv (d * 64 + i)
def Fuse.heavyOf (f : Fuse) (d : Nat) : Nat := SMap.get 0 f.heavyMv d

/-- The voltage for a frequency: V(i) of the lowest entry with F(i) at or above it. -/
def Fuse.voltFor (f : Fuse) (d mhz : Nat) : Nat :=
  match (List.range 64).find? (fun i => mhz ≤ f.freqOf d i) with
  | some i => f.voltOf d i
  | none => f.voltOf d 63

/-- Global indices that C-die d carries. -/
def dieIndices (d : Nat) : List Nat := (List.range 36).map (fun i => 36 * d + i) ++ spareIdxs d

/-- Clock of the tile that holds index t (R488). -/
def Work.tileMhz (w : Work) (t : Nat) : Nat :=
  match w.tileOwner t with
  | some p => (w.ppow p).freqMhz
  | none => 2000

/-- Clock of host core c: the default HOST_MAX_MHZ until a step changes it (log entry 23). -/
def Work.coreMhz (w : Work) (c : Nat) : Nat := SMap.get 3000 w.chip.pwr.coreMhz c
def Work.setCoreMhz (w : Work) (c f : Nat) : Work :=
  { w with chip.pwr.coreMhz := SMap.set 3000 w.chip.pwr.coreMhz c f }

/-- H-die of host core c, 0 or 1 (R16). -/
def coreDie (c : Nat) : Nat := c / 48

/-! ## Targets (R492 to R495, R514) -/

/-- FREQ_MAX_MHZ of pound p. -/
def Work.freqMax (w : Work) (p : Nat) : Nat := match w.cfg? p with | some g => g.freqMax | none => 2400

/-- Set the power controller's state of a pound that the active charter names, when it has none yet (R519). -/
def Work.initPower (w : Work) (p : Nat) : Work :=
  if (w.ppow p).freqMhz = 0 then
    w.modPpow p (fun x => { x with targetMhz := w.freqMax p, freqMhz := w.freqMax p })
  else w

/-- Phases of the launches of pound p that are loading or running. -/
def Work.phasesOf (w : Work) (p : Nat) : List Nat :=
  w.chip.tiles.filterMap (fun e =>
    match e.2.launch with
    | some l => if w.tileOwner e.1 = some p then some l.phase else none
    | none => none)

/-- A valid PWR_PHASE entry: its frequency as it is used, and HEAVY (R493). -/
def Work.phaseEntry (w : Work) (p k : Nat) : Option (Nat × Bool) :=
  let e := SMap.get (false, 0) (w.ppow p).phases k
  if (w.ppow p).phaseEn && e.2 ≠ 0 then some (min (max e.2 600) (w.freqMax p), e.1) else none

/-- The tile needs the heavy guard (R490, R494). -/
def Work.tileHeavy (w : Work) (t : Nat) : Bool :=
  (w.tile t).heavy ||
  (match w.tileOwner t with
  | some p => (w.ppow p).heavyUntil.isSome ||
      (match (w.ppow p).hinted.bind (w.phaseEntry p) with | some e => e.2 | none => false)
  | none => false)

/-- The voltage that the rail of die d needs (R488, R490). -/
def Work.railNeed (w : Work) (d : Nat) : Nat :=
  if d < 4 then
    (dieIndices d).foldl (fun a t => max a (w.fuse.voltFor d (w.tileMhz t) + if w.tileHeavy t then w.fuse.heavyOf d else 0)) 0
  else (List.range 48).foldl (fun a i => max a (w.fuse.voltFor d (w.coreMhz ((d - 4) * 48 + i)))) 0

/-- Every rail stands at what it needs (R490). -/
def Work.setRails (w : Work) : Work :=
  w.each (List.range 6) (fun w d => w.modDiePow d (fun x => { x with railMv := w.railNeed d }))

/-- The preference of R492; none where no launch has a valid entry. -/
def Work.preference (w : Work) (p : Nat) : Option Nat :=
  ((w.phasesOf p ++ (w.ppow p).hinted.toList).filterMap (fun k => (w.phaseEntry p k).map (·.1))).foldl
    (fun a f => some (max (a.getD 0) f)) none

/-- The pound takes part in a frequency group. -/
def PoundPower.isMember (x : PoundPower) : Bool := x.fg = .member || x.fg = .noResult || x.fg = .suspended

/-- The bounds that a reduction acts on at once: power and thermal. -/
def PoundPower.hard (x : PoundPower) : Nat := min x.boundPower x.boundThermal

/-- The target frequency of pound p (R492). -/
def Work.wantTarget (w : Work) (p : Nat) : Nat :=
  let x := w.ppow p
  let group := if x.isMember && x.groupMhz ≠ 0 then x.groupMhz else 2400
  let b := min (min (w.freqMax p) ((w.preference p).getD (w.freqMax p))) (min group x.hard)
  if (w.phasesOf p).isEmpty && x.hinted.isNone then min x.targetMhz b else b

/-- Count the overrides of a target that changes to v (R514; log entry 24). -/
def Work.countOverrides (w : Work) (p v : Nat) : Work :=
  let x := w.ppow p
  let held (ask : Nat) : Bool := decide (v < ask)
  let up (n : Nat) (c : Bool) : Nat := if c then satAdd 12 n 1 else n
  { w with
    chip.pwr.ovr2 := up w.chip.pwr.ovr2 (held (w.freqMax p) && v = x.hard)
    chip.pwr.ovr4 := up w.chip.pwr.ovr4 (x.isMember && x.groupMhz ≠ 0 && held x.groupMhz && (v = x.hard || v = w.freqMax p))
    chip.pwr.ovr5 := up w.chip.pwr.ovr5 (match w.preference p with | some f => held f | none => false) }

/-- No safety action is in force. -/
def Work.pwrNormal (w : Work) : Bool := w.chip.pwr.mode = .normal

/-- Post an operating-point change of pound p toward its target, delay ns from now and at least 2 us; it cancels a pending
one (R495). Nothing is posted while Lock Time is lost (R110). -/
def Work.postChange (w : Work) (p delay : Nat) : Work :=
  if !w.locked || !w.pwrNormal then w
  else
    (w.cancelOrders (fun o => o.action = 1 && o.pound = p)).postOwn .power 1 (w.now + max 2000 delay) p 0 (w.ppow p).targetMhz

/-- Bring pound p's target up to date. A fall to a power or thermal bound acts without an order; a frequency group's
member posts none; any other change is an operating-point change (R495, R503). -/
def Work.retargetAfter (w : Work) (p delay : Nat) : Work :=
  let x := w.ppow p
  let v := w.wantTarget p
  if v = x.targetMhz then w
  else
    let w := (w.countOverrides p v).modPpow p (fun x => { x with targetMhz := v })
    if x.isMember || (v < x.targetMhz && v = x.hard) then w else w.postChange p delay

/-- As `retargetAfter`, 2 us from now. -/
def Work.retarget (w : Work) (p : Nat) : Work := w.retargetAfter p 0

/-- The pound's frequency is not its target, and nothing is under way to change it: a change is posted (R110, R511). -/
def Work.follow (w : Work) (p : Nat) : Work :=
  let x := w.ppow p
  if x.isMember || x.freqMhz = x.targetMhz || x.seqTo.isSome ||
      w.chip.time.orders.any (fun e => e.2.action = 1 && e.2.pound = p && e.2.arg = x.targetMhz) then w
  else w.postChange p 0

/-- The frequency that a step from f toward goal ends at (R496). -/
def stepNext (f goal : Nat) : Nat := if f < goal then min goal (f + 25) else max goal (f - 25)

/-- Lower pound p by 25 MHz where it runs above its power or thermal bound: no order (R495, R503, R505, R506, R510). -/
def Work.reduce (w : Work) (p : Nat) : Work :=
  let x := w.ppow p
  if x.hard < x.freqMhz then
    let f := max 600 (x.freqMhz - 25)
    let goal := x.seqTo.map (fun g => min g x.hard)
    (w.modPpow p (fun x => { x with freqMhz := f, seqTo := goal, stepMhz := stepNext f (goal.getD f) })).setRails
  else w

/-- Take 25 MHz from pound p whatever its bounds (R506, R507, R515). -/
def Work.lower25 (w : Work) (p : Nat) : Work :=
  let f := max 600 ((w.ppow p).freqMhz - 25)
  ((w.modPpow p (fun x => { x with boundPower := min x.boundPower f })).retarget p).reduce p

/-- Pounds that own a tile index on C-die d. -/
def Work.poundsOn (w : Work) (d : Nat) : List Nat :=
  w.present.filter (fun p => match w.cfg? p with | some g => (List.range 36).any (fun i => bit g.tileMask (36 * d + i)) | none => false)

/-! ## Safety actions (R33, R510, R511) -/

/-- End the frequency sequences in progress: an order left unfinished is late (R511). -/
def Work.endSequences (w : Work) : Work :=
  w.each ((w.chip.pwr.pounds.filter (fun e => e.2.seqTo.isSome)).map (·.1)) (fun w p =>
    let o := (w.ppow p).seqOrder
    let w := w.modPpow p (fun x => { x with seqTo := none, seqOrder := none, stepHeld := false })
    match o with
    | some i => w.endOrder i true
    | none => w)

/-- The clocks of every tile and host core are divided (R511). -/
def Work.divide (w : Work) : Work :=
  let w := { w with
    chip.pwr.divided := true
    chip.pwr.ballastOn := false
    chip.pwr.mode := if w.pwrNormal then .divided else w.chip.pwr.mode }
  w.endSequences

/-- Every domain at its lowest operating point (R491). -/
def Work.lowest (w : Work) : Work :=
  let w := w.each w.present (fun w p => w.modPpow p (fun x => { x with freqMhz := 600 }))
  (w.each (List.range 96) (fun w c => w.setCoreMhz c 1200)).setRails

end Sys2Proof.Machine
end

