-- ==== Sys2Proof/WellFormed.lean ====
section
/-!
DEFINITION. Commands whose operands have the shape that the spec gives: list operands of a stated length, and
transfers within a stated bound.
-/

namespace Sys2Proof

/-- A power sample lists a share and a fit for each of the 16 pounds, and the current of four rails (R505, R515). -/
def PowerSample.wellFormed (s : PowerSample) : Bool := s.shares.length = 16 && s.fits.length = 16 && s.railAmps.length = 4

/-- At most 512 B of payload and 4,096 B of read, and atomics of 4 to 16 B (R465). -/
def PcieRequest.wellFormed (r : PcieRequest) : Bool :=
  match r.kind with
  | .read n => 1 ≤ n.toNat && n.toNat ≤ 4096
  | .write bs => 1 ≤ bs.length && bs.length ≤ 512
  | .atomic op size _ _ =>
    match op with
    | .add | .swap => size = .b4 || size = .b8
    | .cas => size = .b4 || size = .b8 || size = .b16
    | _ => false

/-- Sizes that a load or store of a core has (R462, R133). -/
def Size.scalar (z : Size) : Bool := z ≠ .b16

/-- AMO sizes of RV64A and Zacas: a word or a doubleword, and a quadword for a compare and swap only (R323). -/
def amoSize (op : AmoOp) (z : Size) : Bool := z = .b4 || z = .b8 || (z = .b16 && op = .cas)

/-- A fabric message has at most 64 data flits (R419). -/
def nylData (data : List NFlit) : Bool := data.length ≤ 64

/-- Each command's operands have the shape that the spec gives. -/
def Instr.wellFormed : Instr → Bool
  | .hostLoad _ _ z _ => z.scalar
  | .hostStore _ _ z _ _ => z.scalar
  | .hostNtStore _ _ z _ _ => z.scalar
  | .hostAmo _ op _ z _ _ _ => amoSize op z
  | .hostLr _ _ z _ => z = .b4 || z = .b8
  | .hostSc _ _ z _ _ => z = .b4 || z = .b8
  | .tileLoad _ _ d _ _ z => z.scalar && (match d with | .f _ => z ≠ .b1 | _ => true)
  | .tileStore _ _ _ _ _ z => z.scalar
  | .tileAmo _ _ op _ _ _ z => op ≠ .cas && (z = .b4 || z = .b8)
  | .tileLr _ _ _ _ z => z = .b4 || z = .b8
  | .tileSc _ _ _ _ _ z => z = .b4 || z = .b8
  | .atomic _ _ op _ z _ _ => amoSize op z
  | .sluiceTick s => s.wellFormed
  | .pcieInboundRequest _ r => r.wellFormed
  | .loadCharter _ part _ => part.length ≤ 65536
  | .nylRead _ _ d => nylData d
  | .nylWritePlain _ _ d => nylData d
  | .nylWritePublish _ _ d => nylData d
  | .nylAdd64 _ _ d => nylData d
  | .nylSwap64 _ _ d => nylData d
  | .nylCas64 _ _ d => nylData d
  | .readData _ _ d => nylData d
  | .writeDone _ _ d => nylData d
  | .atomicDone _ _ d => nylData d
  | .nylError _ _ d => nylData d
  | .cdata _ _ d => nylData d
  | .cack _ _ d => nylData d
  | .cabort _ _ d => nylData d
  | _ => true

end Sys2Proof
end

