-- ==== Sys2Proof/Machine/Power.lean ====
section
/-!
DEFINITION. The commands of the power controller: operating-point changes, caps and the Sluice, Ballast, droop, thermal and
regulator actions (R488 to R516, R584 to R596).
-/

namespace Sys2Proof.Machine

/-! ## Operating-point changes (R496 to R498) -/

/-- Action 0x01: a sequence of 25 MHz steps toward ARG starts, or the one in progress turns toward it when its step ends (R496). -/
def Work.changeStart (w : Work) (i : Nat) : Work :=
  match w.startable i 1 with
  | none => w
  | some o =>
    let x := w.ppow o.pound
    let steps := (if o.arg < x.freqMhz then x.freqMhz - o.arg else o.arg - x.freqMhz) / 25
    let w := match x.seqOrder with | some j => w.endOrder j | none => w
    let w := w.beginOrder i o (some (steps * 10_000 + 1000))
    if (x.freqMhz = o.arg && x.seqTo.isNone) || !w.pwrNormal then
      (w.modPpow o.pound (fun x => { x with seqTo := none, seqOrder := none, stepHeld := false })).endOrder i (!w.pwrNormal)
    else w.modPpow o.pound (fun x =>
      { x with seqTo := some o.arg, seqOrder := some i, stepMhz := if x.seqTo.isSome then x.stepMhz else stepNext x.freqMhz o.arg })

def execOperatingPointChange (index : OrderIdx) (s : State) := lift (fun w => w.changeStart index.val) s

/-- A step ends: the new frequency applies, and the order ends with the last step; while Lock Time is lost the sequence stands
(R110, R490, R496, R498). -/
def Work.stepEnd (w : Work) (p : Nat) : Work :=
  let x := w.ppow p
  match x.seqTo with
  | none => w
  | some goal =>
    if x.stepHeld || !w.locked then w
    else
      let f := x.stepMhz
      let w := (w.modPpow p (fun x => { x with freqMhz := f, stepMhz := stepNext f goal })).setRails
      if f = goal then
        let w := w.modPpow p (fun x => { x with seqTo := none, seqOrder := none })
        match x.seqOrder with
        | some i => w.endOrder i
        | none => w
      else w

def execOpStepEnd (pound : PoundId) (s : State) := lift (fun w => w.stepEnd pound.val) s

/-- A tile stretches its clock; a droop holds the step in progress of its pound (R497, R498). -/
def Work.droop (w : Work) (t : Nat) : Work :=
  if (w.tile t).phys.stretched then w
  else
    let w := w.modTile t (fun x => { x with phys.stretched := true })
    let w := w.modDiePow (tileDie t) (fun x => { x with droops := satAdd 16 x.droops 1 })
    match w.tileOwner t with
    | some p => w.modPpow p (fun x => { x with stepHeld := x.stepHeld || x.seqTo.isSome })
    | none => w

def execDroopDetect (tile : TileId) (s : State) := lift (fun w => w.droop tile.val) s

def execDroopClear (tile : TileId) (s : State) :=
  lift (fun w => w.modTile tile.val (fun x => { x with phys.stretched := false })) s

/-- A held step starts again when no tile of the pound droops (R498). -/
def Work.stepResume (w : Work) (p : Nat) : Work :=
  if w.chip.tiles.any (fun e => e.2.phys.stretched && w.tileOwner e.1 = some p) then w
  else w.modPpow p (fun x => { x with stepHeld := false })

def execOpStepResume (pound : PoundId) (s : State) := lift (fun w => w.stepResume pound.val) s

/-- HOST_MAX_MHZ of the pound of host core c. -/
def Work.hostMax (w : Work) (c : Nat) : Nat := match w.coreOwner c with | some p => (w.ppow p).hostMaxMhz | none => 3000

/-- A 100 MHz step of host core c toward the highest frequency that HOST_MAX_MHZ, power and temperature allow; while Lock
Time is lost it only falls (R496, R514). -/
def Work.hostStep (w : Work) (c allowed : Nat) : Work :=
  let f := w.coreMhz c
  let goal := max 1200 (min (min 3600 (w.hostMax c)) allowed / 100 * 100)
  if !w.pwrNormal then w
  else if goal < f then
    let w := if allowed < w.hostMax c then { w with chip.pwr.ovr5 := satAdd 12 w.chip.pwr.ovr5 1 } else w
    (w.setCoreMhz c (max goal (f - 100))).setRails
  else if f < goal && w.locked then (w.setCoreMhz c (min goal (f + 100))).setRails
  else w

def execHostFreqStep (core : CoreId) (allowedMhz : BitVec 12) (s : State) :=
  lift (fun w => w.hostStep core.val allowedMhz.toNat) s

/-- A launch of pound p belongs to its heavy window and has not ended (R494). -/
def Work.windowBusy (w : Work) (p : Nat) : Bool :=
  match (w.ppow p).heavyUntil with
  | none => false
  | some t => (w.sqsOf p).any (fun q => (w.sq q).cmds.any (fun c => c.op = 1 && c.phase = .started && c.startPs ≤ t))

def execHeavyWindowEnd (pound : PoundId) (s : State) :=
  lift (fun w =>
    if w.windowBusy pound.val then w
    else (w.modPpow pound.val (fun x => { x with heavyUntil := none })).setRails) s

/-! ## The site's values (R504, R507, R111) -/

/-- Fields of the 32-bit ARG. -/
def argFloor (a : Nat) : Nat := a / 2 ^ 22 % 1024
def argSlew (a : Nat) : Nat := a / 2 ^ 12 % 1024
def argCap (a : Nat) : Nat := a % 4096

/-- The cap in force after an ARG has been taken. -/
def Work.capAfter (w : Work) (a : Nat) : Nat := if argCap a = 0 then w.chip.pwr.capW else argCap a

/-- Every value of an ARG lies in its range, and FLOOR not above the cap (R504). -/
def Work.argOk (w : Work) (a : Nat) : Bool :=
  (argFloor a = 0 || argFloor a = 0x3FF || (35 ≤ argFloor a && argFloor a ≤ 300)) && argSlew a ≤ 1000 &&
  (argCap a = 0 || (700 ≤ argCap a && argCap a ≤ 3000)) && (argFloor a = 0x3FF || argFloor a * 10 ≤ w.capAfter a)

/-- Take the values of an ARG. -/
def Work.takeCap (w : Work) (a : Nat) : Work :=
  { w with
    chip.pwr.capW := w.capAfter a
    chip.pwr.slew := if argSlew a = 0 then w.chip.pwr.slew else argSlew a
    chip.pwr.floor := if argFloor a = 0x3FF then w.chip.pwr.floor else argFloor a }

/-- The management endpoint answers vendor commands: firmware is verified (R554, R564). -/
def Work.manage (w : Work) (f : Work → Work) : Work :=
  if w.chip.boot.lockkeeper || w.chip.boot.standbyActive then f w else w

/-- The answer to a management command: completion code and data (R484). -/
def Work.answer (w : Work) (code : Nat) (data : List Byte) : Work :=
  { w with chip.mgmt.code := BitVec.ofNat 8 code, chip.mgmt.data := data }

/-- A refusing status gives completion code 0x80 followed by it (R484). -/
def Work.answerStatus (w : Work) (status : Nat) : Work :=
  if status = 0 then w.answer 0 [] else w.answer 0x80 [BitVec.ofNat 8 status]

/-- Post a power-cap step (R504, R484). -/
def Work.postCap (w : Work) (at_ notice arg : Nat) : Work :=
  if !w.argOk arg then w.answerStatus ltBadArgument
  else match w.post_ .management 2 at_ 0xFF notice arg with
    | (w, status, _) => w.answerStatus status

def execPostCapStep (at_ : W64) (noticeUs : W16) (arg : W32) (s : State) :=
  lift (fun w => w.manage (fun w => w.postCap at_.toNat noticeUs.toNat arg.toNat)) s

/-- Apply a cap, slew and floor at once; while Lock Time is lost only a cap lower than the one in force, slew and floor kept
(R111, R504). -/
def Work.capNow (w : Work) (arg : Nat) : Work :=
  if !w.argOk arg then w.answerStatus ltBadArgument
  else if !w.locked && !(argCap arg ≠ 0 && argCap arg < w.chip.pwr.capW && argSlew arg = 0 && argFloor arg = 0x3FF) then
    w.answerStatus ltUnavailable
  else (w.takeCap arg).answerStatus 0

def execImmediateCap (arg : W32) (s : State) := lift (fun w => w.manage (fun w => w.capNow arg.toNat)) s

/-- Action 0x02: the cap, slew and floor act; the order ends at its start where the cap is at or above L, else when L reaches
it (R507). An earlier cap order that still runs ends (log entry 25). -/
def Work.capStart (w : Work) (i : Nat) : Work :=
  match w.startable i 2 with
  | none => w
  | some o =>
    let w := match w.chip.pwr.capOrder with | some j => w.endOrder j | none => w
    let w := w.takeCap o.arg
    let p := w.chip.pwr
    let above := p.level - p.capW * 200
    let w := w.beginOrder i o (some (above * 10_000 / p.slew + 1_000_000))
    if above = 0 then { w with chip.pwr.capOrder := none }.endOrder i else { w with chip.pwr.capOrder := some i }

def execPowerCapStep (index : OrderIdx) (s : State) := lift (fun w => w.capStart index.val) s

/-! ## The Sluice (R505 to R509, R514 to R516) -/

/-- The ceiling in force (R505, R512). -/
def Power.ceiling (p : Power) : Nat := if p.measOnly then min p.capW 3000 * 92 / 100 else min p.capW 3000

/-- An estimate scaled by measured / estimated while the estimate is distrusted (R512). -/
def scaled (measOnly : Bool) (est meas n : Nat) : Nat := if measOnly && est ≠ 0 then n * meas / est else n

/-- L after one tick, in units of 0.005 W (R506). The floor yields to the cap (R513). -/
def Power.nextLevel (p : Power) (d : Nat) : Nat :=
  let t := 200 * max (min d p.ceiling) (min (p.floor * 10) (min p.capW 3000))
  if p.level < t then min t (p.level + p.slew) else max t (p.level - p.slew)

/-- The pound with the largest share that can still be lowered (R506; log entry 26). -/
def Work.furthest (w : Work) : Option Nat :=
  (w.present.filter (fun p => 600 < (w.ppow p).freqMhz)).foldl (fun a p =>
    match a with
    | none => some p
    | some q => if (w.ppow q).shareW < (w.ppow p).shareW then some p else some q) none

/-- Lower the pound furthest above its share. -/
def Work.lowerFurthest (w : Work) : Work := match w.furthest with | some p => w.lower25 p | none => w

/-- What measured power above or below the level does (R506, R508, R509). -/
def Work.holdLevel (w : Work) (x : PowerSample) (d : Nat) (reduced : Bool) : Work :=
  let l := w.chip.pwr.level
  let meas := x.measuredW.toNat * 200
  let allowed := w.pwrNormal && !w.chip.pwr.measOnly && x.ballastOk
  let w := { w with
    chip.pwr.ballastOn := allowed && decide (d * 200 < l)
    chip.pwr.ballastMj := if allowed && d * 200 < l then (w.chip.pwr.ballastMj + x.ballastMj.toNat) % 2 ^ 64
      else w.chip.pwr.ballastMj }
  if l + 6000 < meas && !reduced then w.lowerFurthest
  else if meas + 6000 < l && !allowed then
    { w with
      chip.pwr.level := meas
      chip.pwr.breach := satAdd 8 w.chip.pwr.breach 1
      chip.pwr.ovr3 := if x.measuredW.toNat < w.chip.pwr.floor * 10 then satAdd 12 w.chip.pwr.ovr3 1 else w.chip.pwr.ovr3 }.record
      { cls := 0x0902, kind := 0xB, d0 := l / 200, d1 := x.measuredW.toNat }
  else w

/-- One tick of the Sluice. -/
def Work.sluice (w : Work) (x : PowerSample) : Work :=
  let p := w.chip.pwr
  let meas := x.measuredW.toNat
  let sc := scaled p.measOnly x.estimatedW.toNat meas
  let ramp := p.pounds.any (fun e => w.chip.refPs < e.2.rampUntil)
  let d := sc x.demandW.toNat + (if ramp && !p.measOnly then x.rampW.toNat else 0)
  let p := { p with
    level := if p.levelSet then p.level else meas * 200
    levelSet := true
    demandW := d
    estW := x.estimatedW.toNat
    measW := meas
    energyMj := p.energyMj + meas }
  let w := { w with chip.pwr := { p with level := p.nextLevel d } }
  let w := w.each w.present (fun w q => (w.initPower q).modPpow q (fun y =>
    { y with
      shareW := sc (x.shares.getD q 0).toNat
      boundPower := min 2400 (max 600 ((x.fits.getD q 0).toNat / 25 * 25)) }))
  let above := w.present.any (fun q => (w.ppow q).hard < (w.ppow q).freqMhz)
  let w := w.each w.present (fun w q => (w.retarget q).reduce q)
  let w := w.holdLevel x d above
  let w := if 3000 < x.average10W.toNat then
      { w with chip.pwr.current := satAdd 8 w.chip.pwr.current 1 }.lowerFurthest
    else w
  let w := w.each (idxs 4 (fun r => bits w.chip.pwr.rail (16 * r + 15) (16 * r) ≤ (x.railAmps.getD r 0).toNat)) (fun w r =>
    { w with chip.pwr.ovr6 := satAdd 12 w.chip.pwr.ovr6 1 }.each (w.poundsOn r) (fun w q => w.lower25 q))
  match w.chip.pwr.capOrder with
  | some i => if w.chip.pwr.level ≤ w.chip.pwr.capW * 200 then { w with chip.pwr.capOrder := none }.endOrder i else w
  | none => w

def execSluiceTick (sample : PowerSample) (s : State) :=
  liftIf sample.wellFormed (fun w => w.sluice sample) s

/-- A Ballast chain on an idle array of tile t: a mismatch is recorded and charged (R185, R508, R527). -/
def Work.ballastChain (w : Work) (t : Nat) (mismatch : Bool) : Work :=
  let x := w.tile t
  let idle := x.array.feed.isNone && x.array.queue.isEmpty && x.array.restart.isEmpty && x.array.replay.isNone &&
    (!x.array.chains.any (fun c => c.bank = 0) || !x.array.chains.any (fun c => c.bank = 1))
  if w.chip.pwr.ballastOn && idle && x.st ≠ .offline && x.st ≠ .audit && x.st ≠ .quarantined && !w.holdsSample t && mismatch then
    (w.record { cls := 0x050A, kind := 2, id := t, pound := optPound (w.tileOwner t) }).chargeTile t
  else w

def execBallastChain (tile : TileId) (mismatch : Bool) (s : State) := lift (fun w => w.ballastChain tile.val mismatch) s

/-- The estimate and the measurement are compared, each 1 ms (R512). -/
def Work.measureCheck (w : Work) (meas : Nat) : Work :=
  let p := w.chip.pwr
  let diff := if p.estW < meas then meas - p.estW else p.estW - meas
  let p := { p with
    measW := meas
    offMs := if 12 * meas < diff * 100 then p.offMs + 1 else 0
    onMs := if diff * 100 ≤ 6 * meas then p.onMs + 1 else 0 }
  let w := { w with chip.pwr := p }
  if !p.measOnly && 20 < p.offMs then
    { w with
      chip.pwr.measOnly := true
      chip.pwr.onMs := 0
      chip.pwr.ballastOn := false
      chip.pwr.distrust := satAdd 8 p.distrust 1 }.record { cls := 0x0903, kind := 0xB, d0 := p.estW, d1 := meas }
  else if p.measOnly && 1000 ≤ p.onMs then
    { w with chip.pwr.measOnly := false, chip.pwr.offMs := 0 }.record { cls := 0x0904, kind := 0xB, d0 := p.estW, d1 := meas }
  else w

def execMeasureCheck (measuredW : W16) (s : State) := lift (fun w => w.measureCheck measuredW.toNat) s

/-! ## Safety actions (R510, R511, R585 to R596) -/

/-- At 115 degrees: the die's domains are divided, and the module stops until module cold reset (R46, R510, R597). -/
def Work.thermalTrip (w : Work) (d temp : Nat) : Work :=
  let w := w.modDiePow d (fun x => { x with st := 2 })
  let w := { w with
    chip.pwr.trip := satAdd 8 w.chip.pwr.trip 1
    chip.pwr.mode := .tripped
    chip.pwr.ballastOn := false }.endSequences
  let w := w.record { cls := 0x0108, kind := 0xB, d0 := d, d1 := temp, action := 10 }
  (w.machineCheck.moduleFault).driveFault 1

/-- 25 MHz less for what stands on a die, and 25 MHz more; host cores do not rise while Lock Time is lost (R110, R496, R510). -/
def Work.thermalStep (w : Work) (d : Nat) (down : Bool) : Work :=
  if d < 4 then
    w.each (w.poundsOn d) (fun w p =>
      let x := w.ppow p
      if down then
        ((w.modPpow p (fun x => { x with boundThermal := max 600 (min x.boundThermal x.freqMhz - 25) })).retarget p).reduce p
      else if (List.range 4).any (fun e => e ≠ d && (w.diePow e).st ≠ 0 && (w.poundsOn e).contains p) then w
      else (w.modPpow p (fun y => { y with boundThermal := min 2400 (x.boundThermal + 25) })).retarget p)
  else
    (w.each (List.range 48) (fun w i =>
      let c := (d - 4) * 48 + i
      w.setCoreMhz c (if down then max 1200 (w.coreMhz c - 25)
        else if !w.locked then w.coreMhz c
        else max (w.coreMhz c) (min (w.hostMax c) (w.coreMhz c + 25))))).setRails

/-- A die reports its temperature (R510). -/
def Work.thermal (w : Work) (d temp : Nat) : Work :=
  let x := w.diePow d
  let w := w.modDiePow d (fun x => { x with tempC := temp })
  if x.st = 2 then w
  else if 115 ≤ temp then w.thermalTrip d temp
  else if 100 < temp then
    let w := if x.st = 0 then { w with chip.pwr.throttle := satAdd 8 w.chip.pwr.throttle 1 } else w
    (w.modDiePow d (fun x => { x with st := 1, cool := 0 })).thermalStep d true
  else if temp < 97 then
    let n := x.cool + 1
    let w := w.modDiePow d (fun x => { x with st := 0, cool := n % 10 })
    if n = 10 && w.pwrNormal then w.thermalStep d false else w
  else w.modDiePow d (fun x => { x with cool := 0 })

def execThermalSample (die : DieId) (tempC : Byte) (s : State) := lift (fun w => w.thermal die.val tempC.toNat) s

/-- A regulator alerts, the input voltage being number 256 (R511, R587). -/
def Work.regAlert (w : Work) (r : Nat) : Work :=
  { w with
    chip.pwr.alerts := without w.chip.pwr.alerts r ++ [r]
    chip.pwr.alert := satAdd 8 w.chip.pwr.alert 1 }.divide

def execRegulatorAlert (regulator : Byte) (s : State) := lift (fun w => w.regAlert regulator.toNat) s

/-- A regulator's alert clears, or with none named that of the input voltage (R511, R587). -/
def execRegulatorAlertClear (regulator : Option Byte) (s : State) :=
  lift (fun w =>
    let r := match regulator with | some b => b.toNat | none => 256
    { w with chip.pwr.alerts := without w.chip.pwr.alerts r }) s

/-- PWR_BRAKE_N has been low for lowNs (R596). -/
def Work.brakeFall (w : Work) (lowNs : Nat) : Work :=
  if lowNs < 100 || w.chip.boot.resetLow then w
  else { w with chip.pwr.brakeLow := true, chip.pwr.brake := satAdd 8 w.chip.pwr.brake 1 }.divide

def execPwrBrakeFall (lowNs : W32) (s : State) := lift (fun w => w.brakeFall lowNs.toNat) s

def execPwrBrakeRise (s : State) := lift (fun w => { w with chip.pwr.brakeLow := false }) s

/-- Every divided domain reaches the lowest operating point, and the dividers are removed (R511). Loss of the reference is
never released. -/
def Work.lowestPoint (w : Work) : Work :=
  if w.chip.pwr.mode = .refLost then w
  else if w.chip.pwr.divided then { w with chip.pwr.divided := false }.lowest
  else if w.chip.pwr.mode = .tripped then
    (w.each (idxs 6 (fun d => (w.diePow d).st = 2)) (fun w d =>
      if d < 4 then w.each (w.poundsOn d) (fun w p => w.modPpow p (fun x => { x with freqMhz := 600 }))
      else w.each (List.range 48) (fun w i => w.setCoreMhz ((d - 4) * 48 + i) 1200))).setRails
  else w

def execAlertLowestPoint (s : State) := lift (fun w => w.lowestPoint) s

/-- The domains are released: L restarts at the measured power, and every pound returns to its target through an order
(R511). -/
def Work.alertRelease (w : Work) (meas : Nat) : Work :=
  if w.chip.pwr.mode ≠ .divided || w.chip.pwr.divided || w.chip.pwr.brakeLow || !w.chip.pwr.alerts.isEmpty then w
  else
    let w := { w with chip.pwr.mode := .normal, chip.pwr.level := meas * 200, chip.pwr.levelSet := true }
    w.each w.present (fun w p => w.follow p)

def execAlertRelease (measuredW : BitVec 12) (s : State) := lift (fun w => w.alertRelease measuredW.toNat) s

/-- The module reference is lost: every domain is forced to its lowest point, and the module stops until module cold reset
(R33, R511, R597). -/
def Work.refLost (w : Work) : Work :=
  if !w.chip.boot.refOk then w
  else
    let w := { w with chip.boot.refOk := false, chip.pwr.mode := .refLost }.divide.lowest
    let w := w.record { cls := 0x0107, kind := 0xB, action := 10 }
    w.moduleFault.driveFault 1

def execReferenceLost (s : State) := lift (fun w => w.refLost) s

end Sys2Proof.Machine
end

