-- ==== Sys2Proof/Machine/Formats.lean ====
section
/-!
DEFINITION. The number formats of the array and the output stage, their exact values, and every rounding (R194 to R214).
Values are exact rationals.
-/

namespace Sys2Proof.Machine

/-- A decoded value: NaN, an infinity, or a finite value as sign and magnitude (the sign of a zero is kept). -/
inductive Num where
  | nan
  | inf (neg : Bool)
  | fin (neg : Bool) (mag : Rat)
deriving DecidableEq, Repr

/-- 2^e. -/
def pow2 (e : Int) : Rat := if 0 ≤ e then ((2 ^ e.toNat : Nat) : Rat) else 1 / ((2 ^ (-e).toNat : Nat) : Rat)

/-- The largest e with 2^e ≤ q, for q > 0. -/
def floorLog2 (q : Rat) : Int :=
  let e : Int := (Nat.log2 q.num.toNat : Int) - (Nat.log2 q.den : Int)
  if pow2 e ≤ q then e else e - 1

/-- Whole part of a rational that is not negative. -/
def wholePart (q : Rat) : Nat := q.num.toNat / q.den

/-- A signed value as a rational; 0 for one that is not finite. -/
def Num.val : Num → Rat
  | .fin neg m => if neg then -m else m
  | _ => 0

def Num.isNan : Num → Bool
  | .nan => true
  | _ => false
def Num.isInf : Num → Bool
  | .inf _ => true
  | _ => false

/-- A finite value with the sign of a rational. -/
def Num.of (q : Rat) : Num := if q < 0 then .fin true (-q) else .fin false q

/-! ## Scalar formats (R195, R196, R199) -/

/-- What the top exponent field stands for. -/
inductive Top where
  /-- Infinity and NaNs, as IEEE 754 gives. -/
  | ieee
  /-- Only the all-ones code is NaN (E4M3). -/
  | oneNan
  /-- Ordinary values (E3M2, E2M3, E2M1). -/
  | plain
deriving DecidableEq, Repr

/-- A floating-point layout: exponent bits, mantissa bits, bias, and its top exponent. -/
structure FloatFmt where
  eb : Nat
  mb : Nat
  bias : Int
  top : Top
deriving DecidableEq, Repr

def fp32 : FloatFmt := { eb := 8, mb := 23, bias := 127, top := .ieee }
def fp16 : FloatFmt := { eb := 5, mb := 10, bias := 15, top := .ieee }
def bf16 : FloatFmt := { eb := 8, mb := 7, bias := 127, top := .ieee }
def e4m3 : FloatFmt := { eb := 4, mb := 3, bias := 7, top := .oneNan }
def e5m2 : FloatFmt := { eb := 5, mb := 2, bias := 15, top := .ieee }
def e3m2 : FloatFmt := { eb := 3, mb := 2, bias := 3, top := .plain }
def e2m3 : FloatFmt := { eb := 2, mb := 3, bias := 1, top := .plain }
def e2m1 : FloatFmt := { eb := 2, mb := 1, bias := 1, top := .plain }

/-- Bits of a code. -/
def FloatFmt.width (f : FloatFmt) : Nat := 1 + f.eb + f.mb

/-- The value of a code. `flush` reads exponent field 0 as zero (R196); otherwise it is subnormal. -/
def FloatFmt.decode (f : FloatFmt) (flush : Bool) (code : Nat) : Num :=
  let neg := code.testBit (f.eb + f.mb)
  let e := code / 2 ^ f.mb % 2 ^ f.eb
  let m := code % 2 ^ f.mb
  let allOnes := 2 ^ f.eb - 1
  if f.top = .ieee && e = allOnes then (if m = 0 then .inf neg else .nan)
  else if f.top = .oneNan && e = allOnes && m = 2 ^ f.mb - 1 then .nan
  else if e = 0 then
    (if flush then .fin neg 0 else .fin neg ((m : Rat) * pow2 (1 - f.bias - f.mb)))
  else .fin neg (((2 ^ f.mb + m : Nat) : Rat) * pow2 ((e : Int) - f.bias - f.mb))

/-- Smallest normal magnitude. -/
def FloatFmt.minNormal (f : FloatFmt) : Rat := pow2 (1 - f.bias)
/-- Largest finite magnitude. -/
def FloatFmt.maxFinite (f : FloatFmt) : Rat :=
  match f.top with
  | .ieee => ((2 ^ (f.mb + 1) - 1 : Nat) : Rat) * pow2 ((2 ^ f.eb - 2 : Nat) - f.bias - f.mb)
  | .oneNan => ((2 ^ (f.mb + 1) - 2 : Nat) : Rat) * pow2 ((2 ^ f.eb - 1 : Nat) - f.bias - f.mb)
  | .plain => ((2 ^ (f.mb + 1) - 1 : Nat) : Rat) * pow2 ((2 ^ f.eb - 1 : Nat) - f.bias - f.mb)

/-- The code of a sign and a magnitude that the format represents. -/
def FloatFmt.encode (f : FloatFmt) (neg : Bool) (mag : Rat) : Nat :=
  let s := b2n neg * 2 ^ (f.eb + f.mb)
  if mag = 0 then s
  else if mag < f.minNormal then s + wholePart (mag / pow2 (1 - f.bias - f.mb))
  else
    let e := floorLog2 mag
    s + (e + f.bias).toNat * 2 ^ f.mb + (wholePart (mag / pow2 (e - f.mb)) - 2 ^ f.mb)

/-- Code of an infinity, and the canonical NaN (R195). -/
def FloatFmt.infCode (f : FloatFmt) (neg : Bool) : Nat := b2n neg * 2 ^ (f.eb + f.mb) + (2 ^ f.eb - 1) * 2 ^ f.mb
def FloatFmt.nanCode (f : FloatFmt) : Nat :=
  match f.top with
  | .ieee => (2 ^ f.eb - 1) * 2 ^ f.mb + 2 ^ (f.mb - 1)
  | _ => 2 ^ (f.eb + f.mb) - 1

/-! ## Rounding (R205, R207, R208) -/

/-- Rounding of a conversion: nearest, or stochastic with the element's 16-bit number. -/
inductive Rounding where
  | nearest
  | stochastic (r : Nat)
deriving DecidableEq, Repr

/-- A magnitude rounded to a whole number of steps: nearest with ties to the even count, or by R208. -/
def Rounding.steps (md : Rounding) (a step : Rat) : Nat :=
  let q := a / step
  let k := wholePart q
  let frac := q - (k : Rat)
  match md with
  | .nearest => if frac < 1 / 2 then k else if frac = 1 / 2 then (if k % 2 = 0 then k else k + 1) else k + 1
  | .stochastic r => if 65536 ≤ wholePart (65536 * frac) + r then k + 1 else k

/-- The grid step of a binary format at a magnitude: the binade's, not below the format's fixed step where it has one. -/
def FloatFmt.step (f : FloatFmt) (a : Rat) : Rat :=
  let e := floorLog2 a
  match f.top with
  | .plain => pow2 (max e (1 - f.bias) - f.mb)
  | _ => pow2 (e - f.mb)

/-- A magnitude rounded to the format's grid, which has no limit above (R207, R208). -/
def FloatFmt.round (f : FloatFmt) (md : Rounding) (a : Rat) : Rat :=
  if a = 0 then 0 else ((md.steps a (f.step a) : Nat) : Rat) * f.step a

/-- The generator of R208: the 16-bit number of bank row m and column n under a seed. -/
def stochasticWord (seed : W32) (m n : Nat) : Nat :=
  let x : W32 := seed ^^^ (BitVec.ofNat 32 (m * 128 + n) * 0x9E37_79B9#32)
  let x := x ^^^ (x >>> 16)
  let x := x * 0x7FEB_352D#32
  let x := x ^^^ (x >>> 15)
  let x := x * 0x846C_A68B#32
  let x := x ^^^ (x >>> 16)
  (x >>> 16).toNat

/-! ## FP32 arithmetic of the accumulator (R205) and of the output stage -/

/-- A result as an FP32 word: 24 significant bits, nearest, ties to even, with no exponent limit; below 2^-126 a zero
of the given sign rule; at or above 2^128 an infinity. -/
def fp32Round (q : Rat) (negZero : Bool) : W32 :=
  let a := if q < 0 then -q else q
  if a = 0 then BitVec.ofNat 32 (b2n negZero * 2 ^ 31)
  else
    let y := fp32.round .nearest a
    if y < pow2 (-126) then BitVec.ofNat 32 (b2n negZero * 2 ^ 31)
    else if pow2 128 ≤ y then BitVec.ofNat 32 (fp32.infCode (decide (q < 0)))
    else BitVec.ofNat 32 (fp32.encode (decide (q < 0)) y)

/-- The canonical FP32 NaN. -/
def fp32Nan : W32 := 0x7FC0_0000

/-- A word of a bank or an FP32 operand, subnormals read as zero. -/
def fp32Num (x : W32) : Num := fp32.decode true x.toNat

/-- add(acc, s) of R205: a bank word and an exact block sum. -/
def fp32Add (acc : W32) (s : Num) : W32 :=
  match fp32Num acc, s with
  | .nan, _ => fp32Nan
  | _, .nan => fp32Nan
  | .inf a, .inf b => if a = b then BitVec.ofNat 32 (fp32.infCode a) else fp32Nan
  | .inf a, .fin _ _ => BitVec.ofNat 32 (fp32.infCode a)
  | .fin _ _, .inf b => BitVec.ofNat 32 (fp32.infCode b)
  | x, y => fp32Round (x.val + y.val) false

/-! ## Products and block sums (R203, R204) -/

/-- The exact product of two elements. -/
def Num.mul : Num → Num → Num
  | .nan, _ => .nan
  | _, .nan => .nan
  | .inf a, .inf b => .inf (a != b)
  | .inf a, .fin b m => if m = 0 then .nan else .inf (a != b)
  | .fin b m, .inf a => if m = 0 then .nan else .inf (a != b)
  | .fin a m, .fin b n => .fin (a != b) (m * n)

/-- The exact sum of products. -/
def sumNums (l : List Num) : Num :=
  let pos := l.any (· = .inf false)
  let neg := l.any (· = .inf true)
  if l.any Num.isNan || (pos && neg) then .nan
  else if pos then .inf false
  else if neg then .inf true
  else Num.of (l.foldl (fun a x => a + x.val) 0)

/-! ## Conversion (R209 to R214) -/

/-- How a written element is counted (R214). -/
inductive Outcome where
  | nan | inf | clipped | flushed | vanished | zero | other
deriving DecidableEq, Repr

/-- A scalar floating-point format as an output (R209): code and outcome of an FP32 value. -/
def FloatFmt.convert (f : FloatFmt) (md : Rounding) (v : Num) : Nat × Outcome :=
  match v with
  | .nan => (f.nanCode, .nan)
  | .inf s =>
    if f.top = .oneNan then (f.encode s f.maxFinite, .clipped) else (f.infCode s, .inf)
  | .fin s a =>
    if a = 0 then (f.encode s 0, .zero)
    else
      let y := f.round md a
      if y < f.minNormal then (f.encode s 0, .flushed)
      else if f.maxFinite < y then
        (if f.top = .oneNan then (f.encode s f.maxFinite, .clipped) else (f.infCode s, .inf))
      else (f.encode s y, .other)

/-- INT8 as an output (R209). -/
def int8Convert (md : Rounding) (v : Num) : Nat × Outcome :=
  match v with
  | .nan => (0, .nan)
  | .inf s => (if s then 128 else 127, .clipped)
  | .fin s a =>
    let k := md.steps a 1
    if a = 0 then (0, .zero)
    else if k = 0 then (0, .flushed)
    else if s then (if 128 < k then (128, .clipped) else (256 - k, .other))
    else if 127 < k then (127, .clipped)
    else (k, .other)

/-- A block-scaled output format: its elements, and how their scale is chosen. -/
inductive BlockFmt where
  | mx (f : FloatFmt)
  | mxint8
  | ht4
deriving DecidableEq, Repr

/-- MAXELEM of an MX format (R210). -/
def BlockFmt.maxElem : BlockFmt → Rat
  | .mx f => f.maxFinite
  | .mxint8 => 127 / 64
  | .ht4 => 6

/-- An element quotient: code and outcome. -/
def BlockFmt.element (b : BlockFmt) (md : Rounding) (v : Num) (divisor : Rat) : Nat × Outcome :=
  let a := (match v with | .fin _ m => m | _ => 0) / divisor
  let s := match v with | .fin s _ => s | _ => false
  if a = 0 then (0, .zero)
  else
    match b with
    | .mxint8 =>
      let k := md.steps a (1 / 64)
      if k = 0 then (0, .vanished)
      else if 127 < k then (if s then 129 else 127, .clipped)
      else (if s then 256 - k else k, .other)
    | .mx f =>
      let y := f.round md a
      if y = 0 || (f.top ≠ .plain && y < f.minNormal) then (0, .vanished)
      else if f.maxFinite < y then (f.encode s f.maxFinite, .clipped)
      else (f.encode s y, .other)
    | .ht4 =>
      let y := e2m1.round md a
      if y = 0 then (0, .vanished)
      else if 6 < y then (e2m1.encode s 6, .clipped)
      else (e2m1.encode s y, .other)

/-- Largest finite magnitude among the unmasked elements of a block. -/
def blockMax (l : List (Option Num)) : Rat :=
  l.foldl (fun a v => match v with | some (.fin _ m) => max a m | _ => a) 0

/-- The MX block exponent (R210). -/
def mxExp (maxElem amax : Rat) : Int :=
  let q := amax / maxElem
  let e := floorLog2 q
  max (-127) (min 127 (if pow2 e = q then e else e + 1))

/-- The value of an E6M2 code from 0x04 to 0xFE (R202). -/
def e6m2 (c : Nat) : Rat := (((4 + c % 4 : Nat) : Rat) / 4) * pow2 ((c / 4 : Nat) - 40)

/-- SCALE of an HT4 block (R211): the smallest E6M2 code whose value is at least amax / 6. -/
def ht4Scale (amax : Rat) : Nat :=
  let q := amax / 6
  let e := floorLog2 q
  let m := (q / pow2 e - 1) * 4
  let k := wholePart m + (if m = (wholePart m : Rat) then 0 else 1)
  let c := (e + 40) * 4 + (k : Int)
  if c < 4 then 4 else if 254 < c then 254 else c.toNat

/-- A block of 32 elements (none: masked, with the code a masked element takes): its scale word, and a code and, for an
unmasked element, an outcome for each (R210 to R213). -/
def BlockFmt.convert (b : BlockFmt) (md : Nat → Rounding) (l : List (Option Num)) (maskCode : Nat) :
    Nat × List (Nat × Option Outcome) :=
  let special := l.any (fun v => match v with | some .nan => true | some (.inf _) => true | _ => false)
  let amax := blockMax l
  let all (c : Nat) (f : Num → Outcome) : List (Nat × Option Outcome) := l.map (fun v => (c, v.map f))
  if special then (0xFF, all 0 (fun _ => .nan))
  else if amax = 0 && (l.any Option.isSome || maskCode = 0) then
    (0, l.map (fun v => (0, v.map (fun _ => Outcome.zero))))
  else
    let e := mxExp b.maxElem amax
    let sc := ht4Scale amax
    let s := e6m2 sc
    let sub (j : Nat) : Bool := blockMax ((l.drop (8 * j)).take 8) ≤ 3 / 2 * s
    let div (i : Nat) : Rat := match b with
      | .ht4 => if sub (i / 8) then s / 4 else s
      | _ => pow2 e
    let out : List (Nat × Option Outcome) := l.zipIdx.map (fun vi => match vi.1 with
      | some v => let r := b.element (md vi.2) v (div vi.2); (r.1, some r.2)
      | none => (maskCode, none))
    if out.all (fun r => r.1 = 0) && l.any Option.isSome then
      (0, out.map (fun r => (0, r.2)))
    else
      (match b with
        | .ht4 => sc + ((List.range 4).foldl (fun a j => if sub j then a + 2 ^ (8 + j) else a) 0)
        | _ => (e + 127).toNat, out)

end Sys2Proof.Machine
end

