-- ==== Sys2Proof/Machine/Transfer.lean ====
section
/-!
DEFINITION. Transfers of the movers and of the copy engines: the pieces of a descriptor, what each does, lossless weight
compression, and the block-scaled activation spill (R140 to R144, R290, R405 to R411).
-/

namespace Sys2Proof.Machine

/-! ## Block-scaled activation spill (R410, R411) -/

/-- The exponent code and fields of one block of 32 elements. -/
def packBlock (f : FloatFmt) (codes : List Nat) : Nat × List Nat :=
  let xs := codes.map (fun c => f.decode false c)
  let amax := blockMax (xs.map some)
  if xs.any (fun x => x.isNan || x.isInf) then (255, codes.map (fun _ => 0))
  else if amax = 0 then (0, codes.map (fun _ => 0))
  else
    let e := max (-126) (floorLog2 amax)
    let u := pow2 (e - 9)
    ((e + 127).toNat, xs.map (fun x => match x with
      | .fin s m =>
        let q := m / u
        let k := wholePart q
        let mag := if q - (k : Rat) ≤ 1 / 2 then k else k + 1
        mag + (if s && 0 < mag then 1024 else 0)
      | _ => 0))

/-- 4,096 raw bytes as 3,072 stored ones. -/
def packGroup (fp16Elems : Bool) (raw : List Byte) : List Byte :=
  let f := if fp16Elems then fp16 else bf16
  let blocks := (List.range 64).map (fun b => packBlock f ((List.range 32).map (fun i => leAt raw (64 * b + 2 * i) 2)))
  let codes := blocks.map (fun b => BitVec.ofNat 8 b.1)
  let allFields := blocks.flatMap (fun b => b.2)
  codes ++ leBytes 2816 (allFields.zipIdx.foldl (fun a x => a + x.1 * 2 ^ (11 * x.2)) 0) ++
  [if fp16Elems then 1 else 0] ++ List.replicate 191 0

/-- 3,072 stored bytes as 4,096 raw ones; nothing where FORMAT makes the group read as poisoned. -/
def unpackGroup (bs : List Byte) : Option (List Byte) :=
  let format := leAt bs 2880 1
  if 2 ≤ format then none
  else
    let f := if format = 1 then fp16 else bf16
    let n := leNat ((bs.drop 64).take 2816)
    some ((List.range 2048).flatMap (fun i =>
      let c := leAt bs (i / 32) 1
      let x := n / 2 ^ (11 * i) % 2048
      leBytes 2 (if c = 255 then f.nanCode
        else if c = 0 then 0
        else f.encode (x.testBit 10) (((x % 1024 : Nat) : Rat) * pow2 ((c : Int) - 136)))))

/-! ## Engines -/

/-- What the accesses of an engine go under (R68, R142, R275, R470). -/
structure Eng where
  who : RemoteWho
  pound : Option Nat
  pasid : Nat
  cache : Nat
  kind : Nat
  id : Nat
  tile : Nat
  /-- Stream whose detectors its accesses train (R353). -/
  stream : Option Nat
deriving DecidableEq, Repr

def Work.eng (w : Work) (who : RemoteWho) : Eng :=
  match who with
  | .mover t _ =>
    let q := match (w.tile t).launch with | some l => l.sq | none => 0
    { who := who, pound := w.tileOwner t, pasid := (w.sq q).pid, cache := t, kind := 2, id := t, tile := t, stream := who.stream }
  | .command q _ =>
    { who := who, pound := w.sqOwner q, pasid := (w.sq q).pid, cache := cpCache (q % 16), kind := 8, id := q % 16, tile := 0,
      stream := who.stream }
  | .power p =>
    { who := who, pound := some p, pasid := 0, cache := cpCache 0, kind := 8, id := 0, tile := 0, stream := none }
  | .core c =>
    { who := who, pound := w.coreOwner c, pasid := 0, cache := cpCache 0, kind := 1, id := c, tile := 0, stream := none }
  | .tile t =>
    { who := who, pound := w.tileOwner t, pasid := 0, cache := t, kind := 2, id := t, tile := t, stream := none }

/-- Translate and check an engine's access within a page. -/
def Work.engReach (w : Work) (e : Eng) (loc : Bool) (va n : Nat) (isWrite : Bool) : Work × Res Nat :=
  if loc then (w, .ok (tileAddr e.tile va))
  else w.reach e.cache (poundDev (e.pound.getD 0)) (some e.pasid) (.engine e.pound) e.kind e.id va n isWrite

/-- The transfer of an engine. -/
def Work.xfer? (w : Work) (who : RemoteWho) : Option Xfer :=
  match who with
  | .mover t m => ((w.tile t).mover m).run.map (fun r => r.xf)
  | .command q n => (w.cmd? q n).map (fun c => c.xf)
  | .power _ | .core _ | .tile _ => none

def Work.modXfer (w : Work) (who : RemoteWho) (f : Xfer → Xfer) : Work :=
  match who with
  | .mover t m => w.modTile t (fun x => x.setMover m
      { x.mover m with run := (x.mover m).run.map (fun r => { r with xf := f r.xf }) })
  | .command q n => w.modCmd q n (fun c => { c with xf := f c.xf })
  | .power _ | .core _ | .tile _ => w

/-- The transfer stops issuing at its first failure (R144, R290). -/
def Work.failXfer (w : Work) (who : RemoteWho) (status addr : Nat) : Work :=
  w.modXfer who (fun x => { x with
    todo := [], group := none, failed := if x.failed.isSome then x.failed else some (status, addr) })

/-- Lines of a write that a read-ahead buffer holds. -/
def Work.aheadLines (w : Work) (a n : Nat) : List Nat :=
  (w.chip.readAhead.flatMap (fun b => b.2.map (fun r => r.line))).filter (fun l => lineLo a ≤ l && l < lineHi a n)

/-- Write bytes at a physical address for an engine, or send them to another module. -/
def Work.engWrite (w : Work) (e : Eng) (a : Nat) (bs : List Byte) (weight publish : Bool) (va : Nat := a) :
    Work × Option Nat :=
  match w.place a with
  | .glob _ _ =>
    w.issueRemote e.who e.pound (if publish then 3 else 2) a bs.length bs [] { Remote.blank with publish := publish, va := va }
  | _ =>
    let lines := w.aheadLines a bs.length
    let w := if weight then w.writeGranule a bs publish e.pound e.stream else w.pwrite a bs publish e.pound (some e.who) e.stream
    (if lines.isEmpty then w else w.modXfer e.who (fun x => { x with lines := x.lines ++ lines }), none)

/-- How one piece has gone. -/
inductive Went where
  | issued | waits | bad (status addr : Nat)
deriving DecidableEq, Repr

/-- Write bytes to a range of an engine's addresses that may cross pages. -/
def Work.engWriteRange (w : Work) (e : Eng) (loc : Bool) (va : Nat) (bs : List Byte) (publish : Bool) : Work × Went :=
  (pieces va bs.length).foldl (fun (r : Work × Went) p =>
    match r with
    | (w, .issued) =>
      match w.engReach e loc p.1 p.2 true with
      | (w, .bad s a) => (w, .bad s a)
      | (w, .ok a) =>
        match w.engWrite e a ((bs.drop (p.1 - va)).take p.2) false publish p.1 with
        | (w, some s) => (w, .bad s 0)
        | (w, none) => (w, .issued)
    | r => r) (w, .issued)

/-- Read a range: bytes where it is local; requests sent, and none, where it lies in another module or behind a port. -/
def Work.engReadRange (w : Work) (e : Eng) (loc : Bool) (va n : Nat) : Work × Except (Nat × Nat) (List Byte × Bool) :=
  (pieces va n).foldl (fun (r : Work × Except (Nat × Nat) (List Byte × Bool)) p =>
    match r with
    | (w, .error x) => (w, .error x)
    | (w, .ok (bs, far)) =>
      match w.engReach e loc p.1 p.2 false with
      | (w, .bad s a) => (w, .error (s, a))
      | (w, .ok a) =>
        match w.place a with
        | .glob _ _ =>
          (match w.issueRemote e.who e.pound 1 a p.2 [] [] { Remote.blank with pos := p.1 - va, va := p.1 } with
          | (w, some s) => (w, .error (s, 0))
          | (w, none) => (w, .ok (bs ++ List.replicate p.2 0, true)))
        | .mmio _ _ => let (w, d) := w.deviceBytes p.2; (w, .ok (bs ++ d, far))
        | _ =>
          match w.vpoison a p.2 with
          | some q => (w, .error (7, p.1 + (q - a)))
          | none => (w.arcReads a p.2 e.pound e.stream, .ok (bs ++ w.vread a p.2, far))) (w, .ok ([], false))

/-- A non-posted read of a port's window for an engine (R473); it waits while the port has 768 outstanding (R465). -/
def Work.portRead (w : Work) (q : Nat) (who : RemoteWho) (a va n : Nat) (dst : Option Nat) (publish : Bool := false) : Work :=
  if (w.port q).full then w
  else w.modPort q (fun x => x.request
    { tag := 0, addr := a, va := va, len := n, core := none, who := some who, dst := dst, publish := publish })

/-- What a piece reads in full before it writes: the bytes of a group, or of a granule that its slice compresses. -/
def Piece.gather (p : Piece) : Option Nat :=
  match p.op with
  | .unpack => some 3072
  | .weight => some 4096
  | _ => none

/-- An access of an engine has to wait: for a free request, for the end of an exchange of its tile's index, for a line that a hart
holds after an LR, for a request of a port, or for tokens (R30, R326, R388, R442, R465). -/
def Work.waitFor (w : Work) (e : Eng) (loc : Bool) (va n : Nat) (isWrite packed : Bool) : Option Work :=
  let ps := pieces va n
  ps.findSome? (fun p =>
    match (w.engReach e loc p.1 p.2 isWrite).2 with
    | .bad _ _ => none
    | .ok a =>
      match w.place a with
      | .glob _ _ => if e.who.limit < w.outstanding e.who + ps.length then some w else none
      | .mmio q _ => if !isWrite && (w.port q).full then some w else none
      | _ =>
        let slice := (w.arcAt (lineLo (w.local_ a))).1
        if (!isWrite && w.exchangingAt a) || w.heldBy none (lineLo a) (lineHi a p.2) then some w
        else if packed then (if w.bucketEmpty slice e.pound true then some (w.markWait (slice, e.pound.getD 0, true)) else none)
        else (w.tokenWait a p.2 isWrite e.pound).map w.markWait)

/-- As `waitFor`, for both ends of a piece. -/
def Work.pieceWait (w : Work) (e : Eng) (p : Piece) : Option Work :=
  let dstLen := match p.op with | .pack _ => 3072 | _ => p.len
  let reads : Bool := p.op ≠ .zero && p.op ≠ .weightZero
  match (if reads then w.waitFor e p.srcLocal p.src (p.gather.getD p.len) false false else none) with
  | some w => some w
  | none => w.waitFor e p.dstLocal p.dst dstLen true (p.op = .weight || p.op = .weightZero)

/-- Write a whole granule for an engine with COMP 0b01: its destination lies in the HBM window (R405). -/
def Work.putGranule (w : Work) (e : Eng) (p : Piece) (bs : List Byte) : Work × Went :=
  match w.engReach e p.dstLocal p.dst 4096 true with
  | (w, .bad s a) => (w, .bad s a)
  | (w, .ok a) =>
    match w.place a with
    | .hbm _ =>
      let (w, _) := w.engWrite e a bs true p.publish p.dst
      (w, .issued)
    | _ => (w, .bad 1 0)

/-- A piece whose bytes have all come: a group is unpacked, a granule is compressed (R405, R410). -/
def Work.gathered (w : Work) (e : Eng) (p : Piece) (bs : List Byte) : Work × Went :=
  match p.op with
  | .weight => w.putGranule e p bs
  | _ =>
    match unpackGroup bs with
    | none => (w, .bad 7 p.src)
    | some raw => w.engWriteRange e p.dstLocal p.dst raw p.publish

/-- Carry out one piece. What a copy has read before a poisoned line is written (R144). -/
def Work.doPiece (w : Work) (e : Eng) (p : Piece) : Work × Went :=
  let finish (w : Work) (a : Nat) (bs : List Byte) : Work × Went :=
    match w.engWrite e a bs false p.publish p.dst with
    | (w, some s) => (w, .bad s 0)
    | (w, none) => (w, .issued)
  match w.pieceWait e p with
  | some w => (w, .waits)
  | none =>
    match p.op with
    | .zero =>
      (match w.engReach e p.dstLocal p.dst p.len true with
      | (w, .bad s a) => (w, .bad s a)
      | (w, .ok d) => finish w d (List.replicate p.len 0))
    | .copy =>
      (match w.engReach e p.srcLocal p.src p.len false with
      | (w, .bad s a) => (w, .bad s a)
      | (w, .ok a) =>
        match w.engReach e p.dstLocal p.dst p.len true with
        | (w, .bad s a) => (w, .bad s a)
        | (w, .ok d) =>
          match w.place a with
          | .glob _ _ =>
            (match w.issueRemote e.who e.pound 1 a p.len [] []
              { Remote.blank with dst := some d, publish := p.publish, va := p.src } with
            | (w, some s) => (w, .bad s 0)
            | (w, none) => (w, .issued))
          | .mmio q _ => (w.portRead q e.who a p.src p.len (some d) p.publish, .issued)
          | _ =>
            match w.vpoison a p.len with
            | some b =>
              let n := b / 128 * 128 - a
              if n = 0 then (w, .bad 7 (p.src + (b - a)))
              else match finish (w.arcReads a n e.pound e.stream) d (w.vread a n) with
                | (w, .issued) => (w, .bad 7 (p.src + (b - a)))
                | r => r
            | none => finish (w.arcReads a p.len e.pound e.stream) d (w.vread a p.len))
    | .weightZero => w.putGranule e p (List.replicate 4096 0)
    | .pack f =>
      (match w.engReadRange e p.srcLocal p.src 4096 with
      | (w, .error x) => (w, .bad x.1 x.2)
      | (w, .ok (bs, _)) => w.engWriteRange e p.dstLocal p.dst (packGroup f bs) p.publish)
    | .unpack | .weight =>
      (match w.engReadRange e p.srcLocal p.src (p.gather.getD 0) with
      | (w, .error x) => (w, .bad x.1 x.2)
      | (w, .ok (bs, far)) =>
        if far then (w.modXfer e.who (fun x => { x with group := some (p, [(0, bs)]) }), .issued) else w.gathered e p bs)

/-- Carry out pieces in order until one waits, fails, or reads a group from another module. -/
def Work.pumpN : Nat → Work → RemoteWho → Work
  | 0, w, _ => w
  | n + 1, w, who =>
    match w.xfer? who with
    | none => w
    | some x =>
      match x.todo with
      | [] => w
      | p :: rest =>
        if x.group.isSome || x.failed.isSome then w
        else match w.doPiece (w.eng who) p with
          | (w, .waits) => w
          | (w, .bad s a) => w.failXfer who s a
          | (w, .issued) => Work.pumpN n (w.modXfer who (fun y => { y with todo := rest })) who

/-- Go on with a transfer. -/
def Work.pump (w : Work) (who : RemoteWho) : Work :=
  match w.xfer? who with
  | none => w
  | some x => Work.pumpN x.todo.length w who

/-- The transfer is complete. -/
def Work.xferDone (w : Work) (who : RemoteWho) : Bool :=
  match w.xfer? who with
  | some x => x.todo.isEmpty && x.group.isNone && x.failed.isNone && w.xferQuiet who
  | none => false

/-- Go on with every transfer that has waited (R388). -/
def Work.pumpAll (w : Work) : Work :=
  let w := w.each ((w.chip.tiles.filter (fun e => e.2.mover0.run.isSome || e.2.mover1.run.isSome)).map (·.1))
    (fun w t => (w.pump (.mover t 0)).pump (.mover t 1))
  w.each (w.chip.sqs.flatMap (fun e => (e.2.cmds.filter (fun c => c.phase = .started)).map (fun c => (e.1, c.seq))))
    (fun w c => w.pump (.command c.1 c.2))

/-! ## Descriptors (R140, R144, R290, R405, R409) -/

/-- The operands that a mover descriptor and a MOVE share. -/
structure MoveDesc where
  op : Nat
  src : Nat
  dst : Nat
  rowBytes : Nat
  rows : Nat
  srcStride : Int
  dstStride : Int
  srcLocal : Bool
  dstLocal : Bool
  /-- The address lies in a tile store, for COMP. -/
  srcTile : Bool
  dstTile : Bool
  comp : Nat
  publish : Bool
  fp16Elems : Bool
deriving DecidableEq, Repr

/-- Bytes of a row at the source and at the destination: a packed side holds 3/4 of them. -/
def MoveDesc.srcRow (d : MoveDesc) : Nat := if d.comp = 2 && !d.srcTile then d.rowBytes * 3 / 4 else d.rowBytes
def MoveDesc.dstRow (d : MoveDesc) : Nat := if d.comp = 2 && !d.dstTile then d.rowBytes * 3 / 4 else d.rowBytes

/-- COMP 0b01 of a write (R405). -/
def MoveDesc.weight (d : MoveDesc) : Bool := d.comp = 1 && !d.dstTile

/-- A local row set lies within 6 MiB. -/
def localFits (base : Nat) (stride : Int) (rows n : Nat) : Bool :=
  let last : Int := (base : Int) + ((rows - 1 : Nat) : Int) * stride
  decide (base + n ≤ 0x60_0000) && decide (0 ≤ last) && decide (last + (n : Int) ≤ 0x60_0000)

/-- The descriptor breaks no rule of R144, R405 or R409. -/
def MoveDesc.ok (d : MoveDesc) : Bool :=
  d.op < 2 && d.comp < 3 && d.rowBytes ≤ 16777216 && d.rows ≤ 65536 &&
  (!d.dstLocal || localFits d.dst d.dstStride d.rows d.dstRow) &&
  (!d.srcLocal || d.op = 1 || localFits d.src d.srcStride d.rows d.srcRow) &&
  (!d.weight || (d.dst % 4096 = 0 && d.rowBytes % 4096 = 0 && (d.rows = 1 || d.dstStride % 4096 = 0))) &&
  (d.comp ≠ 2 || (d.op = 0 && d.srcTile != d.dstTile && d.rowBytes % 4096 = 0 &&
    (if d.srcTile then d.dst % 1024 = 0 && d.dstStride % 1024 = 0 else d.src % 1024 = 0 && d.srcStride % 1024 = 0)))

/-- Offsets at which n bytes at a and at b cross a page of either, from 0. -/
def cutPoints (a b n : Nat) : List Nat :=
  let at_ (x : Nat) : List Nat := (List.range (n / 4096 + 1)).map (fun k => (k + 1) * 4096 - x % 4096)
  (sortBy id (0 :: ((at_ a ++ at_ b).filter (fun o => o < n)))).dedup

/-- An address of row r, modulo 2^64. -/
def rowAddr (base : Nat) (stride : Int) (r : Nat) : Nat := (BitVec.ofInt 64 ((base : Int) + (r : Int) * stride)).toNat

/-- Every granule that a descriptor writes with COMP 0b01 lies in the local HBM window, where its address translates (R405). -/
def Work.weightOk (w : Work) (e : Eng) (d : MoveDesc) (l : List Piece) : Bool :=
  !d.weight || l.all (fun p => match (w.engReach e p.dstLocal p.dst 4096 true).2 with
    | .ok a => (match w.place a with | .hbm _ => true | _ => false)
    | .bad _ _ => true)

/-- The pieces of a descriptor, in ascending row and, within a row, in ascending byte order (R144). -/
def MoveDesc.pieces (d : MoveDesc) : List Piece :=
  (List.range d.rows).flatMap (fun r =>
    let s := if d.op = 1 then 0 else rowAddr d.src d.srcStride r
    let t := rowAddr d.dst d.dstStride r
    if d.comp = 2 then
      (List.range (d.rowBytes / 4096)).map (fun j =>
        { op := if d.srcTile then .pack d.fp16Elems else .unpack
          src := s + j * (if d.srcTile then 4096 else 3072), srcLocal := d.srcLocal
          dst := t + j * (if d.dstTile then 4096 else 3072), dstLocal := d.dstLocal, len := 4096, publish := d.publish })
    else
      let cuts := cutPoints (if d.op = 1 || d.weight then t else s) t d.rowBytes
      cuts.zipIdx.map (fun o =>
        { op := if d.op = 1 then (if d.weight then .weightZero else .zero) else if d.weight then .weight else .copy
          src := s + o.1, srcLocal := d.srcLocal, dst := t + o.1, dstLocal := d.dstLocal
          len := (cuts.getD (o.2 + 1) d.rowBytes) - o.1, publish := d.publish }))

end Sys2Proof.Machine
end

