-- ==== Sys2Proof/Machine/Groups.lean ====
section
/-!
DEFINITION. Group descriptors, and frequency groups (R449, R499 to R503).
-/

namespace Sys2Proof.Machine

/-- The members of a group descriptor and the rank of the own module, where R449 accepts it. -/
def parseGroup (own : Nat) (bs : List Byte) : Option (List Nat × Nat) :=
  let n := leAt bs 0 4
  let ids := (List.range n).map (fun i => leAt bs (8 + 2 * i) 2)
  if n < 2 || 32768 < n || leAt bs 4 4 ≠ 0 || !decide ids.Nodup || !ids.contains own then none
  else some (ids, ids.idxOf own)

/-- Address of the descriptor that PWR_P_FG_DESC names. -/
def PoundPower.descAddr (x : PoundPower) : Nat := x.fgDesc.toNat * 8
/-- HBM window offset of the board. -/
def PoundPower.boardOff (x : PoundPower) : Nat := x.fgBoard.toNat * 8192

/-- The next epoch start at which an order can still be posted (R114, R501). -/
def Work.nextEpoch (w : Work) : Nat := (w.now + 2000 + 999_999) / 1_000_000 * 1_000_000

/-- Post the epoch order of a member pound for time b, where it has none (R501). -/
def Work.postEpoch (w : Work) (p b : Nat) : Work :=
  if w.chip.time.orders.any (fun e => e.2.action = 8 && e.2.pound = p && e.2.at_ = b) then w
  else w.postOwn .power 8 b p 0 0

/-- Read the group descriptor of pound p and set FG_STATE (R499). -/
def Work.fgSetup (w : Work) (p : Nat) : Work :=
  let x := w.ppow p
  let grp (q : Nat) : Nat := match w.cfg? q with | some g => g.freqGroup.toNat | none => 0
  let off (st : FgState) (w : Work) : Work :=
    w.modPpow p (fun x => { x with fg := st, members := [], groupMhz := 0 })
  if grp p = 0 || !x.fgValid then off .notMember w
  else if (List.range p).any (fun q => grp q = grp p) then off .duplicate w
  else
    let a := x.descAddr
    let who := Who.engine (some p)
    let allow (n : Nat) : Bool := w.acc who a n false = .ok && (w.vpoison a n).isNone
    let n := leNat (w.vread a 4)
    if !allow 8 || 32768 < n || !allow (8 + 2 * n) then off .invalid w
    else match parseGroup w.moduleId (w.vread a (8 + 2 * n)) with
      | none => off .invalid w
      | some (ids, r) =>
        let w := w.modPpow p (fun x =>
          { x with members := ids, rank := r, missed := [], fg := if w.locked then .member else .suspended })
        w.postEpoch p w.nextEpoch

/-- PWR_P_FG_DESC of pound p as a word. -/
def PoundPower.descWord (x : PoundPower) : W64 := fields [(3, x.fgDesc.toNat), (0, b2n x.fgValid)]

/-- A write to PWR_P_FG_DESC: writing VALID 1 reads the descriptor (R499, R519, R610). -/
def Work.fgDescWrite (w : Work) (p : Nat) (z : Size) (high : Bool) (v : W64) : Work :=
  let x := w.ppow p
  let a := newField z high v 55 3 x.fgDesc.toNat
  let valid := newField z high v 0 0 (b2n x.fgValid)
  let w := w.modPpow p (fun x => { x with fgDesc := BitVec.ofNat 53 a, fgValid := decide (valid = 1) })
  if reaches z high 0 0 then w.fgSetup p else w

def execPwrFgDescValid (core : CoreId) (pound : PoundId) (size : Size) (high : Bool) (value : W64) (s : State) :=
  lift (fun w => w.regStore core.val (pwrBase + 0x110 + pound.val * 0x20) size high (w.isPound core.val pound.val) value
    (fun w => w.fgDescWrite pound.val size high value)) s

/-! ## Epochs (R500 to R503) -/

/-- A 16 B record of a board. -/
def fgRecord (epoch freq phase count : Nat) : List Byte :=
  leBytes 8 epoch ++ leBytes 2 freq ++ leBytes 1 phase ++ [0] ++ leBytes 2 count ++ leBytes 2 0

/-- Write 16 B to offset o of the board of the member with rank r, as a publish WRITE attributed to the pound (R500). -/
def Work.boardWrite (w : Work) (p r o : Nat) (bs : List Byte) : Work :=
  let x := w.ppow p
  let m := x.members.getD r 0
  let off := x.boardOff + o
  if m = w.moduleId then
    let a := 0x100_0000_0000 + off
    match w.acc (.engine (some p)) a 16 true with
    | .ok => w.pwrite a bs true (some p)
    | e => w.recAcc e 8 0 (some p) a 4 5
  else (w.issueRemote (.power p) (some p) 3 (2 ^ 55 + m * 2 ^ 40 + off) 16 bs [] { Remote.blank with publish := true }).1

/-- 16 B at offset o of the pound's own board; none where the pound may not read them, or they are poisoned (R500; log entry 26). -/
def Work.boardRead (w : Work) (p o : Nat) : Option (List Byte) :=
  let a := 0x100_0000_0000 + (w.ppow p).boardOff + o
  if w.acc (.engine (some p)) a 16 false = .ok && (w.vpoison a 16).isNone then some (w.vread a 16) else none

/-- The record at offset o of the own board: its epoch, frequency and count. -/
def Work.boardRecord (w : Work) (p o : Nat) : Option (Nat × Nat × Nat) :=
  (w.boardRead p o).map (fun r => (leAt r 0 8, leAt r 8 2, leAt r 12 2))

/-- The epoch order of pound p that runs, with its index and the epoch number of B. -/
def Work.epochOrder (w : Work) (p : Nat) : Option (Nat × Order) :=
  w.chip.time.orders.find? (fun e => e.2.action = 8 && e.2.pound = p && e.2.began.isSome)

/-- Number of the epoch that starts at b. -/
def epochOf (b : Nat) : Nat := b / 1_000_000

/-- The frequency that the pound can attain: charter, preference, thermal and power bounds; 600 MHz under a safety action
(R502). -/
def Work.attainable (w : Work) (p : Nat) : Nat :=
  if !w.pwrNormal then 600
  else min (min (w.freqMax p) ((w.preference p).getD (w.freqMax p))) (w.ppow p).hard

/-- Action 0x08: the member's record goes to its leader, and the next epoch's order is posted (R501). -/
def Work.epochStart (w : Work) (i : Nat) : Work :=
  match w.startable i 8 with
  | none => w
  | some o =>
    let p := o.pound
    let w := w.beginOrder i o (some 1_000_000)
    let w := w.postEpoch p (o.at_ + 1_000_000)
    let x := w.ppow p
    if !x.isMember then w.endOrder i
    else
      let rec_ := fgRecord (epochOf o.at_) (w.attainable p) x.phase 1
      w.boardWrite p (x.rank / 256 * 256) (x.rank % 256 * 16) rec_

def execFrequencyGroupEpoch (index : OrderIdx) (s : State) := lift (fun w => w.epochStart index.val) s

/-- Records of the board that belong to epoch e or the one before it: position, frequency and count (R501). -/
def Work.current (w : Work) (p base n e : Nat) : List (Nat × Nat × Nat) :=
  (List.range n).filterMap (fun j =>
    match w.boardRecord p (base + 16 * j) with
    | some (k, f, c) => if k = e || k + 1 = e then some (j, f, c) else none
    | none => none)

/-- The least frequency and the summed count of records. -/
def leastOf (l : List (Nat × Nat × Nat)) : Option (Nat × Nat) :=
  l.foldl (fun a r => match a with
    | none => some (r.2.1, r.2.2)
    | some (f, n) => some (min f r.2.1, n + r.2.2)) none

/-- Members of the set that rank r leads. -/
def setSize (n r : Nat) : Nat := min 256 (n - r)

/-- A set leader takes the least frequency of its members; one left out three epochs in a row is recorded (R501, R615). -/
def Work.leaderCollect (w : Work) (p : Nat) : Work :=
  let x := w.ppow p
  match w.epochOrder p with
  | none => w
  | some (_, o) =>
    if !x.isMember || x.rank % 256 ≠ 0 then w
    else
      let e := epochOf o.at_
      let n := setSize x.members.length x.rank
      let l := w.current p 0 n e
      let out := idxs n (fun j => !l.any (fun r => r.1 = j))
      let missed : SMap Nat := out.foldl (fun m j => SMap.set 0 m j (SMap.get 0 x.missed j + 1)) []
      let w := w.modPpow p (fun x => { x with missed := missed })
      let w := w.each (out.filter (fun j => SMap.get 0 missed j = 3)) (fun w j =>
        w.record { cls := 0x0901, kind := 0xB, pound := p, d0 := x.rank + j
                   d1 := (match w.cfg? p with | some g => g.freqGroup.toNat | none => 0) })
      match leastOf l with
      | some (f, c) => w.boardWrite p 0 (0x1000 + x.rank / 256 * 16) (fgRecord e f x.phase c)
      | none => w

def execFgLeaderCollect (pound : PoundId) (s : State) := lift (fun w => w.leaderCollect pound.val) s

/-- The root takes the least frequency of the sets and writes the result to every leader (R501). -/
def Work.rootCollect (w : Work) (p : Nat) : Work :=
  let x := w.ppow p
  match w.epochOrder p with
  | none => w
  | some (_, o) =>
    if !x.isMember || x.rank ≠ 0 then w
    else
      let e := epochOf o.at_
      let sets := (x.members.length + 255) / 256
      match leastOf (w.current p 0x1000 sets e) with
      | some (f, c) => w.each (List.range sets) (fun w k => w.boardWrite p (256 * k) 0x1800 (fgRecord e f x.phase c))
      | none => w

def execFgRootCollect (pound : PoundId) (s : State) := lift (fun w => w.rootCollect pound.val) s

/-- A leader writes the result to each member of its set (R501). -/
def Work.leaderDistribute (w : Work) (p : Nat) : Work :=
  let x := w.ppow p
  match w.epochOrder p with
  | none => w
  | some _ =>
    if !x.isMember || x.rank % 256 ≠ 0 then w
    else
      match w.boardRead p 0x1800 with
      | none => w
      | some r =>
        w.each ((List.range (setSize x.members.length x.rank)).filter (fun j => j ≠ 0)) (fun w j => w.boardWrite p (x.rank + j) 0x1800 r)

def execFgLeaderDistribute (pound : PoundId) (s : State) := lift (fun w => w.leaderDistribute pound.val) s

/-- A member reads its result: it posts the adopted change for B + 1 ms, or reports no result (R501, R503). -/
def Work.memberRead (w : Work) (p : Nat) : Work :=
  match w.epochOrder p with
  | none => w
  | some (i, o) =>
    let x := w.ppow p
    let result := (w.boardRecord p 0x1800).filter (fun r => r.1 = epochOf o.at_)
    let w :=
      if !x.isMember then w
      else match result with
      | some (_, f, _) =>
        let w := w.modPpow p (fun x => { x with fg := .member, groupMhz := f })
        let w := w.countOverrides p (w.wantTarget p)
        let w := w.modPpow p (fun x => { x with targetMhz := min (min f (w.freqMax p)) x.hard })
        if w.locked then
          (w.cancelOrders (fun o => o.action = 1 && o.pound = p)).postOwn .power 1 (o.at_ + 1_000_000) p 0 f
        else w
      | none => w.modPpow p (fun x => { x with fg := .noResult })
    w.endOrder i

def execFgMemberRead (pound : PoundId) (s : State) := lift (fun w => w.memberRead pound.val) s

/-- FG_STATE of member pounds while Lock Time is lost, and epochs again when it returns (R503). -/
def Work.fgSuspend (w : Work) (lost : Bool) : Work :=
  w.each ((w.chip.pwr.pounds.filter (fun e => e.2.isMember)).map (·.1)) (fun w p =>
    if lost then w.modPpow p (fun x => { x with fg := .suspended })
    else (w.modPpow p (fun x => { x with fg := .member })).postEpoch p w.nextEpoch)

end Sys2Proof.Machine
end

