-- ==== Sys2Proof/Machine/Canals.lean ====
section
/-!
DEFINITION. Canals: transfer and credits, errors, resets and teardown (R251 to R268).
-/

namespace Sys2Proof.Machine

/-- A canal that is set up, with its pound and number. -/
structure CanalRef where
  pound : Nat
  num : Nat
  c : Canal
deriving DecidableEq, Repr

/-- Canals that are set up. -/
def Work.canals (w : Work) : List CanalRef :=
  w.chip.pounds.flatMap (fun e => e.2.canals.zipIdx.map (fun c => { pound := e.1, num := c.2, c := c.1 }))

/-- The canal of an out-port, and of an in-port. -/
def Work.canalOut (w : Work) (t p : Nat) : Option CanalRef := w.canals.find? (fun r => r.c.prod = t && r.c.outPort = p)
def Work.canalIn (w : Work) (t p : Nat) : Option CanalRef := w.canals.find? (fun r => r.c.cons = t && r.c.inPort = p)

/-- Bytes of a slot. -/
def Canal.size (c : Canal) : Nat := 2 ^ c.slotLog2

/-- A port takes units from this semaphore of the tile (R254). -/
def Work.portTakes (w : Work) (t s : Nat) : Bool :=
  w.canals.any (fun r => (r.c.prod = t && r.c.sendSem = s) || (r.c.cons = t && r.c.returnSem = s))

def Tile.setOut (x : Tile) (p : Nat) (v : OutPort) : Tile := { x with out := SMap.set OutPort.zero x.out p v }
def Tile.setIn (x : Tile) (p : Nat) (v : InPort) : Tile := { x with inp := SMap.set InPort.zero x.inp p v }
def Work.modOut (w : Work) (t p : Nat) (f : OutPort → OutPort) : Work := w.modTile t (fun x => x.setOut p (f (x.outPort p)))
def Work.modIn (w : Work) (t p : Nat) (f : InPort → InPort) : Work := w.modTile t (fun x => x.setIn p (f (x.inPort p)))

/-- A 64 B unit read from a tile store. -/
def Work.readUnit (w : Work) (t off : Nat) : CanalUnit :=
  let a := tileAddr t off
  { data := w.mem.read a 64, poison := [w.mem.poisoned (a / 32), w.mem.poisoned (a / 32 + 1)] }

/-- The in-port of a canal waits on held bytes: a unit for it has come, and an open chain holds where it goes (R236, R267). -/
def Work.inPortHeld (w : Work) (r : CanalRef) : Bool :=
  let i := (w.tile r.c.cons).inPort r.c.inPort
  i.waitingHeld && (w.tile r.c.cons).holds (r.c.dstBase + i.slot * r.c.size + i.bytes) 64

/-- The out-port takes a SEND unit and a credit, and begins reading; a slot that waits on held bytes is still in transfer, and no
slot begins while the tile's index is exchanged (R252, R265, R267). -/
def Work.outPortTake (w : Work) (t p : Nat) : Work :=
  match w.canalOut t p with
  | none => w
  | some r =>
    let o := (w.tile t).outPort p
    let n := (w.tile t).sem r.c.sendSem
    if o.credits = 0 || o.transfer || w.inPortHeld r || (w.tile t).st = .exchanging || n = 0 then w
    else
      (w.modTile t (fun x => x.setSem r.c.sendSem (n - 1))).modOut t p (fun o =>
        { o with credits := o.credits - 1, transfer := true, readDone := false, left := 0 })

def execOutPortTake (tile : TileId) (port : Fin 4) (s : State) := lift (fun w => w.outPortTake tile.val port.val) s

/-- The last read of the slot: its remaining units are in flight, FREE_SEM is signalled, the pointer advances; the out-port waits
with an in-port that waits on held bytes (R251, R252, R267). -/
def Work.outPortSlotRead (w : Work) (t p : Nat) : Work :=
  match w.canalOut t p with
  | none => w
  | some r =>
    let o := (w.tile t).outPort p
    if !o.transfer || w.inPortHeld r then w
    else
      let base := r.c.srcBase + o.slot * r.c.size
      let rest := ((List.range (r.c.size / 64)).drop o.left).map (fun i => w.readUnit t (base + i * 64))
      (w.modOut t p (fun o =>
        { o with
          transfer := false
          readDone := true
          slot := (o.slot + 1) % r.c.srcSlots
          slots := (o.slots + 1) % 2 ^ 32
          left := 0
          flight := o.flight ++ rest })).semAdd t r.c.freeSem 1

def execOutPortSlotRead (tile : TileId) (port : Fin 4) (s : State) := lift (fun w => w.outPortSlotRead tile.val port.val) s

/-- The next unit on its way: from those read, or from the source store. -/
def Work.nextUnit (w : Work) (r : CanalRef) : Option CanalUnit :=
  let o := (w.tile r.c.prod).outPort r.c.outPort
  match o.flight with
  | u :: _ => some u
  | [] => if o.transfer && o.left < r.c.size / 64 then
      some (w.readUnit r.c.prod (r.c.srcBase + o.slot * r.c.size + o.left * 64)) else none

/-- What the in-port reads of one code word of a unit: bytes, poisoned, and whether it asks for the unit again (R268). -/
def unitWord (correcting : Bool) (u : CanalUnit) (errs : List (Fin 2 × Fin 36 × Byte)) (i : Nat) : List Byte × Bool × Bool :=
  let es := errs.filterMap (fun e => if e.1.val = i then some (e.2.1.val, e.2.2) else none)
  match rsRead correcting ((u.data.drop (32 * i)).take 32) es (u.poison.getD i false) with
  | (bs, .good) => (bs, false, false)
  | (bs, .corrected _) => (bs, false, false)
  | (bs, .poisoned) => (bs, true, false)
  | (bs, .detected) => (bs, true, true)

/-- A unit arrives: it is checked, asked for again once, and written; a word that fails twice is written poisoned; a
write to held bytes waits, and a unit for an index that is exchanged (R236, R253, R265, R267, R268). -/
def Work.inPortUnit (w : Work) (t p : Nat) (errs resent : List (Fin 2 × Fin 36 × Byte)) : Work :=
  match w.canalIn t p with
  | none => w
  | some r =>
    let i := (w.tile t).inPort p
    match w.nextUnit r with
    | none => w
    | some u =>
      let off := r.c.dstBase + i.slot * r.c.size + i.bytes
      if r.c.size ≤ i.bytes then w
      else if (w.tile t).st = .exchanging then w
      else if (w.tile t).holds off 64 then
        w.modIn t p (fun i => { i with transfer := true, waitingHeld := true })
      else
        let corr : Bool := match w.cfg? r.pound with | some g => g.tileClass ≠ 2 | none => true
        let first := [unitWord corr u errs 0, unitWord corr u errs 1]
        let again := first.any (fun x => x.2.2)
        let got := if again then [unitWord corr u resent 0, unitWord corr u resent 1] else first
        let failed := idxs 2 (fun k => (got.getD k ([], false, false)).2.2)
        let w := w.modOut r.c.prod r.c.outPort (fun o =>
          { o with
            flight := o.flight.drop 1
            left := if o.flight.isEmpty then o.left + 1 else o.left
            resent := if again then satAdd 16 o.resent 1 else o.resent })
        let w := w.pwrite (tileAddr t off) (got.flatMap (fun x => x.1)) false none
        let w := w.each (idxs 2 (fun k => (got.getD k ([], false, false)).2.1)) (fun w k =>
          w.put (.poison ((tileAddr t off) / 32 + k)))
        let w := w.modIn t p (fun i =>
          { i with
            transfer := true
            waitingHeld := false
            bytes := i.bytes + 64
            resent := if again then satAdd 16 i.resent 1 else i.resent
            poisoned := satAdd 8 i.poisoned failed.length })
        w.each failed (fun w k => w.record
          { cls := 0x0509, kind := 2, id := t, pound := r.pound, action := 3, addr := off + 32 * k, d0 := r.num })

def execInPortUnit (tile : TileId) (port : Fin 4) (errors resentErrors : List (Fin 2 × Fin 36 × Byte)) (s : State) :=
  lift (fun w => w.inPortUnit tile.val port.val errors resentErrors) s

/-- The last write of the slot is visible: READY_SEM is signalled (R253). -/
def Work.inPortSlotWritten (w : Work) (t p : Nat) : Work :=
  match w.canalIn t p with
  | none => w
  | some r =>
    if ((w.tile t).inPort p).bytes < r.c.size then w
    else
      (w.modIn t p (fun i =>
        { i with
          transfer := false
          bytes := 0
          slot := (i.slot + 1) % r.c.dstSlots
          slots := (i.slots + 1) % 2 ^ 32 })).semAdd t r.c.readySem 1

def execInPortSlotWritten (tile : TileId) (port : Fin 4) (s : State) :=
  lift (fun w => if ((w.tile tile.val).inPort port.val).transfer then w.inPortSlotWritten tile.val port.val else w) s

/-- The in-port takes a RETURN unit and sends a credit (R253). -/
def Work.inPortReturnTake (w : Work) (t p : Nat) : Work :=
  match w.canalIn t p with
  | none => w
  | some r =>
    let n := (w.tile t).sem r.c.returnSem
    if n = 0 then w
    else
      (w.modTile t (fun x => x.setSem r.c.returnSem (n - 1))).modOut r.c.prod r.c.outPort (fun o =>
        { o with creditsInFlight := o.creditsInFlight + 1 })

def execInPortReturnTake (tile : TileId) (port : Fin 4) (s : State) := lift (fun w => w.inPortReturnTake tile.val port.val) s

/-- A credit arrives; CREDITS is never above DST_SLOTS (R252, R255). -/
def Work.canalCredit (w : Work) (t p : Nat) : Work :=
  match w.canalOut t p with
  | none => w
  | some r =>
    if ((w.tile t).outPort p).creditsInFlight = 0 then w
    else w.modOut t p (fun o =>
      { o with creditsInFlight := o.creditsInFlight - 1, credits := min (o.credits + 1) r.c.dstSlots })

def execCanalCreditArrive (tile : TileId) (port : Fin 4) (s : State) := lift (fun w => w.canalCredit tile.val port.val) s

/-- The out-port gives up the n units of a slot that have not arrived: those in flight, or the slot that it still reads. -/
def OutPort.abandon (o : OutPort) (n : Nat) : OutPort :=
  if n ≤ o.flight.length then { o with flight := o.flight.drop n } else { o with transfer := false, left := 0, flight := [] }

/-- At the teardown of its pound, a slot that still waits on held bytes is abandoned (R267). -/
def Work.canalHeldTimeout (w : Work) (t p : Nat) : Work :=
  match w.canalIn t p with
  | none => w
  | some r =>
    if !w.inPortHeld r || (w.pound r.pound).st ≠ .draining then w
    else
      let need := r.c.size / 64 - ((w.tile t).inPort p).bytes / 64
      (w.modOut r.c.prod r.c.outPort (fun o => o.abandon need)).modIn t p (fun i =>
        { i with
          transfer := false
          waitingHeld := false
          bytes := 0
          discarded := satAdd 8 i.discarded 1
          abandoned := i.abandoned + 1 })

def execCanalHeldTimeout (tile : TileId) (port : Fin 4) (s : State) := lift (fun w => w.canalHeldTimeout tile.val port.val) s

/-! ## Resets and teardown (R263, R266) -/

/-- Slots in transfer: whole slots that the units on their way, with those that the in-port has of its slot, make up. -/
def Work.canalMoving (w : Work) (c : Canal) : Nat :=
  let o := (w.tile c.prod).outPort c.outPort
  let i := (w.tile c.cons).inPort c.inPort
  let units := c.size / 64
  (i.bytes / 64 + o.flight.length + (if o.transfer then units - o.left else 0)) / units

/-- Slots that a reset finds at the two ends: counted by SEND and in transfer at the out-port; counted by READY and in transfer
at the in-port. -/
def Work.canalSlots (w : Work) (c : Canal) : Nat × Nat :=
  let arriving := b2n ((w.tile c.cons).inPort c.inPort).transfer
  ((w.tile c.prod).sem c.sendSem + (w.canalMoving c - arriving), (w.tile c.cons).sem c.readySem + arriving)

/-- Record and count slots that a canal loses (R263, R266, R615); `counted` of them are in DISCARDED already. -/
def Work.canalLoss (w : Work) (r : CanalRef) (cls : Nat) (n : Nat × Nat) (counted : Nat := 0) : Work :=
  let w := w.modOut r.c.prod r.c.outPort (fun o => { o with discarded := satAdd 8 o.discarded n.1 })
  let w := w.modIn r.c.cons r.c.inPort (fun i => { i with discarded := satAdd 8 i.discarded (n.2 - counted) })
  w.record { cls := cls, kind := 2, id := r.c.prod, pound := r.pound, action := 6, count := n.1 + n.2, d0 := r.num,
             d1 := n.1 % 65536 + n.2 % 65536 * 65536 }

/-- A canal reset at both ends (R263). -/
def Work.canalReset (w : Work) (r : CanalRef) : Work :=
  let n := w.canalSlots r.c
  let w := if n.1 + n.2 = 0 then w else w.canalLoss r 0x0506 n
  let w := w.modOut r.c.prod r.c.outPort (fun o =>
    { o with credits := r.c.dstSlots, slot := 0, transfer := false, readDone := false, creditsInFlight := 0, left := 0,
             flight := [] })
  let w := w.modIn r.c.cons r.c.inPort (fun i =>
    { i with slot := 0, transfer := false, bytes := 0, waitingHeld := false, abandoned := 0 })
  (w.modTile r.c.prod (fun x => (x.setSem r.c.sendSem 0).setSem r.c.freeSem 0)).modTile r.c.cons (fun x =>
    (x.setSem r.c.readySem 0).setSem r.c.returnSem 0)

/-- A slot that the out-port has read in full, and one that the in-port has in full, are finished: FREE and READY are signalled. -/
def Work.finishSlots (w : Work) (r : CanalRef) : Work :=
  let o := (w.tile r.c.prod).outPort r.c.outPort
  let w := if o.transfer && o.flight.isEmpty && r.c.size / 64 ≤ o.left then w.outPortSlotRead r.c.prod r.c.outPort else w
  if r.c.size ≤ ((w.tile r.c.cons).inPort r.c.inPort).bytes then w.inPortSlotWritten r.c.cons r.c.inPort else w

/-- Finish the transfer of the slots on their way: n units at most (R266). -/
def Work.canalFinish (w : Work) (r : CanalRef) : Nat → Work
  | 0 => w.finishSlots r
  | n + 1 =>
    let w := w.finishSlots r
    match w.nextUnit r with
    | none => w
    | some _ => Work.canalFinish (w.inPortUnit r.c.cons r.c.inPort [] []) r n

/-- The canals of a pound are removed when its draining ends: slots in transfer are finished first (R266). -/
def Work.canalTearDown (w : Work) (p : Nat) : Work :=
  let rs := w.canals.filter (fun r => r.pound = p)
  let w := w.each rs (fun w r =>
    let w := w.canalFinish r (2 * (r.c.size / 64))
    let send := (w.tile r.c.prod).sem r.c.sendSem
    let ready := (w.tile r.c.cons).sem r.c.readySem
    let gone := ((w.tile r.c.cons).inPort r.c.inPort).abandoned
    let lost := gone + w.canalMoving r.c
    let w := if send + ready + lost = 0 then w else w.canalLoss r 0x0508 (send, ready + lost) gone
    let w := w.modOut r.c.prod r.c.outPort (fun o => { OutPort.zero with slots := o.slots, resent := o.resent, discarded := o.discarded })
    w.modIn r.c.cons r.c.inPort (fun i =>
      { InPort.zero with slots := i.slots, resent := i.resent, poisoned := i.poisoned, discarded := i.discarded }))
  w.modPound p (fun x => { x with canals := [] })

/-- The starting step of a pound sets up the canals of its charter (R263, R266). -/
def Work.canalSetUp (w : Work) (p : Nat) (cs : List Canal) : Work :=
  let w := w.modPound p (fun x => { x with canals := cs })
  w.each (w.canals.filter (fun r => r.pound = p)) (fun w r => w.canalReset r)

/-- The other ends of a tile's canals are at rest (R262, R264): idle, disabled, quarantined or spare, or in the group. -/
def Work.canalFree (w : Work) (r : CanalRef) (group : List Nat) : Bool :=
  [r.c.prod, r.c.cons].all (fun t => group.contains t ||
    (match (w.tile t).st with | .idle | .disabled | .quarantined | .spare => true | _ => false))

end Sys2Proof.Machine
end

