-- ==== Sys2Proof/Machine/VectorUnit.lean ====
section
/-!
DEFINITION. The exp/log/reciprocal unit of a vector core (R136, R137), and vector register elements. A result is within
1 ulp of the exact value; which of those values it is stays open (log entry 6).
-/

namespace Sys2Proof.Machine

/-- Fixed point with 128 fraction bits: the logarithm of 2 to the base e. -/
def ln2Fixed : Nat := 0xB17217F7D1CF79ABC9E3B39803F2F6AF

/-- e^t for t in [0, 1), both with 128 fraction bits: 40 terms of the series. -/
def expFixed (t : Nat) : Nat :=
  ((List.range 40).foldl (fun (s : Nat × Nat) k =>
    let term := s.2 * t / 2 ^ 128 / (k + 1)
    (s.1 + term, term)) (2 ^ 128, 2 ^ 128)).1

/-- 2^x: value, and whether it is exact. -/
def exp2Real (x : Rat) : Rat × Bool :=
  let i : Int := if 0 ≤ x then (wholePart x : Int) else -(wholePart (-x) : Int) - (if (wholePart (-x) : Rat) = -x then 0 else 1)
  let f := x - (i : Rat)
  if f = 0 then (pow2 i, true)
  else (((expFixed (wholePart (f * ((2 ^ 128 : Nat) : Rat)) * ln2Fixed / 2 ^ 128) : Nat) : Rat) * pow2 (i - 128), false)

/-- The base-2 logarithm of x > 0: value, and whether it is exact. -/
def log2Real (x : Rat) : Rat × Bool :=
  let e := floorLog2 x
  let m := x / pow2 e
  if m = 1 then ((e : Rat), true)
  else
    let s := (List.range 100).foldl (fun (s : Nat × Nat) _ =>
      let y := s.1 * s.1 / 2 ^ 200
      if 2 ^ 201 ≤ y then (y / 2, 2 * s.2 + 1) else (y, 2 * s.2)) (wholePart (m * ((2 ^ 200 : Nat) : Rat)), 0)
    ((e : Rat) + (s.2 : Rat) / ((2 ^ 100 : Nat) : Rat), false)

/-- The square root of q > 0: value, and whether it is exact. -/
def sqrtReal (q : Rat) : Rat × Bool :=
  let r : Rat := ((Nat.sqrt (wholePart (q * ((2 ^ 600 : Nat) : Rat))) : Nat) : Rat) / ((2 ^ 300 : Nat) : Rat)
  (r, r * r = q)

/-- The four operations of the unit. -/
inductive VhOp where
  | exp2 | log2 | recip | rsqrt
deriving DecidableEq, Repr

def VhOp.code : VhOp → Nat
  | .exp2 => 0 | .log2 => 1 | .recip => 2 | .rsqrt => 3

/-- The exact value of an operation where it has one. -/
def VhOp.exact (op : VhOp) (x : Num) : Option (Rat × Bool) :=
  match x with
  | .fin _ _ =>
    let q := x.val
    match op with
    | .exp2 => if 4096 < q then none else if q < -4096 then some (pow2 (-4096), false) else some (exp2Real q)
    | .log2 => if 0 < q then some (log2Real q) else none
    | .recip => if q = 0 then none else some (1 / q, true)
    | .rsqrt => if 0 < q then some (sqrtReal (1 / q)) else none
  | _ => none

/-- The code of the largest representable magnitude that is at most a. -/
def FloatFmt.floorCode (f : FloatFmt) (a : Rat) : Nat :=
  if f.maxFinite ≤ a then f.encode false f.maxFinite
  else if a < f.minNormal then wholePart (a / pow2 (1 - f.bias - f.mb))
  else f.encode false (((wholePart (a / pow2 (floorLog2 a - f.mb)) : Nat) : Rat) * pow2 (floorLog2 a - f.mb))

/-- A subnormal code becomes zero of its sign when FLUSH is set (R137). -/
def FloatFmt.flushCode (f : FloatFmt) (flush : Bool) (code : Nat) : Nat :=
  if flush && code / 2 ^ f.mb % 2 ^ f.eb = 0 then code / 2 ^ (f.eb + f.mb) * 2 ^ (f.eb + f.mb) else code

/-- The result of the unit on one element (R136, R137). -/
def vhElement (op : VhOp) (f : FloatFmt) (flush : Bool) (code : Nat) : Nat :=
  let w := f.width
  let code := f.flushCode flush code
  let open_ := (Config.vhFree op.code w code).toNat % 2 ^ w
  match op.exact (f.decode false code) with
  | none => open_
  | some (q, isExact) =>
    let a := if q < 0 then -q else q
    if f.maxFinite < a && pow2 (floorLog2 f.maxFinite + 1) ≤ a then open_
    else
      let lo := f.floorCode a
      let top := f.encode false f.maxFinite
      let exactHere := isExact && (f.decode false lo).val = a
      let c := (if exactHere then [lo, lo + 1, lo - 1] else [lo, lo + 1]).filter (fun c => c ≤ top)
      let r := c.getD (Config.vhPick op.code w code % c.length) lo
      f.flushCode flush (b2n (decide (q < 0)) * 2 ^ (f.eb + f.mb) + r)

/-- Element i of size z bytes of the register group at v. -/
def TileCore.velem (c : TileCore) (v i z : Nat) : Nat :=
  ((SMap.get 0 c.v (v + i * z / 256)).toNat / 2 ^ (i * z % 256 * 8)) % 2 ^ (8 * z)

/-- Set element i of size z bytes of the register group at v. -/
def TileCore.setVelem (c : TileCore) (v i z x : Nat) : TileCore :=
  { c with v := SMap.modify 0 c.v (v + i * z / 256) (fun r =>
      setBits r (i * z % 256 * 8 + 8 * z - 1) (i * z % 256 * 8) x) }

/-- SEW in bytes, and the registers of a group (1 for a fraction), as vtype gives. -/
def TileCore.sew (c : TileCore) : Nat := 2 ^ (bits c.vtype 5 3)
def TileCore.group (c : TileCore) : Nat := if bits c.vtype 2 0 < 4 then 2 ^ bits c.vtype 2 0 else 1

/-- The instruction is legal: a vtype that is supported, SEW 16 or 32, aligned register groups, and no overlap of the mask (R136). -/
def TileCore.vhLegal (c : TileCore) (vd vs2 : Nat) (vm : Bool) : Bool :=
  !c.vill && (c.sew = 2 || c.sew = 4) && vd % c.group = 0 && vs2 % c.group = 0 && (vm || vd ≠ 0)

/-- Run the unit over elements vstart to vl - 1 that the mask lets run. -/
def TileCore.vhRun (c : TileCore) (op : VhOp) (vd vs2 : Nat) (vm : Bool) : TileCore :=
  let f := if c.sew = 4 then fp32 else fp16
  let flush := c.flush
  let r := (idxs c.vl (fun i => c.vstart ≤ i && (vm || bit (SMap.get 0 c.v 0) i))).foldl (fun (d : TileCore) i =>
    d.setVelem vd i c.sew (vhElement op f flush (c.velem vs2 i c.sew))) c
  { r with vstart := 0 }

/-- An instruction of the unit on vector core h of tile t. -/
def Work.vh (w : Work) (t h : Nat) (op : VhOp) (vd vs2 : Nat) (vm : Bool) (word : W64) : Work :=
  if !w.runs t h then w
  else if ((w.tile t).core h).vhLegal vd vs2 vm then
    w.modTile t (fun x => (x.modCore h (fun c => c.vhRun op vd vs2 vm)).advance h)
  else w.tileTrap t h 2 word

/-- The instruction word of the unit (R136). -/
def vhWord (op : VhOp) (vd vs2 : Nat) (vm : Bool) : W64 :=
  fields [(26, op.code), (25, b2n vm), (20, vs2), (12, 1), (7, vd), (0, 0b1111011)]

def execVhexp2V (tile : TileId) (vcore : Fin 4) (vd vs2 : BitVec 5) (vm : Bool) (s : State) :=
  lift (fun w => w.vh tile.val (vcore.val + 1) .exp2 vd.toNat vs2.toNat vm (vhWord .exp2 vd.toNat vs2.toNat vm)) s

def execVhlog2V (tile : TileId) (vcore : Fin 4) (vd vs2 : BitVec 5) (vm : Bool) (s : State) :=
  lift (fun w => w.vh tile.val (vcore.val + 1) .log2 vd.toNat vs2.toNat vm (vhWord .log2 vd.toNat vs2.toNat vm)) s

def execVhrecV (tile : TileId) (vcore : Fin 4) (vd vs2 : BitVec 5) (vm : Bool) (s : State) :=
  lift (fun w => w.vh tile.val (vcore.val + 1) .recip vd.toNat vs2.toNat vm (vhWord .recip vd.toNat vs2.toNat vm)) s

def execVhrsqrtV (tile : TileId) (vcore : Fin 4) (vd vs2 : BitVec 5) (vm : Bool) (s : State) :=
  lift (fun w => w.vh tile.val (vcore.val + 1) .rsqrt vd.toNat vs2.toNat vm (vhWord .rsqrt vd.toNat vs2.toNat vm)) s

end Sys2Proof.Machine
end

