-- ==== Sys2Proof/Machine/TileCores.lean ====
section
/-!
DEFINITION. What the control core and the vector cores of a tile execute: loads, stores and atomics of the local map,
semaphores, vector core control, custom CSRs and the ends of a program (R126 to R139, R146 to R149, R155, R616).
-/

namespace Sys2Proof.Machine

/-- Sign extension of an m-bit number to 64 bits. -/
def sext (m n : Nat) : W64 := BitVec.ofInt 64 (if n.testBit (m - 1) then (n : Int) - 2 ^ m else n)

/-- Value of an unsigned or signed load of z bytes. -/
def extend (z : Nat) (signed : Bool) (v : Nat) : W64 := if signed then sext (8 * z) v else BitVec.ofNat 64 v

/-- The local address rs1 + imm. -/
def localAddr (c : TileCore) (rs1 : Nat) (imm : BitVec 12) : Nat := (c.reg rs1 + sext 12 imm.toNat).toNat

/-- An access of n bytes lies in the tile store. -/
def inStore (a n : Nat) : Bool := a + n ≤ 0x60_0000

/-- Bytes of the sequence table. -/
def Tile.seqBytes (x : Tile) (off n : Nat) : List Byte :=
  (List.range n).map (fun i =>
    let o := off + i
    BitVec.ofNat 8 ((SMap.get 0 x.seqTable (o / 16)).toNat / 2 ^ (8 * (o % 16))))

/-- Store bytes into the sequence table. -/
def Tile.seqStore (x : Tile) (off : Nat) (bs : List Byte) : Tile :=
  { x with seqTable := bs.zipIdx.foldl (fun m b =>
      let o := off + b.2
      SMap.modify 0 m (o / 16) (fun e => setBits e (8 * (o % 16) + 7) (8 * (o % 16)) b.1.toNat)) x.seqTable }

/-- The sequence table is held by a masked drain (R151, R235). -/
def Tile.seqHeld (x : Tile) : Bool :=
  x.array.chains.any (fun c => match c.drain with | some d => 2 ≤ d.b.toNat % 4 | none => false)

/-- What a load of n bytes finds in a window of the local map: bytes, or nothing that it may read (R130, R141, R146). -/
def Tile.window (x : Tile) (h a n : Nat) (isScalar signed : Bool) : Option (List Byte) :=
  if 0x80_0000 ≤ a && a < 0x80_0800 then
    if isScalar && signed && n = 4 && a % 0x20 = 0 then some (leBytes 4 (x.sem ((a - 0x80_0000) / 0x20))) else none
  else if 0x81_0000 ≤ a && a + n ≤ 0x81_2000 then some (x.seqBytes (a - 0x81_0000) n)
  else if 0x82_0000 ≤ a && a + n ≤ 0x82_0048 && h = 0 then
    let word := (a - 0x82_0000) / 8
    let v := if word = 0 then 0
      else if word < 5 then b2n (x.core word).running
      else (SMap.get 0 x.vargs (word - 4)).toNat
    some ((leBytes 8 v).drop (a % 8) |>.take n)
  else if 0x83_0000 ≤ a && a < 0x83_0200 && h = 0 then
    if n = 8 && a % 8 = 0 && isScalar then
      let m := x.mover ((a - 0x83_0000) / 0x100)
      let o := (a - 0x83_0000) % 0x100
      some (leBytes 8 (if o < 0x40 then (SMap.get 0 m.window (o / 8)).toNat
        else if o = 0x40 then m.completed
        else if o = 0x48 then m.queue.length + b2n m.run.isSome
        else 0))
    else none
  else none

/-- A mover window: accesses of another width or alignment raise the access fault (R141). -/
def inMoverWindow (a : Nat) : Bool := 0x83_0000 ≤ a && a < 0x83_0200

/-- One element or scalar read of the local map: bytes, or the cause of the exception (R131). -/
def Work.localRead (w : Work) (t h a n : Nat) (isScalar signed : Bool) : Except Nat (List Byte) :=
  if a % n ≠ 0 && !inMoverWindow a then .error 4
  else if inStore a n then
    if w.mem.poisonedIn (tileAddr t a) n then .error 5 else .ok (w.mem.read (tileAddr t a) n)
  else match (w.tile t).window h a n isScalar signed with
    | some bs => .ok bs
    | none => .error 5

/-- Write a loaded value to its register: FP values are NaN-boxed. -/
def TileCore.writeDst (c : TileCore) (dst : LoadDst) (z i : Nat) (bs : List Byte) : TileCore :=
  match dst with
  | .x rd signed => c.setReg rd.toNat (extend z signed (leNat bs))
  | .f rd => { c with f := SMap.set 0 c.f rd.toNat (if z = 8 then BitVec.ofNat 64 (leNat bs)
      else BitVec.ofNat 64 (2 ^ 64 - 2 ^ (8 * z) + leNat bs)) }
  | .v vd => c.setVelem vd.toNat i z (leNat bs)

/-- A load of tile t's hart h (R130, R131, R134). -/
def Work.tileLoad (w : Work) (t h : Nat) (dst : LoadDst) (rs1 : Nat) (imm : BitVec 12) (z : Nat) : Work :=
  let c := (w.tile t).core h
  let a := localAddr c rs1 imm
  if !w.runs t h then w
  else
    match dst with
    | .v _ =>
      if h = 0 || c.vill then w.tileTrap t h 2 0
      else
        match (idxs c.vl (fun i => c.vstart ≤ i)).foldl (fun (r : Except (Nat × Nat) TileCore) i =>
          match r with
          | .error e => .error e
          | .ok d => match w.localRead t h (a + i * z) z false false with
            | .error e => .error (e, a + i * z)
            | .ok bs => .ok (d.writeDst dst z i bs)) (.ok c) with
        | .error e => w.tileTrap t h e.1 (BitVec.ofNat 64 e.2)
        | .ok d => w.modTile t (fun x => (x.setCore h { d with vstart := 0 }).advance h)
    | _ =>
      let signed := match dst with | .x _ s => s | _ => false
      let isX := match dst with | .x _ _ => true | _ => false
      if h = 0 && !isX then w.tileTrap t h 2 0
      else match w.localRead t h a z isX signed with
        | .error e => w.tileTrap t h e (BitVec.ofNat 64 a)
        | .ok bs => w.modTile t (fun x => (x.modCore h (fun c => c.writeDst dst z 0 bs)).advance h)

def execTileLoad (tile : TileId) (hart : TileHart) (dst : LoadDst) (rs1 : BitVec 5) (imm : BitVec 12) (size : Size)
    (s : State) :=
  liftIf (Instr.wellFormed (.tileLoad tile hart dst rs1 imm size))
    (fun w => w.tileLoad tile.val hart.val dst rs1.toNat imm size.bytes) s

/-! ## Stores -/

/-- A core's reservation is on a granule of the range of n bytes at a. -/
def TileCore.reservedIn (c : TileCore) (a n : Nat) : Bool :=
  match c.reserved with
  | some g => lineLo a ≤ g && g < lineHi a n
  | none => false

/-- A write to the tile store by one of its own cores: reservations of the other cores on its granules go (R616). -/
def Work.coreWrite (w : Work) (t h off : Nat) (bs : List Byte) : Work :=
  (w.modTile t (fun x =>
    { x with cores := SMap.mapVal x.cores (fun k c =>
        if k ≠ h && c.reservedIn (tileAddr t off) bs.length then { c with reserved := none } else c) })).put
    (.bytes (tileAddr t off) bs)

/-- Start vector core n of a tile at an entry offset (R138): nothing happens while it runs. -/
def Work.startVector (w : Work) (t n : Nat) (entry : W64) : Work :=
  w.modTile t (fun x =>
    if (x.core n).running then x
    else x.modCore n (fun c =>
      ({ TileCore.zero with
        running := true
        pc := entry
        flush := c.flush
        exit := c.exit
        cycle := c.cycle }).setReg 10 (SMap.get 0 x.vargs n)))

/-- The submission of a mover's descriptor: into its queue, or the core stalls (R141). -/
def Work.moverSubmit (w : Work) (t m : Nat) (v : W64) : Work :=
  let mv := (w.tile t).mover m
  let win := SMap.set 0 mv.window 7 v
  let words := (List.range 8).map (fun i => SMap.get 0 win i) ++ [((w.tile t).core 0).tmcomp]
  if mv.queue.length + b2n mv.run.isSome < 16 then
    w.modTile t (fun x => (x.setMover m { mv with window := win, queue := mv.queue ++ [words] }).advance 0)
  else
    w.modTile t (fun x =>
      (x.setMover m { mv with window := win, waiting := some words }).modCore 0 (fun c => { c with stalled := true }))

/-- A store of bytes to a window: what it does, or nothing that it may write (R130, R138, R141, R149, R151). The core
goes on, unless it stalls. -/
def Work.windowStore (w : Work) (t h a : Nat) (bs : List Byte) (isScalar : Bool) : Option Work :=
  let n := bs.length
  let done (w : Work) : Work := w.modTile t (fun x => x.advance h)
  if 0x80_0000 ≤ a && a < 0x80_0800 then
    if isScalar && h = 0 && n = 4 && a % 0x20 = 0 then
      some (done (w.modTile t (fun x => x.setSem ((a - 0x80_0000) / 0x20) (leNat bs))))
    else none
  else if 0x81_0000 ≤ a && a + n ≤ 0x81_2000 && h = 0 then
    if (w.tile t).seqHeld then
      some (w.modTile t (fun x =>
        { (x.modCore 0 (fun c => { c with stalled := true })) with
          seqWaiting := x.seqWaiting ++ bs.zipIdx.map (fun b => (a - 0x81_0000 + b.2, b.1.setWidth 64)) }))
    else some (done (w.modTile t (fun x => x.seqStore (a - 0x81_0000) bs)))
  else if 0x82_0000 ≤ a && a + n ≤ 0x82_0048 && h = 0 then
    let word := (a - 0x82_0000) / 8
    if word = 0 then some (done w)
    else if word < 5 then some (done (if a % 8 = 0 then w.startVector t word (BitVec.ofNat 64 (leNat bs)) else w))
    else some (done (w.modTile t (fun x =>
      { x with vargs := SMap.modify 0 x.vargs (word - 4) (fun v =>
          setBits v (8 * (a % 8) + 8 * n - 1) (8 * (a % 8)) (leNat bs)) })))
  else if inMoverWindow a && h = 0 then
    if n = 8 && a % 8 = 0 && isScalar then
      let m := (a - 0x83_0000) / 0x100
      let o := (a - 0x83_0000) % 0x100
      if o = 0x38 then some (w.moverSubmit t m (BitVec.ofNat 64 (leNat bs)))
      else if o < 0x38 then
        some (done (w.modTile t (fun x => x.setMover m
          { x.mover m with window := SMap.set 0 (x.mover m).window (o / 8) (BitVec.ofNat 64 (leNat bs)) })))
      else some (done w)
    else none
  else none

/-- The bytes that a store writes. -/
def TileCore.storeBytes (c : TileCore) (src : StoreSrc) (z i : Nat) : List Byte :=
  match src with
  | .x rs2 => leBytes z (c.reg rs2.toNat).toNat
  | .f rs2 => leBytes z (SMap.get 0 c.f rs2.toNat).toNat
  | .v vs3 => leBytes z (c.velem vs3.toNat i z)

/-- A store of bytes at one local address: the exception's cause, or the workbench after it (R131, R236). -/
def Work.localStore (w : Work) (t h a : Nat) (bs : List Byte) (isScalar : Bool) : Except Nat Work :=
  let n := bs.length
  if a % n ≠ 0 && !inMoverWindow a then .error 6
  else if inStore a n then
    if (w.tile t).holds a n then .error 7
    else .ok ((w.coreWrite t h a bs).modTile t (fun x => x.advance h))
  else match w.windowStore t h a bs isScalar with
    | some w => .ok w
    | none => .error 7

/-- A store of tile t's hart h; the elements of a vector store are one write, up to the first that faults (R127, R130, R131). -/
def Work.tileStore (w : Work) (t h : Nat) (src : StoreSrc) (rs1 : Nat) (imm : BitVec 12) (z : Nat) : Work :=
  let c := (w.tile t).core h
  let a := localAddr c rs1 imm
  if !w.runs t h then w
  else
    match src with
    | .v _ =>
      if h = 0 || c.vill then w.tileTrap t h 2 0
      else
        let elems := idxs c.vl (fun i => c.vstart ≤ i)
        let fault (b : Nat) : Option Nat :=
          if b % z ≠ 0 && !inMoverWindow b then some 6
          else if !inStore b z || (w.tile t).holds b z then some 7
          else none
        let ok := elems.takeWhile (fun i => (fault (a + i * z)).isNone)
        let w := if ok.isEmpty then w else w.coreWrite t h (a + c.vstart * z) (ok.flatMap (fun i => c.storeBytes src z i))
        match elems[ok.length]? with
        | some i => w.tileTrap t h ((fault (a + i * z)).getD 7) (BitVec.ofNat 64 (a + i * z))
        | none => w.modTile t (fun x => (x.modCore h (fun c => { c with vstart := 0 })).advance h)
    | _ =>
      let isX := match src with | .x _ => true | _ => false
      if h = 0 && !isX then w.tileTrap t h 2 0
      else match w.localStore t h a (c.storeBytes src z 0) isX with
        | .error e => w.tileTrap t h e (BitVec.ofNat 64 a)
        | .ok w => w

def execTileStore (tile : TileId) (hart : TileHart) (src : StoreSrc) (rs1 : BitVec 5) (imm : BitVec 12) (size : Size)
    (s : State) :=
  liftIf (Instr.wellFormed (.tileStore tile hart src rs1 imm size))
    (fun w => w.tileStore tile.val hart.val src rs1.toNat imm size.bytes) s

/-- The control core's store of x[rs2] to VALUE of a semaphore (R146, R149). -/
def execSemValueStore (tile : TileId) (sem : Fin 64) (rs2 : BitVec 5) (s : State) :=
  lift (fun w =>
    if !w.runs tile.val 0 then w
    else w.modTile tile.val (fun x => (x.setSem sem.val (((x.core 0).reg rs2.toNat).toNat % 2 ^ 32)).advance 0)) s

/-! ## Semaphores (R146 to R149) -/

/-- SIGNAL: rd receives the count before the add (R146, R148). -/
def Work.tileSignal (w : Work) (t h s rd rs2 : Nat) : Work :=
  if !w.runs t h then w
  else
    let old := (w.tile t).sem s
    let n := (((w.tile t).core h).reg rs2).toNat
    (w.semAdd t s (n % 2 ^ 32)).modTile t (fun x => (x.modCore h (fun c => c.setReg rd (sext 32 old))).advance h)

def execSignal (tile : TileId) (hart : TileHart) (sem : Fin 64) (rd rs2 : BitVec 5) (s : State) :=
  lift (fun w => w.tileSignal tile.val hart.val sem.val rd.toNat rs2.toNat) s

/-- WAIT: it returns at once when the count allows it and nobody waits before it, or for an amount of 0; otherwise the
core stalls in arrival order. On a semaphore that a canal port takes it raises a store/AMO access fault (R146, R147,
R254). -/
def Work.tileWait (w : Work) (t h s rd rs2 : Nat) : Work :=
  if !w.runs t h then w
  else if w.portTakes t s then w.tileTrap t h 7 (BitVec.ofNat 64 (0x80_0010 + s * 0x20))
  else
    let x := w.tile t
    let n := ((x.core h).reg rs2).toNat % 2 ^ 32
    if n = 0 || (n ≤ x.sem s && !x.waiters.any (fun v => v.sem = s)) then
      w.modTile t (fun x =>
        ((x.setSem s (x.sem s - n)).modCore h (fun c => c.setReg rd (sext 32 (x.sem s)))).advance h)
    else
      w.modTile t (fun x =>
        { (x.modCore h (fun c => { c with stalled := true })) with
          waiters := x.waiters ++ [{ sem := s, hart := h, amount := n, rd := rd }] })

def execWait (tile : TileId) (hart : TileHart) (sem : Fin 64) (rd rs2 : BitVec 5) (s : State) :=
  lift (fun w => w.tileWait tile.val hart.val sem.val rd.toNat rs2.toNat) s

/-- A blocked WAIT returns when it is the first of its semaphore's waiters and its amount has become available (R146,
R147). -/
def Work.tileWaitReturn (w : Work) (t h : Nat) : Work :=
  let x := w.tile t
  match x.waiters.find? (fun v => v.hart = h) with
  | none => w
  | some v =>
    if x.waiters.find? (fun u => u.sem = v.sem) = some v && v.amount ≤ x.sem v.sem then
      w.modTile t (fun x =>
        { ((x.setSem v.sem (x.sem v.sem - v.amount)).modCore h (fun c =>
            { c.setReg v.rd (sext 32 (x.sem v.sem)) with stalled := false })).advance h with
          waiters := x.waiters.filter (fun u => u.hart ≠ h) })
    else w

def execWaitReturn (tile : TileId) (hart : TileHart) (s : State) := lift (fun w => w.tileWaitReturn tile.val hart.val) s

/-! ## Atomics of the tile store (R131, R616) -/

/-- The value an AMO writes: z bytes, old and operand as unsigned numbers (RV64A). -/
def amoValue (op : AmoOp) (z old v cmp : Nat) : Nat :=
  let m : Nat := 2 ^ (8 * z)
  let sg (n : Nat) : Int := if n.testBit (8 * z - 1) then (n : Int) - (m : Int) else n
  let v := v % m
  match op with
  | .swap => v
  | .add => (old + v) % m
  | .xor => old ^^^ v
  | .and => old &&& v
  | .or => old ||| v
  | .min => if sg old ≤ sg v then old else v
  | .max => if sg old ≤ sg v then v else old
  | .minu => min old v
  | .maxu => max old v
  | .cas => if old = cmp % m then v else old

/-- An AMO of a tile core: on the tile store, or SIGNAL and WAIT of a semaphore by AMOADD.W; the bank performs it
(R131, R146). -/
def Work.tileAmo (w : Work) (t h : Nat) (op : AmoOp) (rd rs1 rs2 z : Nat) : Work :=
  let c := (w.tile t).core h
  let a := (c.reg rs1).toNat
  let tv : W64 := BitVec.ofNat 64 a
  if !w.runs t h then w
  else if a % z ≠ 0 && !inMoverWindow a then w.tileTrap t h 6 tv
  else if inStore a z then
    if w.mem.poisonedIn (tileAddr t a) z || (w.tile t).holds a z then w.tileTrap t h 7 tv
    else
      let old := leNat (w.mem.read (tileAddr t a) z)
      (w.coreWrite t h a (leBytes z (amoValue op z old (c.reg rs2).toNat 0))).modTile t (fun x =>
        (x.modCore h (fun c => c.setReg rd (sext (8 * z) old))).advance h)
  else if 0x80_0000 ≤ a && a < 0x80_0800 && op = .add && z = 4 && (a % 0x20 = 8 || a % 0x20 = 0x10) then
    let s := (a - 0x80_0000) / 0x20
    if a % 0x20 = 8 then w.tileSignal t h s rd rs2 else w.tileWait t h s rd rs2
  else w.tileTrap t h 7 tv

def execTileAmo (tile : TileId) (hart : TileHart) (op : AmoOp) (rd rs1 rs2 : BitVec 5) (size : Size) (s : State) :=
  liftIf (Instr.wellFormed (.tileAmo tile hart op rd rs1 rs2 size))
    (fun w => w.tileAmo tile.val hart.val op rd.toNat rs1.toNat rs2.toNat size.bytes) s

/-- LR of a tile core (R131, R616). -/
def Work.tileLr (w : Work) (t h rd rs1 z : Nat) : Work :=
  let a := (((w.tile t).core h).reg rs1).toNat
  let tv : W64 := BitVec.ofNat 64 a
  if !w.runs t h then w
  else if a % z ≠ 0 && !inMoverWindow a then w.tileTrap t h 4 tv
  else if !inStore a z || w.mem.poisonedIn (tileAddr t a) z then w.tileTrap t h 5 tv
  else
    w.modTile t (fun x => (x.modCore h (fun c =>
      { c.setReg rd (sext (8 * z) (leNat (w.mem.read (tileAddr t a) z))) with
        reserved := some (tileAddr t a / 128) })).advance h)

def execTileLr (tile : TileId) (hart : TileHart) (rd rs1 : BitVec 5) (size : Size) (s : State) :=
  liftIf (Instr.wellFormed (.tileLr tile hart rd rs1 size))
    (fun w => w.tileLr tile.val hart.val rd.toNat rs1.toNat size.bytes) s

/-- SC of a tile core: it stores and answers 0 while the reservation on its granule is held, else answers 1; the
reservation is gone afterwards (R131, R616). -/
def Work.tileSc (w : Work) (t h rd rs1 rs2 z : Nat) : Work :=
  let c := (w.tile t).core h
  let a := (c.reg rs1).toNat
  let tv : W64 := BitVec.ofNat 64 a
  if !w.runs t h then w
  else if a % z ≠ 0 && !inMoverWindow a then w.tileTrap t h 6 tv
  else if !inStore a z || w.mem.poisonedIn (tileAddr t a) z || (w.tile t).holds a z then w.tileTrap t h 7 tv
  else
    let ok := c.reserved = some (tileAddr t a / 128)
    let w := if ok then w.coreWrite t h a (leBytes z (c.reg rs2).toNat) else w
    w.modTile t (fun x => (x.modCore h (fun c =>
      { c.setReg rd (if ok then 0 else 1) with reserved := none })).advance h)

def execTileSc (tile : TileId) (hart : TileHart) (rd rs1 rs2 : BitVec 5) (size : Size) (s : State) :=
  liftIf (Instr.wellFormed (.tileSc tile hart rd rs1 rs2 size))
    (fun w => w.tileSc tile.val hart.val rd.toNat rs1.toNat rs2.toNat size.bytes) s

/-! ## Vector core control, CSRs, illegal instructions -/

def execVectorCoreStart (tile : TileId) (vcore : Fin 4) (rs2 : BitVec 5) (s : State) :=
  lift (fun w =>
    if !w.runs tile.val 0 then w
    else (w.startVector tile.val (vcore.val + 1) (((w.tile tile.val).core 0).reg rs2.toNat)).modTile tile.val
      (fun x => x.advance 0)) s

/-- A vector core's ECALL halts it; a0 is its exit value (R138). -/
def execVectorEcall (tile : TileId) (vcore : Fin 4) (s : State) :=
  lift (fun w =>
    if !w.runs tile.val (vcore.val + 1) then w
    else w.modTile tile.val (fun x => (x.advance (vcore.val + 1)).modCore (vcore.val + 1) (fun c =>
      { c with running := false, exit := c.reg 10 }))) s

/-- FENCE.I on a vector core invalidates its own instruction cache (R139). -/
def execVectorFenceI (tile : TileId) (vcore : Fin 4) (s : State) :=
  lift (fun w =>
    if !w.runs tile.val (vcore.val + 1) then w
    else w.modTile tile.val (fun x => (x.advance (vcore.val + 1)).modCore (vcore.val + 1) (fun c =>
      { c with icache := [] }))) s

/-- A write to tvflush: FLUSH is bit 0 (R137). -/
def execTvflushWrite (tile : TileId) (vcore : Fin 4) (value : W64) (s : State) :=
  lift (fun w =>
    if !w.runs tile.val (vcore.val + 1) then w
    else w.modTile tile.val (fun x => (x.modCore (vcore.val + 1) (fun c =>
      { c with flush := bit value 0 })).advance (vcore.val + 1))) s

/-- A write to tmcomp: FMT16 is bit 0 (R409). -/
def execTmcompWrite (tile : TileId) (value : W64) (s : State) :=
  lift (fun w =>
    if !w.runs tile.val 0 then w
    else w.modTile tile.val (fun x => (x.modCore 0 (fun c => { c with tmcomp := value &&& 1 })).advance 0)) s

/-- An illegal instruction or CSR access ends the program with KIND 0x01, code 2 (R133, R135, R155). -/
def execTileIllegalInstruction (tile : TileId) (hart : TileHart) (word : W32) (s : State) :=
  lift (fun w =>
    if !w.runs tile.val hart.val then w else w.tileTrap tile.val hart.val 2 (word.setWidth 64)) s

/-! ## Ends of a program (R155) -/

/-- The control core's ECALL: below 0x8000_0000 in a0 the program ends normally and the tile waits; otherwise it is
illegal (R133, R155, R165). -/
def Work.tileEcall (w : Work) (t : Nat) : Work :=
  let a0 := ((w.tile t).core 0).reg 10
  if !w.runs t 0 then w
  else if 0x8000_0000 ≤ a0.toNat then w.tileTrap t 0 2 0x73
  else
    w.modTile t (fun x =>
      { (x.advance 0).modCore 0 (fun c => { c with running := false }) with endWait := true, exitCode := a0.setWidth 32 })

def execEcall (tile : TileId) (s : State) := lift (fun w => w.tileEcall tile.val) s

/-- Every mover descriptor has completed and the output stage has drained (R155, R184). -/
def Tile.quiet (x : Tile) : Bool :=
  [x.mover0, x.mover1].all (fun m => m.queue.isEmpty && m.run.isNone && m.waiting.isNone) &&
  x.array.queue.isEmpty && x.array.signals.isEmpty && x.array.feed.isNone && x.array.flying.isEmpty &&
  x.array.active.isNone && x.array.pending.isNone && x.array.replay.isNone && x.array.restart.isEmpty

/-- The wait of a normal end is over: a vector core still running is stopped with KIND 0x04, and an open chain is
discarded (R155, R184). -/
def Work.tileEndWait (w : Work) (t : Nat) : Work :=
  let x := w.tile t
  if !x.endWait || x.ended.isSome || !x.quiet then w
  else
    match [1, 2, 3, 4].find? (fun h => (x.core h).running) with
    | some h =>
      (((w.dropTileWork t).modTile t (fun x =>
        let x := x.setFault h 4 0 0 0
        { x.stopCores with array := x.array.discard, ended := some { kind := 4, cause := 0, code := x.exitCode.toNat, pc := x.fault.pc } }))).releaseHeld t
    | none =>
      ((w.dropTileWork t).modTile t (fun x =>
        { x.stopCores with array := x.array.discard, ended := some { kind := 0, cause := 0, code := x.exitCode.toNat, pc := 0 } })).releaseHeld t

def execTileEndWaitDone (tile : TileId) (s : State) := lift (fun w => w.tileEndWait tile.val) s

/-- LIMIT_US has passed from the start of loading: every tile of the group that has not ended ends with KIND 0x03, for
they started loading in one cycle; one whose control core has ended normally completes its wait (R153, R155). -/
def Work.tileTimeLimit (w : Work) (t : Nat) : Work :=
  match (w.tile t).launch with
  | none => w
  | some l => ((w.groupOf l.sq l.seq).filter (fun u => !(w.tile u).endWait)).foldl (fun w u => w.endOne u 0 3 0 0 0) w

def execTileTimeLimit (tile : TileId) (s : State) := lift (fun w => w.tileTimeLimit tile.val) s

/-- A draining tile's program still running at DRAIN_TIMEOUT_US stops with KIND 0x07; one that has ended normally completes its
wait (R155, R158). -/
def execTileDrainTimeout (tile : TileId) (s : State) :=
  lift (fun w => if (w.tile tile.val).st = .draining && !(w.tile tile.val).endWait then w.endTile tile.val 0 7 0 0 0 else w) s

/-! ## TL_CTRL, TL_SEM_SIGNAL, TL_FAULT (R158, R160, R164, R166) -/

/-- A record of class "tile control refused". -/
def Work.tlRefuse (w : Work) (t op stCode : Nat) : Work :=
  w.record { cls := 0x0501, kind := 2, id := t, pound := optPound (w.tileOwner t), action := 6, d0 := op, d1 := stCode }

/-- TL_STATE.STATE (R157). -/
def TileSt.code : TileSt → Nat
  | .offline => 0 | .idle => 1 | .loading => 2 | .running => 3 | .draining => 4 | .disabled => 5 | .spare => 6
  | .audit => 7 | .quarantined => 8 | .exchanging => 9 | .unowned => 10

/-- A host core of the owner of tile t. -/
def Work.ownsTile (w : Work) (c t : Nat) : Bool := (w.tileOwner t).isSome && w.coreOwner c = w.tileOwner t

/-- DISABLE written to TL_CTRL (R158). -/
def Work.tlDisable (w : Work) (t : Nat) : Work :=
  let x := w.tile t
  match x.st with
  | .idle => (w.modTile t (fun x => { x with st := .disabled })).refuseWaiting t 0x0A
  | .loading | .running => (w.modTile t (fun x => { x with st := .draining })).refuseWaiting t 0x0A
  | .exchanging => (w.modTile t (fun x =>
      { x with exPrev := match x.exPrev with
          | .idle | .disabled => .disabled
          | .loading | .running | .draining => .draining
          | s => s })).refuseWaiting t 0x0A
  | s => w.tlRefuse t 1 s.code

def execTlDisable (core : CoreId) (tile : TileId) (s : State) :=
  lift (fun w => w.regStore core.val (tlOff tile.val + 0x10) .b8 false (w.ownsTile core.val tile.val) 1
    (fun w => w.tlDisable tile.val)) s

def Work.tlEnable (w : Work) (t : Nat) : Work :=
  if (w.tile t).st = .disabled then w.modTile t (fun x => { x with st := .idle }) else w.tlRefuse t 2 (w.tile t).st.code

def execTlEnable (core : CoreId) (tile : TileId) (s : State) :=
  lift (fun w => w.regStore core.val (tlOff tile.val + 0x10) .b8 false (w.ownsTile core.val tile.val) 2
    (fun w => w.tlEnable tile.val)) s

/-- RESET of a tile: everything of the tile but its store, its index and what belongs to the physical tile (R160, R264,
R551). -/
def Tile.resetKeep (x : Tile) : Tile := { Tile.resetWith x.phys with st := x.st, exDue := x.exDue }

/-- The ports of a canal at tile t as x had them, their counters 0: a canal that has been reset stays set up (R160, R264). -/
def Tile.restartPorts (y x : Tile) (t : Nat) (r : CanalRef) : Tile :=
  let y := if r.c.prod = t then y.setOut r.c.outPort { x.outPort r.c.outPort with slots := 0, resent := 0, discarded := 0 } else y
  if r.c.cons = t then y.setIn r.c.inPort { x.inPort r.c.inPort with slots := 0, resent := 0, poisoned := 0, discarded := 0 } else y

/-- The ports of a canal at tile t and their semaphores as x had them (R264). -/
def Tile.keepPorts (y x : Tile) (t : Nat) (r : CanalRef) : Tile :=
  let keep (y : Tile) (s : Nat) : Tile := y.setSem s (x.sem s)
  let y := if r.c.prod = t then keep (keep (y.setOut r.c.outPort (x.outPort r.c.outPort)) r.c.sendSem) r.c.freeSem else y
  if r.c.cons = t then keep (keep (y.setIn r.c.inPort (x.inPort r.c.inPort)) r.c.readySem) r.c.returnSem else y

/-- RESET written to TL_CTRL: the tile's canals are reset where the other end of each is at rest; otherwise all its ports and
their semaphores stay as they were (R160, R264). -/
def Work.tlReset (w : Work) (t : Nat) : Work :=
  let x := w.tile t
  match x.st with
  | .disabled | .quarantined | .spare =>
    let rs := w.canals.filter (fun r => r.c.prod = t || r.c.cons = t)
    if rs.all (fun r => w.canalFree r []) then
      let w := w.each rs (fun w r => w.canalReset r)
      w.modTile t (fun x => (rs.foldl (fun (y : Tile) r => y.restartPorts x t r) x.resetKeep))
    else
      let w := w.modTile t (fun x => (rs.foldl (fun (y : Tile) r => y.keepPorts x t r) x.resetKeep))
      w.each (rs.filter (fun r => !w.canalFree r [])) (fun w r => w.record
        { cls := 0x0507, kind := 2, id := t, pound := r.pound, d0 := r.num, d1 := if r.c.prod = t then r.c.cons else r.c.prod })
  | s => w.tlRefuse t 3 s.code

def execTlReset (core : CoreId) (tile : TileId) (s : State) :=
  lift (fun w => w.regStore core.val (tlOff tile.val + 0x10) .b8 false (w.ownsTile core.val tile.val) 3
    (fun w => w.tlReset tile.val)) s

def execTlSemSignal (core : CoreId) (tile : TileId) (sem : Fin 64) (amount : W32) (s : State) :=
  lift (fun w => w.regStore core.val (tlOff tile.val + 0x1008 + sem.val * 0x20) .b8 false (w.ownsTile core.val tile.val)
    (amount.setWidth 64) (fun w => w.semAdd tile.val sem.val amount.toNat)) s

def execTlFaultClear (core : CoreId) (tile : TileId) (s : State) :=
  lift (fun w => w.regStore core.val (tlOff tile.val + 0x18) .b8 false (w.ownsTile core.val tile.val) (1 <<< 63)
    (fun w => w.modTile tile.val (fun x => { x with fault := TileFault.zero }))) s

end Sys2Proof.Machine
end

