-- ==== Sys2Proof/Machine/Movers.lean ====
section
/-!
DEFINITION. The movers of a tile: their windows and queues, and the start, completion and failure of a descriptor (R140 to
R144).
-/

namespace Sys2Proof.Machine

/-- The control core's store to words 0 to 6 of a window (R141). -/
def execMoverWordStore (tile : TileId) (mover : Fin 2) (word : Fin 7) (rs2 : BitVec 5) (s : State) :=
  lift (fun w =>
    if !w.runs tile.val 0 then w
    else w.modTile tile.val (fun x => (x.setMover mover.val
      { x.mover mover.val with window := SMap.set 0 (x.mover mover.val).window word.val ((x.core 0).reg rs2.toNat) }).advance 0)) s

/-- The store to word 7 (R141). -/
def execMoverSubmit (tile : TileId) (mover : Fin 2) (rs2 : BitVec 5) (s : State) :=
  lift (fun w =>
    if !w.runs tile.val 0 then w
    else w.moverSubmit tile.val mover.val (((w.tile tile.val).core 0).reg rs2.toNat)) s

/-- A stalled submission enters the queue when an entry is free (R141). -/
def Work.moverResume (w : Work) (t m : Nat) : Work :=
  let mv := (w.tile t).mover m
  match mv.waiting with
  | none => w
  | some words =>
    if mv.queue.length + b2n mv.run.isSome < 16 then
      w.modTile t (fun x =>
        ((x.setMover m { mv with queue := mv.queue ++ [words], waiting := none }).modCore 0
          (fun c => { c with stalled := false })).advance 0)
    else w

def execMoverSubmitResume (tile : TileId) (mover : Fin 2) (s : State) :=
  lift (fun w => w.moverResume tile.val mover.val) s

/-- Word k of a descriptor. -/
def wordAt (l : List W64) (k : Nat) : W64 := l.getD k 0

/-- A mover descriptor (R140): word 8 is the control core's tmcomp at its submission (R409). -/
def moverDesc (l : List W64) : MoveDesc :=
  let f := wordAt l 5
  { op := bits f 1 0, src := (wordAt l 0).toNat, dst := (wordAt l 1).toNat, rowBytes := bits (wordAt l 2) 31 0 + 1
    rows := bits (wordAt l 2) 63 32 + 1, srcStride := (wordAt l 3).toInt, dstStride := (wordAt l 4).toInt
    srcLocal := bit f 2, dstLocal := bit f 3, srcTile := bit f 2, dstTile := bit f 3, comp := bits f 8 7
    publish := bit f 4, fp16Elems := bit (wordAt l 8) 0 }

/-- Reserved fields are 0, and AMOUNT is not 0 where SEM is enabled (R140, R144). -/
def moverFieldsOk (l : List W64) : Bool :=
  let f := wordAt l 5
  bits f 31 9 = 0 && !bit f 38 && bits f 47 40 = 0 && wordAt l 6 = 0 && wordAt l 7 = 0 && (!bit f 39 || bits f 63 48 ≠ 0)

/-- A mover starts its next descriptor: it issues its requests, or fails it at once (R143, R144). -/
def Work.moverStart (w : Work) (t m : Nat) : Work :=
  let mv := (w.tile t).mover m
  match mv.queue with
  | [] => w
  | l :: rest =>
    if mv.run.isSome then w
    else
      let d := moverDesc l
      let ok := moverFieldsOk l && d.ok && w.weightOk (w.eng (.mover t m)) d d.pieces
      let xf : Xfer := if ok then { Xfer.none with todo := d.pieces } else { Xfer.none with failed := some (1, 0) }
      (w.modTile t (fun x => x.setMover m { mv with queue := rest, run := some { words := l, xf := xf } })).pump (.mover t m)

def execMoverDescriptorStart (tile : TileId) (mover : Fin 2) (s : State) :=
  lift (fun w => w.moverStart tile.val mover.val) s

/-- Every write of a mover is visible at TILE: its reads have all answered, so that each write has been issued, and none to its own
tile store waits (R319). -/
def Work.issuedAll (w : Work) (t m : Nat) : Bool :=
  !w.chip.remotes.any (fun r => r.2.who = .mover t m && r.2.op = 1) &&
  !(w.tile t).heldWrites.any (fun h => h.2.2 = some (.mover t m)) &&
  !w.chip.ports.any (fun p => p.2.reqs.any (fun r => r.who = some (.mover t m)))

/-- The descriptor that a mover runs is visible at its SCOPE (R143, R319). -/
def Work.moverDone (w : Work) (t m scope : Nat) : Bool :=
  match w.xfer? (.mover t m) with
  | some x => x.todo.isEmpty && x.group.isNone && x.failed.isNone && (if scope = 0 then w.issuedAll t m else w.xferQuiet (.mover t m))
  | none => false

/-- A descriptor whose writes are all visible completes: at SCOPE SYSTEM the read-ahead entries of its lines have gone;
otherwise they go when its launch completes at that scope. At SCOPE TILE, writes that are issued may still be on their way
(R143, R319, R341). -/
def Work.moverComplete (w : Work) (t m : Nat) : Work :=
  match ((w.tile t).mover m).run with
  | none => w
  | some r =>
    let f := wordAt r.words 5
    if r.words.isEmpty || !w.moverDone t m (bits f 6 5) then w
    else
      let w := w.leaveWrites (.mover t m) (.tile t)
      let w := if bits f 6 5 = 3 then w.dropLines r.xf.lines
        else match (w.tile t).launch with
          | some l => w.modCmd l.sq l.seq (fun c => { c with xf := { c.xf with lines := c.xf.lines ++ r.xf.lines } })
          | none => w
      let w := w.modTile t (fun x => x.setMover m { x.mover m with run := none, completed := (x.mover m).completed + 1 })
      if bit f 39 then w.semAdd t (bits f 37 32) (bits f 63 48) else w

def execMoverDescriptorComplete (tile : TileId) (mover : Fin 2) (s : State) :=
  lift (fun w => w.moverComplete tile.val mover.val) s

/-- The mover status of a failure (R144, R446). -/
def moverStatus (s : Nat) : Nat :=
  match s with
  | 1 => 5 | 4 => 1 | 5 => 2 | 6 => 3 | 7 => 4 | s => s

/-- A descriptor that has met an error ends the program with KIND 0x02 (R144, R155, R164). -/
def Work.moverFail (w : Work) (t m : Nat) : Work :=
  match ((w.tile t).mover m).run with
  | some r =>
    (match (if r.words.isEmpty then none else r.xf.failed) with
    | some f => w.endTile t 0 2 (moverStatus f.1) 0 (wordAt r.words 0)
    | none => w)
  | none => w

def execMoverDescriptorFail (tile : TileId) (mover : Fin 2) (s : State) :=
  lift (fun w => w.moverFail tile.val mover.val) s

end Sys2Proof.Machine
end

