-- ==== Sys2Proof/Machine/Commands.lean ====
section
/-!
DEFINITION. The commands of the submission queues (R152 to R156, R286 to R294). Each acts when its turn to start has come.
-/

namespace Sys2Proof.Machine

/-- The turn of a command of this opcode: a command that breaks a rule of its format completes with status 0x0001, another
starts (R286, R288). -/
def Work.start (w : Work) (q op : Nat) (ok : Cmd → Bool) (f : Work → Cmd → Work) : Work :=
  match w.turn? q op with
  | none => w
  | some c => if ok c then f w c else w.beginDone q c 1

/-- A command completes that has started. -/
def Work.finish (w : Work) (q : Nat) (n : W32) (op : Nat) (f : Work → Cmd → Work) : Work :=
  match w.started? q n op with
  | none => w
  | some c => f w c

/-! ## NOP, PHASE, HINT, WAIT_TIME (R287, R294) -/

def execNop (queue : SqId) (s : State) :=
  lift (fun w => w.start queue.val 0 (fun c => c.headerOk 0 0) (fun w c => w.beginDone queue.val c 0)) s

/-- PHASE sets the phase tag for later commands (R294). -/
def Work.phase (w : Work) (q : Nat) (c : Cmd) : Work :=
  (w.modSq q (fun s => { s with phase := c.at_ 0x0C 1 })).beginDone q c 0

def execPhase (queue : SqId) (s : State) :=
  lift (fun w => w.start queue.val 7 (fun c => c.headerOk 0 0 && c.at_ 0x0C 1 ≤ 15 && c.zero 0x0D 0x40)
    (fun w c => w.phase queue.val c)) s

/-- The power controller's answer to a hint (R494). -/
def Work.hintPower (w : Work) (p phase lead : Nat) : Work :=
  let us := 1_000_000
  match w.phaseEntry p phase with
  | some e =>
    let f := (w.ppow p).freqMhz
    let steps := (if e.1 < f then f - e.1 else e.1 - f) / 25
    ((w.modPpow p (fun x => { x with hinted := some phase })).retargetAfter p (lead * 1000 - steps * 10_000)).setRails
  | none =>
    (w.modPpow p (fun x =>
      { x with
        heavyUntil := some (w.chip.refPs + (lead + 1000) * us)
        rampUntil := if w.chip.pwr.measOnly then x.rampUntil else w.chip.refPs + lead * us })).setRails

/-- HINT (R294, R494). -/
def Work.hint (w : Work) (q : Nat) (c : Cmd) : Work :=
  let w := match w.sqOwner q with
    | some p => w.hintPower p (c.at_ 0x0C 1) (c.at_ 0x0E 2)
    | none => w
  w.beginDone q c 0

def execHint (queue : SqId) (s : State) :=
  lift (fun w => w.start queue.val 8
    (fun c => c.headerOk 0 0 && c.at_ 0x0C 1 ≤ 15 && c.at_ 0x0D 1 = 0 && 1 ≤ c.at_ 0x0E 2 && c.at_ 0x0E 2 ≤ 10000 && c.zero 0x10 0x40)
    (fun w c => w.hint queue.val c)) s

/-- WAIT_TIME waits for its AT, or completes at once, LATE when AT has passed (R294). -/
def Work.waitTime (w : Work) (q : Nat) (c : Cmd) : Work :=
  let at_ := c.at_ 0x10 8
  if w.locked && at_ ≤ w.now then w.beginDone q c 0 (b2n (at_ < w.now)) else w.begin q c

def execWaitTime (queue : SqId) (s : State) :=
  lift (fun w => w.start queue.val 10 (fun c => c.headerOk 0 0 && c.zero 0x0C 0x10 && c.zero 0x18 0x40)
    (fun w c => w.waitTime queue.val c)) s

/-- LT_NOW has reached AT: LATE beyond the 200 ns of R294, and where Lock Time has returned after AT. -/
def Work.waitTimeReached (w : Work) (q : Nat) (c : Cmd) : Work :=
  let at_ := c.at_ 0x10 8
  if w.locked && at_ ≤ w.now then w.complete q c 0 (b2n (at_ + 200 < w.now || at_ < w.chip.time.lockedAt)) else w

def execWaitTimeReached (queue : SqId) (seq : W32) (s : State) :=
  lift (fun w => w.finish queue.val seq 10 (fun w c => w.waitTimeReached queue.val c)) s

/-- An opcode outside command-set version 1 (R287, R288). -/
def Work.opcodeReserved (w : Work) (q : Nat) : Work :=
  match w.next? q with
  | some c => if 0x0B < c.op then w.beginDone q c 2 else w
  | none => w

def execOpcodeReserved (queue : SqId) (s : State) := lift (fun w => w.opcodeReserved queue.val) s

/-! ## LAUNCH (R152 to R156, R262, R289) -/

/-- Operands of LAUNCH. -/
def Cmd.argLen (c : Cmd) : Nat := c.at_ 0x1E 2
def Cmd.progAddr (c : Cmd) : Nat := c.at_ 0x20 8
def Cmd.progLen (c : Cmd) : Nat := c.at_ 0x28 4
def Cmd.progOffset (c : Cmd) : Nat := c.at_ 0x2C 4
def Cmd.entry (c : Cmd) : Nat := c.at_ 0x30 4
def Cmd.argOffset (c : Cmd) : Nat := c.at_ 0x34 4
def Cmd.limitUs (c : Cmd) : Nat := c.at_ 0x38 4
def Cmd.launchFlags (c : Cmd) : Nat := c.at_ 0x3C 2
def Cmd.keepSem (c : Cmd) : Bool := c.launchFlags.testBit 0
def Cmd.clearSeq (c : Cmd) : Bool := c.launchFlags.testBit 1
def Cmd.flush (c : Cmd) : Bool := c.launchFlags.testBit 2
def Cmd.argInline (c : Cmd) : Bool := c.launchFlags.testBit 3

/-- A LAUNCH breaks no rule of its format (R289). -/
def Cmd.launchOk (c : Cmd) : Bool :=
  c.headerOk 0 7 && !c.launchTiles.isEmpty && c.argLen ≤ 448 && 1 ≤ c.limitUs && c.launchFlags < 16 && c.zero 0x3E 0x40 &&
  (if c.argLen = 0 then c.extra = 0 else if c.argInline then (c.argLen + 63) / 64 ≤ c.extra else c.extra = 1) &&
  c.progOffset + c.progLen ≤ 0x60_0000 && c.argOffset + c.argLen ≤ 0x60_0000

/-- The status with which a tile's state refuses a launch that names it (R157); 0 where it accepts or waits. -/
def TileSt.refuses : TileSt → Nat
  | .offline => 8
  | .idle | .loading | .running | .exchanging => 0
  | .draining | .disabled => 0x0A
  | .spare | .audit | .unowned => 9
  | .quarantined => 0x0B

/-- The status with which a launch is refused at its turn (R152, R289); 0 when it waits or starts. -/
def Work.launchStatus (w : Work) (q : Nat) (c : Cmd) : Nat :=
  if c.launchTiles.any (fun t => w.tileOwner t = none || w.tileOwner t ≠ w.sqOwner q) then 9
  else match c.launchTiles.find? (fun t => (w.tile t).st.refuses ≠ 0) with
    | some t => (w.tile t).st.refuses
    | none => 0

/-- LAUNCH at its turn: it is refused, or waits for its group (R289). -/
def Work.launch (w : Work) (q : Nat) (c : Cmd) : Work :=
  let st := w.launchStatus q c
  if c.count = 1 then w
  else if st ≠ 0 then w.beginDone q c st
  else w.modCmd q c.seq (fun c => { c with count := 1 })

def execLaunch (queue : SqId) (s : State) :=
  lift (fun w => w.start queue.val 1 Cmd.launchOk (fun w c => w.launch queue.val c)) s

/-- The launch may take its tiles: all are idle, no forced pause holds one back, and the canals that it resets are free
(R153, R262, R538). -/
def Work.canTake (w : Work) (c : Cmd) : Bool :=
  c.launchTiles.all (fun t => (w.tile t).st = .idle && !((w.tile t).exDue = some .audit && (w.tile t).phys.overdue)) &&
  (c.keepSem || (w.canals.filter (fun r => c.launchTiles.contains r.c.prod || c.launchTiles.contains r.c.cons)).all
    (fun r => w.canalFree r c.launchTiles))

/-- What a mover copies for the load: the image, and an argument block given by address (R153). -/
def Cmd.loadPieces (c : Cmd) : List Piece :=
  let copy (src dst n : Nat) : List Piece :=
    if n = 0 then []
    else MoveDesc.pieces
      { op := 0, src := src, dst := dst, rowBytes := n, rows := 1, srcStride := 0, dstStride := 0, srcLocal := false,
        dstLocal := true, srcTile := false, dstTile := true, comp := 0, publish := false, fp16Elems := false }
  copy c.progAddr c.progOffset c.progLen ++ (if c.argInline then [] else copy (c.at_ 0x40 8) c.argOffset c.argLen)

/-- A tile as a launch takes it into loading (R138, R139, R141, R153, R154, R184). -/
def Tile.taken (x : Tile) (c : Cmd) (l : TileLaunch) : Tile :=
  { x with
    st := .loading
    launches := (x.launches + 1) % 65536
    cores := SMap.mapVal [(1, TileCore.zero), (2, TileCore.zero), (3, TileCore.zero), (4, TileCore.zero)] (fun _ k =>
      { k with flush := c.flush }) |>.filter (fun e => e.2 ≠ TileCore.zero)
    sems := if c.keepSem then x.sems else []
    seqTable := if c.clearSeq then [] else x.seqTable
    waiters := []
    seqWaiting := []
    vargs := []
    mover0 := { Mover.zero with run := some { words := [], xf := { Xfer.none with todo := c.loadPieces } } }
    mover1 := Mover.zero
    array := Array_.zero
    exitCode := 0
    launch := some l
    endWait := false
    ended := none
    heavy := l.heavy }

/-- The launch takes every tile of its group into loading in one cycle, resets semaphores and canals as asked, and begins to
copy (R153, R262, R492). -/
def Work.launchStart (w : Work) (q : Nat) (c : Cmd) : Work :=
  if c.count ≠ 1 || !w.canTake c then w
  else
    let ts := c.launchTiles
    let p := (w.sqOwner q).getD 0
    let phase := c.phaseTag (w.sq q).phase
    let heavy := match w.phaseEntry p phase with | some e => e.2 | none => false
    let rs := w.canals.filter (fun r => ts.contains r.c.prod || ts.contains r.c.cons)
    let w := (w.begin q c).modCmd q c.seq (fun c => { c with tiles := ts })
    let w := if c.keepSem then w else w.each rs (fun w r => w.canalReset r)
    let w := w.each ts.zipIdx (fun w e => w.modTile e.1 (fun x => x.taken c
      { sq := q, seq := c.seq, limitUs := c.limitUs, phase := phase, heavy := heavy, flush := c.flush, entry := c.entry,
        argOffset := c.argOffset, rank := e.2, size := ts.length }))
    let w := w.each ts (fun w t =>
      let w := if c.argInline && c.argLen ≠ 0 then
          w.pwrite (tileAddr t c.argOffset) ((c.bytes.drop 64).take c.argLen) false (some p)
        else w
      w.pump (.mover t 0))
    let w := w.modPpow p (fun x => { x with phase := phase, hinted := none })
    (w.retarget p).setRails

def execLaunchStart (queue : SqId) (s : State) :=
  lift (fun w => w.start queue.val 1 Cmd.launchOk (fun w c => w.launchStart queue.val c)) s

/-- The load of tile t, while it goes on. -/
def Work.loadOf (w : Work) (t : Nat) : Option Xfer :=
  match (w.tile t).mover0.run with
  | some r => if r.words.isEmpty then some r.xf else none
  | none => none

/-- The control core starts at ENTRY (R154). -/
def Tile.startCore (x : Tile) (t : Nat) : Tile :=
  match x.launch with
  | none => x
  | some l =>
    let c := ((((TileCore.zero.setReg 10 (BitVec.ofNat 64 l.rank)).setReg 11 (BitVec.ofNat 64 l.size)).setReg 12
      (BitVec.ofNat 64 l.argOffset)).setReg 13 (BitVec.ofNat 64 t))
    { x.setCore 0 { c with pc := BitVec.ofNat 64 l.entry, running := true } with
      st := if x.st = .loading then .running else x.st
      mover0 := Mover.zero }

/-- Loading ends: every control core starts, or the launch fails with the error that a read has met (R153, R154). -/
def Work.loadingEnd (w : Work) (q : Nat) (c : Cmd) : Work :=
  if c.tiles.isEmpty || !c.tiles.all (fun t => (w.loadOf t).isSome) then w
  else match c.tiles.findSome? (fun t => (w.loadOf t).bind (fun x => x.failed)) with
    | some (status, a) =>
      let w := w.each c.tiles (fun w t => (w.leaveWrites (.mover t 0) (.tile t)).modTile t (fun x => { x.leave with mover0 := Mover.zero }))
      (w.each c.tiles (fun w t => w.settleQuarantine t)).complete q c status 0 (BitVec.ofNat 64 a)
    | none =>
      if !c.tiles.all (fun t => w.xferDone (.mover t 0)) then w
      else w.each c.tiles (fun w t => w.modTile t (fun x => x.startCore t))

def execLoadingEnd (queue : SqId) (seq : W32) (s : State) :=
  lift (fun w => w.finish queue.val seq 1 (fun w c => w.loadingEnd queue.val c)) s

/-- Status, DETAIL0 and DETAIL1 of a launch whose tiles have all ended (R156, R158, R297, R298). -/
def Work.launchResult (w : Work) (c : Cmd) : Nat × W64 × W64 :=
  let ends := c.tiles.filterMap (fun t => (w.tile t).ended.map (fun e => (t, e)))
  if ends.any (fun e => e.2.kind = 7) then (0x0F, 0, 0)
  else match ends.find? (fun e => (e.2.kind ≠ 0 || e.2.code ≠ 0) && e.2.kind ≠ 5) with
    | some (t, e) =>
      (0x0C, BitVec.ofNat 64 (t + e.kind * 2 ^ 8 + e.cause % 65536 * 2 ^ 16 + e.code * 2 ^ 32), (w.tile t).fault.pc)
    | none => if c.check = 0 then (0, 0, 0) else (c.check, BitVec.ofNat 64 c.checkTile, 0)

/-- The launch completes when every tile of its group has ended; each returns to idle. Its entry waits for the writes that its tiles
have issued (R156, R296, R341). -/
def Work.launchComplete (w : Work) (q : Nat) (c : Cmd) : Work :=
  if c.tiles.isEmpty || !c.tiles.all (fun t => (w.tile t).ended.isSome) then w
  else
    let r := w.launchResult c
    let w := w.each c.tiles (fun w t => w.modTile t Tile.leave)
    let w := w.each c.tiles (fun w t => w.settleQuarantine t)
    let w := if c.scope = 3 then w.dropLines c.xf.lines else w
    w.setRails.complete q c r.1 0 r.2.1 r.2.2

def execLaunchComplete (queue : SqId) (seq : W32) (s : State) :=
  lift (fun w => w.finish queue.val seq 1 (fun w c => w.launchComplete queue.val c)) s

/-! ## MOVE and WRITE (R290, R291) -/

/-- The address lies in the tile-store window, vacant or not (R25, R128, R405, R409). -/
def Work.inTile (w : Work) (e : Eng) (va : Nat) (isWrite : Bool) : Bool :=
  match (w.translate e.cache (poundDev (e.pound.getD 0)) (some e.pasid) va isWrite).2 with
  | some a => 0x210_0000_0000 ≤ a && a < 0x210_5000_0000
  | none => false

/-- The operands of MOVE (R290). -/
def Work.moveDesc (w : Work) (q : Nat) (c : Cmd) : MoveDesc :=
  let f := c.at_ 0x0C 4
  let e := w.eng (.command q c.seq)
  { op := f % 4, src := c.at_ 0x10 8, dst := c.at_ 0x18 8, rowBytes := c.at_ 0x20 4 + 1, rows := c.at_ 0x24 4 + 1
    srcStride := (BitVec.ofNat 64 (c.at_ 0x28 8)).toInt, dstStride := (BitVec.ofNat 64 (c.at_ 0x30 8)).toInt
    srcLocal := false, dstLocal := false, srcTile := w.inTile e (c.at_ 0x10 8) false, dstTile := w.inTile e (c.at_ 0x18 8) true
    comp := f / 8 % 4, publish := f.testBit 2, fp16Elems := false }

/-- MOVE starts: the copy engine issues its pieces (R290). -/
def Work.move (w : Work) (q : Nat) (c : Cmd) : Work :=
  let d := w.moveDesc q c
  if !d.ok || !w.weightOk (w.eng (.command q c.seq)) d d.pieces then w.beginDone q c 1
  else ((w.begin q c).modCmd q c.seq (fun c => { c with xf := { Xfer.none with todo := d.pieces } })).pump (.command q c.seq)

def execMove (queue : SqId) (s : State) :=
  lift (fun w => w.start queue.val 2 (fun c => c.headerOk 0 0 && c.at_ 0x0C 4 < 32 && c.zero 0x38 0x40)
    (fun w c => w.move queue.val c)) s

/-- A copy command completes when every write that it has issued is visible at SCOPE, with the error that stopped it if one did (R287,
R290, R296, R298, R341, R444). -/
def Work.copyComplete (w : Work) (q : Nat) (c : Cmd) : Work :=
  let done (w : Work) : Work := if c.scope = 3 then w.dropLines c.xf.lines else w
  match c.xf.failed with
  | some (status, a) =>
    if !w.xferQuiet (.command q c.seq) then w
    else (done w).complete q c status 0 (if 4 ≤ status && status ≤ 7 then BitVec.ofNat 64 a else 0)
  | none =>
    if !w.xferDone (.command q c.seq) then w else (done w).complete q c 0

def execMoveComplete (queue : SqId) (seq : W32) (s : State) :=
  lift (fun w => w.finish queue.val seq 2 (fun w c => w.copyComplete queue.val c)) s

/-- Write inline bytes for command c, and note an error. -/
def Work.inlineWrite (w : Work) (q : Nat) (c : Cmd) (va : Nat) (bs : List Byte) (publish : Bool) : Work :=
  match w.engWriteRange (w.eng (.command q c.seq)) false va bs publish with
  | (w, .bad s a) => w.failXfer (.command q c.seq) s a
  | (w, _) => w

/-- WRITE starts (R291). -/
def Work.write_ (w : Work) (q : Nat) (c : Cmd) : Work :=
  (w.begin q c).inlineWrite q c (c.at_ 0x10 8) ((c.bytes.drop 64).take (c.at_ 0x18 2)) (c.at_ 0x1A 2 = 1)

def execWrite (queue : SqId) (s : State) :=
  lift (fun w => w.start queue.val 3
    (fun c => c.headerOk 1 7 && c.zero 0x0C 0x10 && c.zero 0x1C 0x40 && 1 ≤ c.at_ 0x18 2 && c.at_ 0x18 2 ≤ 448 &&
      c.at_ 0x1A 2 ≤ 1 && (c.at_ 0x18 2 + 63) / 64 ≤ c.extra)
    (fun w c => w.write_ queue.val c)) s

/-- WRITE completes; so do a SEM_SIGNAL and a LEDGER_READ whose write was not visible at once (log entry 27). -/
def Work.writeComplete (w : Work) (q : Nat) (n : W32) : Work :=
  match w.cmd? q n with
  | some c =>
    if c.phase = .started && (c.op = 3 || c.op = 5 || c.op = 11) then w.copyComplete q c else w
  | none => w

def execWriteComplete (queue : SqId) (seq : W32) (s : State) := lift (fun w => w.writeComplete queue.val seq) s

/-! ## SEM_WAIT and SEM_SIGNAL (R292, R293) -/

/-- A SEM_WAIT has read its word: it completes when the condition holds (R292). -/
def Work.semSeen (w : Work) (q : Nat) (n : W32) (v : W64) : Work :=
  match w.started? q n 4 with
  | none => w
  | some c =>
    let w := w.modCmd q n (fun c => { c with seen := v })
    let want := c.at_ 0x18 8
    if (if c.at_ 0x20 1 = 1 then v.toNat = want else want ≤ v.toNat) then w.complete q c 0 0 v else w

/-- A SEM_WAIT reads its word at the point of coherence; a word of another module or behind a port arrives later. -/
def Work.semRead (w : Work) (q : Nat) (c : Cmd) : Work :=
  let who := RemoteWho.command q c.seq
  let e := w.eng who
  let va := c.at_ 0x10 8
  if !w.xferQuiet who then w
  else match w.engReach e false va 8 false with
    | (w, .bad s a) => w.complete q c s 0 (BitVec.ofNat 64 a)
    | (w, .ok a) =>
      match w.place a with
      | .glob _ _ =>
        (match w.issueRemote who e.pound 1 a 8 [] [] { Remote.blank with va := va } with
        | (w, some s) => w.complete q c s
        | (w, none) => w)
      | .mmio p _ => w.portRead p who a va 8 none
      | _ =>
        match w.vpoison a 8 with
        | some _ => w.complete q c 7 0 (BitVec.ofNat 64 va)
        | none => w.semSeen q c.seq (BitVec.ofNat 64 (leNat (w.vread a 8)))

def execSemWait (queue : SqId) (s : State) :=
  lift (fun w => w.start queue.val 4
    (fun c => c.headerOk 0 0 && c.zero 0x0C 0x10 && c.at_ 0x10 8 % 8 = 0 && c.at_ 0x20 1 ≤ 1 && c.zero 0x21 0x24 && c.zero 0x28 0x40)
    (fun w c => (w.begin queue.val c).semRead queue.val c)) s

def execSemWaitPoll (queue : SqId) (seq : W32) (s : State) :=
  lift (fun w => w.finish queue.val seq 4 (fun w c => w.semRead queue.val c)) s

/-- TIMEOUT_US has passed (R292). -/
def execSemWaitTimeout (queue : SqId) (seq : W32) (s : State) :=
  lift (fun w => w.finish queue.val seq 4 (fun w c =>
    if c.at_ 0x24 4 = 0 then w
    else
      let who := RemoteWho.command queue.val seq
      (w.leaveWrites who who).complete queue.val c 0x12 0 c.seen)) s

/-- SEM_SIGNAL's operands keep their rules (R293). -/
def Cmd.signalOk (c : Cmd) : Bool :=
  c.headerOk 0 0 && c.zero 0x0D 0x10 && c.zero 0x23 0x40 && c.at_ 0x0C 1 ≤ 2 &&
  (if c.at_ 0x0C 1 = 2 then c.at_ 0x20 2 ≤ 159 && c.at_ 0x22 1 ≤ 63 && c.at_ 0x18 4 ≠ 0 else c.at_ 0x10 8 % 8 = 0)

/-- Add VALUE to the word at ADDR, atomically at its point of coherence. -/
def Work.signalAdd (w : Work) (q : Nat) (c : Cmd) : Work :=
  let who := RemoteWho.command q c.seq
  let e := w.eng who
  let va := c.at_ 0x10 8
  match w.engReach e false va 8 true with
  | (w, .bad s a) => w.failXfer who s a
  | (w, .ok a) =>
    match w.place a with
    | .glob _ _ =>
      (match w.issueRemote who e.pound 4 a 8 [] (leBytes 8 (c.at_ 0x18 8)) { Remote.blank with va := va } with
      | (w, some s) => w.failXfer who s 0
      | (w, none) => w)
    | .mmio _ _ =>
      let (w, d) := w.deviceBytes 8
      (w.engWrite e a (leBytes 8 ((leNat d + c.at_ 0x18 8) % 2 ^ 64)) false true).1
    | _ =>
      match w.vpoison a 8 with
      | some _ => w.failXfer who 7 va
      | none =>
        let v := (leNat (w.vread a 8) + c.at_ 0x18 8) % 2 ^ 64
        (w.engWrite e a (leBytes 8 v) false true).1

/-- SEM_SIGNAL starts: it releases every write of the queue's earlier commands, which have completed, at its SCOPE, and completes
when its own write is visible (R293, R319, R321). -/
def Work.semSignal (w : Work) (q : Nat) (c : Cmd) : Work :=
  let t := c.at_ 0x20 2
  let w := if c.scope = 3 then w.dropStale else w
  match c.at_ 0x0C 1 with
  | 2 =>
    if w.tileOwner t = none || w.tileOwner t ≠ w.sqOwner q then w.beginDone q c 9
    else ((w.begin q c).semAdd t (c.at_ 0x22 1) (c.at_ 0x18 4)).complete q c 0
  | k =>
    let w := w.begin q c
    let w := if k = 0 then w.inlineWrite q c (c.at_ 0x10 8) (leBytes 8 (c.at_ 0x18 8)) true else w.signalAdd q c
    w.writeComplete q c.seq

def execSemSignal (queue : SqId) (s : State) :=
  lift (fun w => w.start queue.val 5 Cmd.signalOk (fun w c => w.semSignal queue.val c)) s

/-! ## LEDGER_READ (R294) -/

/-- LEDGER_READ copies a Ledger slot to DST as one step, and clears it when asked. -/
def Work.ledgerRead (w : Work) (q : Nat) (c : Cmd) : Work :=
  let t := c.at_ 0x0C 2
  let j := c.at_ 0x0E 1
  if w.tileOwner t = none || w.tileOwner t ≠ w.sqOwner q then w.beginDone q c 9
  else
    let bs := ((w.tile t).ledgerSlot j).bytes
    let w := (w.begin q c).inlineWrite q c (c.at_ 0x10 8) bs true
    let w := if c.at_ 0x0F 1 = 1 then
        w.modTile t (fun x => { x with ledger := SMap.set LedgerSlot.zero x.ledger j LedgerSlot.zero })
      else w
    w.writeComplete q c.seq

def execLedgerRead (queue : SqId) (s : State) :=
  lift (fun w => w.start queue.val 11
    (fun c => c.headerOk 0 0 && c.at_ 0x0E 1 ≤ 15 && c.at_ 0x0F 1 ≤ 1 && c.at_ 0x10 8 % 8 = 0 && c.zero 0x18 0x40)
    (fun w c => w.ledgerRead queue.val c)) s

/-! ## SAFE_POINT (R294, R526) -/

/-- Tiles that a SAFE_POINT names. -/
def Cmd.safeTiles (c : Cmd) : List Nat := c.launchTiles

/-- A SAFE_POINT whose exchanges are done completes; DETAIL0 is their number. -/
def Work.settleSafePoint (w : Work) (q : Nat) (c : Cmd) : Work :=
  if c.safeTiles.any (fun t => (w.tile t).exDue.isSome || (w.tile t).st = .exchanging) then w
  else w.complete q c 0 0 (BitVec.ofNat 64 c.count)

/-- SAFE_POINT starts: every exchange that is due for a named tile may run. -/
def Work.safePoint (w : Work) (q : Nat) (c : Cmd) : Work :=
  if c.safeTiles.any (fun t => w.tileOwner t = none || w.tileOwner t ≠ w.sqOwner q) then w.beginDone q c 9
  else (w.begin q c).settleSafePoint q c

def execSafePoint (queue : SqId) (s : State) :=
  lift (fun w => w.start queue.val 9 (fun c => c.headerOk 0 0 && c.zero 0x1E 0x40) (fun w c => w.safePoint queue.val c)) s

end Sys2Proof.Machine
end

