-- ==== Sys2Proof/Machine/Array.lean ====
section
/-!
DEFINITION. The matrix array: its instructions with their checks at issue, the instruction queue, and the accumulation of
hmma and hmacc (R168 to R190, R233, R235).
-/

namespace Sys2Proof.Machine

/-! ## Operand formats and layout (R169 to R171, R190, R196 to R202) -/

/-- Element bits of a FMT. -/
def fmtBits (f : Nat) : Nat := if f ≤ 1 then 16 else if f = 6 || f = 7 then 6 else if f = 8 || f = 9 then 4 else 8
/-- Bytes of a block scale; 0 for a format without one. -/
def fmtScale (f : Nat) : Nat := if f = 9 then 2 else if (4 ≤ f && f ≤ 8) || f = 10 then 1 else 0
/-- Accumulation in INT32. -/
def fmtInt (f : Nat) : Bool := f = 11
/-- Bytes of a k-row. -/
def rowBytes (f : Nat) : Nat := 16 * fmtBits f

/-- Value of an element code, without its scale. -/
def fmtValue (f c : Nat) : Num :=
  let int8 : Int := if 128 ≤ c then (c : Int) - 256 else c
  match f with
  | 0 => bf16.decode true c
  | 1 => fp16.decode true c
  | 2 | 4 => e4m3.decode true c
  | 3 | 5 => e5m2.decode true c
  | 6 => e3m2.decode false c
  | 7 => e2m3.decode false c
  | 8 | 9 => e2m1.decode false c
  | 10 => Num.of ((int8 : Rat) / 64)
  | _ => Num.of (int8 : Rat)

/-- The factor that a scale gives the element of logical index k (R198, R201, R202). -/
def scaleValue (f raw k : Nat) : Num :=
  if f = 9 then
    let c := raw % 256
    if c = 0 then .fin false 0
    else if c < 4 || c = 255 then .nan
    else .fin false (if raw.testBit (8 + k % 32 / 8) then e6m2 c / 4 else e6m2 c)
  else if raw = 255 then .nan
  else .fin false (pow2 ((raw : Int) - 127))

/-- Element j of a row of packed codes (R170): `rd off n` is the number that n bytes spell. -/
def codeAt (rd : Nat → Nat → Nat) (row nb j : Nat) : Nat := rd (row + nb * j / 8) 2 / 2 ^ (nb * j % 8) % 2 ^ nb

def MInstr.fmt (i : MInstr) : Nat := i.funct7.toNat % 16
def MInstr.bk (i : MInstr) : Nat := if i.kind = .hmma then b2n (bit i.funct7 4) else b2n (bit i.funct7 0)
def MInstr.z (i : MInstr) : Bool := i.kind = .hmacc || bit i.funct7 5
def MInstr.sp (i : MInstr) : Bool := bit i.funct7 6
/-- Captured parameter k (R174). -/
def MInstr.par (i : MInstr) (k : Nat) : Nat := (i.params.getD k 0).toNat

/-- Element j of a k-row, with the scale of its logical k. -/
def MInstr.element (i : MInstr) (rd : Nat → Nat → Nat) (row scaleBase k j : Nat) : Num :=
  let f := i.fmt
  let e := fmtValue f (codeAt rd row (fmtBits f) j)
  let s := fmtScale f
  if s = 0 then e else e.mul (scaleValue f (rd (scaleBase + k / 32 * i.par 5 + j * s) s) k)

/-- bb(k, n). -/
def MInstr.elemB (i : MInstr) (rd : Nat → Nat → Nat) (k n : Nat) : Num := i.element rd (i.b.toNat + k * i.par 2) (i.par 4) k n

/-- a(m, k), decompressed where the operand is sparse (R190). -/
def MInstr.elemA (i : MInstr) (rd : Nat → Nat → Nat) (m k : Nat) : Num :=
  let raw (r : Nat) : Num := i.element rd (i.a.toNat + r * i.par 1) (i.par 3) k m
  if !i.sp then raw k
  else
    let g := k / 4
    let e := rd (i.par 6 + g * i.par 7 + m / 2) 1 / 2 ^ (4 * (m % 2)) % 16
    sumNums ((if e % 4 = k % 4 then [raw (2 * g)] else []) ++ (if e / 4 = k % 4 then [raw (2 * g + 1)] else []))

/-! ## Accumulation (R187, R205, R206, R233) -/

/-- add(acc, s) of an FP32 or an INT32 chain. -/
def accAdd (isInt : Bool) (acc : W32) (s : Num) : W32 := if isInt then acc + BitVec.ofInt 32 s.val.num else fp32Add acc s

/-- The bank words and lanes after an hmma. -/
def Array_.applyHmma (a : Array_) (i : MInstr) (isInt : Bool) (rd : Nat → Nat → Nat) : Array_ :=
  let bank := i.bk
  let blocks := List.range (i.par 0 / 32)
  let start (m : SMap W32) (k : Nat) : W32 := if i.z then 0 else SMap.get 0 m k
  let pair (b j m n : Nat) : Num := (i.elemA rd m (32 * b + j)).mul (i.elemB rd (32 * b + j) n)
  let run (s : W32) (f : Nat → Num) : W32 := blocks.foldl (fun acc b => accAdd isInt acc (f b)) s
  let all := List.range 4096
  { a with
    words := (List.range 16384).foldl (fun ws q =>
      SMap.set 0 ws (bank * 16384 + q) (run (start a.words (bank * 16384 + q)) (fun b =>
        sumNums ((List.range 32).map (fun j => pair b j (q / 128) (q % 128)))))) a.words
    laneM := (List.range 128).foldl (fun ws m =>
      SMap.set 0 ws (bank * 128 + m) (run (start a.laneM (bank * 128 + m)) (fun b =>
        sumNums (all.map (fun q => pair b (q / 128) m (q % 128)))))) a.laneM
    laneN := (List.range 128).foldl (fun ws n =>
      SMap.set 0 ws (bank * 128 + n) (run (start a.laneN (bank * 128 + n)) (fun b =>
        sumNums (all.map (fun q => pair b (q / 128) (q % 128) n))))) a.laneN }

/-- A word that hmacc loads (R175, R196). -/
def loadWord (isInt : Bool) (w : W32) : W32 :=
  if isInt then w else if bits w 30 23 = 0 then 0 else if (fp32Num w).isNan then fp32Nan else w

/-- The value of a bank word. -/
def wordNum (isInt : Bool) (w : W32) : Num := if isInt then Num.of (w.toInt : Rat) else fp32Num w

/-- The bank words and lanes after an hmacc (R175, R233). -/
def Array_.applyHmacc (a : Array_) (i : MInstr) (isInt : Bool) (rd : Nat → Nat → Nat) : Array_ :=
  let bank := i.bk
  let v (m n : Nat) : W32 := loadWord isInt (BitVec.ofNat 32 (rd (i.a.toNat + m * i.b.toNat + 4 * n) 4))
  let lane (f : Nat → W32) : W32 := accAdd isInt 0 (sumNums ((List.range 128).map (fun k => wordNum isInt (f k))))
  { a with
    words := (List.range 16384).foldl (fun ws q => SMap.set 0 ws (bank * 16384 + q) (v (q / 128) (q % 128))) a.words
    laneM := (List.range 128).foldl (fun ws m => SMap.set 0 ws (bank * 128 + m) (lane (fun n => v m n))) a.laneM
    laneN := (List.range 128).foldl (fun ws n => SMap.set 0 ws (bank * 128 + n) (lane (fun m => v m n))) a.laneN }

/-- Bytes of tile t's store, as numbers. -/
def Work.tileNum (w : Work) (t : Nat) : Nat → Nat → Nat := fun off n => leNat (w.mem.read (tileAddr t off) n)

/-! ## Chains and byte footprints (R178, R180, R235) -/

/-- Ranges of n rows of a size at a pitch. -/
def rowRanges (base pitch n size : Nat) : List (Nat × Nat) :=
  if pitch = size then [(base, n * size)] else (List.range n).map (fun r => (base + r * pitch, size))

/-- What an instruction reads, stream by stream in the order of R178. -/
def MInstr.reads (i : MInstr) : List (Nat × Nat) :=
  let k := i.par 0
  let f := i.fmt
  match i.kind with
  | .hmma =>
    rowRanges i.a.toNat (i.par 1) (if i.sp then k / 2 else k) (rowBytes f) ++
    rowRanges i.b.toNat (i.par 2) k (rowBytes f) ++
    (if fmtScale f = 0 then [] else
      rowRanges (i.par 3) (i.par 5) (k / 32) (128 * fmtScale f) ++
      rowRanges (i.par 4) (i.par 5) (k / 32) (128 * fmtScale f)) ++
    (if i.sp then rowRanges (i.par 6) (i.par 7) (k / 4) 64 else [])
  | .hmacc => rowRanges i.a.toNat i.b.toNat 128 512
  | .hmdrain => [(i.a.toNat, 64)]
  | .hmsig => []

def Array_.chain? (a : Array_) (id : Nat) : Option Chain := a.chains.find? (fun c => c.id = id)
def Array_.modChain (a : Array_) (id : Nat) (f : Chain → Chain) : Array_ :=
  { a with chains := a.chains.map (fun c => if c.id = id then f c else c) }
def Array_.openOf (a : Array_) (bank : Nat) : Option Nat := if bank = 0 then a.open0 else a.open1
def Array_.setOpen (a : Array_) (bank : Nat) (c : Option Nat) : Array_ :=
  if bank = 0 then { a with open0 := c } else { a with open1 := c }
def Work.modArray (w : Work) (t : Nat) (f : Array_ → Array_) : Work := w.modTile t (fun x => { x with array := f x.array })

/-- OUT_FMT of a drain descriptor (R220). -/
def Work.outFmt (w : Work) (t : Nat) (d : MInstr) : Nat := w.tileNum t (d.a.toNat + 0x28) 4 % 16

/-- The chain accumulates in INT32 (R175, R180). -/
def Work.chainInt (w : Work) (t : Nat) (c : Chain) : Bool :=
  if c.instrs.any (fun i => i.kind = .hmma) then c.instrs.any (fun i => i.kind = .hmma && fmtInt i.fmt)
  else match c.drain with
    | some d => w.outFmt t d = 13
    | none => false

/-- Load the bank again for a chain whose accumulator type has become INT32 after its hmacc completed (R175). -/
def Work.retype (w : Work) (t id : Nat) : Work :=
  match (w.tile t).array.chain? id with
  | none => w
  | some c =>
    match c.instrs with
    | i :: rest =>
      if i.kind = .hmacc && c.completed = 1 && w.chainInt t c && (rest.isEmpty || rest.length = 1) then
        w.modArray t (fun a => a.applyHmacc i true (w.tileNum t))
      else w
    | [] => w

/-! ## The instruction queue (R173, R177, R182) -/

/-- Instructions that have not completed, those that a replay runs again among them. -/
def Array_.unfinished (a : Array_) : List MInstr :=
  a.queue ++ a.signals ++ a.feed.toList ++ a.flying ++ a.restart ++ a.pending.toList ++ a.active.toList

/-- Every instruction issued before number n has completed. -/
def Array_.doneBefore (a : Array_) (n : Nat) : Bool := a.unfinished.all (fun i => n ≤ i.num)

/-- A signal at the head of the queue leaves it while the list of 8 has room; a drain leaves it for the pending slot. No
instruction leaves while a replay runs (R177, R182, R239). -/
def Array_.leaveOne (a : Array_) : Array_ :=
  match a.queue with
  | i :: q =>
    if a.replay.isSome then a
    else if i.kind = .hmsig && a.signals.length < 8 then { a with queue := q, signals := a.signals ++ [i] }
    else if i.kind = .hmdrain && a.pending.isNone then { a with queue := q, pending := some i }
    else a
  | [] => a

def Array_.settle (a : Array_) : Array_ := (List.range 16).foldl (fun a _ => a.leaveOne) a

/-- An instruction enters the queue: its number goes to rd (R173). -/
def Work.enqueue (w : Work) (t rd : Nat) (i : MInstr) : Work :=
  w.modTile t (fun x =>
    (({ x with array := ({ x.array with issued := i.num, queue := x.array.queue ++ [i] }).settle }).modCore 0
      (fun c => c.setReg rd (BitVec.ofNat 64 i.num))).advance 0)

/-! ## Issue (R173 to R178, R180) -/

/-- Instruction bits of the custom-2 opcode. -/
def hmBits (funct7 rs2 rs1 funct3 rd : Nat) : W32 :=
  BitVec.ofNat 32 (funct7 * 2 ^ 25 + rs2 * 2 ^ 20 + rs1 * 2 ^ 15 + funct3 * 2 ^ 12 + rd * 2 ^ 7 + 0x5B)

/-- What a custom-2 word spells (R173). -/
inductive HmWord where
  | hmset (index : BitVec 12) (rs1 rd : BitVec 5)
  | hmget (index : BitVec 12) (rs1 rd : BitVec 5)
  | op (kind : MKind) (funct7 : BitVec 7) (rs2 rs1 rd : BitVec 5)
  | hmfence (funct7 : BitVec 7) (rs2 rs1 rd : BitVec 5)
  /-- funct3 0b111. -/
  | reserved
deriving DecidableEq, Repr

/-- The matrix instruction of a word of the custom-2 opcode; none for another opcode (R173). -/
def hmDecode (w : W32) : Option HmWord :=
  let rd : BitVec 5 := (w >>> 7).setWidth 5
  let rs1 : BitVec 5 := (w >>> 15).setWidth 5
  let rs2 : BitVec 5 := (w >>> 20).setWidth 5
  let imm : BitVec 12 := (w >>> 20).setWidth 12
  let funct7 : BitVec 7 := (w >>> 25).setWidth 7
  if bits w 6 0 ≠ 0x5B then none
  else some (match bits w 14 12 with
    | 0 => .hmset imm rs1 rd
    | 1 => .hmget imm rs1 rd
    | 2 => .op .hmma funct7 rs2 rs1 rd
    | 3 => .op .hmdrain funct7 rs2 rs1 rd
    | 4 => .op .hmacc funct7 rs2 rs1 rd
    | 5 => .op .hmsig funct7 rs2 rs1 rd
    | 6 => .hmfence funct7 rs2 rs1 rd
    | _ => .reserved)

/-- A precise exception of the control core (R178). -/
def Work.hmTrap (w : Work) (t cause : Nat) (tval : Nat) : Work := w.tileTrap t 0 cause (BitVec.ofNat 64 tval)

/-- The first byte beyond the tile store that a list of ranges reads. -/
def beyond (l : List (Nat × Nat)) : Option Nat :=
  (l.find? (fun r => 0x60_0000 < r.1 + r.2)).map (fun r => max r.1 0x60_0000)

/-- hmset: only the index is checked (R174, R178). -/
def Work.hmset (w : Work) (t index rs1 rd : Nat) : Work :=
  if !w.runs t 0 then w
  else if rd ≠ 0 || 8 ≤ index then w.hmTrap t 2 (index * 2 ^ 20 + rs1 * 2 ^ 15 + rd * 2 ^ 7 + 0x5B)
  else w.modTile t (fun x =>
    { x with array.params := SMap.set 0 x.array.params index ((x.core 0).reg rs1) }.advance 0)

def execHmset (tile : TileId) (index : BitVec 12) (rs1 rd : BitVec 5) (s : State) :=
  lift (fun w => w.hmset tile.val index.toNat rs1.toNat rd.toNat) s

/-- What hmget returns (R174). -/
def Array_.status (a : Array_) (index : Nat) : Option W64 :=
  let pois (k : Nat) : Nat := b2n (a.chains.any (fun c => c.bank = k && c.poisoned))
  if index < 8 then some (SMap.get 0 a.params index)
  else match index with
    | 0x10 => some (BitVec.ofNat 64 a.issued)
    | 0x11 => some (BitVec.ofNat 64 a.done)
    | 0x12 => some (BitVec.ofNat 64 a.queue.length)
    | 0x13 => some (BitVec.ofNat 64 (b2n a.open0.isSome + 2 * b2n a.open1.isSome + 256 * pois 0 + 512 * pois 1))
    | 0x14 => some (BitVec.ofNat 64 a.stall)
    | 0x15 => some (BitVec.ofNat 64 a.poison)
    | _ => none

def Work.hmget (w : Work) (t index rs1 rd : Nat) : Work :=
  if !w.runs t 0 then w
  else
    match if rs1 = 0 then (w.tile t).array.status index else none with
    | none => w.hmTrap t 2 (index * 2 ^ 20 + rs1 * 2 ^ 15 + 1 * 2 ^ 12 + rd * 2 ^ 7 + 0x5B)
    | some v => w.modTile t (fun x => (x.modCore 0 (fun c => c.setReg rd v)).advance 0)

def execHmget (tile : TileId) (index : BitVec 12) (rs1 rd : BitVec 5) (s : State) :=
  lift (fun w => w.hmget tile.val index.toNat rs1.toNat rd.toNat) s

/-- The instruction as it would be queued now. -/
def Work.capture (w : Work) (t : Nat) (kind : MKind) (funct3 : Nat) (funct7 : BitVec 7) (rs2 rs1 rd : Nat) : MInstr :=
  let x := w.tile t
  let c := x.core 0
  { kind := kind, funct7 := funct7, a := c.reg rs1, b := c.reg rs2
    params := (List.range 8).map (fun k => SMap.get 0 x.array.params k)
    bits := hmBits funct7.toNat rs2 rs1 funct3 rd, pc := c.pc, chain := 0, num := x.array.issued + 1, counted := false }

/-- The parameters and operands of an hmma break a rule of R178: the cause and tval. -/
def MInstr.hmmaBad (i : MInstr) : Option (Nat × Nat) :=
  let f := i.fmt
  let k := i.par 0
  let s := fmtScale f
  let badPitch (v size : Nat) : Bool := v % 32 ≠ 0 || v < size
  if 12 ≤ f || k % 32 ≠ 0 || k < 32 || 65536 < k || badPitch (i.par 1) (rowBytes f) || badPitch (i.par 2) (rowBytes f) ||
      (s ≠ 0 && badPitch (i.par 5) (128 * s)) || (i.sp && badPitch (i.par 7) 64)
  then some (2, i.bits.toNat)
  else
    match ([i.a.toNat, i.b.toNat] ++ (if s ≠ 0 then [i.par 3, i.par 4] else []) ++ (if i.sp then [i.par 6] else [])).find?
      (fun b => b % 32 ≠ 0) with
    | some b => some (4, b)
    | none => (beyond i.reads).map (fun o => (5, o))

/-- The bank and chain rules of R180, for an hmma or hmacc. -/
def Array_.chainOk (a : Array_) (i : MInstr) : Bool :=
  match a.openOf i.bk with
  | none => i.z
  | some id =>
    !i.z && match a.chain? id with
      | some c => c.instrs.length < 64 && c.instrs.all (fun j => j.kind ≠ .hmma || fmtInt j.fmt = fmtInt i.fmt)
      | none => false

/-- An hmma or hmacc that has passed its checks joins its chain, or starts one, and is queued; its inputs are held
(R180, R235). -/
def Work.joinChain (w : Work) (t rd : Nat) (i : MInstr) : Work :=
  let a := (w.tile t).array
  match a.openOf i.bk with
  | some id =>
    let i := { i with chain := id }
    ((w.modArray t (fun a => a.modChain id (fun c => { c with instrs := c.instrs ++ [i], ranges := c.ranges ++ i.reads }))).retype
      t id).enqueue t rd i
  | none =>
    let id := a.nextChain
    let i := { i with chain := id }
    let c : Chain := { id := id, bank := i.bk, instrs := [i], drain := none, completed := 0, poisoned := false, ranges := i.reads }
    let w := w.modArray t (fun a => { a.setOpen i.bk (some id) with chains := a.chains ++ [c], nextChain := id + 1 })
    (w.sampleChain t c).enqueue t rd i

/-- The array's queue of 16 entries is full (R134). -/
def Work.arrayFull (w : Work) (t : Nat) : Bool := 16 ≤ (w.tile t).array.queue.length

/-- A matrix instruction meets a full queue: the control core stalls on it (R134). -/
def Work.arrayStall (w : Work) (t : Nat) (i : HeldInstr) : Work :=
  w.modTile t (fun x => ({ x with array.waiting := some i }).modCore 0 (fun c => { c with stalled := true }))

/-- hmma (R173, R178, R180). -/
def Work.hmma (w : Work) (t : Nat) (funct7 : BitVec 7) (rs2 rs1 rd : Nat) : Work :=
  let i := w.capture t .hmma 2 funct7 rs2 rs1 rd
  if !w.runs t 0 then w
  else if w.arrayFull t then w.arrayStall t { kind := .hmma, funct7 := funct7, rs2 := rs2, rs1 := rs1, rd := rd }
  else
    match if (w.tile t).array.chainOk i then i.hmmaBad else some (2, i.bits.toNat) with
    | some e => w.hmTrap t e.1 e.2
    | none => w.joinChain t rd i

def execHmma (tile : TileId) (funct7 : BitVec 7) (rs2 rs1 rd : BitVec 5) (s : State) :=
  lift (fun w => w.hmma tile.val funct7 rs2.toNat rs1.toNat rd.toNat) s

/-- hmacc (R175, R178, R180). -/
def Work.hmacc (w : Work) (t : Nat) (funct7 : BitVec 7) (rs2 rs1 rd : Nat) : Work :=
  let i := w.capture t .hmacc 4 funct7 rs2 rs1 rd
  if !w.runs t 0 then w
  else if w.arrayFull t then w.arrayStall t { kind := .hmacc, funct7 := funct7, rs2 := rs2, rs1 := rs1, rd := rd }
  else if 2 ≤ funct7.toNat || i.b.toNat % 64 ≠ 0 || i.b.toNat < 512 || !(w.tile t).array.chainOk i then
    w.hmTrap t 2 i.bits.toNat
  else if i.a.toNat % 64 ≠ 0 then w.hmTrap t 4 i.a.toNat
  else match beyond i.reads with
    | some o => w.hmTrap t 5 o
    | none => w.joinChain t rd i

def execHmacc (tile : TileId) (funct7 : BitVec 7) (rs2 rs1 rd : BitVec 5) (s : State) :=
  lift (fun w => w.hmacc tile.val funct7 rs2.toNat rs1.toNat rd.toNat) s

/-- Column vectors that a drain descriptor enables (R235). -/
def Work.columnRanges (w : Work) (t desc : Nat) : List (Nat × Nat) :=
  let ctrl := w.tileNum t (desc + 0x28) 4
  (if ctrl.testBit 6 then [(w.tileNum t (desc + 0x10) 4, 512)] else []) ++
  (if ctrl.testBit 7 then [(w.tileNum t (desc + 0x14) 4, 512)] else [])

/-- hmdrain: the bank becomes empty in program order; the descriptor, its column vectors and, for a masked drain, the
sequence table are held (R176, R178, R180, R235). -/
def Work.hmdrain (w : Work) (t : Nat) (funct7 : BitVec 7) (rs2 rs1 rd : Nat) : Work :=
  let i := w.capture t .hmdrain 3 funct7 rs2 rs1 rd
  let a := (w.tile t).array
  if !w.runs t 0 then w
  else if w.arrayFull t then w.arrayStall t { kind := .hmdrain, funct7 := funct7, rs2 := rs2, rs1 := rs1, rd := rd }
  else if 2 ≤ funct7.toNat || bits i.b 15 3 ≠ 0 then w.hmTrap t 2 i.bits.toNat
  else match a.openOf i.bk with
    | none => w.hmTrap t 2 i.bits.toNat
    | some id =>
      if i.a.toNat % 64 ≠ 0 then w.hmTrap t 4 i.a.toNat
      else match beyond i.reads with
        | some o => w.hmTrap t 5 o
        | none =>
          let i := { i with chain := id }
          let held := i.reads ++ w.columnRanges t i.a.toNat
          ((w.modArray t (fun a => (a.setOpen i.bk none).modChain id (fun c =>
            { c with drain := some i, ranges := c.ranges ++ held }))).retype t id).enqueue t rd i

def execHmdrain (tile : TileId) (funct7 : BitVec 7) (rs2 rs1 rd : BitVec 5) (s : State) :=
  lift (fun w => w.hmdrain tile.val funct7 rs2.toNat rs1.toNat rd.toNat) s

/-- hmsig (R177, R178). -/
def Work.hmsig (w : Work) (t : Nat) (funct7 : BitVec 7) (rs2 rs1 rd : Nat) : Work :=
  let i := w.capture t .hmsig 5 funct7 rs2 rs1 rd
  if !w.runs t 0 then w
  else if w.arrayFull t then w.arrayStall t { kind := .hmsig, funct7 := funct7, rs2 := rs2, rs1 := rs1, rd := rd }
  else if funct7 ≠ 0 || 63 < i.a.toNat || i.b.toNat % 2 ^ 32 = 0 then w.hmTrap t 2 i.bits.toNat
  else w.enqueue t rd i

def execHmsig (tile : TileId) (funct7 : BitVec 7) (rs2 rs1 rd : BitVec 5) (s : State) :=
  lift (fun w => w.hmsig tile.val funct7 rs2.toNat rs1.toNat rd.toNat) s

/-- An entry of the queue may have become free: the instruction that waits for it issues (R134). -/
def Work.arrayResume (w : Work) (t : Nat) : Work :=
  match (w.tile t).array.waiting with
  | none => w
  | some i =>
    if w.arrayFull t then w
    else
      let w := w.modTile t (fun x => ({ x with array.waiting := none }).modCore 0 (fun c => { c with stalled := false }))
      match i.kind with
      | .hmma => w.hmma t i.funct7 i.rs2 i.rs1 i.rd
      | .hmacc => w.hmacc t i.funct7 i.rs2 i.rs1 i.rd
      | .hmdrain => w.hmdrain t i.funct7 i.rs2 i.rs1 i.rd
      | .hmsig => w.hmsig t i.funct7 i.rs2 i.rs1 i.rd

/-- hmfence stalls the control core until every earlier queued instruction has completed (R177). -/
def Work.hmfence (w : Work) (t : Nat) (funct7 : BitVec 7) (rs2 rs1 rd : Nat) : Work :=
  if !w.runs t 0 then w
  else if funct7 ≠ 0 || rs2 ≠ 0 || rs1 ≠ 0 || rd ≠ 0 then w.hmTrap t 2 (hmBits funct7.toNat rs2 rs1 6 rd).toNat
  else if (w.tile t).array.unfinished.isEmpty then w.modTile t (fun x => x.advance 0)
  else w.modTile t (fun x =>
    ({ x with array.fencing := true }).modCore 0 (fun c => { c with stalled := true }))

def execHmfence (tile : TileId) (funct7 : BitVec 7) (rs2 rs1 rd : BitVec 5) (s : State) :=
  lift (fun w => w.hmfence tile.val funct7 rs2.toNat rs1.toNat rd.toNat) s

def execHmfenceReturn (tile : TileId) (s : State) :=
  lift (fun w =>
    let x := w.tile tile.val
    if x.array.fencing && x.array.unfinished.isEmpty then
      w.modTile tile.val (fun x =>
        (({ x with array.fencing := false }).modCore 0 (fun c => { c with stalled := false })).advance 0)
    else w) s

/-! ## Execution (R182, R183, R186) -/

/-- A drain reads, or waits to read, the bank on which the instruction starts a chain: 1 waits, 2 reads. -/
def Work.bankDrain (w : Work) (t : Nat) (i : MInstr) : Nat :=
  let a := (w.tile t).array
  let on (d : MInstr) : Bool := d.bk = i.bk && d.chain ≠ i.chain
  if !i.z then 0
  else if a.pending.any on then 1
  else match a.active with
    | some d => if !on d then 0
      else match a.chain? d.chain with
        | some c => if a.activeOk && c.completed = c.instrs.length then 2 else 1
        | none => 0
    | none => 0

/-- The chain reads poison: it is marked, with one record (R186), and its sample is dropped (R530). -/
def Work.poisonChain (w : Work) (t id off : Nat) : Work :=
  match (w.tile t).array.chain? id with
  | none => w
  | some c =>
    if c.poisoned then w
    else
      let w := w.modArray t (fun a => { a.modChain id (fun c => { c with poisoned := true }) with poison := a.poison + 1 })
      (w.record { cls := 0x0502, kind := 2, id := t, pound := optPound (w.tileOwner t), action := 3, addr := off,
                  d0 := c.bank, d1 := (w.tile t).array.poison }).dropSample t id

/-- The first poisoned tile-store word in a list of ranges, read in order. -/
def Work.firstPoisonIn (w : Work) (t : Nat) (l : List (Nat × Nat)) : Option Nat :=
  l.findSome? (fun r => (w.mem.firstPoison (tileAddr t r.1) r.2).map (fun cw => cw * 32 - tileAddr t 0))

/-- The next hmma or hmacc leaves the queue, or the record of an abandoned chain, and feeds; the one that fed before has
left the feed unit (R182). -/
def Work.feedStart (w : Work) (t : Nat) (kind : MKind) : Work :=
  let a := (w.tile t).array
  match a.restart ++ a.queue with
  | [] => w
  | i :: _ =>
    if i.kind ≠ kind || a.replay.isSome || w.bankDrain t i = 1 then w
    else
      let w := w.modArray t (fun a =>
        ({ a with
          restart := a.restart.drop 1
          queue := if a.restart.isEmpty then a.queue.drop 1 else a.queue
          flying := a.flying ++ a.feed.toList
          feed := some i }).settle)
      (match w.firstPoisonIn t i.reads with
      | some off => w.poisonChain t i.chain off
      | none => w).arrayResume t

def execHmmaStart (tile : TileId) (s : State) := lift (fun w => w.feedStart tile.val .hmma) s
def execHmaccStart (tile : TileId) (s : State) := lift (fun w => w.feedStart tile.val .hmacc) s

/-- Banks of the tile store that hold bytes of the first 32 of n rows, as a mask (R126, R172). -/
def bankSet (base pitch n size : Nat) : BitVec 32 :=
  (List.range (min 32 n)).foldl (fun m r =>
    let o := base + r * pitch
    (List.range ((o + size - 1) / 64 - o / 64 + 1)).foldl (fun m k => setBit m ((o / 64 + k) % 32) true) m) 0

/-- Bank sets of the operand streams of an hmma: A, B, the two scale streams, the metadata (R172). -/
def MInstr.bankSets (i : MInstr) : List (BitVec 32) :=
  let k := i.par 0
  let f := i.fmt
  [bankSet i.a.toNat (i.par 1) (if i.sp then k / 2 else k) (rowBytes f), bankSet i.b.toNat (i.par 2) k (rowBytes f)] ++
  (if fmtScale f = 0 then [] else
    [bankSet (i.par 3) (i.par 5) (k / 32) (128 * fmtScale f), bankSet (i.par 4) (i.par 5) (k / 32) (128 * fmtScale f)]) ++
  (if i.sp then [bankSet (i.par 6) (i.par 7) (k / 4) 64] else [])

/-- Bank set of a drain's output rows (R172, R221). -/
def Work.drainBanks (w : Work) (t : Nat) (d : MInstr) : BitVec 32 :=
  let f := w.outFmt t d
  bankSet (w.tileNum t d.a.toNat 4) (w.tileNum t (d.a.toNat + 4) 4) 128 (if 12 ≤ f then 512 else rowBytes f)

/-- No two sets share a bank. -/
def disjointSets : List (BitVec 32) → Bool
  | [] => true
  | m :: l => l.all (fun n => m &&& n = 0) && disjointSets l

/-- The feed of an hmma cannot have lost a cycle: its streams and the active drain use disjoint banks, and no mover and no vector core
runs whose request could have waited at one of them (R129, R172; log entry 41). -/
def Work.feedsClean (w : Work) (t : Nat) (i : MInstr) : Bool :=
  let x := w.tile t
  disjointSets (i.bankSets ++ (match x.array.active with | some d => [w.drainBanks t d] | none => [])) &&
  x.mover0.run.isNone && x.mover1.run.isNone && [1, 2, 3, 4].all (fun h => !(x.core h).running)

/-- The oldest hmma or hmacc in the array has its results in the bank (R175, R183, R187). Cycles that its feed lost are a
free value where it may have lost any (R172; log entry 3). -/
def Work.feedComplete (w : Work) (t : Nat) (kind : MKind) : Work :=
  let a := (w.tile t).array
  match a.flying ++ a.feed.toList with
  | [] => w
  | i :: _ =>
    if i.kind ≠ kind || a.replay.isSome || w.bankDrain t i ≠ 0 then w
    else
      match a.chain? i.chain with
      | none => w
      | some c =>
        let isInt := w.chainInt t c
        let (n, w) := w.take
        let rd := w.tileNum t
        w.modArray t (fun a =>
          let b := if kind = .hmma then a.applyHmma i isInt rd else a.applyHmacc i isInt rd
          { b.modChain i.chain (fun c => { c with completed := c.completed + 1 }) with
            feed := if a.flying.isEmpty then none else a.feed
            flying := a.flying.drop 1
            stall := a.stall + (if kind = .hmma && !w.feedsClean t i then Config.freeNat n else 0)
            done := a.done + b2n (!i.counted) })

def execHmmaComplete (tile : TileId) (s : State) := lift (fun w => w.feedComplete tile.val .hmma) s
def execHmaccComplete (tile : TileId) (s : State) := lift (fun w => w.feedComplete tile.val .hmacc) s

/-- The oldest pending signal adds its amount once every earlier instruction has completed (R177, R149). -/
def Work.hmsigSignal (w : Work) (t : Nat) : Work :=
  match (w.tile t).array.signals with
  | [] => w
  | i :: rest =>
    if (w.tile t).array.doneBefore i.num then
      ((w.modArray t (fun a => ({ a with signals := rest, done := a.done + 1 }).settle)).semAdd t i.a.toNat
        (i.b.toNat % 2 ^ 32)).arrayResume t
    else w

def execHmsigSignal (tile : TileId) (s : State) := lift (fun w => w.hmsigSignal tile.val) s

end Sys2Proof.Machine
end

