-- ==== Sys2Proof/Machine/OutputStage.lean ====
section
/-!
DEFINITION. The output stage: activation and checks of a drain, scale, bias, clip, masking, conversion, the Ledger, the
checksum comparison, replay, and the TL_ registers that software clears (R191, R192, R218 to R247).
-/

namespace Sys2Proof.Machine

/-! ## The drain descriptor (R219, R220) -/

/-- A drain descriptor as read from the tile store. -/
structure Desc where
  outBase : Nat
  outPitch : Nat
  scaleBase : Nat
  scalePitch : Nat
  cscaleBase : Nat
  biasBase : Nat
  scale : W32
  clipLo : W32
  clipHi : W32
  seed : W32
  ctrl : W32
  winLo : Int
  winHi : Int
  winTol : Nat
  sem : Byte
  amount : Nat
  /-- The reserved fields of the descriptor, joined. -/
  reserved : Nat
deriving DecidableEq, Repr

/-- A byte as a signed number. -/
def signed8 (n : Nat) : Int := if 128 ≤ n then (n : Int) - 256 else n

/-- Read the descriptor at an offset of tile t's store. -/
def Work.desc (w : Work) (t o : Nat) : Desc :=
  let r (k n : Nat) : Nat := w.tileNum t (o + k) n
  { outBase := r 0 4, outPitch := r 4 4, scaleBase := r 8 4, scalePitch := r 0x0C 4, cscaleBase := r 0x10 4
    biasBase := r 0x14 4, scale := BitVec.ofNat 32 (r 0x18 4), clipLo := BitVec.ofNat 32 (r 0x1C 4)
    clipHi := BitVec.ofNat 32 (r 0x20 4), seed := BitVec.ofNat 32 (r 0x24 4), ctrl := BitVec.ofNat 32 (r 0x28 4)
    winLo := signed8 (r 0x2C 1), winHi := signed8 (r 0x2D 1), winTol := r 0x30 4, sem := BitVec.ofNat 8 (r 0x34 1)
    amount := r 0x36 2, reserved := r 0x2E 2 + r 0x35 1 + r 0x38 8 }

def Desc.fmt (d : Desc) : Nat := bits d.ctrl 3 0
def Desc.stochastic (d : Desc) : Bool := bit d.ctrl 4
def Desc.clipEn (d : Desc) : Bool := bit d.ctrl 5
def Desc.cscaleEn (d : Desc) : Bool := bit d.ctrl 6
def Desc.biasEn (d : Desc) : Bool := bit d.ctrl 7
def Desc.slot (d : Desc) : Nat := bits d.ctrl 11 8
def Desc.lgEn (d : Desc) : Bool := bit d.ctrl 12
def Desc.lgClear (d : Desc) : Bool := bit d.ctrl 13
def Desc.check (d : Desc) : Nat := bits d.ctrl 15 14
def Desc.winAct (d : Desc) : Nat := bits d.ctrl 17 16
def Desc.tolShift (d : Desc) : Nat := bits d.ctrl 21 18
/-- Bits of an output element, and bytes of an output scale (R221). -/
def Desc.outBits (d : Desc) : Nat := if 12 ≤ d.fmt then 32 else fmtBits d.fmt
def Desc.scaleBytes (d : Desc) : Nat := if 12 ≤ d.fmt then 0 else fmtScale d.fmt

/-- Output bytes, and scale bytes, row by row (R221). -/
def Desc.outRanges (d : Desc) : List (Nat × Nat) :=
  (List.range 128).map (fun r => (d.outBase + r * d.outPitch, 16 * d.outBits)) ++
  (if d.scaleBytes = 0 then [] else (List.range 128).map (fun r => (d.scaleBase + r * d.scalePitch, 4 * d.scaleBytes)))

/-- Order of two values that are not NaN, infinities included. -/
def Num.lt (a b : Num) : Bool :=
  match a, b with
  | .inf true, .inf true => false
  | .inf true, _ => true
  | _, .inf true => false
  | .inf false, _ => false
  | _, .inf false => true
  | a, b => a.val < b.val

/-! ## Masking (R150, R151, R191, R192) -/

/-- A valid sequence-table entry. -/
structure SeqEntry where
  start : Nat
  len : Nat
  doc : Nat
  pre : Nat
  bidir : Bool
deriving DecidableEq, Repr

/-- The valid entries of the sequence table, in table order (R150). -/
def Tile.seqEntries (x : Tile) : List SeqEntry :=
  (List.range 512).filterMap (fun i =>
    let e := SMap.get 0 x.seqTable i
    if bit e 88 then some { start := bits e 23 0, len := bits e 47 24, doc := bits e 63 48, pre := bits e 87 64, bidir := bit e 89 }
    else none)

/-- Ascending START, no overlap, PREFIX_LEN at most LENGTH (R151). -/
def seqOk : List SeqEntry → Bool
  | [] => true
  | [e] => e.pre ≤ e.len
  | e :: f :: l => e.pre ≤ e.len && e.start < f.start && e.start + e.len ≤ f.start && seqOk (f :: l)

/-- E(x) (R191). -/
def seqAt (l : List SeqEntry) (x : Nat) : Option SeqEntry :=
  if 16777215 < x then none else l.find? (fun e => e.start ≤ x && x < e.start + e.len)

/-- The element of bank row m and column n is kept (R191). -/
def kept (mask : W64) (l : List SeqEntry) (m n : Nat) : Bool :=
  let q := bits mask 39 16 + m
  let t := bits mask 63 40 + n
  match bits mask 1 0 with
  | 0 => true
  | 1 => t ≤ q
  | 2 => (match seqAt l q, seqAt l t with
    | some e, some f => e.doc = f.doc
    | _, _ => false)
  | _ => (match seqAt l q, seqAt l t with
    | some e, some f => e = f && (t ≤ q || e.bidir || (q < e.start + e.pre && t < e.start + e.pre))
    | _, _ => false)

/-- What a masked element is written as (R192, R224). -/
def fillCode (fmt : Nat) (zero : Bool) : Nat :=
  if zero then 0
  else match fmt with
    | 12 => 0xFF80_0000
    | 13 => 0x8000_0000
    | 0 => bf16.infCode true
    | 1 => fp16.infCode true
    | 3 => e5m2.infCode true
    | 2 => e4m3.encode true 448
    | 11 => 128
    | _ => 0

/-! ## Scale, bias and clip (R222, R223) -/

/-- v of step 3, and whether it was flushed. -/
def scaleBias (w sc c : Num) (b : Option Num) : Num × Bool :=
  let l := [w, sc, c]
  let neg (x : Num) : Bool := match x with | .nan => false | .inf s => s | .fin s _ => s
  let sign := (neg w != neg sc) != neg c
  let round (q : Rat) (zeroNeg : Bool) : Num × Bool :=
    let a := if q < 0 then -q else q
    let y := fp32.round .nearest a
    if q = 0 then (.fin zeroNeg 0, false)
    else if y < pow2 (-126) then (.fin (decide (q < 0)) 0, true)
    else if pow2 128 ≤ y then (.inf (decide (q < 0)), false)
    else (.fin (decide (q < 0)) y, false)
  let p := (w.val * sc.val) * c.val
  let isZero (x : Num) : Bool := match x with | .fin _ m => m = 0 | _ => false
  if l.any Num.isNan || (match b with | some b => b.isNan | none => false) then (.nan, false)
  else if l.any Num.isInf && l.any isZero then (.nan, false)
  else if l.any Num.isInf then
    (match b with
      | some (.inf s) => if s = sign then (.inf sign, false) else (.nan, false)
      | _ => (.inf sign, false))
  else match b with
    | some (.inf s) => (.inf s, false)
    | some b => round (p + b.val) false
    | none => round p sign

/-- Clip, and whether the element was clipped. -/
def clipNum (lo hi v : Num) : Num × Bool :=
  if v.isNan then (v, false) else if v.lt lo then (lo, true) else if hi.lt v then (hi, true) else (v, false)

/-- The exponent of a finite value that is not zero. -/
def Num.exp? : Num → Option Int
  | .fin _ m => if m = 0 then none else some (floorLog2 m)
  | _ => none

/-- The bin of an exponent (R228). -/
def ledgerBin (e : Int) : Nat := (min 63 (max 0 ((e + 64) / 2))).toNat

/-- Out of window (R231). -/
def outOfWindow (lo hi : Int) (v : Num) : Bool :=
  match v with
  | .nan | .inf _ => true
  | _ => match v.exp? with
    | some e => e < lo || hi < e
    | none => false

/-! ## One attempt of a drain (R218, R227, R234) -/

/-- An element on its way out: its value after clip, whether it is kept, flushed in step 3, clipped in step 4. -/
structure Elem where
  v : Num
  keep : Bool
  flushed : Bool
  clipped : Bool
deriving DecidableEq, Repr

/-- Count one unmasked element (R214, R223, R227, R232). -/
def LedgerSlot.count (g : LedgerSlot) (e : Elem) (o : Outcome) (out : Bool) : LedgerSlot :=
  let z := o = .flushed || o = .vanished || o = .zero
  { g with
    bins := (match e.v.exp? with | some x => SMap.modify 0 g.bins (ledgerBin x) (fun n => satAdd 32 n 1) | none => g.bins)
    zeros := satAdd 32 g.zeros (b2n z)
    nan := satAdd 32 g.nan (b2n (o = .nan))
    inf := satAdd 32 g.inf (b2n (o = .inf))
    flushed := satAdd 32 g.flushed (b2n (e.flushed || o = .flushed))
    clipped := satAdd 32 g.clipped (b2n (o ≠ .nan && (e.clipped || o = .clipped)))
    vanished := satAdd 32 g.vanished (b2n (o = .vanished))
    elements := satAdd 64 g.elements 1
    outOfWindow := satAdd 32 g.outOfWindow (b2n out) }

/-- Add a staging copy to a slot as one drain (R229). -/
def LedgerSlot.commit (g s : LedgerSlot) : LedgerSlot :=
  { bins := s.bins.foldl (fun m e => SMap.modify 0 m e.1 (fun n => satAdd 32 n e.2)) g.bins
    zeros := satAdd 32 g.zeros s.zeros, nan := satAdd 32 g.nan s.nan, inf := satAdd 32 g.inf s.inf
    flushed := satAdd 32 g.flushed s.flushed, clipped := satAdd 32 g.clipped s.clipped
    vanished := satAdd 32 g.vanished s.vanished, elements := satAdd 64 g.elements s.elements
    outOfWindow := satAdd 32 g.outOfWindow s.outOfWindow, drains := satAdd 32 g.drains 1 }

/-- Codes of a row packed by element width (R170). -/
def packRow (nb : Nat) (codes : List Nat) : List Byte :=
  leBytes (codes.length * nb / 8) (codes.zipIdx.foldl (fun a c => a + c.1 % 2 ^ nb * 2 ^ (nb * c.2)) 0)

/-- The scalar format of an OUT_FMT. -/
def scalarFmt (f : Nat) : FloatFmt := match f with | 0 => bf16 | 1 => fp16 | 2 => e4m3 | 3 => e5m2 | _ => fp32
/-- The block format of an OUT_FMT. -/
def blockFmt (f : Nat) : BlockFmt :=
  match f with
  | 4 => .mx e4m3 | 5 => .mx e5m2 | 6 => .mx e3m2 | 7 => .mx e2m3 | 8 => .mx e2m1 | 10 => .mxint8 | _ => .ht4

/-- One row as written: its element codes with the outcomes of unmasked elements, and the scales of its blocks. -/
def Desc.convertRow (d : Desc) (zeroFill : Bool) (m : Nat) (l : List Elem) : List (Nat × Option Outcome) × List Nat :=
  let md (n : Nat) : Rounding := if d.stochastic then .stochastic (stochasticWord d.seed m n) else .nearest
  let fill := fillCode d.fmt zeroFill
  if d.scaleBytes = 0 then
    (l.zipIdx.map (fun e =>
      if !e.1.keep then (fill, none)
      else
        let r := if d.fmt = 13 then
            let z := e.1.v.val.num
            ((BitVec.ofInt 32 z).toNat, if z = 0 then Outcome.zero else Outcome.other)
          else if d.fmt = 11 then int8Convert (md e.2) e.1.v
          else (scalarFmt d.fmt).convert (md e.2) e.1.v
        (r.1, some r.2)), [])
  else
    let bs := (List.range 4).map (fun j => (blockFmt d.fmt).convert (fun i => md (32 * j + i))
      (((l.drop (32 * j)).take 32).map (fun e => if e.keep then some e.v else none)) fill)
    (bs.flatMap (fun b => b.2), bs.map (fun b => b.1))

/-- A row or column passes its comparison (R234). -/
def lanePasses (isInt : Bool) (tolShift rounds : Nat) (ws : List W32) (lane : W32) : Bool :=
  if isInt then ws.foldl (· + ·) 0 = lane
  else
    let xs := ws.map fp32Num
    let special := xs.any (fun x => x.isNan || x.isInf)
    let ln := fp32Num lane
    let lnSpecial := ln.isNan || ln.isInf
    if special then lnSpecial
    else if lnSpecial then false
    else
      let abs (q : Rat) : Rat := if q < 0 then -q else q
      let s := xs.foldl (fun a x => a + x.val) 0
      let p := xs.foldl (fun a x => a + abs x.val) 0
      abs (s - ln.val) ≤ (((2 ^ tolShift * rounds : Nat) : Rat)) * (pow2 (-23) * (p + abs ln.val) + pow2 (-118))

/-- Number of roundings of a chain (R234). -/
def Chain.rounds (c : Chain) : Nat :=
  c.instrs.foldl (fun a i => a + (if i.kind = .hmma then i.par 0 / 32 else 1)) 0

/-- An FP32 word that the output stage reads: exponent field 0 is a zero, whatever its sign (R196). -/
def fp32In (w : W32) : Num := if bits w 30 23 = 0 then .fin false 0 else fp32Num w

/-- What a drain of the chain produces from the bank words and lanes of an array (R218). -/
def Work.drainResult (w : Work) (t : Nat) (c : Chain) (d : MInstr) (a : Array_) : DrainResult :=
  let g := w.desc t d.a.toNat
  let isInt := w.chainInt t c
  let word (m n : Nat) : W32 := SMap.get 0 a.words (c.bank * 16384 + m * 128 + n)
  let seq := (w.tile t).seqEntries
  let vec (base n : Nat) : Num := fp32In (BitVec.ofNat 32 (w.tileNum t (base + 4 * n) 4))
  let elem (m n : Nat) : Elem :=
    let keep := kept d.b seq m n
    if g.fmt = 13 then { v := Num.of ((word m n).toInt : Rat), keep := keep, flushed := false, clipped := false }
    else
      let v := scaleBias (wordNum isInt (word m n)) (fp32In g.scale) (if g.cscaleEn then vec g.cscaleBase n else .fin false 1)
        (if g.biasEn then some (vec g.biasBase n) else none)
      let x := if g.clipEn then clipNum (fp32In g.clipLo) (fp32In g.clipHi) v.1 else (v.1, false)
      { v := x.1, keep := keep, flushed := v.2, clipped := x.2 }
  let rows := (List.range 128).map (fun m => (List.range 128).map (fun n => elem m n))
  let out (e : Elem) : Bool := e.keep && outOfWindow g.winLo g.winHi e.v
  let conv := rows.zipIdx.map (fun r => g.convertRow (bit d.b 2) r.2 r.1)
  let rowWord (m : Nat) : List W32 := (List.range 128).map (fun n => word m n)
  let colWord (n : Nat) : List W32 := (List.range 128).map (fun m => word m n)
  let laneM (m : Nat) : W32 := SMap.get 0 a.laneM (c.bank * 128 + m)
  let laneN (n : Nat) : W32 := SMap.get 0 a.laneN (c.bank * 128 + n)
  let pass (ws : List W32) (l : W32) : Bool := lanePasses isInt g.tolShift c.rounds ws l
  { writes :=
      conv.zipIdx.map (fun r => (g.outBase + r.2 * g.outPitch, packRow g.outBits (r.1.1.map (·.1)))) ++
      (if g.scaleBytes = 0 then [] else conv.zipIdx.map (fun r =>
        (g.scaleBase + r.2 * g.scalePitch, r.1.2.flatMap (fun s => leBytes g.scaleBytes s))))
    lanes := (List.range 128).map laneM ++ (List.range 128).map laneN
    ledger := (rows.zip conv).foldl (fun l r => (r.1.zip r.2.1).foldl (fun l e => match e.2.2 with
      | some o => l.count e.1 o (out e.1)
      | none => l) l) LedgerSlot.zero
    rowsFailed := if g.check = 0 then [] else idxs 128 (fun m => !pass (rowWord m) (laneM m))
    colsFailed := if g.check = 0 then [] else idxs 128 (fun n => !pass (colWord n) (laneN n))
    oow := rows.foldl (fun k r => k + (r.filter out).length) 0
    rowsOut := idxs 128 (fun m => (rows.getD m []).any out)
    colsOut := idxs 128 (fun n => rows.any (fun r => match r[n]? with | some e => out e | none => false)) }

/-- The checksum failed; the window test failed (R232, R234). -/
def DrainResult.checkFails (r : DrainResult) : Bool := !r.rowsFailed.isEmpty || !r.colsFailed.isEmpty
def DrainResult.windowFails (r : DrainResult) (g : Desc) : Bool := g.winAct ≠ 0 && g.winTol < r.oow
/-- A failing test triggers replay (R238). -/
def DrainResult.replays (r : DrainResult) (g : Desc) : Bool :=
  (r.checkFails && g.check = 2) || (r.windowFails g && g.winAct = 2)

/-- A fault that strikes a bank word during an attempt: bits of word m * 128 + n flip. -/
def Array_.strike (a : Array_) (bank : Nat) (fault : Option (BitVec 14 × W32)) : Array_ :=
  match fault with
  | some f => { a with words := SMap.modify 0 a.words (bank * 16384 + f.1.toNat) (· ^^^ f.2) }
  | none => a

/-- The bank after the chain has run again from its record and held inputs (R188, R240). -/
def Work.recompute (w : Work) (t : Nat) (c : Chain) : Array_ :=
  let isInt := w.chainInt t c
  c.instrs.foldl (fun a i =>
    if i.kind = .hmacc then a.applyHmacc i isInt (w.tileNum t) else a.applyHmma i isInt (w.tileNum t)) (w.tile t).array

/-! ## Activation (R225, R151) -/

/-- The drain is invalid. -/
def Work.drainInvalid (w : Work) (t : Nat) (c : Chain) (d : MInstr) : Bool :=
  let g := w.desc t d.a.toNat
  let x := w.tile t
  let scaled := g.scaleBytes ≠ 0
  let fits (r : Nat × Nat) : Bool := r.1 + r.2 ≤ 0x60_0000
  let notNum (v : W32) : Bool := (fp32Num v).isNan
  bits g.ctrl 31 22 ≠ 0 || 14 ≤ g.fmt || g.check = 3 || g.winAct = 3 || g.reserved ≠ 0 || bit g.sem 6 ||
  g.outBase % 32 ≠ 0 || g.outPitch % 32 ≠ 0 || g.outPitch < 16 * g.outBits ||
  (scaled && (g.scaleBase % 8 ≠ 0 || g.scalePitch % 8 ≠ 0 || g.scalePitch < 4 * g.scaleBytes)) ||
  (g.cscaleEn && g.cscaleBase % 64 ≠ 0) || (g.biasEn && g.biasBase % 64 ≠ 0) ||
  (g.fmt ≠ 13 && (notNum g.scale || (fp32Num g.scale).isInf)) ||
  (g.clipEn && (notNum g.clipLo || notNum g.clipHi || (fp32Num g.clipHi).lt (fp32Num g.clipLo))) ||
  g.winHi < g.winLo || (bit g.sem 7 && g.amount = 0) ||
  (g.fmt = 13 && (g.cscaleEn || g.biasEn || g.clipEn || g.stochastic || !w.chainInt t c)) ||
  (scaled && !bit d.b 2 && bits d.b 1 0 ≠ 0) ||
  !(g.outRanges ++ (if g.cscaleEn then [(g.cscaleBase, 512)] else []) ++ (if g.biasEn then [(g.biasBase, 512)] else [])).all fits ||
  g.outRanges.any (fun r => x.holds r.1 r.2)

/-- A chain is released: its inputs and its bank are free, what waited on them goes on (R151, R235, R236). -/
def Work.releaseChain (w : Work) (t id : Nat) : Work :=
  let w := w.modArray t (fun a => { a with chains := a.chains.filter (fun c => c.id ≠ id) })
  let w := w.releaseHeld t
  let x := w.tile t
  if x.seqHeld || x.seqWaiting.isEmpty then w
  else w.modTile t (fun x =>
    (({ x.seqWaiting.foldl (fun (y : Tile) (e : Nat × W64) => y.seqStore e.1 [e.2.setWidth 8]) x with
        seqWaiting := [] } : Tile).modCore 0
      (fun c => { c with stalled := false })).advance 0)

/-- Words and lanes of a bank after its drain: empty (R180). -/
def Array_.emptyBank (a : Array_) (bank : Nat) : Array_ :=
  { a with
    words := a.words.filter (fun e => e.1 / 16384 ≠ bank)
    laneM := a.laneM.filter (fun e => e.1 / 128 ≠ bank)
    laneN := a.laneN.filter (fun e => e.1 / 128 ≠ bank) }

/-- The active drain leaves the output stage, completed (R183). -/
def Array_.drainDone (a : Array_) (bank : Nat) : Array_ :=
  ({ a.emptyBank bank with active := none, activeOk := false, replay := none, done := a.done + 1 }).settle

/-- A drain becomes active when the output stage has none: its descriptor, its sequence table and its column vectors are
read and checked (R151, R182, R222, R225). -/
def Work.drainActive (w : Work) (t : Nat) : Work :=
  let a := (w.tile t).array
  match a.pending with
  | none => w
  | some d =>
    if a.active.isSome then w
    else match a.chain? d.chain with
      | none => w
      | some c =>
        let seqBad := 2 ≤ bits d.b 1 0 && !seqOk (w.tile t).seqEntries
        if w.drainInvalid t c d || seqBad then
          let kind := if w.drainInvalid t c d then 1 else 6
          let w := (w.modArray t (fun a => ({ a with pending := none }).drainDone c.bank)).dropSample t c.id
          let w := w.releaseChain t c.id
          if kind = 1 then w.endTile t 0 1 2 d.pc (d.bits.setWidth 64) else w.endTile t 0 6 0 d.pc 0
        else
          let w := w.modArray t (fun a => ({ a with pending := none, active := some d, activeOk := true }).settle)
          (match w.firstPoisonIn t (d.reads ++ w.columnRanges t d.a.toNat) with
          | some off => w.poisonChain t c.id off
          | none => w).arrayResume t

def execDrainActive (tile : TileId) (s : State) := lift (fun w => w.drainActive tile.val) s

/-! ## Completion (R186, R218, R226, R229, R238, R239) -/

/-- The drain writes its rows and scales (R221). -/
def Work.writeOut (w : Work) (t : Nat) (l : List (Nat × List Byte)) : Work := w.each l (fun w e => w.coreWrite t 5 e.1 e.2)

/-- Every output and scale code word is written poisoned (R186, R241). -/
def Work.poisonOut (w : Work) (t : Nat) (l : List (Nat × List Byte)) : Work :=
  w.each l (fun w e => (w.coreWrite t 5 e.1 e.2).pokePoison (tileAddr t e.1) e.2.length)

/-- Commit the staging Ledger to its slot (R229). -/
def Work.commitLedger (w : Work) (t : Nat) (g : Desc) (s : LedgerSlot) : Work :=
  if !g.lgEn then w
  else
    w.modTile t (fun x =>
      let slot := if g.lgClear then LedgerSlot.zero else x.ledgerSlot g.slot
      { x with ledger := SMap.set LedgerSlot.zero x.ledger g.slot (slot.commit s) })

/-- The sample of the chain captures what its drain wrote (R532). -/
def Work.captureSample (w : Work) (t : Nat) (c : Chain) (g : Desc) (r : DrainResult) (stamp : W64) : Work :=
  let w := w.each (w.chip.samples.filter (fun s => s.source = t && s.chain.id = c.id)) (fun w s =>
    (w.each c.ranges (fun w x => w.coreWrite s.checker 5 x.1 (w.mem.read (tileAddr t x.1) x.2))).modTile s.checker
      (fun y => { y with seqTable := (w.tile t).seqTable }))
  { w with chip.samples := w.chip.samples.map (fun s =>
      if s.source = t && s.chain.id = c.id && s.captured.isNone then
        { s with chain := c, captured := some r, stamp := stamp, outBase := g.outBase }
      else s) }

/-- The drain completes: its bank is empty, its chain is released, and it signals (R218, R226). -/
def Work.finishDrain (w : Work) (t : Nat) (c : Chain) (g : Desc) : Work :=
  let w := (w.modArray t (fun a => a.drainDone c.bank)).releaseChain t c.id
  (if bit g.sem 7 then w.semAdd t (bits g.sem 5 0) g.amount else w).arrayResume t

/-- TL_OS_LAST for a failed drain (R246). -/
def osLast (r : DrainResult) (trigger outcome : Nat) : OsLast :=
  let rows := if trigger % 2 = 1 then r.rowsFailed else r.rowsOut
  let cols := if trigger % 2 = 1 then r.colsFailed else r.colsOut
  { valid := true, rows := rows.length, cols := cols.length, firstRow := rows.headD 0, firstCol := cols.headD 0
    trigger := trigger, outcome := outcome }

/-- The records of a failed drain, one for each test that failed (R238, R239, R615). -/
def Work.recFailed (w : Work) (t : Nat) (g : Desc) (r : DrainResult) (trigger : Nat) (replayed : Bool) : Work :=
  let l := (w.tile t).launch
  let one (w : Work) (cls count : Nat) (rows cols : List Nat) : Work :=
    w.record {
      cls := cls, kind := 2, id := t, pound := optPound (w.tileOwner t), action := (if replayed then 4 else 0)
      count := count, addr := g.outBase
      d0 := rows.length * 2 ^ 48 + cols.length * 2 ^ 40 + rows.headD 0 * 2 ^ 24 + cols.headD 0 * 2 ^ 16 + trigger * 8
      d1 := match l with | some l => l.sq | none => 0
      d2 := match l with | some l => l.seq.toNat | none => 0 }
  let w := if trigger % 2 = 1 then one w 0x0503 1 r.rowsFailed r.colsFailed else w
  if 2 ≤ trigger then one w 0x0504 r.oow r.rowsOut r.colsOut else w

/-- Chains that a replay abandons run again from their first instruction: those of their instructions that have left the
queue (R239). -/
def Array_.abandon (a : Array_) (id : Nat) : Array_ :=
  let running := a.feed.toList ++ a.flying
  let again := a.chains.flatMap (fun c =>
    if c.id = id then []
    else c.instrs.zipIdx.filterMap (fun e =>
      if e.2 < c.completed then some { e.1 with counted := true }
      else if running.contains e.1 || a.restart.contains e.1 then some e.1
      else none))
  let banks := (a.chains.filter (fun c => c.id ≠ id)).map (fun c => c.bank)
  let b := banks.foldl (fun b k =>
    if a.chains.any (fun c => c.id = id && c.bank = k) then b else b.emptyBank k) a
  { b with
    feed := none
    flying := []
    restart := sortBy (fun i => i.num) again
    chains := a.chains.map (fun c => if c.id = id then c else { c with completed := 0 }) }

/-- A drain finishes its comparison and window test (R218, R238, R239). -/
def Work.drainComplete (w : Work) (t : Nat) (fault : Option (BitVec 14 × W32)) : Work :=
  let x := w.tile t
  match x.array.active with
  | none => w
  | some d =>
    match x.array.chain? d.chain with
    | none => w
    | some c =>
      if !x.array.activeOk || x.array.replay.isSome || c.completed ≠ c.instrs.length then w
      else
        let g := w.desc t d.a.toNat
        let w := w.modArray t (fun a => a.strike c.bank fault)
        let r := w.drainResult t c d (w.tile t).array
        if c.poisoned then (w.poisonOut t r.writes).finishDrain t c g
        else
          let w := w.writeOut t r.writes
          let w := if g.check ≠ 0 || g.winAct ≠ 0 then w.modTile t (fun x => { x with checked := satAdd 32 x.checked 1 }) else w
          let trigger := b2n r.checkFails + 2 * b2n (r.windowFails g)
          if trigger = 0 then ((w.commitLedger t g r.ledger).captureSample t c g r (BitVec.ofNat 64 w.now)).finishDrain t c g
          else
            let go := r.replays g
            let w := w.recFailed t g r trigger go
            let w := w.modTile t (fun x =>
              { x with checksFailed := satAdd 32 x.checksFailed 1, last := osLast r trigger 0 })
            if !go then
              ((w.commitLedger t g r.ledger).captureSample t c g r (BitVec.ofNat 64 w.now)).finishDrain t c g
            else
              let rp : Replay := {
                chain := c.id, trigger := trigger, attempt := 1, first := none, tile2 := none,
                stamp := BitVec.ofNat 64 w.now, since := 0 }
              (w.modArray t (fun a => a.abandon c.id)).modTile t (fun x =>
                { x with
                  first := satAdd 16 x.first 1
                  array.replay := some rp })

def execDrainComplete (tile : TileId) (fault : Option (BitVec 14 × W32)) (s : State) :=
  lift (fun w => w.drainComplete tile.val fault) s

/-! ## Replay (R240, R241) -/

/-- Note a result-check status and its tile for the completion of the launch: the higher rank stays (R241, R297). -/
def Work.noteCheck (w : Work) (t status : Nat) : Work :=
  match (w.tile t).launch with
  | none => w
  | some l => w.modCmd l.sq l.seq (fun c => if c.check < status then { c with check := status, checkTile := t } else c)

/-- The outcome of a replay is recorded, and the drain completes (R241, R246, R615). -/
def Work.endReplay (w : Work) (t : Nat) (c : Chain) (g : Desc) (rp : Replay) (outcome attempts : Nat) : Work :=
  let l := (w.tile t).launch
  let w := w.modTile t (fun x => { x with last := { x.last with valid := true, trigger := rp.trigger, outcome := outcome } })
  let w := w.record
    { cls := 0x0505, kind := 2, id := t, pound := optPound (w.tileOwner t), action := if outcome ≤ 3 then 4 else 3
      count := attempts, addr := g.outBase, stamp := some rp.stamp.toNat
      d0 := outcome + rp.trigger * 8 + (match rp.tile2 with | some u => u | none => 0xFF) * 256
      d1 := match l with | some l => l.sq | none => 0
      d2 := match l with | some l => l.seq.toNat | none => 0 }
  let w := w.modTile t (fun x =>
    { x with
      unrecovered := satAdd 16 x.unrecovered (b2n (4 ≤ outcome))
      reproduced := satAdd 16 x.reproduced (b2n (outcome = 3)) })
  let w := if outcome = 3 then w.noteCheck t 0x0D else if 4 ≤ outcome then w.noteCheck t 0x0E else w
  let w := w.finishDrain t c g
  if outcome ≤ 2 then w.chargeTile t else w

/-- The attempt's outputs and Ledger stand (R241). -/
def Work.standResult (w : Work) (t : Nat) (c : Chain) (g : Desc) (rp : Replay) (r : DrainResult) : Work :=
  if c.poisoned then w.poisonOut t r.writes
  else ((w.writeOut t r.writes).commitLedger t g r.ledger).captureSample t c g r rp.stamp

/-- Some tile of the die can make attempt 2: in state spare or audit (R240). -/
def Work.attempt2Possible (w : Work) (d : Nat) : Bool :=
  (spareIdxs d).any (fun u => (w.tile u).st = .spare || (w.tile u).st = .audit) ||
  (List.range 36).any (fun i => (w.tile (36 * d + i)).st = .audit)

/-- A place in the order in which attempts begin to wait (R240). -/
def Work.nextSince (w : Work) : Nat :=
  w.chip.tiles.foldl (fun n e => match e.2.array.replay with | some r => max n (r.since + 1) | none => n) 1

/-- A replay attempt ends (R240, R241). -/
def Work.attemptDone (w : Work) (t : Nat) (fault : Option (BitVec 14 × W32)) : Work :=
  let x := w.tile t
  match x.array.replay, x.array.active with
  | some rp, some d =>
    match x.array.chain? rp.chain with
    | none => w
    | some c =>
      let g := w.desc t d.a.toNat
      if rp.attempt = 1 then
        let a := (w.recompute t c).strike c.bank fault
        let r := w.drainResult t c d a
        let w := w.modArray t (fun b => { b with words := a.words, laneM := a.laneM, laneN := a.laneN })
        if !r.replays g then (w.standResult t c g rp r).endReplay t c g rp 1 1
        else if w.attempt2Possible (tileDie t) then
          let rp := { rp with attempt := 2, first := some r, since := w.nextSince }
          (w.writeOut t r.writes).modArray t (fun b => { b with replay := some rp })
        else (w.poisonOut t r.writes).endReplay t c g rp 5 1
      else match rp.tile2, rp.first with
        | some u, some r1 =>
          let a := (w.recompute t c).strike c.bank fault
          let r := w.drainResult t c d a
          let w := w.zeroStore u
          if !r.replays g then (w.standResult t c g rp r).endReplay t c g rp 2 2
          else if r.writes = r1.writes && r.lanes = r1.lanes then (w.standResult t c g rp r).endReplay t c g rp 3 2
          else (((w.poisonOut t r.writes).endReplay t c g rp 4 2).priorityAudit t).priorityAudit u
        | _, _ => w
  | _, _ => w

def execReplayAttemptDone (tile : TileId) (fault : Option (BitVec 14 × W32)) (s : State) :=
  lift (fun w => w.attemptDone tile.val fault) s

/-- Another tile of the die has waited longer for attempt 2 (R240). -/
def Work.waitsBefore (w : Work) (t since : Nat) : Bool :=
  w.chip.tiles.any (fun e => tileDie e.1 = tileDie t && match e.2.array.replay with
    | some r => r.attempt = 2 && r.tile2.isNone && r.since < since
    | none => false)

/-- An attempt 2 that waits can no longer be made: the die has lost its last tile in state spare or audit (R240, R241). -/
def Work.attempt2Lost (w : Work) (t : Nat) (rp : Replay) : Work :=
  match (w.tile t).array.active, (w.tile t).array.chain? rp.chain, rp.first with
  | some d, some c, some r => (w.poisonOut t r.writes).endReplay t c (w.desc t d.a.toNat) rp 5 1
  | _, _, _ => w

/-- Attempt 2 takes a free spare of the die, which yields its sample; the held bytes are copied to it (R240, R535). -/
def Work.attempt2Start (w : Work) (t : Nat) : Work :=
  let x := w.tile t
  match x.array.replay with
  | none => w
  | some rp =>
    if rp.attempt = 2 && rp.tile2.isNone && !w.attempt2Possible (tileDie t) then w.attempt2Lost t rp
    else match x.array.chain? rp.chain, (w.sparesOf (tileDie t)).find? (fun u => !w.serves u) with
    | some c, some u =>
      if rp.attempt ≠ 2 || rp.tile2.isSome || w.waitsBefore t rp.since then w
      else
        let w := w.yieldSamples u
        let w := w.each c.ranges (fun w r => w.coreWrite u 5 r.1 (w.mem.read (tileAddr t r.1) r.2))
        w.modTile t (fun x =>
          { x with second := satAdd 16 x.second 1, array.replay := some { rp with tile2 := some u } })
    | _, _ => w

def execReplayAttempt2Start (tile : TileId) (s : State) := lift (fun w => w.attempt2Start tile.val) s

/-! ## Registers that software clears (R244, R246) -/

def execTlLgClear (core : CoreId) (tile : TileId) (slots : W16) (s : State) :=
  lift (fun w => w.regStore core.val (tlOff tile.val + 0x3800) .b8 false (w.ownsTile core.val tile.val) (slots.setWidth 64)
    (fun w => w.modTile tile.val (fun x => { x with ledger := x.ledger.filter (fun e => !bit slots e.1) }))) s

def execTlOsLastClear (core : CoreId) (tile : TileId) (s : State) :=
  lift (fun w => w.regStore core.val (tlOff tile.val + 0x3818) .b8 false (w.ownsTile core.val tile.val) (1 <<< 63)
    (fun w => w.modTile tile.val (fun x => { x with last := OsLast.zero }))) s

end Sys2Proof.Machine
end

