-- ==== Sys2Proof/Machine/Audit.lean ====
section
/-!
DEFINITION. The exchange of tile indices, the Audit, the outcomes of Collation, and the Fault Rolls ring (R29, R30, R524 to
R547).
-/

namespace Sys2Proof.Machine

/-! ## Exchanges (R524 to R526) -/

/-- No port of the tile has a slot in transfer (R265). -/
def Tile.portsQuiet (x : Tile) : Bool :=
  (List.range 4).all (fun p => !(x.outPort p).transfer && (x.outPort p).flight.isEmpty && !(x.inPort p).transfer)

/-- A mover's queue has run empty. -/
def Mover.quiet (m : Mover) : Bool := m.queue.isEmpty && m.run.isNone && m.waiting.isNone

/-- The conditions of a preemption point (R525). -/
def Tile.atPoint (x : Tile) : Bool :=
  let a := x.array
  a.queue.isEmpty && a.signals.isEmpty && a.feed.isNone && a.flying.isEmpty && a.restart.isEmpty && a.active.isNone &&
  a.pending.isNone && a.replay.isNone && x.mover0.quiet && x.mover1.quiet && x.portsQuiet

/-- A SAFE_POINT that names tile t has started. -/
def Work.safePointOpen (w : Work) (t : Nat) : Bool :=
  w.chip.sqs.any (fun e => e.2.cmds.any (fun c => c.op = 9 && c.phase = .started && c.safeTiles.contains t))

/-- The exchange that is due for tile t may run now (R526, R538). -/
def Work.mayExchange (w : Work) (t : Nat) : Bool :=
  let x := w.tile t
  let calm := match w.tileOwner t with
    | some p => (w.pound p).st = .running && !(w.pound p).held
    | none => true
  match x.exDue with
  | none => false
  | some .quarantine => calm && w.spareAvailable t
  | some .audit =>
    calm && w.locked && ((w.tileOwner t).isNone || x.st = .disabled || x.phys.overdue || w.safePointOpen t)

/-- PREEMPT_ATTEMPT: the tile halts its cores at a preemption point, or goes on when it has not reached one (R525). -/
def Work.preempt (w : Work) (t : Nat) (reached : Bool) : Work :=
  let x := w.tile t
  if !(x.st = .loading || x.st = .running || x.st = .draining) || x.halted || !w.mayExchange t then w
  else w.modTile t (fun x =>
    { x with phys.attempts := satAdd 8 x.phys.attempts 1, halted := reached && x.atPoint })

def execPreemptAttempt (tile : TileId) (reached : Bool) (s : State) := lift (fun w => w.preempt tile.val reached) s

/-- PREEMPT_RETRY: the next attempt, 1 ms after one that failed (R525). -/
def execPreemptRetry (tile : TileId) (s : State) :=
  lift (fun w => if (w.tile tile.val).phys.attempts = 0 then w else w.preempt tile.val true) s

/-- The lowest spare index of a die in state spare (R537). -/
def Work.lowestSpare (w : Work) (d : Nat) : Option Nat := (w.sparesOf d).head?

/-- INDEX_EXCHANGE: the copy from the tile of an active index to the tile of a spare index starts; both indices are then
exchanging, and accesses to them are held (R30, R524 to R526, R535). -/
def Work.indexExchange (w : Work) (i s : Nat) : Work :=
  let x := w.tile i
  let free := match x.st with
    | .idle | .disabled | .unowned => true
    | .loading | .running | .draining => x.halted && x.atPoint
    | _ => false
  let right := match x.exDue with
    | some .audit => w.lowestSpare (tileDie i) = some s
    | _ => (w.sparesOf (tileDie i)).contains s
  if 144 ≤ i || !free || !right || w.serves s || !w.mayExchange i || !x.portsQuiet || !(w.tile s).portsQuiet ||
      !x.heldWrites.isEmpty || !(w.tile s).heldWrites.isEmpty then w
  else
    let w := w.yieldSamples s
    (w.modTile i (fun x => { x with exPrev := x.st, exWith := some s, st := .exchanging })).modTile s (fun y =>
      { y with exPrev := y.st, st := .exchanging })

def execIndexExchange (active spare : TileId) (s : State) := lift (fun w => w.indexExchange active.val spare.val) s

/-- SAFE_POINTs that name tile t count its exchange and may complete (R294, R526). -/
def Work.countSafePoints (w : Work) (t : Nat) : Work :=
  w.each (w.chip.sqs.map (·.1)) (fun w q =>
    w.each ((w.sq q).cmds.filter (fun c => c.op = 9 && c.phase = .started && c.safeTiles.contains t)) (fun w c =>
      let w := w.modCmd q c.seq (fun c => { c with count := c.count + 1 })
      match w.cmd? q c.seq with
      | some c => w.settleSafePoint q c
      | none => w))

/-- Post the audit start of the tile that holds a spare index, 1 ms from now (R537). -/
def Work.postAudit (w : Work) (s : Nat) : Work := w.postOwn .power 5 (w.now + 1_000_000) 0xFF 0 s

/-- EXCHANGE_DONE: the two physical tiles change indices. All state goes with the active index; the tile that gives it up
takes the spare index, with its store zero, for audit or in quarantine (R29, R30, R524). -/
def Work.exchangeDone (w : Work) (i s : Nat) : Work :=
  let x := w.tile i
  let y := w.tile s
  if x.st ≠ .exchanging || x.exWith ≠ some s then w
  else
    let cause := x.exDue
    let quar := cause = some .quarantine
    let moved : Tile :=
      { x with
        phys := y.phys, st := x.exPrev, exDue := none, exWith := none, halted := false
        cores := SMap.mapVal x.cores (fun _ c => { c with reserved := none, icache := [] }) }
    let out := Tile.resetWith { x.phys with attempts := 0, auditPhase := 0, auditOrder := none }
    let w := (w.setTile i moved).setTile s { out with st := if quar then .quarantined else .audit }
    let w := w.zeroStore s
    let w := match w.tileOwner i with
      | some p => if quar then w.modPound p (fun x =>
          { x with sparesGone := SMap.modify 0 x.sparesGone (tileDie i) (· + 1) }) else w
      | none => w
    let w := if quar then w else w.postAudit s
    let held := y.heldWrites
    let w := w.releaseHeld i
    let w := w.each held (fun w e => w.pwrite (tileAddr s e.1) e.2.1 false none e.2.2)
    (w.countSafePoints i).settleQuarantine i

def execExchangeDone (active spare : TileId) (s : State) := lift (fun w => w.exchangeDone active.val spare.val) s

/-! ## Audit (R536 to R542) -/

/-- The smallest AUDIT_INTERVAL_H among the pounds that own active tiles on a die, in ns; 72 h where none does. -/
def Work.auditInterval (w : Work) (d : Nat) : Nat :=
  let l := (w.poundsOn d).filterMap (fun p => (w.cfg? p).map PoundCfg.auditHours)
  (match l with | [] => 72 | h :: l => l.foldl min h) * 3_600_000_000_000

/-- Time from due to overdue for the tile that holds index t, in ns. -/
def Work.overdueAfter (w : Work) (t : Nat) : Nat :=
  (match (w.tileOwner t).bind w.cfg? with | some g => g.overdueHours | none => 24) * 3_600_000_000_000

/-- First due times, set when Lock Time first becomes LOCKED after module cold reset (R536). -/
def Work.firstDue (w : Work) : Work :=
  if w.chip.time.t0.isSome then w
  else
    let t0 := w.now
    let w := { w with chip.time.t0 := some t0 }
    w.each (List.range 4) (fun w d =>
      let i := w.auditInterval d
      w.each (dieIndices d) (fun w t => w.modTile t (fun x =>
        { x with phys.audDue := BitVec.ofNat 64 (t0 + i * (x.phys.pos + 1) / 40) })))

/-- An audit, or an exchange or order for one, is in progress on die d. -/
def Work.auditBusy (w : Work) (d : Nat) : Bool :=
  (dieIndices d).any (fun t => (w.tile t).st = .audit || (w.tile t).exDue = some .audit) ||
  w.chip.time.orders.any (fun e => e.2.action = 5 && (dieIndices d).contains e.2.arg)

/-- A tile whose due time has come and which an audit can take. -/
def Work.auditCandidate (w : Work) (t : Nat) : Bool :=
  let x := w.tile t
  x.phys.audDue ≠ 0 && x.phys.audDue.toNat ≤ w.now &&
  (match x.st with | .offline | .quarantined | .exchanging | .audit => false | _ => true) && x.exDue.isNone

/-- A forced pause of the tile that holds index t begins (R538). -/
def Work.forcePause (w : Work) (t : Nat) : Work :=
  { w with chip.rolls.auditForced := SMap.modify 0 w.chip.rolls.auditForced (tileDie t) (fun n => satAdd 16 n 1) }.record
    { cls := 0x050F, kind := 2, id := t, pound := optPound (w.tileOwner t), d0 := (w.tile t).phys.attempts }

/-- AUDIT_DUE: due tiles of a die show it, and, with no audit in progress, the earliest due is taken; where its tile is overdue by then, the forced pause begins with the exchange (R537, R538; log entry 46). -/
def Work.auditDue (w : Work) (d : Nat) : Work :=
  if !w.locked then w
  else
    let l := (dieIndices d).filter w.auditCandidate
    let w := w.each l (fun w t => w.modTile t (fun x => { x with phys.due := true }))
    match (dieIndices d).find? (fun t => (w.tile t).st = .audit && (w.tile t).phys.auditPhase = 0 &&
        !w.chip.time.orders.any (fun e => e.2.action = 5 && e.2.arg = t)) with
    | some t => w.postAudit t
    | none =>
      if w.auditBusy d then w
      else match sortBy (fun t => (w.tile t).phys.audDue.toNat) l with
        | [] => w
        | t :: _ =>
          if 144 ≤ t then w.postAudit t
          else if (w.lowestSpare d).isSome then
            let v := w.modTile t (fun x => { x with exDue := some .audit })
            if (w.tile t).phys.overdue then v.forcePause t else v
          else w

def execAuditDue (die : Fin 4) (s : State) := lift (fun w => w.auditDue die.val) s

/-- AUDIT_OVERDUE: a tile past its overdue time; with an audit exchange pending its forced pause begins, unless Lock Time is
lost (R536, R538). -/
def Work.auditOverdue (w : Work) (t : Nat) : Work :=
  let x := w.tile t
  if x.phys.audDue = 0 || w.now < x.phys.audDue.toNat + w.overdueAfter t || x.phys.overdue || !w.locked then w
  else
    let w := w.modTile t (fun x => { x with phys.overdue := true })
    if x.exDue = some .audit then w.forcePause t else w

def execAuditOverdue (tile : TileId) (s : State) := lift (fun w => w.auditOverdue tile.val) s

/-- Action 0x05: the tile enters audit and heats; a sample that it holds is abandoned, and a replay attempt that it serves is
waited for (R535, R540, R542). -/
def Work.auditStart (w : Work) (i : Nat) : Work :=
  match w.startable i 5 with
  | none => w
  | some o =>
    let t := o.arg
    let x := w.tile t
    if w.serves t then w
    else
      let w := w.beginOrder i o (some 50_000_000)
      if x.st ≠ .spare && x.st ≠ .audit then w.endOrder i
      else (w.yieldSamples t).modTile t (fun x =>
        { x with
          st := .audit, phys.auditPhase := 1, phys.auditOrder := some i, phys.peakC := 0, phys.belowBand := false
          phys.failPhase := 0, phys.failPoint := 0, phys.failIndex := 0 })

def execAuditStart (index : OrderIdx) (s : State) := lift (fun w => w.auditStart index.val) s

/-- AUDIT_HEAT_TIMEOUT: heating ends after 10 ms at the temperature reached (R539). -/
def execAuditHeatTimeout (tile : TileId) (tempC : Byte) (s : State) :=
  lift (fun w =>
    if (w.tile tile.val).phys.auditPhase ≠ 1 then w
    else w.modTile tile.val (fun x =>
      { x with phys.auditPhase := 2, phys.peakC := max x.phys.peakC tempC.toNat, phys.belowBand := decide (tempC.toNat < 90) })) s

/-- AUDIT_PHASE_END: a phase ends, with its first failure, and the next begins; results of the heat phase are not checked
(R540, R541). -/
def Work.auditPhaseEnd (w : Work) (t temp : Nat) (fail : Option Nat) (index : Nat) : Work :=
  let x := w.tile t
  let k := x.phys.auditPhase
  if k = 0 || 5 ≤ k then w
  else
    let w := w.modTile t (fun x => { x with phys.auditPhase := k + 1, phys.peakC := max x.phys.peakC temp })
    let w := if k = 1 then w.modTile t (fun x => { x with phys.belowBand := decide (temp < 90) }) else w
    match fail with
    | some p =>
      if k = 1 || x.phys.failPhase ≠ 0 then w
      else w.modTile t (fun x => { x with phys.failPhase := k, phys.failPoint := p, phys.failIndex := index })
    | none => w

def execAuditPhaseEnd (tile : TileId) (tempC : Byte) (failPoint : Option (Fin 3)) (failIndex : W32) (s : State) :=
  lift (fun w => w.auditPhaseEnd tile.val tempC.toNat (failPoint.map (·.val)) failIndex.toNat) s

/-- AUDIT_END: the store is zeroed, and the tile returns to the spares or is quarantined (R541). -/
def Work.auditEnd (w : Work) (t : Nat) : Work :=
  let x := w.tile t
  let p := x.phys
  if p.auditPhase ≠ 5 then w
  else
    let d := tileDie t
    let w := w.zeroStore t
    let w := w.modTile t (fun x => { x with phys.auditPhase := 0, phys.auditOrder := none })
    let w :=
      if p.failPhase = 0 then
        let w := w.modTile t (fun x =>
          { x with
            st := .spare, phys.audLast := BitVec.ofNat 64 w.now, phys.priority := false, phys.due := false
            phys.overdue := false, phys.result := 1, phys.audDue := BitVec.ofNat 64 (w.now + w.auditInterval d) })
        { w with chip.rolls.auditPassed := SMap.modify 0 w.chip.rolls.auditPassed d (fun n => satAdd 32 n 1) }.record
          { cls := 0x050D, kind := 2, id := t, pound := optPound (w.tileOwner t), d0 := p.peakC, d1 := b2n p.belowBand }
      else
        let w := w.modTile t (fun x => { x with phys.result := 2 })
        let w := { w with chip.rolls.auditFailed := SMap.modify 0 w.chip.rolls.auditFailed d (fun n => satAdd 16 n 1) }.record
          { cls := 0x050E, kind := 2, id := t, pound := optPound (w.tileOwner t), action := 8, d0 := p.failIndex,
            d1 := p.failPhase + p.failPoint * 256, d2 := p.peakC }
        w.quarantine t 2
    match p.auditOrder with
    | some i => w.endOrder i
    | none => w

def execAuditEnd (tile : TileId) (s : State) := lift (fun w => w.auditEnd tile.val) s

/-! ## Collation outcomes (R533 to R535) -/

/-- A sample computed on tile t counts (R552). -/
def Work.countChecked (w : Work) (t : Nat) : Work :=
  w.modTile t (fun x => { x with phys.colChecked := satAdd 32 x.phys.colChecked 1 })

/-- A spare that can arbitrate for a sample. -/
def Work.arbiterFor (w : Work) (s : Sample) : Option Nat :=
  (w.sparesOf (tileDie s.source)).find? (fun u => !w.holdsSample u && !w.serves u)

/-- Give a sample its arbiter, which gets the checker's inputs (R534). -/
def Work.takeArbiter (w : Work) (s : Sample) : Work × Sample :=
  match s.arbiter, w.arbiterFor s with
  | none, some u =>
    let s' := { s with arbiter := some u }
    let w := w.each s.chain.ranges (fun w x => w.coreWrite u 5 x.1 (w.mem.read (tileAddr s.checker x.1) x.2))
    let w := w.modTile u (fun y => { y with seqTable := (w.tile s.checker).seqTable })
    ({ w with chip.samples := w.chip.samples.map (fun y => if y = s then s' else y) }, s')
  | _, _ => (w, s)

/-- COLLATION_CHECK_DONE: the checker's result is compared with the captured one (R533, R534). -/
def Work.checkDone (w : Work) (u : Nat) (matched : Bool) : Work :=
  match w.chip.samples.find? (fun s => s.checker = u && s.captured.isSome && !s.disputed) with
  | none => w
  | some s =>
    let w := w.countChecked u
    if matched then
      { w with chip.rolls.matched := SMap.modify 0 w.chip.rolls.matched s.pound (fun n => satAdd 32 n 1) }.endSample s
    else
      let s' := { s with disputed := true }
      ({ w with chip.samples := w.chip.samples.map (fun y => if y = s then s' else y) }.takeArbiter s').1

def execCollationCheckDone (checker : TileId) (matched : Bool) (s : State) := lift (fun w => w.checkDone checker.val matched) s

/-- A mismatch is recorded and its sample ends: outcomes 1 to 4 in the order of R534's table. -/
def Work.endMismatch (w : Work) (s : Sample) (outcome : Nat) : Work :=
  let w := { w with chip.rolls.mismatch := SMap.modify 0 w.chip.rolls.mismatch s.pound (fun n => satAdd 16 n 1) }
  let w := if outcome = 2 then
      { w with chip.rolls.afterUse := SMap.modify 0 w.chip.rolls.afterUse s.pound (fun n => satAdd 16 n 1) } else w
  let w := w.record {
    cls := 0x050B, kind := 2, id := s.source, pound := s.pound, addr := s.outBase
    d0 := s.source + s.checker * 2 ^ 8 + (s.arbiter.getD 0xFF) * 2 ^ 16 + outcome * 2 ^ 24
    d1 := s.sq, d2 := s.seq.toNat, stamp := some s.stamp.toNat, summary := decide (outcome = 2) }
  let w := w.endSample s
  match outcome with
  | 1 => w.chargeTile s.checker
  | 2 => w.chargeTile s.source
  | _ => w.each ([s.source, s.checker] ++ s.arbiter.toList) (fun w t => w.priorityAudit t)

/-- A sample of a source tile whose first comparison did not match. -/
def Work.disputed? (w : Work) (t : Nat) : Option Sample := w.chip.samples.find? (fun s => s.source = t && s.disputed)

/-- COLLATION_ARBITER_DONE (R534). -/
def Work.arbiterDone (w : Work) (t : Nat) (r : ArbiterResult) : Work :=
  match w.disputed? t with
  | none => w
  | some s =>
    match w.takeArbiter s with
    | (w, s) =>
      match s.arbiter with
      | none => w
      | some u =>
        (w.countChecked u).endMismatch s (match r with | .equalsSource => 1 | .equalsChecker => 2 | .differs => 3)

def execCollationArbiterDone (source : TileId) (result : ArbiterResult) (s : State) :=
  lift (fun w => w.arbiterDone source.val result) s

/-- COLLATION_ARBITER_TIMEOUT (R534). -/
def execCollationArbiterTimeout (source : TileId) (s : State) :=
  lift (fun w => match w.disputed? source.val with
    | some s => if s.arbiter.isSome then w else w.endMismatch s 4
    | none => w) s

/-! ## The ring (R545 to R547) -/

/-- RATE_LIMIT_SECOND: the counts of R545 start again. -/
def execRateLimitSecond (s : State) :=
  lift (fun w => { w with
    chip.rolls.rateOwner := [], chip.rolls.rateFabric := 0, chip.rolls.rateRemote := 0, chip.rolls.rateSummary := 0 }) s

/-- Core c may write FLT_RING_CTRL and FLT_RING_CONS. -/
def Work.ringWriter (w : Work) (c : Nat) : Bool :=
  let f := w.chip.rolls
  !f.enable || f.owner = 0xFE || w.coreOwner c = some f.owner

/-- Owner of the one region that holds the whole ring, where core c may enable it there (R547). -/
def Work.ringRegion (w : Work) (c : Nat) : Option Nat :=
  let f := w.chip.rolls
  let a := f.base.toNat * 4096
  let last := a + f.size * 64 - 1
  let inMain := (w.place a).mainMemory && (w.place last).mainMemory && !w.scrubbing a && !w.scrubbing last
  if !inMain then none
  else if w.provisioning then some 0xFE
  else match w.region? a with
    | some r => if r.has last && (r.owner = 0xFE || w.coreOwner c = some r.owner) then some r.owner else none
    | none => none

/-- Write the buffered records in order; what the ring has no room for is lost (R546, R547). -/
def Work.flushBuffer (w : Work) : Work :=
  let f := w.chip.rolls
  let w := { w with chip.rolls.buffer := [], chip.rolls.lostRun := 0 }
  let w := w.each f.buffer (fun w r => w.storeRecord r)
  { w with chip.rolls.lostRun := w.chip.rolls.lostRun + f.lostRun }

/-- A write to FLT_RING_CTRL (R547, R549). -/
def Work.ringCtrl (w : Work) (c : Nat) (z : Size) (high : Bool) (v : W64) : Work :=
  let f := w.chip.rolls
  let off := fltBase + 8 + halfOff z high
  let en := newField z high v 0 0 (b2n f.enable)
  if !w.ringWriter c then w.ignoreReg c off z v
  else if en = b2n f.enable then w
  else if en = 0 then { w with chip.rolls.enable := false, chip.rolls.owner := 0xFF }
  else match w.ringRegion c with
    | some o => { w with chip.rolls.enable := true, chip.rolls.owner := o }.flushBuffer
    | none => w.ignoreReg c off z v

def execFltRingEnable (core : CoreId) (size : Size) (high : Bool) (value : W64) (s : State) :=
  lift (fun w => w.regStore core.val (fltBase + 8) size high true value (fun w => w.ringCtrl core.val size high value)) s

/-- A write to FLT_RING_CONS: TAIL takes a value within the records written; any value while the ring is not enabled
(R546, R547). -/
def Work.ringCons (w : Work) (c : Nat) (z : Size) (high : Bool) (v : W64) : Work :=
  let f := w.chip.rolls
  let t : W32 := BitVec.ofNat 32 (newField z high v 31 0 f.tail.toNat)
  if !w.ringWriter c then w.ignoreReg c (fltBase + 0x18 + halfOff z high) z v
  else if !f.enable || (t - f.tail).toNat ≤ (f.head - f.tail).toNat then { w with chip.rolls.tail := t }
  else w

def execFltRingConsWrite (core : CoreId) (size : Size) (high : Bool) (value : W64) (s : State) :=
  lift (fun w => w.regStore core.val (fltBase + 0x18) size high true value (fun w => w.ringCons core.val size high value)) s

end Sys2Proof.Machine
end

