-- ==== Sys2Proof/Machine/CharterImage.lean ====
section
/-!
DEFINITION. Charter images: their layout (R57 to R64, R66, R71, R73, R74, R78, R248, R249, R434), and the checks of the
Lockkeeper (R65 to R68, R75 to R77, R80, R81, R250, R435). A check answers the ERROR value of R95.
-/

namespace Sys2Proof.Machine

/-- The checks' answers: an ERROR value, or a result. -/
abbrev Check (α : Type) := Except Nat α

/-- Fail with an ERROR value unless a condition holds. -/
def need (ok : Bool) (error : Nat) : Check Unit := if ok then .ok () else .error error

/-- Bytes lo to hi - 1 of a section are 0. -/
def zeroBytes (b : List Byte) (lo hi : Nat) : Bool := ((b.take hi).drop lo).all (· = 0)

/-- No two of a list of numbers are equal. -/
def distinct : List Nat → Bool
  | [] => true
  | x :: l => !l.contains x && distinct l

/-- Ranges (first, count) that hold something are pairwise disjoint. -/
def disjoint (l : List (Nat × Nat)) : Bool :=
  let l := l.filter (fun r => r.2 ≠ 0)
  (l.zipIdx).all (fun x => (l.zipIdx).all (fun y => x.2 = y.2 || x.1.1 + x.1.2 ≤ y.1.1 || y.1.1 + y.1.2 ≤ x.1.1))

/-- No bit is set in two of a list of masks. -/
def exclusive (n : Nat) (l : List (Nat → Bool)) : Bool :=
  (List.range n).all (fun i => (l.filter (fun f => f i)).length ≤ 1)

/-! ## Header, directory and signature block (R58 to R61, R74) -/

/-- A directory entry with its section's bytes. -/
structure Section_ where
  type : Nat
  inst : Nat
  optional : Bool
  offset : Nat
  bytes : List Byte

/-- An image whose header, directory and signature block are well formed. -/
structure Image where
  bytes : List Byte
  version : Nat
  base : Nat
  serial : Nat
  activateAt : Nat
  sigOff : Nat
  secs : List Section_
  /-- Slot, R and S of each signature. -/
  sigs : List (Nat × Nat × Nat)

/-- "HVCHARTR". -/
def charterMagic : List Byte := [0x48, 0x56, 0x43, 0x48, 0x41, 0x52, 0x54, 0x52]

/-- Section types (R60). -/
def knownType (t : Nat) : Bool := [1, 2, 3, 4, 5, 0x10, 0x11, 0x12].contains t

/-- Read an image's header, directory and signature block. -/
def parseImage (b : List Byte) : Check Image := do
  need (64 ≤ b.length && b.length ≤ 16 * 2 ^ 20 && b.take 8 = charterMagic && leAt b 8 2 = 1) 0x10
  let sigOff := leAt b 0x30 4
  let n := leAt b 0x34 2
  let dirEnd := 0x40 + 16 * n
  need (leAt b 0x0C 4 = b.length && 1 ≤ leAt b 0x10 8 && sigOff % 64 = 0 && 1 ≤ n && n ≤ 64 && zeroBytes b 0x36 0x38 &&
    dirEnd ≤ sigOff && sigOff + 8 ≤ b.length) 0x10
  let count := leAt b sigOff 1
  need (zeroBytes b (sigOff + 1) (sigOff + 8) && b.length = sigOff + 8 + 104 * count) 0x10
  let dir := (List.range n).map (fun i => 0x40 + 16 * i)
  let secs := dir.map (fun o =>
    { type := leAt b o 2, inst := leAt b (o + 2) 2, optional := leAt b (o + 4) 4 % 2 = 1, offset := leAt b (o + 8) 4,
      bytes := (b.drop (leAt b (o + 8) 4)).take (leAt b (o + 12) 4) : Section_ })
  need (dir.all (fun o =>
    let off := leAt b (o + 8) 4
    leAt b (o + 4) 4 < 2 && off % 64 = 0 && dirEnd ≤ off && off + leAt b (o + 12) 4 ≤ sigOff)) 0x10
  need (disjoint (secs.map (fun s => (s.offset, s.bytes.length)))) 0x10
  need (secs.all (fun s => knownType s.type || s.optional)) 0x11
  let sigs := (List.range count).map (fun i => sigOff + 8 + 104 * i)
  need (sigs.all (fun o => zeroBytes b (o + 1) (o + 8))) 0x10
  pure { bytes := b, version := leAt b 0x10 8, base := leAt b 0x18 8, serial := leAt b 0x20 8, activateAt := leAt b 0x28 8,
         sigOff := sigOff, secs := secs,
         sigs := sigs.map (fun o => (leAt b o 1, leAt b (o + 8) 48, leAt b (o + 56) 48)) }

/-! ## Sections -/

/-- Entries of n bytes. -/
def entriesOf (b : List Byte) (n : Nat) : List (List Byte) := (List.range (b.length / n)).map (fun i => (b.drop (n * i)).take n)

/-- A REGIONS entry (R66). -/
def parseRegion (b : List Byte) : Region :=
  { base := leAt b 0 8, size := leAt b 8 8, owner := leAt b 16 1, cls := leAt b 17 1, readers := BitVec.ofNat 16 (leAt b 18 2) }

/-- An ACCESS_LIST entry (R71). -/
def parseAcl (b : List Byte) : AclEntry :=
  { modFirst := leAt b 0 2, modLast := leAt b 2 2, pound := leAt b 4 1, perm := BitVec.ofNat 8 (leAt b 5 1), offBase := leAt b 8 8,
    offLast := leAt b 16 8 }

/-- A canal entry (R249). -/
def parseCanal (b : List Byte) : Canal :=
  { prod := leAt b 0 2, outPort := leAt b 2 1, cons := leAt b 4 2, inPort := leAt b 6 1, srcBase := leAt b 8 4, dstBase := leAt b 12 4,
    slotLog2 := leAt b 0x10 1, srcSlots := leAt b 0x12 2, dstSlots := leAt b 0x14 2, sendSem := leAt b 0x16 1,
    freeSem := leAt b 0x17 1, readySem := leAt b 0x18 1, returnSem := leAt b 0x19 1 }

/-- A canal entry is as R249 and R250 state. -/
def canalOk (b : List Byte) : Bool :=
  let c := parseCanal b
  let size := 2 ^ c.slotLog2
  zeroBytes b 3 4 && zeroBytes b 7 8 && zeroBytes b 0x11 0x12 && zeroBytes b 0x1A 0x20 && c.prod < 144 && c.cons < 144 &&
  c.outPort < 4 && c.inPort < 4 && c.srcBase % 64 = 0 && c.dstBase % 64 = 0 && 8 ≤ c.slotLog2 && c.slotLog2 ≤ 16 &&
  1 ≤ c.srcSlots && c.srcSlots ≤ 256 && 1 ≤ c.dstSlots && c.dstSlots ≤ 256 && c.sendSem < 64 && c.freeSem < 64 &&
  c.readySem < 64 && c.returnSem < 64 && c.srcBase + size * c.srcSlots ≤ 0x60_0000 && c.dstBase + size * c.dstSlots ≤ 0x60_0000

/-- A CANALS section (R248). -/
def parseCanals (b : List Byte) : Check (List Canal) := do
  let n := leAt b 0 2
  need (16 ≤ b.length && n ≤ 576 && zeroBytes b 2 16 && b.length = 16 + 32 * n) 0x10
  let es := entriesOf (b.drop 16) 32
  need (es.all canalOk) 0x10
  pure (es.map parseCanal)

/-- A ROUTES section (R434). -/
def parseRoutes (b : List Byte) : Check Routes := do
  let n := leAt b 0 2
  need (64 ≤ b.length && n ≤ 4096 && leAt b 2 2 < 2 && zeroBytes b 4 8 && leAt b 8 8 < 2 ^ 48 && b.length = 64 + 16 * n &&
    ((b.drop 16).take 48).all (fun g => g.toNat < 8)) 0x10
  let es := entriesOf (b.drop 64) 16
  need (es.all (fun e => leAt e 0 2 < 2 ^ 15 && leAt e 0 2 ≤ leAt e 2 2 && leAt e 4 1 < 2 && zeroBytes e 5 8 &&
    leAt e 8 8 ≠ 0 && leAt e 8 8 < 2 ^ 48)) 0x10
  pure { transitDefault := leAt b 2 2 = 1, dateline := BitVec.ofNat 64 (leAt b 8 8), group := (b.drop 16).take 48,
         entries := es.map (fun e => { modFirst := leAt e 0 2, modLast := leAt e 2 2, ordered := leAt e 4 1 = 1,
                                       links := BitVec.ofNat 64 (leAt e 8 8) }) }

/-- A POUND section (R64). -/
def parsePound (b : List Byte) (canals : List Canal) (routes : Option Routes) : Check PoundCfg := do
  let beat := leAt b 6 2
  let drain := leAt b 8 4
  let freq := leAt b 0x6A 2
  let coll := leAt b 0x74 1
  need (b.length = 128 && leAt b 0 4 = 1 && leAt b 4 1 ≤ 2 && leAt b 5 1 ≤ 4 && (beat = 0 || (100 ≤ beat && beat ≤ 60000)) &&
    (drain = 0 || (100 ≤ drain && drain ≤ 10_000_000)) && zeroBytes b 0x0C 0x10 && leAt b 0x10 24 < 2 ^ 144 &&
    leAt b 0x28 16 < 2 ^ 96 && leAt b 0x3E 1 < 64 && zeroBytes b 0x3F 0x40 && leAt b 0x50 8 < 2 ^ 48 && freq % 25 = 0 &&
    600 ≤ freq && freq ≤ 2400 && (coll = 0 || coll = 0xFF || (4 ≤ coll && coll ≤ 16)) && zeroBytes b 0x75 0x80) 0x10
  pure {
    sparePolicy := leAt b 4 1, sparesReserved := leAt b 5 1, heartbeatMs := beat, drainUs := drain
    tileMask := BitVec.ofNat 192 (leAt b 0x10 24), coreMask := BitVec.ofNat 128 (leAt b 0x28 16)
    cacheWays := BitVec.ofNat 16 (leAt b 0x38 2), scratchWays := BitVec.ofNat 16 (leAt b 0x3A 2), scratchClass := leAt b 0x3C 1
    tileClass := leAt b 0x3D 1, portMask := BitVec.ofNat 8 (leAt b 0x3E 1), sqFirst := leAt b 0x40 4, sqCount := leAt b 0x44 4
    cqFirst := leAt b 0x48 4, cqCount := leAt b 0x4C 4, linkMask := BitVec.ofNat 64 (leAt b 0x50 8), rdRate := leAt b 0x58 4
    rdBucket := leAt b 0x5C 4, wrRate := leAt b 0x60 4, wrBucket := leAt b 0x64 4, envelopeW := leAt b 0x68 2, freqMax := freq
    freqGroup := BitVec.ofNat 32 (leAt b 0x6C 4), auditH := leAt b 0x70 2, auditOverdueH := leAt b 0x72 2, collationLog2 := coll
    canals := canals, routes := routes }

/-- Sections of a type. -/
def Image.of (im : Image) (t : Nat) : List Section_ := im.secs.filter (fun s => s.type = t)
/-- The section of a type for a pound. -/
def Image.forPound (im : Image) (t p : Nat) : Option Section_ := (im.of t).find? (fun s => s.inst = p)

/-- The CUSTODIANS section: empty where the image has none of the right length (R73). -/
def Image.custodianBytes (im : Image) : List Byte := match im.of 2 with | [s] => s.bytes | _ => []

/-- Enrolled custodians of a CUSTODIANS section. -/
def parseCustodians (b : List Byte) : List Custodian :=
  ((entriesOf b 112).zipIdx.filter (fun e => leAt e.1 1 1 = 1)).map (fun e =>
    { slot := e.2, keyId := leAt e.1 8 8, pubX := leAt e.1 0x10 48, pubY := leAt e.1 0x40 48 })

/-- One pound with its sections. -/
def Image.pound (im : Image) (s : Section_) : Check (Nat × PoundCfg) := do
  let canals ← match im.forPound 0x12 s.inst with
    | some c => parseCanals c.bytes
    | none => pure []
  let routes ← match im.forPound 0x11 s.inst with
    | some r => (parseRoutes r.bytes).map some
    | none => pure none
  let g ← parsePound s.bytes canals routes
  pure (s.inst, g)

/-- All results, or the first error. -/
def allOk {α β : Type} (f : α → Check β) : List α → Check (List β)
  | [] => pure []
  | x :: l => do
    let y ← f x
    let r ← allOk f l
    pure (y :: r)

/-- Read every section of an image (R60, R62, R64, R66, R71, R78). -/
def Image.charter (im : Image) : Check Charter := do
  let one (t : Nat) : Bool := (im.of t).length = 1
  let atMost (t : Nat) : Bool := (im.of t).length ≤ 1
  let pounds := im.of 0x10
  let perPound (t : Nat) : Bool :=
    distinct ((im.of t).map (fun s => s.inst)) && (im.of t).all (fun s => pounds.any (fun p => p.inst = s.inst))
  need (one 1 && one 2 && one 3 && atMost 4 && atMost 5 && [1, 2, 3, 4, 5].all (fun t => (im.of t).all (fun s => s.inst = 0)) &&
    pounds.all (fun s => s.inst < 16) && distinct (pounds.map (fun s => s.inst)) && perPound 0x11 && perPound 0x12) 0x10
  let bytesOf (t : Nat) : List Byte := match im.of t with | s :: _ => s.bytes | [] => []
  let m := bytesOf 1
  need (m.length = 64 && leAt m 0 2 < 2 ^ 15 && zeroBytes m 2 8 && zeroBytes m 0x28 0x40) 0x10
  need ((bytesOf 2).length = 896) 0x10
  let rs := bytesOf 3
  need (rs.length % 32 = 0 && rs.length ≤ 32 * 1024 && (entriesOf rs 32).all (fun e => zeroBytes e 20 32)) 0x10
  let al := bytesOf 4
  need (al.length % 32 = 0 && al.length ≤ 32 * 4096 && (entriesOf al 32).all (fun e => zeroBytes e 6 8 && zeroBytes e 24 32)) 0x10
  let db := bytesOf 5
  need (db.isEmpty && (im.of 5).isEmpty || (db.length = 16 && db.all (fun x => x.toNat < 16))) 0x10
  let ps ← allOk im.pound pounds
  pure {
    version := BitVec.ofNat 64 im.version, baseVersion := BitVec.ofNat 64 im.base, serial := BitVec.ofNat 64 im.serial
    activateAt := im.activateAt, moduleId := leAt m 0 2, channelMap := BitVec.ofNat 256 (leAt m 8 32)
    custodians := parseCustodians (bytesOf 2), regions := (entriesOf rs 32).map parseRegion
    access := (entriesOf al 32).map parseAcl, debugBits := if db.isEmpty then List.replicate 16 0 else db
    pounds := sortBy (fun (e : Nat × PoundCfg) => e.1) ps }

/-! ## Signatures (R74 to R77) -/

/-- The owner of a resource under a charter, by a test of the pound's masks. -/
def Charter.ownerBy (c : Charter) (f : PoundCfg → Bool) : Option Nat := (c.pounds.find? (fun e => f e.2)).map (·.1)

/-- Two lists have the same members. -/
def sameSet {α : Type} [DecidableEq α] (a b : List α) : Bool := a.all (fun x => b.contains x) && b.all (fun x => a.contains x)

/-- The change from the active charter to another touches protection (R76). -/
def touchesProtection (old new : Charter) : Bool :=
  let differ (n : Nat) (f : PoundCfg → Nat → Bool) : Bool :=
    (List.range n).any (fun i => old.ownerBy (fun g => f g i) ≠ new.ownerBy (fun g => f g i))
  !sameSet old.regions new.regions || differ 144 (fun g => bit g.tileMask) || differ 96 (fun g => bit g.coreMask) ||
  differ 16 (fun g => bit g.scratchWays) || differ 6 (fun g => bit g.portMask) ||
  old.pounds.any (fun e => match SMap.look new.pounds e.1 with
    | some g => g.scratchClass ≠ e.2.scratchClass || g.tileClass ≠ e.2.tileClass
    | none => true) ||
  new.pounds.any (fun e => (SMap.look old.pounds e.1).isNone) ||
  !sameSet old.access new.access || old.custodians ≠ new.custodians || old.debugBits ≠ new.debugBits || old.moduleId ≠ new.moduleId

/-- Every signature of the image verifies against custodians; how many slots have signed (R74, R75). -/
def Image.signed (im : Image) (cs : List Custodian) : Check Nat := do
  let digest := sha384 (im.bytes.take im.sigOff)
  need (im.sigs.all (fun s => match cs.find? (fun c => c.slot = s.1) with
    | some c => ecdsaOk digest c.pubX c.pubY s.2.1 s.2.2
    | none => false)) 0x15
  pure ((cs.filter (fun c => im.sigs.any (fun s => s.1 = c.slot))).length)

/-! ## Constraints (R65 to R68, R71, R73, R250, R435) -/

/-- Rings of the canals with an end on tile t. -/
def ringsOn (cs : List Canal) (t : Nat) : List (Nat × Nat) :=
  cs.flatMap (fun c =>
    (if c.prod = t then [(c.srcBase, 2 ^ c.slotLog2 * c.srcSlots)] else []) ++
    (if c.cons = t then [(c.dstBase, 2 ^ c.slotLog2 * c.dstSlots)] else []))

/-- Semaphores of tile t that its ports take, and those that they signal. -/
def semsOn (cs : List Canal) (t : Nat) : List Nat × List Nat :=
  (cs.flatMap (fun c => (if c.prod = t then [c.sendSem] else []) ++ (if c.cons = t then [c.returnSem] else [])),
   cs.flatMap (fun c => (if c.prod = t then [c.freeSem] else []) ++ (if c.cons = t then [c.readySem] else [])))

/-- The canals of a pound keep the constraints of R250. -/
def canalsOk (g : PoundCfg) : Bool :=
  let cs := g.canals
  let tiles := (List.range 144).filter (fun t => cs.any (fun c => c.prod = t || c.cons = t))
  cs.all (fun c => bit g.tileMask c.prod && bit g.tileMask c.cons) && distinct (cs.map (fun c => c.prod * 4 + c.outPort)) &&
  distinct (cs.map (fun c => c.cons * 4 + c.inPort)) &&
  tiles.all (fun t => disjoint (ringsOn cs t) && distinct (semsOn cs t).1 && (semsOn cs t).1.all (fun s => !(semsOn cs t).2.contains s))

/-- Resources of a charter are in conflict with none (R65, R250, R435). -/
def Charter.resourcesOk (c : Charter) : Bool :=
  let gs := c.pounds.map (·.2)
  let union : W16 := gs.foldl (fun a g => a ||| g.scratchWays) 0
  let onDie (g : PoundCfg) (d : Nat) : Bool := (List.range 36).any (fun i => bit g.tileMask (36 * d + i))
  exclusive 144 (gs.map (fun g => bit g.tileMask)) && exclusive 96 (gs.map (fun g => bit g.coreMask)) &&
  gs.all (fun g => g.coreMask ≠ 0 && (g.sparePolicy ≠ 2 || 1 ≤ g.sparesReserved)) &&
  (List.range 4).all (fun d => (gs.filter (fun g => onDie g d)).foldl (fun a g => a + g.sparesReserved) 0 ≤ 4) &&
  exclusive 16 (gs.map (fun g => bit g.scratchWays)) && (bitList union).length ≤ 12 &&
  c.pounds.all (fun e => e.2.cacheWays &&& union = 0 &&
    (e.2.cacheWays ≠ 0 || !c.regions.any (fun r => r.owner = e.1 && 0x100_0000_0000 ≤ r.base && r.base < 0x200_0000_0000))) &&
  exclusive 6 (gs.map (fun g => bit g.portMask)) && exclusive 48 (gs.map (fun g => bit g.linkMask)) &&
  gs.all (fun g => g.sqFirst + g.sqCount ≤ 2 ^ 20 && g.cqFirst + g.cqCount ≤ 2 ^ 18) &&
  disjoint (gs.map (fun g => (g.sqFirst, g.sqCount))) && disjoint (gs.map (fun g => (g.cqFirst, g.cqCount))) &&
  gs.all (fun g => (g.scratchClass = 1 || g.scratchClass = 2) && (g.tileClass = 1 || g.tileClass = 2)) &&
  gs.all canalsOk &&
  c.pounds.all (fun e => match e.2.routes with
    | some r => r.entries.all (fun x => (List.range 48).all (fun l =>
        !bit x.links l || c.pounds.all (fun f => f.1 = e.1 || !bit f.2.linkMask l)))
    | none => true) &&
  ((gs.filter (fun g => match g.routes with | some r => r.transitDefault | none => false)).length ≤ 1)

/-- Regions keep R66 to R68. -/
def Charter.regionsOk (c : Charter) : Bool :=
  let named (p : Nat) : Bool := (SMap.look c.pounds p).isSome
  let mib2 := 2 ^ 21
  let hbmTop := 0x100_0000_0000 + (bitList c.channelMap).length * 2684354560
  let inside (r : Region) (lo hi : Nat) : Bool := lo ≤ r.base && r.base + r.size ≤ hi
  c.regions.all (fun r =>
    r.base % mib2 = 0 && r.size % mib2 = 0 && r.size ≠ 0 && (r.owner = 0xFE || (r.owner < 16 && named r.owner)) &&
    1 ≤ r.cls && r.cls ≤ 5 && (r.cls = 3 || r.readers = 0) && (bitList r.readers).all named &&
    (r.owner ≠ 0xFE || r.cls = 1) && (r.cls < 4 || inside r 0x100_0000_0000 hbmTop) &&
    (inside r 0 0x100_0000_0000 || inside r 0x100_0000_0000 hbmTop ||
      (List.range 4).any (fun p => inside r (0x1000_0000_0000 + p * 2 ^ 42) (0x1000_0000_0000 + (p + 1) * 2 ^ 42)))) &&
  disjoint (c.regions.map (fun r => (r.base, r.size)))

/-- The access list keeps R71. -/
def Charter.accessOk (c : Charter) : Bool :=
  c.access.all (fun a =>
    a.modFirst ≤ a.modLast && a.modLast < 2 ^ 15 && a.perm.toNat < 8 && a.offBase % 4096 = 0 && a.offBase ≤ a.offLast && a.offLast < 2 ^ 40 &&
    c.regions.any (fun r => r.owner = a.pound && (r.cls = 4 || r.cls = 5) && r.base ≤ 0x100_0000_0000 + a.offBase &&
      0x100_0000_0000 + a.offLast < r.base + r.size))

/-- A CUSTODIANS section keeps R73. -/
def custodiansOk (b : List Byte) : Bool :=
  let cs := parseCustodians b
  (entriesOf b 112).zipIdx.all (fun e =>
    if leAt e.1 1 1 = 0 then zeroBytes e.1 2 112 && leAt e.1 0 1 = e.2
    else leAt e.1 1 1 = 1 && leAt e.1 0 1 = e.2 && zeroBytes e.1 2 8) &&
  2 ≤ cs.length && distinct (cs.map (fun c => c.pubX * 2 ^ 384 + c.pubY)) && cs.all (fun c => onCurve c.pubX c.pubY)

/-- A part that the charter names is excluded, failed, or quarantined without a spare (R65). -/
def Work.partsOk (w : Work) (c : Charter) : Bool :=
  let out (d : Nat) : Bool := if d < 4 then bit w.chip.boot.dieExcluded d else d = 5 && bit w.chip.boot.dieExcluded 4
  c.pounds.all (fun e =>
    let g := e.2
    (List.range 144).all (fun t => !bit g.tileMask t || (!out (t / 36) && (w.tile t).st ≠ .quarantined)) &&
    (List.range 96).all (fun h => !bit g.coreMask h || (!out (4 + h / 48) && (w.hart h).st ≠ .failed)) &&
    (List.range 4).all (fun p => !bit g.portMask p || !out (4 + p / 2)) &&
    (List.range 2).all (fun n => !bit g.portMask (4 + n) || !out (4 + n)) &&
    (List.range 48).all (fun l => !bit g.linkMask l || (!out (l / 12) && (w.link l).st ≠ .failed))) &&
  (List.range 256).all (fun ch => !bit c.channelMap ch || (!out (ch / 64) && (w.hbmCh ch).health ≠ 2))

/-! ## The whole verification (R80, R81) -/

/-- How an image is verified: as a load, against the active charter or, where none is active, against itself (R75, R77);
or as a stored image, against itself (R99). -/
inductive Verify where
  | load | stored
deriving DecidableEq, Repr

/-- Verify an image: its charter, or the ERROR of the first check that fails. -/
def Work.verify (w : Work) (how : Verify) (b : List Byte) : Check Charter := do
  let im ← parseImage b
  let c ← im.charter
  need (c.serial = w.fuse.serial) 0x12
  let active := match how with | .load => w.chip.cht.active | .stored => none
  match how with
  | .load =>
    let (v, base) := match active with | some a => (a.version.toNat, a.version) | none => (0, 0)
    need (v < c.version.toNat) 0x13
    need (c.baseVersion = base) 0x14
  | .stored => pure ()
  let signers ← im.signed (match active with | some a => a.custodians | none => c.custodians)
  let least := match how, active with
    | .stored, _ => 1
    | .load, none => 2
    | .load, some a => if touchesProtection a c then 2 else 1
  need (least ≤ signers) 0x16
  need c.resourcesOk 0x18
  need (how = .stored || w.partsOk c) 0x19
  need c.regionsOk 0x1A
  need c.accessOk 0x1B
  need (custodiansOk im.custodianBytes) 0x17
  match how with
  | .stored => pure ()
  | .load =>
    need (c.activateAt = 0 || w.locked) 0x1D
    need (c.activateAt = 0 || w.now < c.activateAt) 0x1C
  pure c

end Sys2Proof.Machine
end

