-- ==== Sys2Proof/Machine/Charter.lean ====
section
/-!
DEFINITION. The charter's life: loading, verification, activation, the restart of pounds, and the scrubbing of what changes
owner (R79 to R101, R402, R563).
-/

namespace Sys2Proof.Machine

/-! ## Loading (R77 to R82, R94, R95) -/

/-- CHT_STATUS.ERROR takes a value; every one but 0 is recorded (R95). -/
def Work.chtError (w : Work) (e version : Nat) : Work :=
  let w := { w with chip.cht.error := BitVec.ofNat 8 e }
  if e = 0 then w else w.record { cls := 0x0103, kind := 0xC, action := 6, d0 := version, d1 := e }

/-- VERSION of an image (R58). -/
def imageVersion (b : List Byte) : Nat := leAt b 0x10 8

/-- An image is being verified, or a charter is staged (R82). -/
def Work.chtBusy (w : Work) : Bool := w.chip.cht.verifying.isSome || w.chip.cht.staged.isSome

/-- The image that CHT_LOAD_ADDR and CHT_LOAD_LEN name lies in memory that core c may read (R70, R95). -/
def Work.imageReachable (w : Work) (c a n : Nat) : Bool :=
  1 ≤ n && n ≤ 16 * 2 ^ 20 && (pieces a n).all (fun p => w.acc (.core c) p.1 p.2 false = .ok)

/-- LOAD: the Lockkeeper copies the image and verifies it (R79). -/
def Work.chtLoad (w : Work) (c : Nat) : Work :=
  let a := w.chip.cht.loadAddr.toNat * 64
  let n := w.chip.cht.loadLen.toNat
  if w.provisioning then w.chtError 0x21 0
  else if w.chtBusy then w.chtError 0x1E 0
  else if !w.imageReachable c a n then w.chtError 0x20 0
  else { w with chip.cht.verifying := some (w.vread a n) }.chtError 0 0

/-- A store of OP to CHT_CMD. -/
def Work.chtCmdStore (w : Work) (c op : Nat) (f : Work → Work) : Work :=
  w.regStore c (chtBase + 0x10) .b8 false true (BitVec.ofNat 64 op) f

def execChtLoad (core : CoreId) (s : State) := lift (fun w => w.chtCmdStore core.val 1 (fun w => w.chtLoad core.val)) s

/-- CANCEL: its effect, and the ERROR it answers (R82). -/
def Work.cancelCharter (w : Work) : Work × Nat :=
  let u := w.chip.cht
  match u.verifying with
  | some b => ({ w with chip.cht.verifying := none }.chtError 0x24 (imageVersion b), 0)
  | none =>
    match u.staged with
    | some _ => (({ w with chip.cht.staged := none }.cancelOrders (fun o => o.action = 3)).chtError 0 0, 0)
    | none =>
      let e := if u.restarting.isEmpty then 0x23 else 0x1F
      (w.chtError e 0, e)

def execChtCancel (core : CoreId) (s : State) := lift (fun w => w.chtCmdStore core.val 2 (fun w => w.cancelCharter.1)) s

/-- OP 0b00 or 0b11 written to CHT_CMD (R94). The other OP values have rows of their own, whose effects this one has. -/
def Work.chtCommand (w : Work) (c op : Nat) : Work :=
  if op = 1 then w.chtLoad c else if op = 2 then w.cancelCharter.1 else w.chtError 0x22 0

def execChtBadCommand (core : CoreId) (op : BitVec 2) (s : State) :=
  lift (fun w => w.chtCmdStore core.val op.toNat (fun w => w.chtCommand core.val op.toNat)) s

/-- LOAD_CHARTER brings one part of an image; with the last part it is verified as any load is (R77, R79, R484). A part that
does not follow the one before it has completion code ERROR_INVALID_DATA. -/
def Work.loadPart (w : Work) (offset : Nat) (part : List Byte) (last : Bool) : Work :=
  let parts := if offset = 0 then [] else w.chip.cht.parts
  if offset ≠ parts.length then w.answer 2 []
  else
    let b := parts ++ part
    if 16 * 2 ^ 20 < b.length || (last && b.isEmpty) then
      (({ w with chip.cht.parts := [] }).chtError 0x20 0).answerStatus 0x20
    else if !last then { w with chip.cht.parts := b }.answer 0 []
    else if w.chtBusy then (({ w with chip.cht.parts := [] }).chtError 0x1E 0).answerStatus 0x1E
    else ({ w with chip.cht.parts := [], chip.cht.verifying := some b }.chtError 0 0).answer 0 []

def execLoadCharter (offset : W32) (part : List Byte) (last : Bool) (s : State) :=
  liftIf (part.length ≤ 65536) (fun w => w.manage (fun w => w.loadPart offset.toNat part last)) s

def execCancelCharter (s : State) :=
  lift (fun w => w.manage (fun w => let (w, e) := w.cancelCharter; w.answerStatus e)) s

/-! ## Which pounds restart (R85, R86) -/

/-- A configuration without the fields that apply in place (R86). -/
def PoundCfg.structure_ (g : PoundCfg) : PoundCfg :=
  { g with
    sparePolicy := 0, sparesReserved := 0, heartbeatMs := 0, drainUs := 0, rdRate := 0, rdBucket := 0, wrRate := 0
    wrBucket := 0, envelopeW := 0, freqMax := 0, freqGroup := 0, auditH := 0, auditOverdueH := 0, collationLog2 := 0
    routes := none }

/-- A configuration that takes the in-place fields of another (R86). -/
def PoundCfg.inPlace (g new : PoundCfg) : PoundCfg :=
  { g with
    sparePolicy := new.sparePolicy, sparesReserved := new.sparesReserved, heartbeatMs := new.heartbeatMs
    drainUs := new.drainUs, rdRate := new.rdRate, rdBucket := new.rdBucket, wrRate := new.wrRate, wrBucket := new.wrBucket
    envelopeW := new.envelopeW, freqMax := new.freqMax, freqGroup := new.freqGroup, auditH := new.auditH
    auditOverdueH := new.auditOverdueH, collationLog2 := new.collationLog2, routes := new.routes }

/-- Regions that pound p owns, and those that it owns or reads. -/
def Charter.owned (c : Charter) (p : Nat) : List Region := c.regions.filter (fun r => r.owner = p)
def Charter.reached (c : Charter) (p : Nat) : List Region :=
  c.regions.filter (fun r => r.owner = p || (r.cls = 3 && bit r.readers p))

/-- A region of HBM. -/
def Region.inHbm (r : Region) : Bool := 0x100_0000_0000 ≤ r.base && r.base < 0x200_0000_0000

/-- A pound restarts when a charter takes the place of another, or of none (R85). -/
def restarts (old : Option Charter) (c : Charter) (p : Nat) : Bool :=
  let was := old.bind (fun o => SMap.look o.pounds p)
  let is := SMap.look c.pounds p
  if was.isNone && is.isNone then false
  else match old with
    | none => true
    | some o =>
      decide (was.map PoundCfg.structure_ ≠ is.map PoundCfg.structure_) || !sameSet (o.reached p) (c.reached p) ||
      decide (o.debugBits.getD p 0 ≠ c.debugBits.getD p 0) || decide (o.moduleId ≠ c.moduleId) ||
      (decide (o.channelMap ≠ c.channelMap) && ((o.owned p).any Region.inHbm || (c.owned p).any Region.inHbm))

/-! ## What is zeroed (R91, R92) -/

/-- Who uses a resource: an owner of R66, and whether its code mode is detecting. -/
abbrev Use := Option (Nat × Bool)

/-- Use of a byte of memory under a list of regions. -/
def useOf (rs : List Region) (a : Nat) : Use :=
  (rs.find? (fun r => r.has a)).map (fun r => (r.owner, decide (r.cls = 2 ∨ r.cls = 5)))

/-- Regions of the active charter; in provisioning all of LP-DRAM behaves as COMMON (R101). -/
def regionsOf (c : Option Charter) : List Region :=
  match c with
  | some c => c.regions
  | none => [{ base := 0, size := 0x100_0000_0000, owner := 0xFE, cls := 1, readers := 0 }]

/-- Ranges between the ends of two lists of regions. -/
def spans (a b : List Region) : List (Nat × Nat) :=
  let pts := (sortBy id ((a ++ b).flatMap (fun r => [r.base, r.base + r.size]))).eraseDups
  List.zip pts (pts.drop 1)

/-- Use of tile t's store, and of scratchpad way y. -/
def tileUse (c : Option Charter) (t : Nat) : Use :=
  c.bind (fun c => (c.pounds.find? (fun e => bit e.2.tileMask t)).map (fun e => (e.1, decide (e.2.tileClass = 2))))
def wayUse (c : Option Charter) (y : Nat) : Use :=
  c.bind (fun c => (c.pounds.find? (fun e => bit e.2.scratchWays y)).map (fun e => (e.1, decide (e.2.scratchClass = 2))))

/-- The pound of a use. -/
def Use.pound (u : Use) : Option Nat := match u with | some (p, _) => if p < 16 then some p else none | none => none

/-- A resource that is zeroed between one use and another. -/
def zeroed (base size : Nat) (was is : Use) : Scrub :=
  { base := base, size := size, old := was.pound, new := is.pound, oldLater := false, newLater := false }

/-- A resource whose use changes from one charter to another. -/
def changed (base size : Nat) (was is : Use) : List Scrub := if was = is then [] else [zeroed base size was is]

/-- Everything that changes owner or code mode. Where the interleave changes, all HBM of a pound is zeroed, and what no pound
holds goes with the window (R399). -/
def changes (old : Option Charter) (c : Charter) : List Scrub :=
  let rs := regionsOf old
  let remap := match old with | some o => decide (o.channelMap ≠ c.channelMap) | none => true
  (spans rs c.regions).flatMap (fun s =>
    let was : Use := useOf rs s.1
    let is : Use := useOf c.regions s.1
    if remap && 0x100_0000_0000 ≤ s.1 && s.1 < 0x200_0000_0000 then
      if (Use.pound was).isSome || (Use.pound is).isSome then [zeroed s.1 (s.2 - s.1) was is] else []
    else changed s.1 (s.2 - s.1) was is) ++
  (List.range 144).flatMap (fun t => changed (tileAddr t 0) 0x80_0000 (tileUse old t) (tileUse (some c) t)) ++
  (List.range 16).flatMap (fun y => changed (0x200_0000_0000 + y * 0x600_0000) 0x600_0000 (wayUse old y) (wayUse (some c) y))

/-- Way of a scratchpad chunk. -/
def Scrub.way (s : Scrub) : Option Nat :=
  if 0x200_0000_0000 ≤ s.base && s.base < 0x200_6000_0000 then some ((s.base - 0x200_0000_0000) / 0x600_0000) else none

/-- An HBM-owning pound still drains: the old interleave stays in force (R85, R399). -/
def Work.hbmDrains (w : Work) : Bool := (List.range 16).any (fun p => w.drains p && (w.pound p).regs.any Region.inHbm)

/-- The interleave of the active charter is not in force yet. -/
def Work.mapPending (w : Work) : Bool :=
  match w.chip.cht.active with | some c => c.channelMap ≠ w.chip.cht.mapNow | none => false

/-- HBM whose zeroing waits for the interleave to change (R399), unless its new owner finishes an earlier restart first (R90). -/
def Work.awaitsMap (w : Work) (s : Scrub) : Bool :=
  w.mapPending && 0x100_0000_0000 ≤ s.base && s.base < 0x200_0000_0000 &&
  match s.new with | some p => !w.chip.cht.deferred.contains p | none => true

/-- A resource can be zeroed: its old owner has drained, and so has every pound that caches in a way which becomes scratchpad
(R92, R402). -/
def Work.scrubBegun (w : Work) (s : Scrub) : Bool :=
  s.old.isNone && !s.newLater && !w.awaitsMap s &&
  match s.way, s.new with | some y, some _ => (w.ownerBy (fun g => bit g.cacheWays y)).isNone | _, _ => true

/-- A resource is zeroed; the dirty sectors of a way that becomes scratchpad go to HBM first (R402). -/
def Work.scrub (w : Work) (s : Scrub) : Work :=
  let w := match s.way, s.new with
    | some y, some _ => w.each (w.chip.slices.map (fun (e : Nat × Slice) => e.1)) (fun w n => w.dropSectors n (fun (e : Nat × Sector) => e.2.way = y))
    | _, _ => w
  let w := { w with chip.cht.scrubs := without w.chip.cht.scrubs s }
  w.pzero s.base s.size

/-- Everything is zeroed that can be and that no pound gains (R91). -/
def Work.scrubLeft (w : Work) : Work :=
  w.each (w.chip.cht.scrubs.filter (fun s => s.new.isNone && w.scrubBegun s)) (fun w s => w.scrub s)

/-- What pound p has given up by draining may be zeroed; what it takes or gives up in a further restart comes later (R90, R92). -/
def Work.scrubsDrained (w : Work) (p : Nat) : Work :=
  { w with chip.cht.scrubs := w.chip.cht.scrubs.map (fun s =>
      if s.old = some p && !s.oldLater then { s with old := none } else s) }

/-- Pound p begins its further restart: what that restart changes no longer waits for it to begin (R90). -/
def Work.scrubsNow (w : Work) (p : Nat) : Work :=
  { w with chip.cht.scrubs := w.chip.cht.scrubs.map (fun s =>
      { s with oldLater := s.oldLater && s.old ≠ some p, newLater := s.newLater && s.new ≠ some p }) }

/-- Mark what changes owner; what had no pound and gets none is zeroed at once. -/
def Work.markScrubs (w : Work) (old : Option Charter) (c : Charter) : Work :=
  let late (p : Option Nat) : Bool := match p with | some p => w.chip.cht.deferred.contains p | none => false
  let l := (changes old c).map (fun s => { s with oldLater := late s.old, newLater := late s.new })
  let w := { w with chip.cht.scrubs := w.chip.cht.scrubs ++ l.filter (fun (s : Scrub) => s.old.isSome || s.new.isSome) }
  w.each (l.filter (fun (s : Scrub) => s.old.isNone && s.new.isNone)) (fun w s => w.scrub s)

/-! ## Pounds starting (R87, R100, R402, R563) -/

/-- Classes that hold a resource of a configuration have settled (R563): bits of CAT_SETTLED. -/
def Work.classesSettled (w : Work) (g : PoundCfg) (rs : List Region) : Bool :=
  let up (need : Bool) (i : Nat) : Bool := !need || bit w.chip.boot.settled i
  up (g.coreMask ≠ 0) 0 && up (rs.any (fun r => r.base < 0x100_0000_0000)) 1 && up (g.tileMask ≠ 0) 3 &&
  up (g.cacheWays ≠ 0 || g.scratchWays ≠ 0) 4 && up (rs.any Region.inHbm) 5 && up (g.sqCount ≠ 0) 6 &&
  up (g.linkMask ≠ 0) 7 && up (g.linkMask ≠ 0) 8 && up (bits g.portMask 3 0 ≠ 0) 9 && up (bits g.portMask 5 4 ≠ 0) 10

/-- A resource that a configuration names has been excluded, has failed, or is held by a quarantined tile (R100, R402, R404,
R563). -/
def Work.resourceLost (w : Work) (g : PoundCfg) (rs : List Region) : Bool :=
  let out (d : Nat) : Bool := if d < 4 then bit w.chip.boot.dieExcluded d else d = 5 && bit w.chip.boot.dieExcluded 4
  let lost (n : Nat) (has : Nat → Bool) (bad : Nat → Bool) : Bool := (List.range n).any (fun i => has i && bad i)
  lost 144 (bit g.tileMask) (fun t => out (t / 36) || (w.tile t).st = .quarantined || (w.tile t).st = .offline) ||
  lost 96 (bit g.coreMask) (fun h => out (4 + h / 48) || (w.hart h).st = .failed) ||
  lost 4 (bit g.portMask) (fun p => out (4 + p / 2)) || lost 2 (fun e => bit g.portMask (4 + e)) (fun e => out (4 + e)) ||
  lost 48 (bit g.linkMask) (fun l => out (l / 12) || (w.link l).st = .failed) ||
  lost 16 (bit g.scratchWays) (fun y => w.chip.flash.summary.waysDisabled.any (fun e => bit e.2 y)) ||
  rs.any (fun r =>
    lost 2 (fun h => max r.base (h * 2 ^ 39) < min (r.base + r.size) ((h + 1) * 2 ^ 39)) (fun h =>
      decide (h * 2 ^ 39 + (w.lpdMapped h).length * 2 ^ 35 < min (r.base + r.size) ((h + 1) * 2 ^ 39))) ||
    lost 4 (fun q => 0x1000_0000_0000 + q * 2 ^ 42 ≤ r.base && r.base < 0x1000_0000_0000 + (q + 1) * 2 ^ 42)
      (fun q => out (4 + q / 2)) ||
    (r.inHbm && w.mapped.any (fun ch => out (ch / 64) || (w.hbmCh ch).health = 2)))

/-- Pound p becomes "activation failed": what it has in flight completes with status 0x0011, and it owns nothing (R100,
R563). -/
def Work.failPound (w : Work) (p : Nat) : Work :=
  let w := w.each (w.sqsOf p) (fun w q => (w.abortFetched q 0x11).abortStarted q 0x11 7)
  let w := w.canalTearDown p
  let w := w.each (idxs 144 (fun t => w.tileOwner t = some p)) (fun w t =>
    w.modTile t (fun x => if x.st = .quarantined || x.st = .offline then x else { x.resetKeep with st := .unowned }))
  w.modPound p (fun x => { x with st := .activationFailed, cfg := none, regs := [], armed := false })

/-- Every submission queue of pound p enters HELD; commands that have been fetched and not started complete with status
0x0011 (R309, R571). -/
def Work.holdQueues (w : Work) (p : Nat) : Work :=
  w.each (w.sqsOf p) (fun w q =>
    if (w.sq q).st = .disabled then w
    else (w.modSq q (fun s => { s with st := .held })).abortFetched q 0x11)

/-- Pound p runs, or waits for its owner where a self-reset is in force or was asked for (R90, R574). -/
def Work.runPound (w : Work) (p : Nat) : Work :=
  let x := w.pound p
  match x.selfResetAfter with
  | some cause =>
    (w.modPound p (fun x =>
      { x with
        selfResetAfter := none, held := true, selfReset := true, cause := cause, losses := satAdd 16 x.losses 1
        armed := false, st := .waitingOwner, fenced := true })).holdQueues p
  | none =>
    if x.held then w.modPound p (fun x => { x with st := .waitingOwner, fenced := true })
    else w.modPound p (fun x => { x with st := .running })

/-- The canals, the power state and the frequency group of a pound that starts. -/
def Work.setUpPound (w : Work) (p : Nat) (g : PoundCfg) : Work :=
  (((w.canalSetUp p g.canals).initPower p).fgSetup p).retarget p

/-- A pound that starts runs when the classes that hold its resources have settled, or fails (R100, R563). -/
def Work.settlePound (w : Work) (p : Nat) : Work :=
  let x := w.pound p
  match x.cfg with
  | none => w
  | some g =>
    if x.st ≠ .starting || w.chip.cht.restarting.contains p || !w.classesSettled g x.regs then w
    else if w.resourceLost g x.regs then w.failPound p
    else (w.setUpPound p g).runPound p

def Work.settlePounds (w : Work) : Work := w.each (List.range 16) (fun w p => w.settlePound p)

/-! ## Restarts (R87 to R92) -/

/-- Pound p begins to restart toward a configuration; what its host cores have posted is cancelled (R87, R119). -/
def Work.startRestart (w : Work) (p : Nat) (g : Option PoundCfg) (rs : List Region) : Work :=
  let merge (o : PoundCfg) : PoundCfg := match g with | some n => o.inPlace n | none => o
  let w := w.modPound p (fun x =>
    { x with cfg := x.cfg.map merge, goal := some (g, rs), st := .draining, armed := false })
  { w with chip.cht.restarting := without w.chip.cht.restarting p ++ [p] }.cancelPoundOrders p

/-- The changes of a charter that need no restart of pound p (R86). -/
def Work.applyInPlace (w : Work) (p : Nat) (new : PoundCfg) : Work :=
  let old := w.cfg? p
  let w := w.modPound p (fun x =>
    { x with
      cfg := x.cfg.map (fun o => o.inPlace new)
      goal := x.goal.map (fun g => (g.1.map (fun o => o.inPlace new), g.2)) })
  let w := if (old.map (·.freqGroup)) = some new.freqGroup then w else w.fgSetup p
  w.retarget p

/-- What a charter brings to pound p at the activation moment (R85, R86, R90). -/
def Work.applyPound (w : Work) (old : Option Charter) (c : Charter) (p : Nat) : Work :=
  let is := SMap.look c.pounds p
  if restarts old c p then
    if w.chip.cht.restarting.contains p then
      { w with chip.cht.deferred := without w.chip.cht.deferred p ++ [p] }
    else w.startRestart p is (c.owned p)
  else match is with
    | some g => w.applyInPlace p g
    | none => w

/-- HBM_WINDOW is set once every channel of the map and its home slice are in service (R560). -/
def Work.checkWindow (w : Work) : Work :=
  if !w.mapped.isEmpty && w.mapped.all (fun ch => bit w.chip.boot.hbm ch && bit w.chip.boot.arc (ch / 2)) then
    { w with chip.boot.hbmWindow := true }
  else w

/-- The whole HBM window is zeroed and the interleave re-forms, once every pound that owns HBM has drained (R399). -/
def Work.switchMap (w : Work) : Work :=
  match w.chip.cht.active with
  | some c =>
    if !w.mapPending || w.hbmDrains then w
    else
      let w := w.pzero 0x100_0000_0000 0x100_0000_0000
      let w : Work := { w with
        chip.cht.mapNow := c.channelMap
        chip.cht.scrubs := w.chip.cht.scrubs.filter (fun s =>
          !(0x100_0000_0000 ≤ s.base && s.base < 0x200_0000_0000 && s.new.isNone))
        chip.sizeCodes := []
        chip.units := []
        chip.slices := SMap.mapVal w.chip.slices (fun _ x => { x with sectors := [], evict := [], expand := [] }) }
      w.checkWindow
  | none => w

/-- Pound p enters its starting step, in which the canals of its charter are set up (R87, R263). -/
def Work.enterStart (w : Work) (p : Nat) (cs : List Canal) : Work :=
  (w.modPound p (fun x => { x with st := .starting })).canalSetUp p cs

/-- Pound p has nothing more to scrub: it starts (R87). -/
def Work.settleScrub (w : Work) (p : Nat) : Work :=
  let x := w.pound p
  if x.st = .scrubbing && !w.chip.cht.scrubs.any (fun s => s.new = some p && !s.newLater) &&
      !(w.mapPending && x.regs.any Region.inHbm && !w.chip.cht.deferred.contains p)
  then w.enterStart p (match x.cfg with | some g => g.canals | none => []) else w

/-- A submission or completion queue leaves its pound: its context is zero (R283). -/
def Work.dropQueues (w : Work) (p : Nat) (g : Option PoundCfg) : Work :=
  let keep (lo n q : Nat) : Bool := lo ≤ q && q < lo + n
  let sqs := (w.sqsOf p).filter (fun q => match g with | some g => !keep g.sqFirst g.sqCount q | none => true)
  let cqs := (w.cqsOf p).filter (fun q => match g with | some g => !keep g.cqFirst g.cqCount q | none => true)
  let w := w.each sqs (fun w q =>
    let bound := (w.sq q).st ≠ .disabled
    let w := if bound then w.modCq (w.sq q).cqNum (fun c => { c with bound := c.bound - 1, reserved := c.reserved - 1 }) else w
    w.modSq q (fun _ => Sq.zero))
  let w := w.each cqs (fun w q => w.modCq q (fun _ => Cq.zero))
  if cqs.contains (w.pound p).noticeCq then w.modPound p (fun x => { x with noticeValid := false, noticeCq := 0 }) else w

/-- A tile whose pound gives it up, or which its pound starts with (R87, R157): as after tile reset. -/
def Tile.handOver (x : Tile) (st : TileSt) : Tile :=
  match x.st with
  | .quarantined | .offline => x
  | .exchanging => { x with exPrev := st }
  | _ => { x.resetKeep with st := st }

/-- Pound p has drained: its canals go, what leaves it is given up, and its new structure comes into force (R87, R266). -/
def Work.drainEnd (w : Work) (p : Nat) : Work :=
  let x := w.pound p
  match x.goal with
  | none => w
  | some (g, rs) =>
    if (w.sqsOf p).any w.sqBusy then w
    else
      let w := w.canalTearDown p
      let w := w.dropQueues p g
      let gone := idxs 144 (fun t => w.tileOwner t = some p && !(match g with | some g => bit g.tileMask t | none => false))
      let w := w.each gone (fun w t => w.modTile t (fun x => { x.handOver .unowned with ledger := [] }))
      let w := w.modPound p (fun x => { x with cfg := g, regs := rs, goal := none, st := .scrubbing, fences := [] })
      let w := (w.scrubsDrained p).scrubLeft
      let w := match g with
        | some _ => w
        | none =>
          { w with
            chip.cht.restarting := without w.chip.cht.restarting p
            chip.pwr.pounds := SMap.erase w.chip.pwr.pounds p
            chip.pounds := SMap.modify Pound.none w.chip.pounds p (fun x => { Pound.none with losses := x.losses }) }
      let w := w.switchMap.each (List.range 16) (fun w p => w.settleScrub p)
      match g, w.chip.cht.deferred.contains p, w.chip.cht.active with
      | none, true, some c =>
        ({ w with chip.cht.deferred := without w.chip.cht.deferred p, chip.cht.late := true }.scrubsNow p).startRestart p
          (SMap.look c.pounds p) (c.owned p)
      | _, _, _ => w

def execPoundDrainEnd (pound : PoundId) (s : State) := lift (fun w => w.drainEnd pound.val) s

/-- DRAIN_TIMEOUT_US of a restart has passed: what still runs completes with "aborted by disable" (R87). -/
def execPoundDrainTimeout (pound : PoundId) (s : State) :=
  lift (fun w =>
    if (w.pound pound.val).goal.isNone then w
    else w.each (w.sqsOf pound.val) (fun w q => (w.abortFetched q 0x0F).abortStarted q 0x0F 7)) s

/-- Zeroing of what pound p gains ends, where it has begun (R92). -/
def Work.scrubDone (w : Work) (p : Nat) : Work :=
  let l := w.chip.cht.scrubs.filter (fun s => s.new = some p && w.scrubBegun s)
  (w.each l (fun w s => w.scrub s)).settleScrub p

def execScrubDone (pound : PoundId) (s : State) := lift (fun w => w.scrubDone pound.val) s

/-- The restart of pound p ends: its tiles are reset and it runs, or takes a further charter at once (R87, R90). -/
def Work.startDone (w : Work) (p : Nat) : Work :=
  let x := w.pound p
  match x.cfg with
  | none => w
  | some g =>
    if x.st ≠ .starting || !w.chip.cht.restarting.contains p then w
    else
      let w := w.each (idxs 144 (fun t => bit g.tileMask t)) (fun w t => w.modTile t (fun x => x.handOver .idle))
      let w := { w with chip.cht.restarting := without w.chip.cht.restarting p }
      if w.chip.cht.deferred.contains p then
        let w := { w with chip.cht.deferred := without w.chip.cht.deferred p, chip.cht.late := true }
        match w.chip.cht.active with
        | some c => ((w.setUpPound p g).scrubsNow p).startRestart p (SMap.look c.pounds p) (c.owned p)
        | none => w
      else w.settlePound p

def execPoundStartDone (pound : PoundId) (s : State) := lift (fun w => w.startDone pound.val) s

/-! ## Activation (R84, R89, R547) -/

/-- Host cores that change owner are reset; one that still runs is recorded (R89). -/
def Work.moveCores (w : Work) (c : Charter) : Work :=
  let new (h : Nat) : Option Nat := (c.pounds.find? (fun e => bit e.2.coreMask h)).map (·.1)
  let moved := (List.range 96).filter (fun h => w.coreOwner h ≠ new h)
  w.each moved (fun w h =>
    let old := w.coreOwner h
    let ran := (w.hart h).st = .running
    let w := if ran then w.record { cls := 0x0105, kind := 1, id := h, pound := optPound (new h), action := 9, d0 := optPound old,
                                    d1 := optPound (new h) } else w
    let w := w.warmCoreReset h
    if ran then w.modHart h (fun x => { x with st := .ready }) else w)

/-- The region of an enabled Fault Rolls ring has left its owner, or is to be zeroed (R547). -/
def Work.checkRing (w : Work) : Work :=
  let f := w.chip.rolls
  let a := f.base.toNat * 4096
  let stays := match w.chip.cht.active with
    | some c => (match c.regions.find? (fun r => r.has a) with | some r => decide (r.owner = f.owner) | none => false)
    | none => false
  if f.enable && (!stays || w.chip.cht.scrubs.any (fun s => s.base < a + f.size * 64 && a < s.base + s.size)) then
    { w with chip.rolls.enable := false, chip.rolls.owner := 0xFF }
  else w

/-- A slice that has left ACTIVE because a channel failed returns with the next activation (R390). -/
def Work.recoverSlices (w : Work) : Work :=
  { w with chip.slices := SMap.mapVal w.chip.slices (fun _ x =>
      if x.st = .recovery && x.recoverAt.isNone then { x with st := .active } else x) }

/-- A verified charter becomes the active one (R84 to R91). -/
def Work.activate (w : Work) (b : List Byte) (c : Charter) : Work :=
  let old := w.chip.cht.active
  let w := w.moveCores c
  let w := { w with
    chip.flash.slot1 := if w.chip.cht.activeImage.isEmpty then w.chip.flash.slot1 else w.chip.cht.activeImage
    chip.flash.slot0 := b
    chip.cht.active := some c
    chip.cht.activeImage := b
    chip.cht.staged := none }
  let w := w.each (List.range 16) (fun w p => w.applyPound old c p)
  let w := (w.markScrubs old c).checkRing.recoverSlices
  if w.mapPending then w.switchMap else w

/-- CHARTER_ACTIVATION: action 0x03 at ACTIVATE_AT (R83, R84). -/
def Work.charterActivation (w : Work) : Work :=
  match w.chip.time.orders.find? (fun e => e.2.action = 3 && e.2.began.isNone), w.chip.cht.staged with
  | some (i, _), some (b, c) =>
    (match w.startable i 3 with
    | none => w
    | some o =>
      let w := w.beginOrder i o none
      let w := { w with chip.cht.late := w.chip.cht.late || w.startsLate o w.now }
      (w.activate b c).endOrder i)
  | _, _ => w

def execCharterActivation (s : State) := lift (fun w => w.charterActivation) s

/-- CHT_VERIFY_DONE: the image is rejected, or staged and its activation's order taken; ACTIVATE_AT 0 activates at once
(R80 to R82). -/
def Work.verifyDone (w : Work) : Work :=
  match w.chip.cht.verifying with
  | none => w
  | some b =>
    let w := { w with chip.cht.verifying := none }
    match w.verify .load b with
    | .error e => w.chtError e (imageVersion b)
    | .ok c =>
      if c.activateAt = 0 then w.activate b c
      else
        let w := { w with chip.cht.staged := some (b, c) }
        match w.freeEntry with
        | (w, some i) =>
          let o : Order :=
            { action := 3, at_ := c.activateAt, pound := 0xFF, notice := 0, arg := 0, poster := .lockkeeper
              accepted := w.chip.time.accepted, began := none, deadline := none, noticed := false }
          { w with chip.time.orders := SMap.insert w.chip.time.orders i o, chip.time.accepted := o.accepted + 1 }
        | (w, none) => w

def execChtVerifyDone (s : State) := lift (fun w => w.verifyDone) s

/-! ## Start-up (R99, R100, R553, R563, R568) -/

/-- Every pound of the active charter comes up afresh. -/
def Work.comeUp (w : Work) : Work :=
  match w.chip.cht.active with
  | none => w
  | some c =>
    let w := { w with
      chip.cht.mapNow := c.channelMap
      chip.cht.restarting := []
      chip.cht.deferred := []
      chip.pounds := c.pounds.map (fun (e : Nat × PoundCfg) => (e.1, { Pound.none with
        st := .starting
        cfg := some e.2
        regs := c.owned e.1
        losses := (w.pound e.1).losses
        cause := (w.pound e.1).cause
        sparesGone := (w.pound e.1).sparesGone })) }
    let w := w.each c.pounds (fun w e => (w.initPower e.1).enterStart e.1 e.2.canals)
    w.checkWindow.settlePounds

/-- Verify the image of a flash slot; a slot that fails is recorded. -/
def Work.tryStored (w : Work) (slot : Nat) (b : List Byte) : Work × Option Charter :=
  match w.verify .stored b with
  | .ok c => (w, some c)
  | .error _ => (w.record { cls := 0x0104, kind := 0xC, d0 := slot, d1 := imageVersion b }, none)

/-- STORED_CHARTER_VERIFY: step 3 of bring-up. After an uncore warm reset the active charter stays (R99, R553, R567). -/
def Work.storedVerify (w : Work) : Work :=
  if w.chip.boot.step ≠ 3 || w.chip.cht.booted then w
  else
    let w := { w with chip.cht.booted := true }
    if w.chip.cht.active.isSome then w.comeUp
    else
      let use (w : Work) (b : List Byte) (c : Charter) : Work :=
        { w with chip.cht.active := some c, chip.cht.activeImage := b }.comeUp
      match w.tryStored 0 w.chip.flash.slot0 with
      | (w, some c) => use w w.chip.flash.slot0 c
      | (w, none) =>
        match w.tryStored 1 w.chip.flash.slot1 with
        | (w, some c) => use w w.chip.flash.slot1 c
        | (w, none) => w

end Sys2Proof.Machine
end

