-- ==== Sys2Proof/Machine/HostMem.lean ====
section
/-!
DEFINITION. Accesses of the host cores to memory: loads, stores, non-temporal stores, AMOs, LR and SC, fences and
cache-block operations (R322 to R333, R346, R352, R355, R357). An access to a register is in the file of host accesses.
-/

namespace Sys2Proof.Machine

/-- The three region types (R327). -/
inductive RegType where
  | main | uncached | io
deriving DecidableEq, Repr

/-- Region type of an address and a page's Svpbmt type (R327). -/
def Place.type (x : Place) (pbmt : Pbmt) : RegType :=
  match x, pbmt with
  | _, .io => .io
  | .lpd _ _, .pma | .hbm _, .pma | .cxl _, .pma => .main
  | .lpd _ _, .nc | .hbm _, .nc | .cxl _, .nc | .mmio _ _, .nc => .uncached
  | .scratch _ _, _ | .tile _ _, _ => .uncached
  | _, _ => .io

/-- A host core returns a value of n bytes. -/
def Work.hostRetBytes (w : Work) (c : Nat) (bs : List Byte) : Work :=
  w.modCore c (fun x => { x with rd := BitVec.ofNat 128 (leNat bs), trap := none })

/-- Bytes with the hart's own committed stores laid over them, in order (R322). -/
def overlay (buf : List StoreUnit) (a : Nat) (bs : List Byte) : List Byte :=
  buf.foldl (fun bs u => (u.bytes.zipIdx).foldl (fun bs b =>
    if a ≤ u.addr + b.2 && u.addr + b.2 < a + bs.length then bs.set (u.addr + b.2 - a) b.1 else bs) bs) bs

/-- The store buffer holds byte a. -/
def buffered (buf : List StoreUnit) (a : Nat) : Bool := buf.any (fun u => u.addr ≤ a && a < u.addr + u.bytes.length)

/-- Bytes of an address range from core c's own cached lines. -/
def Work.cached (w : Work) (c a n : Nat) : List Byte :=
  (List.range n).map (fun i => match w.l2 c ((a + i) / 128) with
    | some x => (x.data.toNat / 2 ^ (8 * ((a + i) % 128))) |> BitVec.ofNat 8
    | none => 0)

/-- The first byte of a cached range that is poisoned and that the store buffer does not hold (R372). -/
def Work.cachedPoison (w : Work) (c a n : Nat) : Option Nat :=
  (List.range n).findSome? (fun i =>
    let b := a + i
    match w.l2 c (b / 128) with
    | some x => if bit x.poison (b % 128 / 32) && !buffered (w.core c).storeBuf b then some b else none
    | none => none)

/-- Core c's L2 holds every line of a range, each used by it. -/
def Work.bring (w : Work) (c a n : Nat) : Work :=
  w.each (linesOf a n) (fun w l =>
    let w := if (w.l2 c l).isSome then w else (w.l2Train c l).fillShared c l none
    w.touch c l)

/-- Core c uses line l of its L2 through its L1I, a tree of 4 ways in each of 128 sets (R345). -/
def Work.touchI (w : Work) (c l : Nat) : Work :=
  match w.l2 c l with
  | none => w
  | some v =>
    let x := w.core c
    let key := 4096 + l % 128
    let same := x.lines.filter (fun e => e.1 % 128 = l % 128 && e.2.l1i.isSome && e.1 ≠ l)
    let tree := SMap.get 0 x.plru key
    let way := match v.l1i with
      | some y => y
      | none => pickWay tree 4 (fun y => same.any (fun e => e.2.l1i = some y))
    w.modCore c (fun x => { x with
      lines := SMap.mapVal x.lines (fun k e =>
        if k = l then { e with l1i := some way } else if k % 128 = l % 128 && e.l1i = some way then { e with l1i := none } else e)
      fetched := without x.fetched l ++ [l]
      plru := SMap.set 0 x.plru key (plruTouch tree way) })

/-- The first instruction fetch of a hart that starts: from main memory that it may read, through its L2 and its L1I (R70, R327,
R345, R372, R556). -/
def Work.hostFetch (w : Work) (c a : Nat) : Work :=
  let la := w.local_ a
  if !(w.place la).mainMemory || w.acc (.core c) a 4 false ≠ .ok then w.hostTrap c 1 a
  else
    let l := la / 128
    let w := if (w.l2 c l).isSome then w else w.fillShared c l none
    let w := w.touchI c l
    match w.cachedPoison c la 4 with
    | some b => w.hostTrap c 19 (a + (b - la))
    | none => w

/-- L2_PREFETCH: a trained detector requests lines up to DEPTH strides ahead, within its 4 KiB page; the home answers
NoData where it would retry (R352, R354). -/
def Work.l2Prefetch (w : Work) (c k : Nat) : Work :=
  match SMap.look (w.core c).detectors k with
  | none => w
  | some d =>
    if !d.trained then w
    else w.each (List.range d.depth) (fun w (i : Nat) =>
      let l := ((d.last : Int) + d.stride * ((i + 1 : Nat) : Int)).toNat
      let n := w.lineHome l
      let h := w.home n
      let busy := (SMap.look h.txns l).isSome || !h.retry.isEmpty || !h.free n || w.heldBy (some c) l (l + 1)
      if l / 32 ≠ d.last / 32 || (w.l2 c l).isSome || busy then w
      else if w.acc (.core c) (l * 128) 128 false = .ok && (w.place (l * 128)).mainMemory then w.fillShared c l (some k)
      else w)

def execL2Prefetch (core : CoreId) (detector : Fin 16) (s : State) :=
  lift (fun w => w.l2Prefetch core.val detector.val) s

/-! ## Loads and stores -/

/-- A non-posted request of a host core to a port: its value arrives with the completion (R328, R473). With 768 requests outstanding
the load waits (R465; log entry 7). -/
def Work.coreRequest (w : Work) (c q a n : Nat) : Work :=
  if (w.port q).full then w
  else w.modPort q (fun p => p.request
    { tag := 0, addr := a, va := a, len := n, core := some c, who := none, dst := none, publish := false })

/-- Core c has to ask for a line of a range that another hart holds after an LR: it waits (R326, R368; log entry 7). -/
def Work.lineHeld (w : Work) (c a n : Nat) (unique : Bool) : Bool :=
  (linesOf a n).any (fun l => !(if unique then w.ownsLine c l else (w.l2 c l).isSome) && w.heldBy (some c) l (l + 1))

/-- A load by core c of n bytes at a memory address (R322, R327, R328, R331, R372); one that has to wait for another hart's hold or
for an exchange of a tile's index is not performed (R30, R326; log entry 7). -/
def Work.hostLoadMem (w : Work) (c a n : Nat) (pbmt : Pbmt) : Work :=
  let la := w.local_ a
  let pl := w.place la
  if w.acc (.core c) a n false ≠ .ok then w.denyLoad c a
  else match pl with
    | .mmio q _ => if a % n ≠ 0 then w.denyLoad c a else w.coreRequest c q a n
    | _ =>
      if (pl.type pbmt = .main && w.lineHeld c la n false) || w.exchangingAt la then w
      else
        let w := w.each (linesOf la n) (fun w l => w.drainWcLine c l)
        match pl.type pbmt with
        | .main =>
          let w := w.bring c la n
          (match w.cachedPoison c la n with
          | some b => w.hostTrap c 19 (a + (b - la))
          | none => w.hostRetBytes c (overlay (w.core c).storeBuf la (w.cached c la n)))
        | _ =>
          let hit := (List.range n).all (fun i => buffered (w.core c).storeBuf (la + i))
          match (if hit then none else w.vpoison a n) with
          | some b => w.hostTrap c 19 (a + (b - la))
          | none => (w.arcReads a n (w.coreOwner c) none).hostRetBytes c (overlay (w.core c).storeBuf la (w.vread a n))

/-- A non-temporal store to main memory merges into the write-combining buffer (R330). -/
def Work.wcStore (w : Work) (c a : Nat) (bs : List Byte) : Work :=
  w.each (linesOf a bs.length) (fun w l =>
    let lo := max a (l * 128)
    let part := (bs.drop (lo - a)).take ((l + 1) * 128 - lo)
    let o := lo - l * 128
    let mask : BitVec 128 := maskOf 128 (fun i => o ≤ i && i < o + part.length)
    let merge (e : WcEntry) : WcEntry :=
      { e with mask := e.mask ||| mask, data := lineOf (splice (lineBytes e.data) o part) }
    if (w.core c).wc.any (fun e => e.line = l) then
      w.modCore c (fun x => { x with wc := x.wc.map (fun e => if e.line = l then merge e else e) })
    else
      let w := match (w.core c).wc with
        | e :: _ => if 8 ≤ (w.core c).wc.length then w.drainWcEntry c e else w
        | [] => w
      w.modCore c (fun x => { x with wc := x.wc ++ [merge { line := l, mask := 0, data := 0 }] }))

/-- A store to the configuration space of a port in CXL mode may program its 4 HDM decoders, whose registers the manual does not
lay out: each then covers an open range, in units of 256 MiB, of the port's window (R465, R466; log entry 30). -/
def Work.programHdm (w : Work) (q off : Nat) : Work :=
  if 0x400_0000 ≤ off || !(w.port q).cxl then w
  else
    let n := w.chip.free
    let free (i : Nat) : Nat := Config.freeNat (n + i)
    { w with chip.free := n + 8 }.modPort q (fun p => { p with
      hdm := (List.range 4).map (fun i =>
        let lo := free (2 * i) % 16384
        (0x1000_0000_0000 + q * 2 ^ 42 + lo * 2 ^ 28, free (2 * i + 1) % (16385 - lo) * 2 ^ 28)) })

/-- A store by core c at a memory address: it is refused, or commits (R322, R327 to R331). -/
def Work.hostStoreMem (w : Work) (c a : Nat) (bs : List Byte) (pbmt : Pbmt) (nt : Bool) : Work :=
  let la := w.local_ a
  let pl := w.place la
  if w.acc (.core c) a bs.length true ≠ .ok then w.denyStore c a
  else match pl with
    | .mmio q o =>
      if a % bs.length ≠ 0 then w.denyStore c a
      else ((w.drainStores c).post la bs (some (.core c))).programHdm q o
    | _ =>
      if pl.type pbmt = .main && nt then w.wcStore c la bs
      else
        let w := w.each (linesOf la bs.length) (fun w l => w.drainWcLine c l)
        match pl.type pbmt with
        | .io => (w.drainStores c).drainUnit c { addr := la, bytes := bs, nc := true }
        | ty => w.modCore c (fun x => { x with storeBuf := x.storeBuf ++ [{ addr := la, bytes := bs, nc := decide (ty = .uncached) }] })

/-! ## Atomics (R323, R325 to R327) -/

/-- An AMO of a host core: every earlier store and write-combining entry is visible first (R323, R331). -/
def Work.hostAmo (w : Work) (c : Nat) (op : AmoOp) (a z v cmp : Nat) (pbmt : Pbmt) : Work :=
  let la := w.local_ a
  let pl := w.place la
  let ty := pl.type pbmt
  if a % z ≠ 0 then w.hostTrap c 6 a
  else if ty = .io || pl.isMmio || w.acc (.core c) a z true ≠ .ok then w.denyStore c a
  else if (ty = .main && w.lineHeld c la z true) || w.exchangingAt la then w
  else
    let w := (w.drainStores c).drainWc c
    if ty = .main then
      let l := la / 128
      let w := if w.ownsLine c l then w else (w.l2Miss c l).fillUnique c l
      let w := w.touch c l
      match w.cachedPoison c la z with
      | some b => w.hostTrap c 19 (a + (b - la))
      | none =>
        let old := w.cached c la z
        (w.writeLine c la (leBytes z (amoValue op z (leNat old) v cmp))).hostRetBytes c old
    else match w.vpoison a z with
      | some b => w.hostTrap c 19 (a + (b - la))
      | none =>
        let old := w.vread a z
        (w.coreWriteOut c la (leBytes z (amoValue op z (leNat old) v cmp))).hostRetBytes c old

def execHostAmo (core : CoreId) (op : AmoOp) (addr : PAddr) (size : Size) (value compare : BitVec 128) (pbmt : Pbmt)
    (s : State) :=
  liftIf (Instr.hostAmo core op addr size value compare pbmt).wellFormed (fun w => w.hostInstr core.val (fun w =>
    w.hostAmo core.val op addr.toNat size.bytes value.toNat compare.toNat pbmt)) s

/-- LR of a host core: a reservation on the 128 B granule, and a hold against snoops (R325, R326). -/
def Work.hostLr (w : Work) (c a z : Nat) (pbmt : Pbmt) : Work :=
  let la := w.local_ a
  let pl := w.place la
  if a % z ≠ 0 then w.hostTrap c 4 a
  else if pl.type pbmt ≠ .main || w.acc (.core c) a z false ≠ .ok then w.denyLoad c a
  else if w.lineHeld c la z false then w
  else
    let w := (w.drainWc c).bring c la z
    match w.cachedPoison c la z with
    | some b => w.hostTrap c 19 (a + (b - la))
    | none =>
      (w.hostRetBytes c (overlay (w.core c).storeBuf la (w.cached c la z))).modCore c (fun x =>
        { x with resv := some (la / 128), lrHold := true })

def execHostLr (core : CoreId) (addr : PAddr) (size : Size) (pbmt : Pbmt) (s : State) :=
  liftIf (Instr.hostLr core addr size pbmt).wellFormed (fun w => w.hostInstr core.val (fun w =>
    w.hostLr core.val addr.toNat size.bytes pbmt)) s

/-- SC of a host core: it writes only while the reservation on its granule is held, and clears it (R323, R325). -/
def Work.hostSc (w : Work) (c a z v : Nat) (pbmt : Pbmt) : Work :=
  let la := w.local_ a
  let pl := w.place la
  if a % z ≠ 0 then w.hostTrap c 6 a
  else if pl.type pbmt ≠ .main || w.acc (.core c) a z true ≠ .ok then w.denyStore c a
  else if (w.core c).resv = some (la / 128) && w.lineHeld c la z true then w
  else
    let w := (w.drainStores c).drainWc c
    let ok := (w.core c).resv = some (la / 128)
    let w := if ok then w.writeLine c la (leBytes z v) else w
    (w.modCore c (fun x => { x with resv := none, lrHold := false, rd := if ok then 0 else 1, trap := none })).pumpAll

def execHostSc (core : CoreId) (addr : PAddr) (size : Size) (value : W64) (pbmt : Pbmt) (s : State) :=
  liftIf (Instr.hostSc core addr size value pbmt).wellFormed (fun w => w.hostInstr core.val (fun w =>
    w.hostSc core.val addr.toNat size.bytes value.toNat pbmt)) s

def execLrHoldExpire (core : CoreId) (s : State) :=
  lift (fun w => (w.modCore core.val (fun x => { x with lrHold := false })).pumpAll) s

/-! ## Fences and cache-block operations -/

/-- FENCE: with w before anything, earlier stores become visible and the write-combining buffer drains (R322, R323, R329,
R331). -/
def Work.hostFence (w : Work) (c : Nat) (pred succ : FenceSet) : Work :=
  if pred.w && (succ.r || succ.w || succ.i || succ.o) then (w.drainStores c).drainWc c else w

def execHostFence (core : CoreId) (pred succ : FenceSet) (s : State) :=
  lift (fun w => w.hostInstr core.val (fun w => w.hostFence core.val pred succ)) s

/-- FENCE.I: the hart's next fetches see what coherence has kept current (R346). -/
def Work.hostFenceI (w : Work) (c : Nat) : Work :=
  (w.drainStores c).modCore c (fun x => { x with
    fetched := []
    lines := SMap.mapVal x.lines (fun _ e => { e with l1i := none }) })

def execFenceI (core : CoreId) (s : State) := lift (fun w => w.hostInstr core.val (fun w => w.hostFenceI core.val)) s

/-- cbo.zero: a store of one line of zeros (R323, R355). -/
def Work.cboZero (w : Work) (c a : Nat) (pbmt : Pbmt) : Work :=
  let a := a / 128 * 128
  let pl := w.place (w.local_ a)
  if pl.type pbmt = .io then w.denyStore c a
  else w.hostStoreMem c a (List.replicate 128 0) pbmt false

def execCboZero (core : CoreId) (addr : PAddr) (pbmt : Pbmt) (s : State) :=
  lift (fun w => w.hostInstr core.val (fun w => w.cboZero core.val addr.toNat pbmt)) s

/-- Dirty data of line l reaches its home from every host-core cache, copies staying (R357, R363). -/
def Work.cleanLine (w : Work) (l : Nat) : Work :=
  let e := w.dirAt l
  if e.st ≠ .o && e.st ≠ .em then w
  else match w.holder e.owner l with
    | none => w
    | some (st, d, p) =>
      if st = .e then w
      else
        let w := (w.homeWrite l d p (w.coreOwner e.owner)).setCopy e.owner l (if st = .m then .e else .s)
        if st = .o then w.setDir l { e with st := .s, owner := 0 } else w

/-- Every copy of line l is invalidated, dirty data reaching its home (R357, R363). -/
def Work.flushLine (w : Work) (l : Nat) : Work :=
  let e := w.dirAt l
  let w := match w.holder e.owner l with
    | some (st, d, p) => if st = LineState.e || (e.st ≠ DirState.o && e.st ≠ DirState.em) then w else w.homeWrite l d p (w.coreOwner e.owner)
    | none => w
  (w.each (bitList e.present) (fun w q => w.dropCopy q l)).setDir l DirEntry.none

/-- cbo.clean, cbo.flush and cbo.inval: ordered as stores to their line (R323, R357). -/
def Work.cboLine (w : Work) (c a : Nat) (pbmt : Pbmt) (f : Work → Nat → Work) : Work :=
  let la := w.local_ (a / 128 * 128)
  let pl := w.place la
  if w.acc (.core c) la 128 false ≠ .ok then w.denyStore c (a / 128 * 128)
  else if w.heldBy (some c) (la / 128) (la / 128 + 1) then w
  else
    let w := (w.drainStores c).drainWcLine c (la / 128)
    if pl.mainMemory && pbmt ≠ .io then f w (la / 128) else w

def execCboClean (core : CoreId) (addr : PAddr) (pbmt : Pbmt) (s : State) :=
  lift (fun w => w.hostInstr core.val (fun w => w.cboLine core.val addr.toNat pbmt Work.cleanLine)) s

def execCboFlush (core : CoreId) (addr : PAddr) (pbmt : Pbmt) (s : State) :=
  lift (fun w => w.hostInstr core.val (fun w => w.cboLine core.val addr.toNat pbmt Work.flushLine)) s

def execCboInval (core : CoreId) (addr : PAddr) (pbmt : Pbmt) (s : State) :=
  lift (fun w => w.hostInstr core.val (fun w => w.cboLine core.val addr.toNat pbmt Work.flushLine)) s

/-! ## Buffers -/

def execWcEntryTimeout (core : CoreId) (line : BitVec 49) (s : State) :=
  lift (fun w => w.drainWcLine core.val line.toNat) s

/-- The oldest store of a hart, or the oldest entry of its write-combining buffer, is refused at its point of coherence
(R333). -/
def Work.storeDropped (w : Work) (c : Nat) (fromWc : Bool) : Work :=
  let x := w.core c
  if fromWc then
    match x.wc with
    | e :: _ => if w.storeOk c (e.line * 128) 128 then w
      else (w.modCore c (fun x => { x with wc := x.wc.drop 1 })).dropStore c (e.line * 128)
    | [] => w
  else
    match x.storeBuf with
    | u :: _ => if w.storeOk c u.addr u.bytes.length then w
      else (w.modCore c (fun x => { x with storeBuf := x.storeBuf.drop 1 })).dropStore c u.addr
    | [] => w

def execStoreDropped (core : CoreId) (fromWc : Bool) (s : State) := lift (fun w => w.storeDropped core.val fromWc) s

def execReadaheadExpire (buffer : Fin 6) (line : BitVec 49) (s : State) :=
  lift (fun w => { w with chip.readAhead := SMap.mapVal w.chip.readAhead (fun b l =>
    if b = buffer.val then l.filter (fun r => r.line ≠ line.toNat) else l) }) s

/-- hpfctl takes a bound of at most 32; its detectors keep within it (R352, R377). -/
def Work.hpfctl (w : Work) (c n : Nat) : Work :=
  let n := min 32 n
  w.modCore c (fun x => { x with
    depth := n
    detectors := SMap.mapVal x.detectors (fun _ d => { d with depth := min d.depth n }) })

def execHpfctlWrite (core : CoreId) (value : W64) (s : State) :=
  lift (fun w => w.hostInstr core.val (fun w => w.hpfctl core.val (bits value 5 0))) s

end Sys2Proof.Machine
end

