-- ==== Sys2Proof/Machine/MemErrors.lean ====
section
/-!
DEFINITION. Errors of memory words (R392 to R395), the health of memory channels (R398, R400, R404), and errors of the
Archive (R373 to R376).
-/

namespace Sys2Proof.Machine

/-- The die of an Archive slice. -/
def sliceDie (s : Nat) : Nat := s / 32

/-- A day in ns. -/
def dayNs : Nat := 86_400_000_000_000

/-- Times within a window before now, and now. -/
def recent (l : List Nat) (now window : Nat) : List Nat := l.filter (fun t => now < t + window) ++ [now]

/-! ## Channel health (R398, R400, R404) -/

/-- Sectors homed on HBM channel ch. -/
def Work.sectorsOn (w : Work) (ch : Nat) : List (Nat × Sector) :=
  (w.slice (ch / 2)).sectors.filter (fun e => (w.hbmAt (e.1 * 128 - 0x100_0000_0000)).1 = ch)

/-- HBM channel ch fails (R400): trigger 1 detected words, 2 no response, 3 training failed at bring-up. -/
def Work.failHbm (w : Work) (ch trigger : Nat) : Work :=
  if (w.hbmCh ch).health = 2 then w
  else
    let gone := w.sectorsOn ch
    let dirty := (gone.filter (fun e => e.2.dirty)).length
    let w := w.modHbm ch (fun x => { x with health := 2 })
    let w := { w with
      chip.flash.summary.hbmHealth := SMap.set 0 w.chip.flash.summary.hbmHealth ch 2
      chip.boot.hbm := setBit w.chip.boot.hbm ch false }
    let w := w.record { cls := 0x0306, kind := 3, id := ch, action := 7, count := dirty, d0 := trigger }
    let below := (w.slice (ch / 2)).evict.filter (fun l => (w.hbmAt (l * 128 - 0x100_0000_0000)).1 = ch)
    w.modSlice (ch / 2) (fun x => { x with
      sectors := x.sectors.filter (fun e => !gone.any (fun g => g.1 = e.1))
      evict := x.evict.filter (fun l => !below.contains l)
      st := .recovery })

/-- LP-DRAM channel ch fails (R404). -/
def Work.failLpd (w : Work) (ch trigger : Nat) : Work :=
  if (w.lpdCh ch).health = 2 then w
  else
    let w := w.modLpd ch (fun x => { x with health := 2 })
    let w := { w with
      chip.flash.summary.lpdHealth := SMap.set 0 w.chip.flash.summary.lpdHealth ch 2
      chip.boot.lpd := setBit w.chip.boot.lpd ch false }
    w.record { cls := 0x0306, kind := 4, id := ch, action := 7, count := 1, d0 := trigger }

/-- A channel becomes failing (R398): trigger 1 corrected words, 2 detected words, 3 failed retrains. -/
def Work.failing (w : Work) (isLpd : Bool) (ch trigger : Nat) : Work :=
  let w := if isLpd then
      { (w.modLpd ch (fun x => { x with health := 1 })) with
        chip.flash.summary.lpdHealth := SMap.set 0 w.chip.flash.summary.lpdHealth ch 1 }
    else
      { (w.modHbm ch (fun x => { x with health := 1 })) with
        chip.flash.summary.hbmHealth := SMap.set 0 w.chip.flash.summary.hbmHealth ch 1 }
  w.record { cls := 0x0305, kind := if isLpd then 4 else 3, id := ch, d0 := trigger }

def Work.modCh (w : Work) (isLpd : Bool) (ch : Nat) (f : Channel → Channel) : Work :=
  if isLpd then w.modLpd ch f else w.modHbm ch f
def Work.ch (w : Work) (isLpd : Bool) (ch : Nat) : Channel := if isLpd then w.lpdCh ch else w.hbmCh ch

/-- A corrected word of a channel (R392, R398). -/
def Work.noteCorrected (w : Work) (isLpd : Bool) (ch : Nat) : Work :=
  let w := w.modCh isLpd ch (fun x => { x with corrected := satAdd 32 x.corrected 1, corTimes := recent x.corTimes w.now dayNs })
  if (w.ch isLpd ch).health = 0 && 1024 ≤ (w.ch isLpd ch).corTimes.length then w.failing isLpd ch 1 else w

/-- A detected word of a channel (R392, R398, R400). -/
def Work.noteDetected (w : Work) (isLpd : Bool) (ch : Nat) (correcting : Bool) : Work :=
  let w := w.modCh isLpd ch (fun x =>
    let x := { x with detTimes := recent x.detTimes w.now dayNs }
    if correcting then { x with uncorrected := satAdd 8 x.uncorrected 1 } else { x with detected := satAdd 8 x.detected 1 })
  let l := (w.ch isLpd ch).detTimes
  if 16 ≤ (l.filter (fun t => w.now < t + 1_000_000_000)).length then
    (if isLpd then w.failLpd ch 1 else w.failHbm ch 1)
  else if (w.ch isLpd ch).health = 0 && 3 ≤ l.length then w.failing isLpd ch 2
  else w

/-! ## Archive ways (R373 to R376) -/

/-- A cache way is disabled: its dirty sectors go to HBM and it is invalidated (R374). -/
def Work.disableWay (w : Work) (s y n : Nat) : Work :=
  let w := w.dropSectors s (fun e => e.2.way = y)
  let old := SMap.get 0 w.chip.flash.summary.waysDisabled s
  let w := { w with chip.flash.summary.waysDisabled := SMap.set 0 w.chip.flash.summary.waysDisabled s (setBit old y true) }
  w.record { cls := 0x0403, kind := 5, id := s, action := 7, count := n, d0 := y }

/-- An error counts against way y of slice s; the fourth within a day disables a cache way (R373 to R375). -/
def Work.noteWay (w : Work) (s y : Nat) : Work :=
  let times := recent (SMap.get [] (w.slice s).wayErrs y) w.now dayNs
  let w := w.modSlice s (fun x => { x with wayErrs := SMap.set [] x.wayErrs y (times.drop (times.length - 15)) })
  if 4 ≤ times.length && !bit w.scratchUnion y && !bit (SMap.get 0 w.chip.flash.summary.waysDisabled s) y
  then w.disableWay s y times.length else w

/-- Both copies of an Archive tag or directory entry of a home are lost: every pound stops until module cold reset. A home of an H-die
has no SOURCE_KIND of its own, so its record names the module (R376, R597, R615; log entry 43). -/
def Work.metadataLost (w : Work) (h addr d0 : Nat) : Work :=
  ((w.record { cls := 0x0405, kind := if h < 128 then 5 else 0, id := if h < 128 then h else 0, action := 0xA, addr := addr, d0 := d0 }).driveFault 1).moduleFault

/-! ## Reading words (R392, R393) -/

/-- A record of class "memory error". -/
def Work.recMemory (w : Work) (kind id cw : Nat) (correcting : Bool) (action : Nat := 3) : Work :=
  w.record { cls := 0x0303, kind := kind, id := id, action := action, addr := cw * 32, d0 := if correcting then 0 else 1 }

/-- Each error of an Archive way that is scratchpad writes a record (R375). -/
def Work.recScratch (w : Work) (s y cw action : Nat) : Work :=
  w.record { cls := 0x0404, kind := 5, id := s, pound := optPound (w.wayOwner y), action := action, addr := cw * 32, d0 := y }

/-- What holds a code word. -/
inductive WordHome where
  | channel (isLpd : Bool) (ch : Nat)
  | sector (s y : Nat) (dirty : Bool)
  | scratch (s y : Nat)
  | tile (t : Nat)
  | none
deriving DecidableEq, Repr

/-- Slice of offset o of a scratchpad chunk (R401). -/
def Work.scratchSlice (w : Work) (o : Nat) : Nat :=
  let m := bitList w.chip.boot.scratchSlices
  m.getD (o / 4096 % max m.length 1) 0

/-- What holds line l: an Archive sector or the channel below it, the LP-DRAM channel, a scratchpad way, or a tile store. -/
def Work.wordHome (w : Work) (l : Nat) : WordHome :=
  match w.place (l * 128) with
  | .hbm off =>
    let (s, _, _) := w.arcAt l
    (match SMap.look (w.slice s).sectors l with
    | some e => .sector s e.way e.dirty
    | none => .channel false (w.hbmAt off).1)
  | .lpd h off => .channel true (w.lpdAt h off)
  | .scratch y o => .scratch (w.scratchSlice o) y
  | .tile t _ => .tile t
  | _ => .none

/-- The word is stored again, in corrected or poisoned form (R393), where that lasts. -/
def Work.storeWord (w : Work) (lasts : Bool) (cw : Nat) (bs : List Byte) (poison : Bool) : Work :=
  if !lasts then w
  else
    let w := w.put (.bytes (cw * 32) bs)
    if poison then w.put (.poison cw) else w

/-- Code word cw is read with these symbol errors in what is stored (R373, R375, R392, R393). What is stored again lasts,
but below a dirty sector. -/
def Work.readWord (w : Work) (x : WordHome) (cw : Nat) (errs : List (Nat × Byte)) (lasts : Bool := true) : Work :=
  let mode := w.correcting (cw * 32)
  let was := w.mem.poisoned cw
  let bs := w.mem.read (cw * 32) 32
  match rsRead mode bs errs was with
  | (out, .good) => if errs.isEmpty then w else w.storeWord lasts cw out false
  | (out, .corrected _) =>
    let w := w.storeWord lasts cw out false
    (match x with
    | .channel isLpd ch => w.noteCorrected isLpd ch
    | .sector s y _ => w.noteWay s y
    | .scratch s y => (w.recScratch s y cw 1).noteWay s y
    | .tile _ | .none => w)
  | (_, .poisoned) =>
    let w := if was then w else w.storeWord lasts cw bs true
    (match x with
    | .channel isLpd ch => w.modCh isLpd ch (fun c => { c with poisonReads := satAdd 16 c.poisonReads 1 })
    | _ => w)
  | (_, .detected) =>
    match x with
    | .channel isLpd ch =>
      ((w.storeWord lasts cw bs true).recMemory (if isLpd then 4 else 3) ch cw mode).noteDetected isLpd ch mode
    | .sector s y dirty =>
      let w := w.recMemory 5 s cw mode (if dirty then 3 else 2)
      let w := if dirty then w.storeWord lasts cw bs true
        else (w.modSlice s (fun v => { v with sectors := SMap.erase v.sectors (cw / 4) })).charge s none false 128
      w.noteWay s y
    | .scratch s y =>
      let w := (w.storeWord lasts cw bs true).recMemory 5 s cw mode
      (w.recScratch s y cw 3).noteWay s y
    | .tile t =>
      (w.storeWord lasts cw bs true).record
        { cls := 0x0303, kind := 2, id := t, action := 3, addr := cw * 32 - tileAddr t 0, d0 := if mode then 0 else 1 }
    | .none => w

/-- A line is read at its home with what nature does to it. -/
def Work.readLine (w : Work) (l : Nat) (n : Nature) : Work :=
  let x := w.wordHome l
  w.each (List.range 4) (fun w i =>
    let errs := (n.errors.filter (fun e => e.1.val = i)).map (fun e => (e.2.1.val, e.2.2))
    w.readWord x (l * 4 + i) errs)

/-- The Archive sector that holds the line of an address. -/
def Work.sectorAt (w : Work) (a : Nat) : Option Sector :=
  match w.place a with
  | .hbm _ => SMap.look (w.slice (w.arcAt (a / 128)).1).sectors (a / 128)
  | _ => none

/-- PATROL_SCRUB: one code word of HBM or LP-DRAM is read (R394). A dirty sector, or an entry of the eviction buffer, overwrites the word that lies below it, so
what is written back there does not last; a clean one whose word is detected below it is given up (log entry 19). -/
def Work.patrol (w : Work) (a : Nat) (errs : List (Nat × Byte)) : Work :=
  let x := match w.place a with
    | .hbm off => WordHome.channel false (w.hbmAt off).1
    | .lpd h off => .channel true (w.lpdAt h off)
    | _ => .none
  if x = .none || w.dead a then w
  else
    let held := w.sectorAt a
    let covered := (match held with | some e => e.dirty | none => false) ||
      (match w.place a with | .hbm _ => (w.slice (w.arcAt (a / 128)).1).evict.contains (a / 128) | _ => false)
    let v := w.readWord x (a / 32) errs (!covered)
    match held with
    | none => v
    | some e =>
      if !e.dirty && !w.mem.poisoned (a / 32) && v.mem.poisoned (a / 32) then
        v.modSlice (w.arcAt (a / 128)).1 (fun y => { y with sectors := SMap.erase y.sectors (a / 128) })
      else v

def execPatrolScrub (addr : PAddr) (errors : List (Fin 36 × Byte)) (s : State) :=
  lift (fun w => w.patrol addr.toNat (errors.map (fun e => (e.1.val, e.2)))) s

/-- HBM_CHANNEL_NO_RESPONSE, of an HBM channel or of an LP-DRAM channel (R398, R404). -/
def execHbmChannelNoResponse (channel : MemChannel) (s : State) :=
  lift (fun w =>
    match channel with
    | .hbm ch => w.failHbm ch.val 2
    | .lpd ch => w.failLpd ch.val 2) s

def execExpansionBufferExpire (slice : SliceId) (granule : BitVec 44) (s : State) :=
  lift (fun w => w.modSlice slice.val (fun x => { x with expand := without x.expand granule.toNat })) s

/-! ## Buckets (R386, R390) -/

/-- One pound's buckets in a slice refill; ticks in which a request waited are counted (R386, R390, R414). -/
def Slice.refill (x : Slice) (p : Nat) (rd wr : Nat × Nat) : Slice :=
  let up (t : SMap Int) (b : Nat × Nat) : SMap Int :=
    SMap.modify 0 t p (fun v => min (v + (b.1 : Int)) (b.2 : Int))
  { x with
    rdTokens := up x.rdTokens rd
    wrTokens := up x.wrTokens wr
    rdWait := if SMap.get 0 x.rdWaiting p = 0 && !x.rdHeld.contains p then x.rdWait
      else SMap.modify 0 x.rdWait p (fun n => satAdd 32 n 1)
    wrWait := if SMap.get 0 x.wrWaiting p = 0 && !x.wrHeld.contains p then x.wrWait
      else SMap.modify 0 x.wrWait p (fun n => satAdd 32 n 1)
    rdHeld := without x.rdHeld p
    wrHeld := without x.wrHeld p }

/-- Pounds with a configuration in force. -/
def Work.presentPounds (w : Work) : List Nat := (List.range 16).filter (fun p => (w.cfg? p).isSome)

/-- BUCKET_REFILL: every bucket refills; the first after a charter activation brings each slice into ACTIVE; what the eviction
buffers hold has been performed in HBM (R351, R386, R390; log entry 43). -/
def Work.refill (w : Work) : Work :=
  w.each (List.range 128) (fun w s =>
    let w := w.each w.presentPounds (fun w p => w.modSlice s (fun x => x.refill p (w.bucketOf s p false) (w.bucketOf s p true)))
    w.modSlice s (fun x => { x with st := if x.st = .notLoaded && w.chip.cht.booted && !w.provisioning then .active else x.st, evict := [] }))

end Sys2Proof.Machine
end

