-- ==== Sys2Proof/Machine/Homes.lean ====
section
/-!
DEFINITION. The coherence protocol: what a home does with each request, snoop answer and data message, and what an L2 does
with each snoop and answer (R359 to R369).
-/

namespace Sys2Proof.Machine

/-- Pound of the oldest command that a queue of command processor n has started (R69; log entry 43). -/
def Work.cpPound (w : Work) (n : Nat) : Option Nat :=
  (w.chip.sqs.find? (fun e => e.1 % 16 = n && e.2.cmds.any (fun c => c.phase = .started))).bind (fun e => w.sqOwner e.1)

/-- Pound of the oldest collective of C-die d (R69; log entry 43). -/
def Work.collPound (w : Work) (d : Nat) : Option Nat := (w.chip.colls.find? (fun c => c.die = d)).map (·.pound)

/-- Pound of the first access-list entry that covers a line which a remote module asks for (R72, R348; log entry 43). -/
def Work.remotePound (w : Work) (l : Nat) : Option Nat :=
  match w.chip.cht.active, w.place (l * 128) with
  | some c, .hbm o => (c.access.find? (fun e => e.offBase ≤ o && o ≤ e.offLast)).map (·.pound)
  | _, _ => none

/-- Pound that a requester's agent number is attributed to for a line (R69, R348, R366). -/
def Work.agentPound (w : Work) (a l : Nat) : Option Nat :=
  if a < 96 then w.coreOwner a
  else if a < 112 then w.cpPound (a - 96)
  else if a < 116 then w.collPound (a - 112)
  else if a < 120 then w.portOwner (a - 116)
  else if a < 122 then w.ethOwner (a - 120)
  else if 128 ≤ a && a < 176 then w.remotePound l
  else if 256 ≤ a then w.tileOwner ((a - 256) / 2)
  else none

/-! ## Requests (R363, R365, R367, R369) -/

/-- Snoops that a request causes in the directory's state: core and kind (R363). -/
def snoopsFor (kind : MsgKind) (e : DirEntry) (a : Nat) : List (Nat × MsgKind) :=
  let owned := e.st = .o || e.st = .em
  let held := (bitList e.present).filter (fun q => q ≠ a)
  let sharers := held.filter (fun q => !(owned && q = e.owner))
  let toOwner (k : MsgKind) (self : Bool) : List (Nat × MsgKind) := if owned && (self || e.owner ≠ a) then [(e.owner, k)] else []
  let inv (l : List Nat) : List (Nat × MsgKind) := l.map (fun q => (q, .snpInv))
  match kind with
  | .rdShared | .rdPref => toOwner .snpShared false
  | .rdUnique => toOwner .snpUnique false ++ inv sharers
  | .upgrade | .zeroLine | .wrFull => inv held
  | .cleanLine => toOwner .snpClean true
  | .flushLine => toOwner .snpFlush true ++ inv ((bitList e.present).filter (fun q => !(owned && q = e.owner)))
  | .rdVol => toOwner .snpCopy true
  | .wrPlain => toOwner .snpRecall true
  | .wrPublish | .atomic => toOwner .snpFlush true ++ inv sharers
  | _ => []

/-- A home performs a write on a line: the bytes of the mask (R335, R349). -/
def Work.homeMask (w : Work) (l : Nat) (mask : BitVec 128) (d : LineData) (publish : Bool) (p : Option Nat) : Work :=
  if w.dead (l * 128) then w
  else
    let bs := lineBytes d
    let w := w.clearResv l (l + 1) none
    let w := if publish then w.dropAhead l (l + 1) else w.staleAhead l (l + 1)
    let w := w.each (maskRuns mask) (fun w x => (w.post (l * 128 + x.1) ((bs.drop x.1).take x.2) none).put
      (.bytes (l * 128 + x.1) ((bs.drop x.1).take x.2)))
    match w.place (l * 128) with
    | .hbm _ => w.arcWrite l p ((maskRuns mask).foldl (fun n x => n + x.2) 0)
    | _ => w

/-- A transaction whose requester has its data, or gets it from a snoop: it closes with the CompAck, at once when that has come
already (R365). -/
def Work.awaitAck (w : Work) (h l : Nat) (t : Txn) (st : LineState) : Work :=
  if t.acked then w.closeTxn h l else w.setTxn h l { t with waiting := [], needAck := true, granted := st }

/-- A home answers a request whose snoops have all been answered (R363). A requester that is listed as the owner of the line has
lost it, so the home supplies the data; one that joins a writeback is answered as in state I, with the sharers that stay listed
(R369). -/
def Work.answerTxn (w : Work) (h l : Nat) (t : Txn) : Work :=
  let e := w.dirAt l
  let p := w.agentPound t.agent l
  let mine : DirEntry := { st := .em, owner := t.agent, present := setBit (if e.st = .i then e.present else 0) t.agent true }
  let data (st : LineState) (w : Work) : Work :=
    ((w.homeRead l p).setTxn h l { t with waiting := [], needAck := true, granted := st }).send .dataResp h t.agent l t.kind st
  let done (st : LineState) (w : Work) : Work := (w.send .comp h t.agent l t.kind st).closeTxn h l
  let forwarded := t.dirty || t.supplied || w.chip.net.any (fun m => m.kind = .snpData && m.agent = t.agent && m.line = l)
  match t.kind with
  | .rdShared | .rdPref =>
    let listed := setBit e.present t.agent true
    (match e.st with
    | .i => data .e (w.setDir l mine)
    | .s =>
      let w := w.setDir l { e with present := listed }
      if forwarded then w.awaitAck h l t .s else data .s w
    | _ =>
      if e.owner ≠ t.agent then (w.setDir l { e with present := listed }).awaitAck h l t .s
      else if setBit e.present t.agent false = 0 then data .e (w.setDir l { e with st := .em })
      else data .s (w.setDir l { st := .s, owner := 0, present := listed }))
  | .rdUnique =>
    let w := w.setDir l mine
    if forwarded then w.awaitAck h l t (if t.dirty then .m else .e) else data .e w
  | .upgrade | .zeroLine => done .m (w.setDir l mine)
  | .cleanLine | .flushLine => done .i w
  | .rdVol => data .i w
  | _ =>
    match t.op with
    | .write mask d => done .i (w.homeMask l mask d (t.kind ≠ .wrPlain) p)
    | .atomic op a z v cmp =>
      let n := z.bytes
      let old := w.mem.read a n
      let w := w.pwrite a (leBytes n (amoValue op n (leNat old) v.toNat cmp.toNat)) true p
      done .i w
    | .read => done .i w

/-- A request opens its transaction: snoops go out, or it is answered at once. An Upgrade from a core that the directory
does not list is served as RdUnique (R363). -/
def Work.openTxn (w : Work) (h l a : Nat) (kind : MsgKind) (op : HomeOp) : Work :=
  let e := w.dirAt l
  let kind := if kind = .upgrade && !bit e.present a then .rdUnique else kind
  let snoops := snoopsFor kind e a
  let t := Txn.opened kind a op (snoops.map (·.1))
  let w := w.setTxn h l t
  if snoops.isEmpty then w.answerTxn h l t
  else w.each snoops (fun w x => w.send x.2 h x.1 l kind .i)

/-- A request that has joined a writeback is served from its data as in directory state I, with no snoop; cores that shared the line
stay listed (R369; log entry 43). -/
def Work.openJoined (w : Work) (h l a : Nat) (kind : MsgKind) (op : HomeOp) : Work :=
  let kind := if kind = .upgrade then .rdUnique else kind
  let t := Txn.opened kind a op []
  let w := ((w.setDir l { (w.dirAt l) with st := .i, owner := 0 }).setTxn h l t).answerTxn h l t
  let e := w.dirAt l
  if e.st = .i && e.present ≠ 0 then w.setDir l { e with st := .s } else w

/-- A home answers a request with Retry and enters it in its list; a prefetch is dropped (R354, R367). -/
def Work.retryReq (w : Work) (h l a : Nat) (kind : MsgKind) : Work :=
  if kind = .rdPref then w.send .noData h a l kind .i
  else
    (w.modHome h (fun x => { x with
      retry := x.retry ++ [{ kind := kind, agent := a, line := l, granted := false }]
      retries := satAdd 32 x.retries 1 })).send .retry h a l kind .i

/-- The bucket of a pound that a request needs for HBM; a request of a host core that is no prefetch is latency-critical and
needs none (R387, R388). -/
def Work.bucketUse (w : Work) (l : Nat) (kind : MsgKind) (op : HomeOp) (p : Option Nat) : Option Bool :=
  match kind, op with
  | .rdVol, _ | .rdPref, _ => w.lineUse l p false 128
  | _, .write mask _ => w.lineUse l p true ((maskRuns mask).foldl (fun n x => n + x.2) 0)
  | _, .atomic _ _ z _ _ => w.lineUse l p true z.bytes
  | _, .read => none

/-- The pound of a request waits for tokens in this slice (R388): it needs HBM, is not latency-critical, and the bucket is
empty while regulation is in force. -/
def Work.needsTokens (w : Work) (h l a : Nat) (kind : MsgKind) (op : HomeOp) : Option (Nat × Bool) :=
  let p := w.agentPound a l
  match w.place (l * 128), p, w.bucketUse l kind op p with
  | .hbm _, some q, some isWrite => if w.bucketEmpty h p isWrite then some (q, isWrite) else none
  | _, _, _ => none

/-- Requests of pound p that wait for tokens in a home. -/
def Work.waitingTokens (w : Work) (h p : Nat) : Nat := ((w.home h).txns.filter (fun e => e.2.tokens = some p)).length

/-- Requests of an agent that a home serves or has in its list (R345, R367). -/
def Home.requests (x : Home) (a : Nat) : Nat :=
  (x.txns.filter (fun e => e.2.agent = a || match e.2.joined with | some j => j.2.1 = a | none => false)).length +
  (x.retry.filter (fun e => e.agent = a)).length

/-- Reads of an agent that its homes serve or have in their lists (R345). -/
def Work.readsOf (w : Work) (a : Nat) : Nat :=
  let isRead (k : MsgKind) : Bool := k = .rdShared || k = .rdUnique || k = .rdPref
  w.chip.homes.foldl (fun n h => n + (h.2.txns.filter (fun e => e.2.agent = a && isRead e.2.kind)).length +
    (h.2.retry.filter (fun e => e.agent = a && isRead e.kind)).length) 0

/-- A requester may send one more request to a home: 16 of its requests are outstanding there at most, and 48 reads of one L2
anywhere; and an L2 sends none for a line that its eviction buffer holds (R345, R351, R367). -/
def Work.maySend (w : Work) (h l a : Nat) (kind : MsgKind) : Bool :=
  let isRead : Bool := kind = .rdShared || kind = .rdUnique || kind = .rdPref
  (w.home h).requests a < 16 && !(a < 96 && isRead && 48 ≤ w.readsOf a) && !(a < 96 && (w.core a).evict.any (fun e => e.line = l))

/-- A request comes to its home: the home has the line, the module runs, and the requester may send it (R345, R367, R376). -/
def Work.comes (w : Work) (h l a : Nat) (kind : MsgKind) : Bool :=
  w.lineHome l = h && (w.homeOf (l * 128)).isSome && !w.halted &&
  ((w.home h).retry.any (fun e => e.granted && e.agent = a && e.line = l) || w.maySend h l a kind)

/-- A request arrives at its home: a granted one is accepted, one that may join a writeback joins it, one that conflicts or
finds no tracker is retried (R365, R367, R369, R388). -/
def Work.request (w : Work) (h l a : Nat) (kind : MsgKind) (op : HomeOp) : Work :=
  let x := w.home h
  match x.retry.find? (fun e => e.granted && e.agent = a && e.line = l) with
  | some e => (w.modHome h (fun x => { x with retry := x.retry.erase e })).openTxn h l a kind op
  | none =>
    let waiting := x.retry.any (fun e => !e.granted || e.line = l)
    match w.txn? h l with
    | some t =>
      if t.kind = .wbReq && t.joined = none && !waiting && kind ≠ .wbReq then w.setTxn h l { t with joined := some (kind, a, op) }
      else w.retryReq h l a kind
    | none =>
      if waiting || !x.free h then w.retryReq h l a kind
      else match w.needsTokens h l a kind op with
        | some (p, isWrite) =>
          if 16 ≤ w.waitingTokens h p then w.retryReq h l a kind
          else
            let w := w.modSlice h (fun s =>
              if isWrite then { s with wrWaiting := SMap.modify 0 s.wrWaiting p (· + 1) }
              else { s with rdWaiting := SMap.modify 0 s.rdWaiting p (· + 1) })
            w.setTxn h l { Txn.opened kind a op [] with tokens := some p }
        | none => w.openTxn h l a kind op

/-- BUCKET_REFILL with the requests and the transfers that waited for tokens (R386, R388). -/
def Work.refillAll (w : Work) : Work :=
  let w := w.refill
  Work.pumpAll <| w.each w.chip.homes (fun w e => w.each e.2.txns (fun w x =>
    match x.2.tokens with
    | none => w
    | some p =>
      let isWrite : Bool := w.bucketUse x.1 x.2.kind x.2.op (some p) = some true
      if w.bucketEmpty e.1 (some p) isWrite then w
      else
        let w := w.modSlice e.1 (fun s =>
          if isWrite then { s with wrWaiting := SMap.modify 0 s.wrWaiting p (· - 1) }
          else { s with rdWaiting := SMap.modify 0 s.rdWaiting p (· - 1) })
        w.openTxn e.1 x.1 x.2.agent x.2.kind x.2.op))

def execBucketRefill (s : State) := lift Work.refillAll s

/-- What nature repairs at an access to a line: an Archive tag, which counts against its way, or a directory entry (R374, R376). -/
def Work.repair (w : Work) (h : Nat) (n : Nature) : Work :=
  let w := match n.tagFixed with
    | some y => if h < 128 then w.noteWay h y.val else w
    | none => w
  if n.dirFixed then w.modHome h (fun x => { x with dirFixed := x.dirFixed + 1 }) else w

/-- Both copies of the directory entry, or in a slice of the tag, are lost (R376). -/
def metadataGone (n : Nature) (h : Nat) : Bool := n.dirLost || n.tagLost && h < 128

/-- A request whose service reads stored words of its line (R349, R363, R392). -/
def readsLine (kind : MsgKind) (op : HomeOp) : Bool :=
  match kind, op with
  | .rdShared, _ | .rdUnique, _ | .upgrade, _ | .rdPref, _ | .rdVol, _ | .atomic, _ => true
  | .wrPlain, .write mask _ | .wrPublish, .write mask _ => mask ≠ BitVec.allOnes 128
  | _, _ => false

/-- A request with what nature does to the line: lost metadata stops the module, what can be repaired is (R376, R392). -/
def Work.arrives (w : Work) (h l a : Nat) (kind : MsgKind) (op : HomeOp) (n : Nature) : Work :=
  if !w.comes h l a kind then w
  else if metadataGone n h then w.metadataLost h (l * 128) (b2n (n.tagLost && h < 128) + 2 * b2n n.dirLost)
  else
    let w := w.repair h n
    (if readsLine kind op then w.readLine l n else w).request h l a kind op

def execRdshared (home : HomeId) (core : CoreId) (line : BitVec 49) (nature : Nature) (s : State) :=
  lift (fun w => w.arrives home.val line.toNat core.val .rdShared .read nature) s
def execRdunique (home : HomeId) (core : CoreId) (line : BitVec 49) (nature : Nature) (s : State) :=
  lift (fun w => w.arrives home.val line.toNat core.val .rdUnique .read nature) s
def execUpgrade (home : HomeId) (core : CoreId) (line : BitVec 49) (nature : Nature) (s : State) :=
  lift (fun w => w.arrives home.val line.toNat core.val .upgrade .read nature) s
def execZeroline (home : HomeId) (core : CoreId) (line : LineAccess) (s : State) :=
  lift (fun w => w.arrives home.val line.line.toNat core.val .zeroLine .read line.nature) s
def execCleanline (home : HomeId) (core : CoreId) (line : LineAccess) (s : State) :=
  lift (fun w => w.arrives home.val line.line.toNat core.val .cleanLine .read line.nature) s
def execFlushline (home : HomeId) (core : CoreId) (line : LineAccess) (s : State) :=
  lift (fun w => w.arrives home.val line.line.toNat core.val .flushLine .read line.nature) s
def execRdpref (home : HomeId) (core : CoreId) (line : BitVec 49) (nature : Nature) (s : State) :=
  lift (fun w => w.arrives home.val line.toNat core.val .rdPref .read nature) s

/-- A volatile read reaches a home, the Archive slice that holds a line of the scratchpad, or the tile whose store holds it
(R363, R375, R392). -/
def Work.volatileRequest (w : Work) (h l a : Nat) (n : Nature) : Work :=
  match w.place (l * 128) with
  | .scratch _ o => if w.scratchSlice o = h then w.readLine l n else w
  | .tile _ _ => w.readLine l n
  | _ => w.arrives h l a .rdVol .read n

def execRdvol (home : HomeId) (agent : AgentId) (line : BitVec 49) (nature : Nature) (s : State) :=
  lift (fun w => w.volatileRequest home.val line.toNat agent.val nature) s
def execWrplain (home : HomeId) (agent : AgentId) (line : LineAccess) (mask : BitVec 128) (data : LineData)
    (s : State) :=
  lift (fun w => w.arrives home.val line.line.toNat agent.val .wrPlain (.write mask data) line.nature) s
def execWrpublish (home : HomeId) (agent : AgentId) (line : LineAccess) (mask : BitVec 128) (data : LineData)
    (s : State) :=
  lift (fun w => w.arrives home.val line.line.toNat agent.val .wrPublish (.write mask data) line.nature) s
def execWrfull (home : HomeId) (agent : AgentId) (line : LineAccess) (data : LineData) (s : State) :=
  lift (fun w => w.arrives home.val line.line.toNat agent.val .wrFull (.write (BitVec.allOnes 128) data) line.nature) s
def execAtomic (home : HomeId) (agent : AgentId) (op : AmoOp) (addr : AddrAccess) (size : Size) (value compare : BitVec 128) (s : State) :=
  liftIf (amoSize op size) (fun w => w.arrives home.val (addr.addr.toNat / 128) agent.val .atomic
    (.atomic op addr.addr.toNat size value compare) addr.nature) s

/-! ## Snoops at an L2 (R364, R368) -/

/-- State that a snoop leaves, and whether it brings data (R364); none keeps an eviction entry's place. -/
def snoopEffect (kind : MsgKind) (st : LineState) : LineState × Bool :=
  match kind, st with
  | .snpShared, .m => (.o, true)
  | .snpShared, .o => (.o, true)
  | .snpShared, .e => (.s, true)
  | .snpUnique, .m | .snpUnique, .o | .snpUnique, .e => (.i, true)
  | .snpUnique, _ | .snpInv, _ => (.i, false)
  | .snpFlush, .m | .snpFlush, .o | .snpRecall, .m | .snpRecall, .o => (.i, true)
  | .snpFlush, _ => (.i, false)
  | .snpRecall, .e => (.i, false)
  | .snpClean, .m => (.e, true)
  | .snpClean, .o => (.s, true)
  | .snpCopy, .m => (.m, true)
  | .snpCopy, .o => (.o, true)
  | .snpCopy, .e => (.e, true)
  | _, st => (st, false)

/-- The state of core c's copy of a line, in its L2 or its eviction buffer. -/
def Work.copyState (w : Work) (c l : Nat) : LineState :=
  match (w.core c).evict.find? (fun e => e.line = l) with
  | some e => e.st
  | none => match w.l2 c l with
    | some x => x.st
    | none => .i

/-- An L2 answers a snoop; while it holds the line after an LR the snoop waits (R326, R364, R368). -/
def Work.snoop (w : Work) (h c l : Nat) (kind : MsgKind) (requester : Option Nat) : Work :=
  if (w.core c).lrHold && (w.core c).resv = some l then w
  else w.deliver kind h c l (fun w m =>
    let (st', data) := snoopEffect kind (w.copyState c l)
    let w := if st' = .i then w.dropCopy c l else w.setCopy c l st'
    let w := if data then w.sendData h c (match requester with | some r => r | none => h + 1000) l m.req else w
    w.send .snpResp h c l m.req st')

def execSnpshared (home : HomeId) (core : CoreId) (line : BitVec 49) (requester : CoreId) (s : State) :=
  lift (fun w => w.snoop home.val core.val line.toNat .snpShared (some requester.val)) s
def execSnpunique (home : HomeId) (core : CoreId) (line : BitVec 49) (requester : CoreId) (s : State) :=
  lift (fun w => w.snoop home.val core.val line.toNat .snpUnique (some requester.val)) s
def execSnpinv (home : HomeId) (core : CoreId) (line : BitVec 49) (s : State) :=
  lift (fun w => w.snoop home.val core.val line.toNat .snpInv none) s
def execSnpflush (home : HomeId) (core : CoreId) (line : BitVec 49) (s : State) :=
  lift (fun w => w.snoop home.val core.val line.toNat .snpFlush none) s
def execSnpclean (home : HomeId) (core : CoreId) (line : BitVec 49) (s : State) :=
  lift (fun w => w.snoop home.val core.val line.toNat .snpClean none) s
def execSnprecall (home : HomeId) (core : CoreId) (line : BitVec 49) (s : State) :=
  lift (fun w => w.snoop home.val core.val line.toNat .snpRecall none) s
def execSnpcopy (home : HomeId) (core : CoreId) (line : BitVec 49) (s : State) :=
  lift (fun w => w.snoop home.val core.val line.toNat .snpCopy none) s

/-! ## Answers (R361, R363, R365, R369) -/

/-- The directory after core c has answered a snoop with its final state. -/
def DirEntry.after (e : DirEntry) (kind : MsgKind) (c : Nat) (st : LineState) : DirEntry :=
  let owned := (e.st = .o || e.st = .em) && e.owner = c
  match kind, st with
  | .rdVol, _ => e
  | _, .i => e.drop c
  | .rdShared, .o | .rdPref, .o => if owned then { e with st := .o } else e
  | _, .s => if owned then { e with st := .s, owner := 0 } else e
  | _, _ => e

/-- Data that a snoop has supplied is still on its way to the home. -/
def Work.dataComing (w : Work) (h l : Nat) : Bool := w.chip.net.any (fun m => m.is .snpData h (h + 1000) l)

/-- A home receives a snoop response; with the last of them, and the data that they bring to the home, the request is answered
(R363, R365). -/
def Work.snpResp (w : Work) (h c l : Nat) (st : LineState) (fwd : Bool) : Work :=
  w.deliver .snpResp h c l (fun w _ =>
    match w.txn? h l with
    | none => w
    | some t =>
      if !t.waiting.contains c then w
      else
        let w := w.setDir l ((w.dirAt l).after t.kind c st)
        let t := { t with
          waiting := without t.waiting c
          dirty := t.dirty || (fwd && (t.kind = .rdUnique))
          supplied := t.supplied || ((t.kind = .rdShared || t.kind = .rdPref) && st ≠ .i) }
        let w := w.setTxn h l t
        if t.waiting.isEmpty && !w.dataComing h l then w.answerTxn h l t else w)

def execSnpresp (home : HomeId) (core : CoreId) (line : BitVec 49) (finalState : LineState) (forwardedDirty : Bool)
    (s : State) :=
  lift (fun w => w.snpResp home.val core.val line.toNat finalState forwardedDirty) s

/-- A home receives CompAck: the transaction closes, or will close with its last SnpResp (R365). -/
def Work.compAck (w : Work) (h a l : Nat) : Work :=
  w.deliver .compAck h a l (fun w _ =>
    match w.txn? h l with
    | none => w
    | some t =>
      if t.agent ≠ a || t.waitWb then w
      else if t.needAck then w.closeTxn h l
      else w.setTxn h l { t with acked := true })

def execCompack (home : HomeId) (agent : AgentId) (line : BitVec 49) (s : State) :=
  lift (fun w => w.compAck home.val agent.val line.toNat) s

/-- The trained detector of core c whose prefetches reach line l: where the data answers a RdPref, the line is marked (R354). -/
def Work.prefetchedBy (w : Work) (c l : Nat) : Option Nat :=
  ((w.core c).detectors.find? (fun e => e.2.trained && (List.range e.2.depth).any (fun (i : Nat) =>
    ((e.2.last : Int) + e.2.stride * ((i + 1 : Nat) : Int)).toNat = l))).map (·.1)

/-- A requester receives data with the state it grants: an L2 installs the line, with the poison that a lost answer brings; it sends
CompAck (R46, R361). -/
def Work.dataResp (w : Work) (h a l : Nat) (st : LineState) (d : LineData) (poison : BitVec 4) : Work :=
  w.deliver .dataResp h a l (fun w m =>
    let w := if st = .i || 96 ≤ a then w
      else w.install a l st d (poison ||| m.poison) (if m.req = .rdPref then w.prefetchedBy a l else none)
    w.send .compAck h a l .compAck st)

def execDataresp (home : HomeId) (agent : AgentId) (line : BitVec 49) (granted : LineState) (data : LineData)
    (poison : BitVec 4) (s : State) :=
  lift (fun w => w.dataResp home.val agent.val line.toNat granted data poison) s

/-- Data supplied by a snoop arrives at its requester, or at the home, where it is written before the transaction completes
(R361, R363). -/
def Work.snpData (w : Work) (h : Nat) (dest : SnpDest) (l : Nat) (dirty : Bool) (d : LineData) (poison : BitVec 4) : Work :=
  match dest with
  | .home => w.deliver .snpData h (h + 1000) l (fun w _ =>
    match w.txn? h l with
    | none => w
    | some t =>
      let w := if dirty then w.homeWrite l d poison (w.agentPound t.agent l) else w
      if t.waiting.isEmpty && !t.needAck && !t.waitWb && t.tokens.isNone && !w.dataComing h l then w.answerTxn h l t else w)
  | .requester r => w.deliver .snpData h r.val l (fun w _ =>
    match w.txn? h l with
    | none => w
    | some t =>
      if t.agent ≠ r.val then w
      else
        let st : LineState := if t.kind = .rdUnique then (if dirty then .m else .e) else .s
        let mark := if t.kind = .rdPref then w.prefetchedBy r.val l else none
        let w := (w.install r.val l st d poison mark).setTxn h l { t with supplied := true, dirty := t.dirty || (dirty && t.kind = .rdUnique) }
        w.send .compAck h r.val l t.kind st)

def execSnpdata (home : HomeId) (dest : SnpDest) (line : BitVec 49) (dirty : Bool) (data : LineData) (poison : BitVec 4)
    (s : State) :=
  lift (fun w => w.snpData home.val dest line.toNat dirty data poison) s

/-- A requester receives Comp: an Upgrade makes its line M, a ZeroLine a line of zeros in M (R355, R361, R363). -/
def Work.comp (w : Work) (h a l : Nat) : Work :=
  w.deliver .comp h a l (fun w m =>
    if 96 ≤ a then w
    else match m.req with
      | .zeroLine => w.install a l .m 0 0 none
      | .upgrade => w.setCopy a l .m
      | _ => w)

def execComp (home : HomeId) (agent : AgentId) (line : BitVec 49) (s : State) :=
  lift (fun w => w.comp home.val agent.val line.toNat) s

/-- RETRY: the requester waits for its Grant (R367). -/
def execRetry (home : HomeId) (agent : AgentId) (line : BitVec 49) (s : State) :=
  lift (fun w => w.deliver .retry home.val agent.val line.toNat (fun w _ => w)) s

/-- GRANT: the requester sends its request again (R362, R367). -/
def Work.grant (w : Work) (h a l : Nat) : Work :=
  w.deliver .grant h a l (fun w _ =>
    match (w.home h).retry.find? (fun e => e.granted && e.agent = a && e.line = l) with
    | some e => w.send e.kind h a l e.kind .i
    | none => w)

def execGrant (home : HomeId) (agent : AgentId) (line : BitVec 49) (s : State) :=
  lift (fun w => w.grant home.val agent.val line.toNat) s

/-- GRANT_TIMEOUT: the tracker returns and the entry is dropped (R367). -/
def Work.grantTimeout (w : Work) (h a l : Nat) : Work :=
  (w.modHome h (fun x => { x with retry := x.retry.filter (fun e => !(e.granted && e.agent = a && e.line = l)) })).grantNext h

def execGrantTimeout (home : HomeId) (agent : AgentId) (line : BitVec 49) (s : State) :=
  lift (fun w => w.grantTimeout home.val agent.val line.toNat) s

/-- WBREQ: WbGo while the directory lists the sender as owner, else WbCancel, which frees a tracker that was reserved (R367,
R369). -/
def Work.wbReq (w : Work) (h c l : Nat) : Work :=
  if w.lineHome l ≠ h || w.homeOf (l * 128) = none then w
  else w.deliver .wbReq h c l (fun w _ =>
    let x := w.home h
    let e := w.dirAt l
    let held := x.retry.find? (fun r => r.granted && r.agent = c && r.line = l)
    let w := match held with
      | some r => w.modHome h (fun x => { x with retry := x.retry.erase r })
      | none => w
    if held.isNone && ((w.txn? h l).isSome || x.retry.any (fun r => !r.granted || r.line = l) || !x.free h) then w.retryReq h l c .wbReq
    else if (e.st = .o || e.st = .em) && e.owner = c then
      (w.setTxn h l { Txn.opened .wbReq c .read [] with waitWb := true }).send .wbGo h c l .wbReq .i
    else
      let w := w.send .wbCancel h c l .wbReq .i
      if held.isSome then w.grantNext h else w)

def execWbreq (home : HomeId) (core : CoreId) (line : BitVec 49) (s : State) :=
  lift (fun w => w.wbReq home.val core.val line.toNat) s

/-- WBGO: the L2 sends the line from its eviction buffer (R369). -/
def Work.wbGo (w : Work) (h c l : Nat) : Work :=
  w.deliver .wbGo h c l (fun w _ =>
    if (w.core c).evict.any (fun e => e.line = l) then w.send .wbData h c l .wbReq .i else w)

def execWbgo (home : HomeId) (core : CoreId) (line : BitVec 49) (s : State) :=
  lift (fun w => w.wbGo home.val core.val line.toNat) s

/-- WBCANCEL: the eviction entry is freed (R369). -/
def Work.wbCancel (w : Work) (h c l : Nat) : Work :=
  w.deliver .wbCancel h c l (fun w _ => w.modCore c (fun x => { x with evict := x.evict.filter (fun e => e.line ≠ l) }))

def execWbcancel (home : HomeId) (core : CoreId) (line : BitVec 49) (s : State) :=
  lift (fun w => w.wbCancel home.val core.val line.toNat) s

/-- WBDATA: the home takes the data, the entry is freed, and a request that has joined is served from it (R369). -/
def Work.wbData (w : Work) (h c l : Nat) (d : LineData) (poison : BitVec 4) : Work :=
  w.deliver .wbData h c l (fun w _ =>
    match w.txn? h l with
    | none => w
    | some t =>
      if t.kind ≠ .wbReq || t.agent ≠ c || !t.waitWb then w
      else
        let w := w.homeWrite l d poison (w.coreOwner c)
        let w := w.modCore c (fun x => { x with evict := x.evict.filter (fun e => e.line ≠ l) })
        let w := w.setDir l ((w.dirAt l).drop c)
        match t.joined with
        | none => w.closeTxn h l
        | some (kind, a, op) => w.openJoined h l a kind op)

def execWbdata (home : HomeId) (core : CoreId) (line : BitVec 49) (data : LineData) (poison : BitVec 4) (s : State) :=
  lift (fun w => w.wbData home.val core.val line.toNat data poison) s

/-- NODATA: the prefetch is dropped (R354). -/
def execNodata (home : HomeId) (core : CoreId) (line : BitVec 49) (s : State) :=
  lift (fun w => w.deliver .noData home.val core.val line.toNat (fun w _ => w)) s

/-! ## Prefetch in the Archive (R353, R354) -/

/-- A trained detector of a slice fills sectors ahead, within its pound's read bucket. -/
def Work.archivePrefetch (w : Work) (s k : Nat) : Work :=
  match SMap.look (w.slice s).detectors k with
  | none => w
  | some d =>
    if !d.trained then w
    else w.each (List.range d.depth) (fun w (i : Nat) =>
      let l := ((d.last : Int) + d.stride * ((i + 1 : Nat) : Int)).toNat
      let x := w.slice s
      match w.place (l * 128) with
      | .hbm _ =>
        if (w.arcAt l).1 ≠ s || w.bucketEmpty s (some d.pound) false || x.evict.contains l || (SMap.look x.sectors l).isSome || w.allocWays s (some d.pound) = 0 then w
        else
          let w := w.charge s (some d.pound) false 128
          let w := w.modSlice s (fun x => { x with pfIssued := satAdd 32 x.pfIssued 1 })
          w.arcUse l (some d.pound) false (some k)
      | _ => w)

def execArchivePrefetch (slice : SliceId) (detector : Fin 64) (s : State) :=
  lift (fun w => w.archivePrefetch slice.val detector.val) s

/-- A write to ARC_PF_POUND (R354, R381). -/
def Work.arcPfPound (w : Work) (s p : Nat) (z : Size) (high : Bool) (v : W64) : Work :=
  let n := min 64 (newField z high v 6 0 (SMap.get 16 (w.slice s).pfDepth p))
  w.modSlice s (fun x => { x with
    pfDepth := SMap.set 16 x.pfDepth p n
    detectors := SMap.mapVal x.detectors (fun _ d => if d.pound = p then { d with depth := min d.depth n } else d) })

def execArcPfPoundWrite (core : CoreId) (slice : SliceId) (pound : PoundId) (size : Size) (high : Bool) (value : W64)
    (s : State) :=
  lift (fun w =>
    let off := 0x300_0000 + slice.val * 0x1000 + 0x900 + pound.val * 8
    w.regStore core.val off size high (w.isPound core.val pound.val) value (fun w =>
      w.arcPfPound slice.val pound.val size high value)) s

/-! ## Parity errors of the host caches (R370, R371) -/

/-- Set of a line in a cache. -/
def cacheSet (k : CacheKind) (l : Nat) : Nat :=
  match k with | .l1i => l % 128 | .l1d => l % 64 | .l2 => l % 1024
def cacheCode (k : CacheKind) : Nat := match k with | .l1i => 0 | .l1d => 1 | .l2 => 2
/-- A line lies in a cache. -/
def cacheHolds (k : CacheKind) (x : L2Line) : Bool :=
  match k with | .l1i => x.l1i.isSome | .l1d => x.l1d.isSome | .l2 => true

/-- A parity error in a host-core cache: recovered where nothing dirty is hit, else fatal to the host complex. -/
def Work.parity (w : Work) (c : Nat) (k : CacheKind) (tag : Bool) (l : Nat) : Work :=
  let hit := (w.core c).lines.filter (fun e => cacheHolds k e.2 && (if tag then cacheSet k e.1 = cacheSet k l else e.1 = l))
  let dirty := k ≠ .l1i && hit.any (fun e => e.2.st = .m || e.2.st = .o)
  let d0 := cacheCode k + (if tag then 256 else 0)
  let addr := if tag then 0 else l * 128
  let forget (w : Work) : Work :=
    w.each hit (fun w e => match k with
      | .l2 => (w.dropCopy c e.1).setDir e.1 ((w.dirAt e.1).drop c)
      | .l1i => w.modCore c (fun x => { x with lines := SMap.mapVal x.lines (fun j y =>
          if j = e.1 then { y with l1i := none } else y) })
      | .l1d => w.modCore c (fun x => { x with
          lines := SMap.mapVal x.lines (fun j y => if j = e.1 then { y with l1d := none } else y)
          resv := if x.resv = some e.1 then none else x.resv }))
  if !dirty then
    (forget w).record { cls := 0x0401, kind := 1, id := c, pound := optPound (w.coreOwner c), action := 2, addr := addr,
                        d0 := d0, d1 := cacheSet k l }
  else
    let w := w.each hit (fun w e =>
      let w := if !tag then w.homeWrite e.1 e.2.data 0xF (w.coreOwner c) else w
      (w.dropCopy c e.1).setDir e.1 ((w.dirAt e.1).drop c))
    let w := w.record { cls := 0x0402, kind := 1, id := c, pound := optPound (w.coreOwner c), action := if tag then 0 else 3,
                        addr := addr, d0 := d0, d1 := cacheSet k l }
    { (w.modCore c (fun x => { x with hwError := some (BitVec.ofNat 64 addr) })) with chip.boot.cacheLost := true }

def execCacheParityError (core : CoreId) (cache : CacheKind) (tagError : Bool) (line : BitVec 49) (s : State) :=
  lift (fun w => w.parity core.val cache tagError line.toNat) s

end Sys2Proof.Machine
end

