-- ==== Sys2Proof/Machine/Management.lean ====
section
/-!
DEFINITION. The management endpoint: PLDM discovery, sensors, FRU data and firmware update, the vendor commands on exclusions
and the persistent summary, and the SPDM responder (R483 to R485, R548, R589). Codes of the PLDM and SPDM standards that the
rules name are presumed (log entry 32).
-/

namespace Sys2Proof.Machine

/-! ## PLDM (R483) -/

/-- Base discovery: the PLDM types supported, 0, 2, 4, 5 and 0x3F, as bits. It is answered in a failed step 1 too (R554). -/
def Work.discovery (w : Work) : Work :=
  if w.chip.boot.fwFailed || w.chip.boot.lockkeeper || w.chip.boot.standbyActive then
    w.answer 0 (leBytes 8 (2 ^ 0 + 2 ^ 2 + 2 ^ 4 + 2 ^ 5 + 2 ^ 63))
  else w

def execPldmDiscovery (s : State) := lift Work.discovery s

/-- The value of a sensor: mV, mA, W, 10 uJ, degrees C, or the code of LT_STATUS.STATE. The temperature of a stack is its
own (log entry 3). -/
def Work.sensor (w : Work) (x : Sensor) : Work × Nat :=
  let p := w.chip.pwr
  match x with
  | .inputVoltage => (w, p.voltMv)
  | .inputCurrent => (w, p.measW * 1_000_000 / p.voltMv)
  | .inputPower => (w, p.measW)
  | .energy => (w, p.energyMj)
  | .dieTemp d => (w, (w.diePow d.val).tempC)
  | .stackTemp _ => let (n, w) := w.take; (w, (Config.freeWord n).toNat % 256)
  | .lockTimeState => (w, match w.chip.time.st with | .acquiring => 0 | .locked => 1 | .lost => 2)

def execPldmSensorRead (sensor : Sensor) (s : State) :=
  lift (fun w => w.manage (fun w => let (w, v) := w.sensor sensor; w.answer 0 (leBytes 8 v))) s

/-- FRU data: part number, which the manual does not give, serial and die revisions. -/
def execPldmFruRead (s : State) :=
  lift (fun w => w.manage (fun w =>
    let (n, w) := w.take
    w.answer 0 (leBytes 8 (Config.freeWord n).toNat ++ leBytes 8 w.fuse.serial.toNat ++ w.fuse.rev.map (BitVec.ofNat 8)))) s

/-- A firmware image is stored in the component's other copy when its version is not below the fused rollback counter and its
signature, whose key the manual does not give, verifies; it takes effect at the next module cold reset (R483, R554). -/
def Work.firmwareUpdate (w : Work) (i : Nat) (version : W32) (image : List Byte) : Work :=
  if !(w.chip.boot.fwFailed || w.chip.boot.lockkeeper || w.chip.boot.standbyActive) then w
  else
    let (n, w) := w.take
    if version.toNat < SMap.get 0 w.fuse.rollback i || !Config.freeBool n then w.answer 1 []
    else
      let old := (SMap.look w.chip.flash.firmware i).getD { version := 0, pending := none, image := [], verified := false }
      { w with chip.flash.firmware := SMap.insert (SMap.erase w.chip.flash.firmware i) i { old with pending := some (version, image) } }.answer 0 []

def execPldmFirmwareUpdate (component : Fin 4) (version : W32) (image : List Byte) (sigR sigS : BitVec 384) (s : State) :=
  lift (fun w => let _ := (sigR, sigS); w.firmwareUpdate component.val version image) s

/-! ## Exclusions and the summary (R47, R374, R398, R404, R484, R548) -/

/-- The persistent summary holds what an exclusion names. -/
def Work.excluded (w : Work) (x : Exclusion) : Bool :=
  let m := w.chip.flash.summary
  match x with
  | .sirentLink l => bit m.linkExcluded l.val
  | .die d => if d.val = 4 then false else bit m.dieExcluded (min d.val 4)
  | .archiveWay s y => bit (SMap.get 0 m.waysDisabled s.val) y.val
  | .hbmChannel ch => SMap.get 0 m.hbmHealth ch.val ≠ 0
  | .lpdChannel ch => SMap.get 0 m.lpdHealth ch.val ≠ 0

/-- The record of a cleared exclusion: the class concerned, with ACTION 0 (R548). -/
def Work.clearRecord (w : Work) (x : Exclusion) : Rec :=
  let m := w.chip.flash.summary
  let health (h : Nat) : Nat := if h = 2 then 0x0306 else 0x0305
  match x with
  | .sirentLink l => { cls := 0x0701, kind := 6, id := l.val, summary := true }
  | .die d => { cls := 0x0701, kind := 0, id := d.val, summary := true }
  | .archiveWay s y => { cls := 0x0403, kind := 5, id := s.val, d0 := y.val, summary := true }
  | .hbmChannel ch => { cls := health (SMap.get 0 m.hbmHealth ch.val), kind := 3, id := ch.val, summary := true }
  | .lpdChannel ch => { cls := health (SMap.get 0 m.lpdHealth ch.val), kind := 4, id := ch.val, summary := true }

/-- The summary without an exclusion. -/
def Summary.clear (m : Summary) (x : Exclusion) : Summary :=
  match x with
  | .sirentLink l => { m with linkExcluded := setBit m.linkExcluded l.val false }
  | .die d => { m with dieExcluded := setBit m.dieExcluded (min d.val 4) false }
  | .archiveWay s y => { m with waysDisabled := SMap.set 0 m.waysDisabled s.val (setBit (SMap.get 0 m.waysDisabled s.val) y.val false) }
  | .hbmChannel ch => { m with hbmHealth := SMap.set 0 m.hbmHealth ch.val 0 }
  | .lpdChannel ch => { m with lpdHealth := SMap.set 0 m.lpdHealth ch.val 0 }

/-- CLEAR_EXCLUSION: an Archive way is used again at once, and links, dies and channels from the next reset that trains them
(R47, R374, R398). -/
def Work.clearExclusion (w : Work) (x : Exclusion) : Work :=
  if !w.excluded x then w.answer 0 []
  else
    let r := w.clearRecord x
    ({ w with chip.flash.summary := w.chip.flash.summary.clear x }.record r).answer 0 []

def execClearExclusion (target : Exclusion) (s : State) := lift (fun w => w.manage (fun w => w.clearExclusion target)) s

/-- The persistent summary as bytes: its records, oldest first, then the state it holds (log entry 32). -/
def Summary.bytes (m : Summary) : List Byte :=
  m.records.flatMap Record.bytes ++ leBytes 2 m.linkExcluded.toNat ++ leBytes 1 m.dieExcluded.toNat ++ leBytes 1 0 ++
  (List.range 128).flatMap (fun s => leBytes 2 (SMap.get 0 m.waysDisabled s).toNat) ++
  (List.range 256).flatMap (fun ch => leBytes 1 (SMap.get 0 m.hbmHealth ch)) ++
  (List.range 32).flatMap (fun ch => leBytes 1 (SMap.get 0 m.lpdHealth ch))

def execReadSummary (s : State) := lift (fun w => w.manage (fun w => w.answer 0 w.chip.flash.summary.bytes)) s

/-- A reserved vendor command: ERROR_UNSUPPORTED_PLDM_CMD (R484). -/
def execPldmUnsupported (code : Byte) (s : State) :=
  lift (fun w => w.manage (fun w => if 1 ≤ code.toNat && code.toNat ≤ 9 then w else w.answer 5 [])) s

/-! ## SPDM (R485) -/

/-- An ERROR response: 0x01 invalid request, 0x04 unexpected request. -/
def Work.spdmError (w : Work) (e : Nat) : Work := w.answer 0x7F [BitVec.ofNat 8 e]

def execGetVersion (s : State) :=
  lift (fun w => w.manage (fun w =>
    { w with chip.mgmt.versionSeen := true, chip.mgmt.capsSeen := false, chip.mgmt.negotiated := false }.answer 4 (leBytes 2 0x1300))) s

/-- Certificates, challenges and signed measurements; no secure session. -/
def execGetCapabilities (s : State) :=
  lift (fun w => w.manage (fun w =>
    if !w.chip.mgmt.versionSeen then w.spdmError 4
    else { w with chip.mgmt.capsSeen := true }.answer 0x61 (leBytes 4 0x16))) s

/-- ECDSA P-384 and SHA-384 only. -/
def execNegotiateAlgorithms (ecdsaP384 sha384 : Bool) (s : State) :=
  lift (fun w => w.manage (fun w =>
    if !w.chip.mgmt.capsSeen then w.spdmError 4
    else if !ecdsaP384 || !sha384 then w.spdmError 1
    else { w with chip.mgmt.negotiated := true }.answer 0x63 (leBytes 4 0x80 ++ leBytes 4 2))) s

/-- A digest as bytes. -/
def digestBytes (bs : List Byte) : List Byte := (leBytes 48 (sha384 bs)).reverse

def execGetDigests (s : State) :=
  lift (fun w => w.manage (fun w =>
    if !w.chip.mgmt.negotiated then w.spdmError 4 else w.answer 1 (leBytes 1 1 ++ digestBytes w.fuse.chain))) s

/-- Slot 0 holds the device identity chain; slots 1-7 are empty. -/
def execGetCertificate (slot : Fin 8) (offset length : W16) (s : State) :=
  lift (fun w => w.manage (fun w =>
    let c := w.fuse.chain
    if !w.chip.mgmt.negotiated then w.spdmError 4
    else if slot.val ≠ 0 || c.length ≤ offset.toNat then w.spdmError 1
    else
      let part := (c.drop offset.toNat).take length.toNat
      w.answer 2 (leBytes 2 part.length ++ leBytes 2 (c.length - offset.toNat - part.length) ++ part))) s

/-- A signature by the device's key, which the manual does not give. -/
def Work.signature (w : Work) : Work × List Byte :=
  let n := w.chip.free
  ({ w with chip.free := n + 2 }, leBytes 48 (Config.freeDigest n).toNat ++ leBytes 48 (Config.freeDigest (n + 1)).toNat)

def execChallenge (slot : Fin 8) (nonce : BitVec 256) (s : State) :=
  lift (fun w => w.manage (fun w =>
    if !w.chip.mgmt.negotiated then w.spdmError 4
    else if slot.val ≠ 0 then w.spdmError 1
    else
      let (w, sig) := w.signature
      w.answer 3 (digestBytes w.fuse.chain ++ leBytes 32 nonce.toNat ++ sig))) s

/-- Measurement i, 1 to 7 (R485). -/
def Work.measurement (w : Work) (i : Nat) : List Byte :=
  let m := w.chip.flash.summary
  if i ≤ 4 then digestBytes (match SMap.look w.chip.flash.firmware (i - 1) with | some x => x.image | none => [])
  else if i = 5 then digestBytes w.chip.cht.activeImage
  else if i = 6 then digestBytes (w.fuse.rev.map (BitVec.ofNat 8) ++ leBytes 8 w.fuse.serial.toNat ++
    (List.range 4).flatMap (fun k => leBytes 4 (SMap.get 0 w.fuse.rollback k)))
  else digestBytes (leBytes 2 w.chip.boot.srtExcluded.toNat ++
    (List.range 128).flatMap (fun s => leBytes 2 (SMap.get 0 m.waysDisabled s).toNat))

/-- GET_MEASUREMENTS: index 0 asks for their number, 0xFF for all. -/
def execGetMeasurements (index : Byte) (nonce : BitVec 256) (s : State) :=
  lift (fun w => w.manage (fun w =>
    let i := index.toNat
    let which : List Nat := if i = 0xFF then [1, 2, 3, 4, 5, 6, 7] else [i]
    if !w.chip.mgmt.negotiated then w.spdmError 4
    else if 7 < i && i ≠ 0xFF then w.spdmError 1
    else if i = 0 then w.answer 0x60 [7]
    else
      let (w, sig) := w.signature
      w.answer 0x60 (which.flatMap (fun k => leBytes 1 k ++ w.measurement k) ++ leBytes 32 nonce.toNat ++ sig))) s

/-! ## Addresses (R483, R589) -/

/-- The I3C bus owner's dynamic address replaces the static one. -/
def execDynamicAddressAssignment (address : BitVec 7) (s : State) :=
  lift (fun w => if w.chip.boot.powered then { w with chip.boot.i3cAddr := address } else w) s

/-- The MCTP bus owner's endpoint ID; 0 and 0xFF are none. -/
def execSetEndpointId (eid : Byte) (s : State) :=
  lift (fun w => if !w.chip.boot.powered || eid = 0 || eid = 0xFF then w else { w with chip.boot.eid := eid }) s

end Sys2Proof.Machine
end

