-- ==== Sys2Proof/Machine/Queues.lean ====
section
/-!
DEFINITION. The commands on queues: doorbells, fetch, completion writes, acknowledgements, interrupts, and the CP_
registers (R276 to R316).
-/

namespace Sys2Proof.Machine

/-! ## Doorbell and fetch -/

/-- A store to the doorbell of queue q (R276, R278). -/
def Work.ringDoorbell (w : Work) (c q : Nat) (z : Size) (v : W64) : Work :=
  let a := 0x3F00_0000_0000 + q * 8
  let s := w.sq q
  let value : W32 := v.setWidth 32
  let dist := (value - s.head).toNat
  if !regSize z || (z = .b8 && bits v 63 32 ≠ 0) then
    w.record { cls := 0x0601, kind := 1, id := c, pound := optPound (w.coreOwner c), action := 6, addr := a, d0 := v.toNat }
  else if w.sqOwner q = none || w.coreOwner c ≠ w.sqOwner q then w.denyStore c a
  else if s.st ≠ .running then w.modSq q (fun s => { s with refused := satAdd 32 s.refused 1 })
  else if value = s.tail then w
  else if (value - s.tail).toNat < 2 ^ 31 && dist ≤ s.slots then w.modSq q (fun s => { s with tail := value })
  else w.stopSq q 1 0 value.toNat

def execDoorbell (core : CoreId) (queue : SqId) (size : Size) (value : W64) (s : State) :=
  lift (fun w => w.hostIo core.val (fun w =>
    (w.modCore core.val (fun x => { x with trap := none })).ringDoorbell core.val queue.val size value)) s

/-- Commands that a command processor has fetched and that have not completed (R279). -/
def Work.inflight (w : Work) (n : Nat) : Nat :=
  w.chip.sqs.foldl (fun a e => if e.1 % 16 = n then a + (e.2.cmds.filter (fun c => !c.isDone)).length else a) 0

/-- A queue takes part in fetch arbitration (R279). -/
def Work.eligible (w : Work) (q : Nat) : Bool :=
  let s := w.sq q
  let runs := match w.sqOwner q with
    | some p => (w.pound p).st = .running && !(w.pound p).held
    | none => false
  s.st = .running && s.tail ≠ s.head && (s.cmds.filter (fun c => !c.isDone)).length < 256 && 1 ≤ w.cqFree s.cqNum &&
  runs && !w.halted

/-- Read one slot of a submission ring (R275, R285). -/
def Work.readSlot (w : Work) (q : Nat) (slot : W32) : Work × Res (List Byte) :=
  let s := w.sq q
  let p := w.sqOwner q
  w.vaRead (cpCache (q % 16)) (poundDev (p.getD 0)) (some s.pid) (.ring p) 8 (q % 16)
    (s.base.toNat + slot.toNat % s.slots * 64) 64

/-- Read n slots from a slot counter on; the address of the first that cannot be read comes with its status. -/
def Work.readSlots (w : Work) (q : Nat) (slot : W32) : Nat → Work × Res (List Byte)
  | 0 => (w, .ok [])
  | n + 1 =>
    match w.readSlot q slot with
    | (w, .bad s a) => (w, .bad s a)
    | (w, .ok bs) =>
      match Work.readSlots w q (slot + 1) n with
      | (w, .bad s a) => (w, .bad s a)
      | (w, .ok r) => (w, .ok (bs ++ r))

/-- Fetch the command at HEAD of queue q, or stop the queue (R285). -/
def Work.fetch (w : Work) (q : Nat) : Work :=
  let s := w.sq q
  let slotAddr := s.base.toNat + s.head.toNat % s.slots * 64
  match w.readSlot q s.head with
  | (w, .bad e _) => w.stopSq q e slotAddr 0
  | (w, .ok b) =>
    let extra := leAt b 1 1 % 8
    let seq : W32 := BitVec.ofNat 32 (leAt b 4 4)
    if (s.tail - s.head).toNat < 1 + extra then w
    else if seq ≠ s.fetched + 1 then
      let w := w.modCq s.cqNum (fun x => { x with reserved := x.reserved + 1 })
      let w := w.pushEntry s.cqNum { seq := seq, tag := BitVec.ofNat 32 (leAt b 8 4), status := 3, flags := 0,
                                     sq := BitVec.ofNat 32 q, d0 := 0, d1 := 0, reserved := true }
      w.stopSq q 3 slotAddr seq.toNat
    else
      match w.readSlots q (s.head + 1) extra with
      | (w, .bad e a) => w.stopSq q e (a / 64 * 64) 0
      | (w, .ok more) =>
        let c : Cmd := { seq := seq, bytes := b ++ more, phase := .fetched, startPs := 0, tiles := [], check := 0,
                         checkTile := 0, xf := Xfer.none, count := 0, seen := 0 }
        let w := w.modCq s.cqNum (fun x => { x with reserved := x.reserved + 1 })
        w.modSq q (fun s => { s with head := s.head + BitVec.ofNat 32 (1 + extra), fetched := seq, cmds := s.cmds ++ [c] })

/-- One turn of a command processor's arbitration: round robin over its eligible queues (R279). -/
def Work.commandFetch (w : Work) (n : Nat) : Work :=
  if 4096 ≤ w.inflight n then w
  else
    let turn := SMap.get 0 w.chip.cps n
    let qs := (w.chip.sqs.map (·.1)).filter (fun q => q % 16 = n && w.eligible q)
    match (qs.filter (fun q => turn ≤ q)) ++ qs.filter (fun q => q < turn) with
    | [] => w
    | q :: _ => { w with chip.cps := SMap.set 0 w.chip.cps n (q + 1) }.fetch q

def execCommandFetch (cp : CpId) (s : State) := lift (fun w => w.commandFetch cp.val) s

/-! ## Completion queues -/

def execCompletionWrite (cq : CqId) (s : State) :=
  lift (fun w => if (w.cq cq.val).st = .enabled then w.writeFront cq.val else w) s

/-- The command processor reads the acknowledgement word (R300, R302). -/
def Work.ackRead (w : Work) (c : Nat) : Work :=
  let x := w.cq c
  let p := w.cqOwner c
  if x.st = .disabled then w
  else
    match w.vaRead (cpCache (c % 16)) (poundDev (p.getD 0)) (some x.pid) (.ring p) 8 (c % 16) x.ackAddr.toNat 8 with
    | (w, .bad status a) =>
      if x.ackFault then w else (w.modCq c (fun x => { x with ackFault := true })).recCqFault c 1 a status 1
    | (w, .ok b) =>
      let v := leNat b
      let a : W32 := BitVec.ofNat 32 v
      if v < 2 ^ 32 && (a - x.lastAck).toNat ≤ (x.lastWritten - x.lastAck).toNat then
        w.modCq c (fun x => { x with lastAck := a })
      else if x.badAcks.contains (BitVec.ofNat 64 v) then w
      else
        (w.modCq c (fun x => { x with badAcks := x.badAcks ++ [BitVec.ofNat 64 v] })).record
          { cls := 0x0603, kind := 8, id := c % 16, pound := optPound p, action := 6, addr := x.ackAddr.toNat, d0 := v, d1 := c }

def execAckRead (cq : CqId) (s : State) := lift (fun w => w.ackRead cq.val) s

/-- An MSI write of 4 bytes by an engine or device: to an interrupt file of the pound's own harts, through the MSI page
table, or to memory that the pound may write; anything else is dropped and recorded (R463, R615). -/
def Work.msi (w : Work) (cache dev : Nat) (pasid : Option Nat) (p : Option Nat) (kind id va : Nat) (data : W32) : Work :=
  let refuse (w : Work) (a : Nat) : Work :=
    w.record { cls := 0x0801, kind := kind, id := id, pound := optPound p, action := 6, addr := a, d0 := data.toNat, d1 := dev }
  match w.translateMsi cache dev pasid va true with
  | (w, none) => refuse w va
  | (w, some (a, viaMsi)) =>
    match w.place a with
    | .control o =>
      match imsicFile o with
      | some f =>
        if viaMsi && a % 0x1000 = 0 && p.isSome && w.coreOwner (imsicHart f) = p then w.imsicSet f data.toNat
        else refuse w a
      | none => refuse w a
    | .glob _ _ => refuse w a
    | _ => if w.acc (.ring p) a 4 true = .ok then w.pwrite a (leBytes 4 data.toNat) true p else refuse w a

/-- One interrupt for the batch of entries written since the last (R301). -/
def Work.msiWrite (w : Work) (c : Nat) : Work :=
  let x := w.cq c
  if !x.msiDue || x.st = .disabled then w
  else
    (w.modCq c (fun x => { x with msiDue := false })).msi (cpCache (c % 16)) (poundDev ((w.cqOwner c).getD 0)) (some x.pid)
      (w.cqOwner c) 8 (c % 16) x.msiAddr.toNat x.msiData

def execMsiWrite (cq : CqId) (s : State) := lift (fun w => w.msiWrite cq.val) s

/-! ## The pound windows (R311 to R315) -/

/-- Queue that a window selects: whether this block serves it and the pound owns it. -/
def Work.winOwned (w : Work) (n p : Nat) : Bool :=
  let x := w.cpWin n p
  x.queue % 16 = n && (if x.cq then w.cqOwner x.queue else w.sqOwner x.queue) = some p

/-- Context bytes of the selected queue, or zeros. -/
def Work.winBytes (w : Work) (n p : Nat) : List Byte :=
  let x := w.cpWin n p
  if !w.winOwned n p then [] else if x.cq then (w.cq x.queue).bytes else (w.sq x.queue).bytes

/-- Set CP_QRESULT.STATUS. -/
def Work.winStatus (w : Work) (n p status : Nat) : Work := w.modCpWin n p (fun x => { x with status := status })

/-- CP_QSEL as a word. -/
def CpWindow.qsel (x : CpWindow) : W64 := fields [(32, b2n x.cq), (0, x.queue)]

/-- A write to CP_QSEL selects a queue and latches its context (R311, R314). -/
def Work.cpQsel (w : Work) (n p : Nat) (z : Size) (high : Bool) (v : W64) : Work :=
  let r := merge (w.cpWin n p).qsel z high v
  let w := w.modCpWin n p (fun x => { x with cq := bit r 32, queue := bits r 19 0 })
  let w := w.modCpWin n p (fun x => { x with snap := w.winBytes n p })
  if w.winOwned n p then w else w.winStatus n p 6

def execCpQselWrite (core : CoreId) (cp : CpId) (pound : PoundId) (size : Size) (high : Bool) (value : W64) (s : State) :=
  lift (fun w => w.regStore core.val (cpOff cp.val + 0x1000 + pound.val * 0x100) size high (w.isPound core.val pound.val) value
    (fun w => w.cpQsel cp.val pound.val size high value)) s

/-- A write to CP_QCTX: the H fields it reaches, of a DISABLED queue only; what it changes shows in the snapshot
(R281, R282, R311, R314, R610). -/
def Work.cpQctx (w : Work) (n p word : Nat) (z : Size) (high : Bool) (v : W64) : Work :=
  let x := w.cpWin n p
  let lo := word * 8 + (if z = .b8 then 0 else if high then 4 else 0)
  let len := if z = .b8 then 8 else 4
  let isHost := inField (if x.cq then cqFields else sqFields) lo len
  let disabled := if x.cq then (w.cq x.queue).st = .disabled else (w.sq x.queue).st = .disabled
  if !w.winOwned n p then w
  else if !disabled || !(List.range len).any (fun i => isHost (lo + i)) then w.winStatus n p 1
  else
    let old := w.winBytes n p
    let new := (List.range 64).map (fun o =>
      if isHost o then (leBytes 8 v.toNat).getD (o - lo) 0 else old.getD o 0)
    let w := if x.cq then
        w.modCq x.queue (fun c =>
          let c := c.withBytes new
          if lo = 0x18 then { c with lastAck := c.lastWritten } else c)
      else
        w.modSq x.queue (fun s =>
          let s := s.withBytes new
          if lo ≤ 0x1C && 0x1C < lo + len then { s with started := s.fetched, completed := s.fetched, tail := s.head } else s)
    let now := w.winBytes n p
    let shows (o : Nat) : Bool := (ctxFields x.cq).any (fun f => f.1 ≤ o && o < f.1 + f.2 &&
      (List.range f.2).any (fun i => isHost (f.1 + i) || now.getD (f.1 + i) 0 ≠ old.getD (f.1 + i) 0))
    w.modCpWin n p (fun x =>
      { x with snap := (List.range 64).map (fun o => if shows o then now.getD o 0 else x.snap.getD o 0) })

def execCpQctxWrite (core : CoreId) (cp : CpId) (pound : PoundId) (word : Fin 8) (size : Size) (high : Bool) (value : W64)
    (s : State) :=
  lift (fun w => w.regStore core.val (cpOff cp.val + 0x1008 + pound.val * 0x100 + word.val * 8) size high
    (w.isPound core.val pound.val) value (fun w => w.cpQctx cp.val pound.val word.val size high value)) s

/-- The status with which ENABLE of submission queue q is refused; 0 when it is accepted (R305, R306). -/
def Work.sqEnableStatus (w : Work) (q p : Nat) : Nat :=
  let s := w.sq q
  if s.st ≠ .disabled then 1
  else if s.pasid / 2 ^ 20 ≠ 0 || s.cq / 2 ^ 18 ≠ 0 || s.log2 < 4 || 16 < s.log2 || s.base.toNat % 4096 ≠ 0 then 2
  else if (w.cq s.cqNum).st ≠ .enabled || w.cqOwner s.cqNum ≠ some p then 2
  else if s.csv ≠ 1 then 3
  else if w.cqFree s.cqNum < 1 then 4
  else 0

/-- The status with which ENABLE of completion queue c is refused (R306). -/
def Work.cqEnableStatus (w : Work) (c : Nat) : Nat :=
  let x := w.cq c
  if x.st = .enabled then 1
  else if x.irq / 2 ≠ 0 || x.pasid / 2 ^ 20 ≠ 0 || x.log2 < 4 || 16 < x.log2 || x.base.toNat % 4096 ≠ 0 ||
      x.ackAddr.toNat % 8 ≠ 0 || (x.irq % 2 = 1 && x.msiAddr.toNat % 4 ≠ 0) then 2
  else 0

/-- Write the held entries of a queue in NSEQ order, until one fails (R302). -/
def Work.writeHeld (w : Work) (c : Nat) : Nat → Work
  | 0 => w
  | n + 1 => if (w.cq c).st = .enabled then Work.writeHeld (w.writeFront c) c n else w

/-- ENABLE of the selected queue (R302, R305, R306). -/
def Work.queueEnable (w : Work) (n p : Nat) : Work :=
  let x := w.cpWin n p
  if !w.winOwned n p then w.winStatus n p 6
  else if x.cq then
    let st := w.cqEnableStatus x.queue
    if st ≠ 0 then w.winStatus n p st
    else
      let w := w.modCq x.queue (fun c => { c with st := .enabled, ackFault := false })
      (w.writeHeld x.queue (w.cq x.queue).pend.length).winStatus n p 0
  else
    let st := w.sqEnableStatus x.queue p
    if st ≠ 0 then w.winStatus n p st
    else
      let w := w.modCq (w.sq x.queue).cqNum (fun c => { c with bound := c.bound + 1, reserved := c.reserved + 1 })
      (w.modSq x.queue (fun s => { s with st := .running, aborted := 0 })).winStatus n p 0

def execQueueEnable (core : CoreId) (cp : CpId) (pound : PoundId) (s : State) :=
  lift (fun w => w.regStore core.val (cpOff cp.val + 0x1048 + pound.val * 0x100) .b8 false (w.isPound core.val pound.val) 1
    (fun w => w.queueEnable cp.val pound.val)) s

/-- CP_NOTICE names a queue that is no longer ENABLED: VALID reads 0 (R316). -/
def Work.noticeOff (w : Work) (p c : Nat) : Work :=
  w.modPound p (fun x => { x with noticeValid := x.noticeValid && x.noticeCq ≠ c })

/-- DISABLE of the selected queue (R302, R305 to R307). -/
def Work.queueDisable (w : Work) (n p : Nat) : Work :=
  let x := w.cpWin n p
  if !w.winOwned n p then w.winStatus n p 6
  else if x.cq then
    let c := w.cq x.queue
    if c.bound ≠ 0 then w.winStatus n p 5
    else if c.st = .disabled then w.winStatus n p 1
    else
      let w := if c.st = .faulted then w.recCqFault x.queue c.pend.length 0 c.error 2 else w
      ((w.modCq x.queue (fun c =>
        { c with
          st := .disabled
          pend := []
          reserved := c.reserved - (c.pend.filter (fun e => e.reserved)).length })).noticeOff p x.queue).winStatus n p 0
  else
    let s := w.sq x.queue
    if s.st ≠ .running && s.st ≠ .stopped then w.winStatus n p 1
    else
      ((w.modSq x.queue (fun s => { s with st := .draining, aborted := 0 })).abortFetched x.queue 0x0F).winStatus n p 0

def execQueueDisable (core : CoreId) (cp : CpId) (pound : PoundId) (s : State) :=
  lift (fun w => w.regStore core.val (cpOff cp.val + 0x1048 + pound.val * 0x100) .b8 false (w.isPound core.val pound.val) 2
    (fun w => w.queueDisable cp.val pound.val)) s

/-- OP 0b00 or 0b11 written to CP_QCMD: no action, STATUS 7 (R315). The command's other OP values have rows of their own,
whose effects this one has. -/
def Work.queueCmd (w : Work) (n p op : Nat) : Work :=
  if op = 1 then w.queueEnable n p else if op = 2 then w.queueDisable n p else w.winStatus n p 7

def execCpQcmdBad (core : CoreId) (cp : CpId) (pound : PoundId) (op : BitVec 2) (s : State) :=
  lift (fun w => w.regStore core.val (cpOff cp.val + 0x1048 + pound.val * 0x100) .b8 false (w.isPound core.val pound.val)
    (op.setWidth 64) (fun w => w.queueCmd cp.val pound.val op.toNat)) s

/-! ## Drains (R307) -/

def execQueueDrainTimeout (queue : SqId) (s : State) :=
  lift (fun w => if (w.sq queue.val).st = .draining then w.abortStarted queue.val 0x0F 7 else w) s

/-- The terminal entry is written after every earlier entry of its completion queue; one that cannot be written is held
(R302, R307). -/
def Work.terminal (w : Work) (c : Nat) (e : Entry) : Work :=
  if (w.cq c).st = .faulted then w.pushEntry c e
  else match w.writeEntry c e with
    | (w, true) => w
    | (w, false) => w.pushEntry c e

/-- The drain of a queue ends: its terminal entry is written, and the queue is DISABLED (R305, R307). -/
def Work.queueDrainEnd (w : Work) (q : Nat) : Work :=
  let s := w.sq q
  let c := w.cq s.cqNum
  if s.st ≠ .draining || w.sqBusy q || (c.st ≠ .faulted && !(s.cmds.isEmpty && c.pend.isEmpty)) then w
  else
    let e : Entry :=
      { seq := s.fetched, tag := 0, status := 0x13, flags := 0, sq := BitVec.ofNat 32 q
        d0 := BitVec.ofNat 64 (s.head.toNat + s.tail.toNat * 2 ^ 32), d1 := BitVec.ofNat 64 s.aborted, reserved := true }
    let w := w.terminal s.cqNum e
    let w := w.modCq s.cqNum (fun c => { c with bound := c.bound - 1 })
    w.modSq q (fun s =>
      { s with st := .disabled, tail := s.head, started := s.fetched, completed := s.fetched, cmds := [], aborted := 0 })

def execQueueDrainEnd (queue : SqId) (s : State) := lift (fun w => w.queueDrainEnd queue.val) s

/-! ## CP_NOTICE (R316) -/

/-- CP_NOTICE as a word. -/
def Pound.noticeWord (x : Pound) : W64 := fields [(63, b2n x.noticeValid), (32, x.noticeDropped), (0, x.noticeCq)]

/-- A write to CP_NOTICE (R316). -/
def Work.cpNotice (w : Work) (c p : Nat) (z : Size) (high : Bool) (v : W64) : Work :=
  let x := w.pound p
  let r := merge x.noticeWord z high v
  let cq := if writesLow z high then bits r 17 0 else x.noticeCq
  let want := if writesHigh z high then bit r 63 else x.noticeValid
  let ok := (w.cq cq).st = .enabled && w.cqOwner cq = some p
  let dropped := if writesHigh z high && bits v (if z = .b8 then 47 else 15) (if z = .b8 then 32 else 0) = 0xFFFF then 0
    else x.noticeDropped
  let w := w.modPound p (fun x => { x with noticeCq := cq, noticeValid := want && ok, noticeDropped := dropped })
  if want && !ok then w.ignoreReg c (cpOff 0 + 0x8000 + p * 0x40 + halfOff z high) z v else w

def execCpNoticeWrite (core : CoreId) (pound : PoundId) (size : Size) (high : Bool) (value : W64) (s : State) :=
  lift (fun w => w.regStore core.val (cpOff 0 + 0x8000 + pound.val * 0x40) size high (w.isPound core.val pound.val) value
    (fun w => w.cpNotice core.val pound.val size high value)) s

end Sys2Proof.Machine
end

