-- ==== Sys2Proof/Machine/Retrain.lean ====
section
/-!
DEFINITION. Retraining of HBM channels (R396, R397) and the return of a slice to ACTIVE (R390).
-/

namespace Sys2Proof.Machine

/-- Stack of an HBM channel. -/
def chStack (ch : Nat) : Nat := ch / 32

/-- The earliest AT from t on that no other window has and that is 100 us from every window of the stack (R396). -/
def Work.windowAt (w : Work) (ch t : Nat) : Nat :=
  let others := w.chip.time.orders.filter (fun e => e.2.action = 4)
  let bad (t : Nat) : Bool := others.any (fun e => e.2.at_ = t ||
    (chStack e.2.arg = chStack ch && t < e.2.at_ + 100_000 && e.2.at_ < t + 100_000))
  ((List.range 64).map (fun k => t + k * 100_000)).find? (fun t => !bad t) |>.getD (t + 6_400_000)

/-- HBM_RETRAIN_POST: a window of a mapped channel is posted with a notice of 1,000 us; at most 16 are pending (R112,
R396). -/
def Work.retrainPost (w : Work) (ch : Nat) : Work :=
  let pending := (w.chip.time.orders.filter (fun e => e.2.action = 4)).length
  if !w.mapped.contains ch || 16 ≤ pending then w
  else w.postOwn .power 4 (w.windowAt ch (w.now + 1_002_000)) 0xFF 1000 ch

def execHbmRetrainPost (channel : ChanId) (s : State) := lift (fun w => w.retrainPost channel.val) s

/-- Action 0x04: a window is carried out, and its slice enters RECOVERY until 20 us after it ends; one for a channel that is
failed or no longer mapped has no effect (R390, R397). -/
def Work.retrainStart (w : Work) (i : Nat) : Work :=
  match w.startable i 4 with
  | none => w
  | some o =>
    let w := w.beginOrder i o (some 2000)
    let ch := o.arg
    if !w.mapped.contains ch || (w.hbmCh ch).health = 2 then w.endOrder i
    else
      let w := w.modHbm ch (fun x =>
        { x with trains := satAdd 32 x.trains 1, trainAt := BitVec.ofNat 64 o.at_, training := some o.at_ })
      let w := w.modSlice (ch / 2) (fun x => { x with st := .recovery, recoverAt := some (w.chip.refPs + 22_000_000) })
      w.endOrder i

def execHbmRetrainingWindow (index : OrderIdx) (s : State) := lift (fun w => w.retrainStart index.val) s

/-- HBM_RETRAIN_TIMEOUT: training has not converged; the second failure in a row makes the channel failing (R397, R398). -/
def Work.retrainTimeout (w : Work) (ch : Nat) : Work :=
  match (w.hbmCh ch).training with
  | none => w
  | some t =>
    let n := min 2 ((w.hbmCh ch).consec + 1)
    let w := w.modHbm ch (fun x => { x with fails := satAdd 16 x.fails 1, consec := n, training := none })
    let w := w.record { cls := 0x0304, kind := 3, id := ch, d0 := n, d1 := t }
    if n = 2 && (w.hbmCh ch).health = 0 then w.failing false ch 3 else w

def execHbmRetrainTimeout (channel : ChanId) (s : State) := lift (fun w => w.retrainTimeout channel.val) s

/-- A channel that slice s homes has failed since the last activation: no charter in force names a failed one (R65, R400). -/
def Work.homesFailed (w : Work) (s : Nat) : Bool := w.mapped.any (fun ch => ch / 2 = s && (w.hbmCh ch).health = 2)

/-- REGULATION_ACTIVE: RECOVERY has run its 20 us after the window; a window that did not fail has trained its channel. A
slice that homes a failed channel stays in RECOVERY until the next activation (R390, R397). -/
def Work.regulationActive (w : Work) (s : Nat) : Work :=
  let x := w.slice s
  match x.recoverAt with
  | some _ =>
    if x.st = .recovery then
      let st := if w.homesFailed s then RegState.recovery else .active
      let w := w.modSlice s (fun x => { x with st := st, recoverAt := none })
      w.each [2 * s, 2 * s + 1] (fun w ch => w.modHbm ch (fun x =>
        if x.training.isSome then { x with consec := 0, training := none } else x))
    else w
  | none => w

def execRegulationActive (slice : SliceId) (s : State) := lift (fun w => w.regulationActive slice.val) s

end Sys2Proof.Machine
end

