-- ==== Sys2Proof/Machine/LockTime.lean ====
section
/-!
DEFINITION. Lock Time: its sources and states, held orders on its return, and the LT_ order registers (R102 to R124, R592,
R593).
-/

namespace Sys2Proof.Machine

/-! ## Sources (R103, R106) -/

/-- Code of LT_STATUS.SOURCE (R121). -/
def sourceCode : TimeSource → Nat
  | .pps => 1 | .ptp _ => 2 | .nyulle _ => 3

/-- The two 800GbE ports as time sources. -/
def Work.ptpPort (w : Work) (e : Nat) : PtpPort := SMap.get { valid := false, lastSync := 0 } w.chip.time.ptp e
def Work.modPtp (w : Work) (e : Nat) (f : PtpPort → PtpPort) : Work :=
  { w with chip.time.ptp := SMap.modify { valid := false, lastSync := 0 } w.chip.time.ptp e f }
/-- A Nyulle link as a time source. -/
def Work.nylTime (w : Work) (l : Nat) : NylTime := SMap.get { usable := false, hops := 15, last := 0 } w.chip.time.nyl l
def Work.modNylTime (w : Work) (l : Nat) (f : NylTime → NylTime) : Work :=
  { w with chip.time.nyl := SMap.modify { usable := false, hops := 15, last := 0 } w.chip.time.nyl l f }

/-- PTP on a port is valid: enabled, the port in service, and a Sync within its limit (R103, R559). -/
def Work.ptpOk (w : Work) (e : Nat) : Bool :=
  bit w.chip.time.srcEn 1 && bit w.chip.time.ptpPorts e && (w.eth e).up && (w.ptpPort e).valid

/-- A link is a candidate for the parent (R106). -/
def Work.timeCandidate (w : Work) (l : Nat) : Bool := (w.nylTime l).usable && (w.nylTime l).hops < 8

/-- The PTP port in use: port 0 where it is valid and in use, port 1 when port 0 is not valid (R103). -/
def Work.choosePtp (w : Work) : Option Nat :=
  let u := w.chip.time.ptpUse
  if w.ptpOk u then some u else if w.ptpOk (1 - u) then some (1 - u) else none

/-- LOCK_PPS or PTP is valid (R103). -/
def Work.siteFed (w : Work) : Bool := bit w.chip.time.srcEn 0 && w.chip.time.ppsValid || w.choosePtp.isSome

/-- The parent after a choice: kept while it is a candidate, unless another has strictly fewer hops; none where a site source is
valid (R106). -/
def Work.chooseParent (w : Work) : Option Nat :=
  if !bit w.chip.time.srcEn 2 || w.siteFed then none
  else
    let l := sortBy (fun l => (w.nylTime l).hops) ((List.range 48).filter w.timeCandidate)
    match l, w.chip.time.parent with
    | [], _ => none
    | b :: _, some p =>
      if w.timeCandidate p && (w.nylTime p).hops ≤ (w.nylTime b).hops then some p else some b
    | b :: _, none => some b

/-- The link that stands for the Nyulle source: the parent, or where no link is a candidate any more one whose last usable message came
within 100 us (R103, R106; log entry 18). -/
def Work.chooseNyulle (w : Work) : Option Nat :=
  match w.chooseParent with
  | some l => some l
  | none => if bit w.chip.time.srcEn 2 then (List.range 48).find? (fun l => (w.nylTime l).usable) else none

/-- The first valid source in the order of R103. -/
def Work.chooseSource (w : Work) : Option TimeSource :=
  if bit w.chip.time.srcEn 0 && w.chip.time.ppsValid then some .pps
  else match w.choosePtp with
    | some e => some (.ptp (if e = 1 then 1 else 0))
    | none => w.chooseNyulle.map (fun l => .nyulle (Fin.ofNat 48 l))

/-- SOURCE, HOPS, the PTP port and the parent follow the choice. -/
def Work.refreshSource (w : Work) : Work :=
  let s := w.chooseSource
  { w with
    chip.time.parent := w.chooseParent
    chip.time.ptpUse := w.choosePtp.getD w.chip.time.ptpUse
    chip.time.source := match s with | some s => sourceCode s | none => 0
    chip.time.hops := match s with
      | some (.nyulle l) => min 15 ((w.nylTime l.val).hops + 1)
      | some _ => 0
      | none => 15 }

/-! ## Held orders (R115 to R117) -/

/-- One held order whose AT has passed: dropped, or run at once. -/
def Work.runOrder (w : Work) (i : Nat) : Work :=
  match w.order? i with
  | none => w
  | some o =>
    match o.action with
    | 1 => w.changeStart i
    | 2 => w.capStart i
    | 3 => w.charterActivation
    | 4 => w.retrainStart i
    | 5 => w.auditStart i
    | 7 => w.fenceStart i
    | _ => (if w.noticeDue o then w.sendNotice i o else w).dropOrder i o

/-- Orders that were held past their AT, in ascending AT, then ACTION, then acceptance (R115, R117). -/
def Work.heldOrders (w : Work) : List Nat :=
  let l := w.chip.time.orders.filter (fun e => e.2.began.isNone && e.2.at_ ≤ w.now)
  let l := sortBy (fun (e : Nat × Order) => e.2.accepted) l
  let l := sortBy (fun (e : Nat × Order) => e.2.action) l
  (sortBy (fun (e : Nat × Order) => e.2.at_) l).map (·.1)

def Work.runHeld (w : Work) : Work := w.each w.heldOrders (fun w i => w.runOrder i)

/-! ## States (R108, R109) -/

/-- STATE takes another value: APLIC source 20 becomes pending (R464). -/
def Work.setLtState (w : Work) (st : LtState) : Work :=
  if w.chip.time.st = st then w
  else { w with chip.time.st := st, chip.time.good := 0 }.aplicRaise 20

/-- LT_NOW steps to a source's value (R109). -/
def Work.stepTime (w : Work) (t : Nat) : Work :=
  { w with
    chip.time.nowPs := t * 1000
    chip.time.steps := satAdd 16 w.chip.time.steps 1
    chip.time.good := 0 }

/-- LOCKED ends: cause 1 no valid source, cause 2 a sample that differs (R109, R503, R615). -/
def Work.loseTime (w : Work) (cause source : Nat) (diff : Int) : Work :=
  let w := { w.setLtState .lost with chip.time.lostSeen := true }
  let w := w.record { cls := 0x0201, action := 0, d0 := cause, d1 := source
                      d2 := if cause = 2 then (BitVec.ofInt 64 diff).toNat else 0 }
  w.fgSuspend true

/-- STATE becomes LOCKED: it is recorded, first due times are set once, held orders are handled, and pounds go on to their
targets (R109, R117, R503, R536). -/
def Work.lockTime (w : Work) : Work :=
  let w := { w.setLtState .locked with chip.time.lockedAt := w.now }
  let w := w.record { cls := 0x0202, d0 := w.chip.time.source, d1 := w.chip.time.steps }
  let w := w.firstDue.runHeld
  let w := w.fgSuspend false
  w.each w.present (fun w p => w.follow p)

/-- No valid source may be left (R109). -/
def Work.expireSource (w : Work) : Work :=
  let was := w.chip.time.source
  let w := w.refreshSource
  if w.chooseSource.isSome then w
  else match w.chip.time.st with
    | .locked => w.loseTime 1 was 0
    | .acquiring => w.setLtState .lost
    | .lost => w

/-- A sample of Lock Time in ns from a source; only the source in use disciplines LT_NOW (R103, R106, R109). -/
def Work.timeSample (w : Work) (s : TimeSource) (t : Nat) : Work :=
  let w := w.refreshSource
  if w.chooseSource ≠ some s then w
  else
    let diff : Int := (t : Int) - (w.now : Int)
    let near := decide (diff.natAbs ≤ 25)
    match w.chip.time.st with
    | .locked => if near then w else w.loseTime 2 (sourceCode s) diff
    | .lost => (w.stepTime t).setLtState .acquiring
    | .acquiring =>
      if !near then w.stepTime t
      else if 3 ≤ w.chip.time.good then w.lockTime
      else { w with chip.time.good := w.chip.time.good + 1 }

/-! ## LOCK_PPS and PTP (R103, R592, R593) -/

/-- A rising edge of LOCK_PPS: ignored within 500 ms of the last, and a sample where its message has come. A gap of more than
1.5 s has ended the source's validity. -/
def Work.ppsEdge (w : Work) : Work :=
  let now := w.chip.refPs
  let gap := w.chip.time.ppsEdge.map (fun e => now - e)
  if (match gap with | some g => decide (g < 500_000_000_000) | none => false) then w
  else
    let late := match gap with | some g => decide (1_500_000_000_000 < g) | none => false
    let w := if late then { w with chip.time.ppsValid := false }.expireSource else w
    let tod := w.chip.time.tod
    let w := { w with chip.time.ppsEdge := some now, chip.time.tod := none, chip.time.ppsValid := tod.isSome }
    match tod with
    | some t => w.timeSample .pps t.toNat
    | none => w.expireSource

def execLockPpsEdge (s : State) := lift (fun w => w.ppsEdge) s

/-- TIME_OF_DAY: the Lock Time of the next edge, in a message 100 to 900 ms after the preceding edge (R103). -/
def execTimeOfDay (time : W64) (s : State) :=
  lift (fun w => w.manage (fun w =>
    let ok := match w.chip.time.ppsEdge with
      | some e => 100_000_000_000 ≤ w.chip.refPs - e && w.chip.refPs - e ≤ 900_000_000_000
      | none => false
    (if ok then { w with chip.time.tod := some time } else w).answer 0 [])) s

/-- PTP_SYNC: Lock Time is PTP time minus LT_EPOCH_OFFSET; a Sync of another domain than PTP_DOMAIN is not taken (R103, R122). -/
def execPtpSync (port : EthId) (ptpTime : PtpTime) (s : State) :=
  lift (fun w =>
    if ptpTime.domain ≠ w.chip.time.ptpDomain then w
    else (w.modPtp port.val (fun x => { x with valid := true, lastSync := w.chip.refPs })).timeSample (.ptp port)
      (ptpTime.time - w.chip.time.epochOffset).toNat) s

/-- PTP_PORT_RETURN: PTP moves back to port 0 (R103). -/
def execPtpPortReturn (s : State) :=
  lift (fun w => (if w.ptpOk 0 then { w with chip.time.ptpUse := 0 } else w).refreshSource) s

/-- LT_SOURCE_TIMEOUT: a source's limit has passed without a sample (R103, R109). -/
def execLtSourceTimeout (source : TimeSource) (s : State) :=
  lift (fun w => (match source with
    | .pps => { w with chip.time.ppsValid := false }
    | .ptp e => w.modPtp e.val (fun x => { x with valid := false })
    | .nyulle l => w.modNylTime l.val (fun x => { x with usable := false })).expireSource) s

/-- SET_TIME_CONFIG writes LT_CTRL and LT_EPOCH_OFFSET; what it disables is invalid at once (R103, R122, R484). -/
def Work.timeConfig (w : Work) (ctrl epoch : W64) : Work :=
  let had := w.chooseSource.isSome
  let w := { w with
    chip.time.srcEn := ctrl.setWidth 3
    chip.time.ptpPorts := BitVec.ofNat 2 (bits ctrl 9 8)
    chip.time.ptpDomain := BitVec.ofNat 8 (bits ctrl 23 16)
    chip.time.epochOffset := epoch
    chip.time.ppsValid := w.chip.time.ppsValid && bit ctrl 0 }
  let w := w.each [0, 1] (fun w e => if bit ctrl 1 && bit ctrl (8 + e) then w else w.modPtp e (fun x => { x with valid := false }))
  let w := if bit ctrl 2 then w else { w with chip.time.nyl := SMap.mapVal w.chip.time.nyl (fun _ x => { x with usable := false }) }
  (if had then w.expireSource else w.refreshSource).answer 0 []

def execSetTimeConfig (ctrl epochOffset : W64) (s : State) := lift (fun w => w.manage (fun w => w.timeConfig ctrl epochOffset)) s

/-! ## Order registers (R112 to R119, R123, R124) -/

/-- The order registers of pound p. -/
def OrderRegs.zero : OrderRegs := { at_ := 0, spec := 0, index := 0, status := 0 }
def Work.orderRegs (w : Work) (p : Nat) : OrderRegs := SMap.get OrderRegs.zero w.chip.time.regs p
def Work.modOrderRegs (w : Work) (p : Nat) (f : OrderRegs → OrderRegs) : Work :=
  { w with chip.time.regs := SMap.modify OrderRegs.zero w.chip.time.regs p f }

/-- LT_ORDER_RESULT. -/
def Work.orderResult (w : Work) (p status index : Nat) : Work :=
  w.modOrderRegs p (fun x => { x with status := status, index := BitVec.ofNat 12 index })

/-- A post: bad argument, not permitted, then the table's own refusals, in the order of R124. -/
def Work.orderPost (w : Work) (p : Nat) : Work :=
  let r := w.orderRegs p
  let action := bits r.spec 7 0
  let arg := bits r.spec 63 32
  if (action = 6 && arg = 0) || (action = 7 && arg ≠ 0) then w.orderResult p ltBadArgument 0
  else if action ≠ 6 && action ≠ 7 then w.orderResult p ltNotPermitted 0
  else match w.post_ (.pound p) action r.at_.toNat p (bits r.spec 31 16) arg with
    | (w, s, i) => w.orderResult p s i

/-- A cancel of order i through the set of pound p (R119). -/
def Work.orderCancel (w : Work) (p i : Nat) : Work :=
  match w.order? i with
  | some o =>
    if o.action = 3 then w.orderResult p ltNotPermitted i
    else if o.poster ≠ .pound p then w.orderResult p ltNotFound i
    else if o.began.isSome then w.orderResult p ltTooLate i
    else (w.freeOrder i).orderResult p 0 i
  | none => w.orderResult p ltNotFound i

/-- What an OP written to LT_ORDER_CMD does (R123). -/
def Work.orderCmd (w : Work) (p op i : Nat) : Work :=
  match op with
  | 1 => w.orderPost p
  | 2 => w.orderCancel p i
  | _ => w.orderResult p ltBadArgument 0

/-- A store to LT_ORDER_CMD of pound p. -/
def Work.orderStore (w : Work) (c p op i : Nat) : Work :=
  w.regStore c (ltBase + 0x110 + p * 0x40) .b8 false (w.isPound c p) (fields [(16, i), (0, op)]) (fun w => w.orderCmd p op i)

def execLtOrderPost (core : CoreId) (pound : PoundId) (s : State) :=
  lift (fun w => w.orderStore core.val pound.val 1 0) s

def execLtOrderCancel (core : CoreId) (pound : PoundId) (index : OrderIdx) (s : State) :=
  lift (fun w => w.orderStore core.val pound.val 2 index.val) s

/-- The other OP values have rows of their own, whose effects this one has. -/
def execLtOrderBadOp (core : CoreId) (pound : PoundId) (op : BitVec 2) (s : State) :=
  lift (fun w => w.orderStore core.val pound.val op.toNat 0) s

/-- LOCK_ORDER_NOTICE: the moment of an order's notice has come (R118). -/
def execLockOrderNotice (index : OrderIdx) (s : State) :=
  lift (fun w => match w.order? index.val with
    | some o => if w.noticeDue o && o.began.isNone && w.locked then w.sendNotice index.val o else w
    | none => w) s

end Sys2Proof.Machine
end

