-- ==== Sys2Proof/Machine/Bringup.lean ====
section
/-!
DEFINITION. Bring-up: its five steps, the Catalogue, the assignment of tile indices, and the start of harts (R47 to R49,
R99, R553 to R566, R580).
-/

namespace Sys2Proof.Machine

/-! ## Sirent links at bring-up (R19, R46 to R49, R555) -/


/-- Both ends of a link take a state. -/
def Work.srtState (w : Work) (l : Nat) (st : SrtState) : Work :=
  w.modSrt l (fun x => { x with a := { x.a with st := st }, b := { x.b with st := st } })

/-- A link is up, a retry under way included (R579). -/
def Work.srtUp (w : Work) (l : Nat) : Bool :=
  ((w.srt l).a.st = .up || (w.srt l).a.st = .retrying) && ((w.srt l).b.st = .up || (w.srt l).b.st = .retrying)

/-- A link is up, has failed, or is excluded. -/
def Work.srtSettled (w : Work) (l : Nat) : Bool :=
  w.srtUp l || (w.srt l).a.st = .failed || (w.srt l).a.st = .excluded

/-- Link l fails: cause 1 retries failed, 2 not up at bring-up, 3 no common version. It is recorded and marked as excluded in
the persistent summary; once step 2 has ended, the host complex takes a machine check and every pound stops (R46, R47,
R51, R555). -/
def Work.failSirent (w : Work) (l cause : Nat) : Work :=
  if (w.srt l).a.st = .failed then w
  else
    let w := w.srtState l .failed
    let w := w.record { cls := 0x0701, kind := 6, id := l, action := 7, d0 := cause }
    let w := { w with chip.flash.summary.linkExcluded := setBit w.chip.flash.summary.linkExcluded l true }
    if w.chip.boot.step ≤ 2 then { w with chip.boot.srtExcluded := setBit w.chip.boot.srtExcluded l true }
    else w.machineCheck.moduleFault.driveFault 2

/-- A firmware component supports revision r: its image says so. The images that a module starts with are not known; they
support A0 and B0 (R566; log entry 4). -/
def Work.supports (w : Work) (k r : Nat) : Bool :=
  match SMap.look w.chip.flash.firmware k with
  | some x => if x.image.isEmpty then decide (r ≤ 1) else bit (Config.imageRevisions x.image) r
  | none => decide (r ≤ 1)

/-- No firmware component supports the revision of die d (R566). -/
def Work.unsupported (w : Work) (d : Nat) : Bool := (List.range 4).all (fun k => !w.supports k (w.fuse.rev.getD d 0))

/-- Dies that are reached from a set of dies over the links in service. A die whose revision no component supports counts as
one whose links have failed (R566). -/
def Work.reachable (w : Work) (from_ : List Nat) : Nat → List Nat
  | 0 => from_
  | n + 1 =>
    let more := (srtEnds.zipIdx.filter (fun e => w.srtUp e.2 && !w.unsupported e.1.1 && !w.unsupported e.1.2)).flatMap (fun e =>
      (if from_.contains e.1.1 then [e.1.2] else []) ++ (if from_.contains e.1.2 then [e.1.1] else []))
    w.reachable ((from_ ++ more).eraseDups) n

/-- A die that H0 cannot reach is excluded with everything it carries (R48, R566). -/
def Work.excludeDies (w : Work) : Work :=
  let r := w.reachable [4] 6
  let m : BitVec 5 := maskOf 5 (fun i => !r.contains (if i = 4 then 5 else i)) ||| w.chip.boot.dieExcluded
  { w with
    chip.boot.dieExcluded := m
    chip.flash.summary.dieExcluded := m
    chip.boot.standby := w.chip.boot.standby && !bit m 4
    chip.boot.uncoreH1 := w.chip.boot.uncoreH1 && !bit m 4 }

/-! ## Steps (R553) -/

/-- Step 2 has ended: power and the H-dies are in service and every link has settled. -/
def Work.step2Done (w : Work) : Bool :=
  let b := w.chip.boot
  b.step = 2 && b.power && b.uncoreH0 && b.iommu && (List.range 9).all w.srtSettled

/-- An LP-DRAM channel is trained, has failed, or lies on an excluded die. -/
def Work.lpdSettled (w : Work) (ch : Nat) : Bool :=
  bit w.chip.boot.lpd ch || bit w.chip.boot.lpdTried ch || (w.lpdCh ch).health = 2 || w.dieOut (4 + ch / 16)

/-- Step 3 has ended. Without a usable channel of H0 the module does not leave bring-up (R404). -/
def Work.step3Done (w : Work) : Bool :=
  w.chip.boot.step = 3 && w.chip.cht.booted && (List.range 32).all w.lpdSettled &&
  (List.range 16).any (fun c => bit w.chip.boot.lpd c)

/-- Bring-up goes from step 2 to step 3, and from step 3 to step 4. H0 alone does not leave bring-up (R49). -/
def Work.advanceBoot (w : Work) : Work :=
  if w.step2Done then
    let w := w.excludeDies
    if w.chip.boot.dieExcluded = 0x1F then w.driveFault 1
    else if w.chip.boot.uncoreH1 || bit w.chip.boot.dieExcluded 4 then { w with chip.boot.step := 3 }
    else w
  else if w.step3Done then { w with chip.boot.step := 4 }
  else w

/-- Step 2 starts: every Sirent link that is not excluded trains (R47). -/
def Work.startStep2 (w : Work) : Work :=
  let w := { w with chip.boot.step := 2 }
  w.each (List.range 9) (fun w l => w.srtState l (if bit w.chip.boot.srtExcluded l then .excluded else .training))

/-- Step 5 starts: Nyulle links and PCIe ports of dies in service begin to train (R430, R591). -/
def Work.startStep5 (w : Work) : Work :=
  let w := { w with chip.boot.step := 5 }
  let w := w.each ((List.range 48).filter (fun l => !w.dieOut (l / 12))) (fun w l =>
    w.modLink l (fun x => { x with st := .training }))
  w.each ((List.range 4).filter (fun p => !w.dieOut (4 + p / 2))) (fun w p =>
    w.modPort p Port.train)

/-! ## Settling (R560, R561) -/

/-- Every physical tile of C-die d has finished BIST. -/
def Work.bistDone (w : Work) (d : Nat) : Bool :=
  (List.range 40).all (fun k => (SMap.get none w.chip.boot.bist (d * 40 + k)).isSome)

/-- Class i of CAT_SETTLED has settled by what its members have reached. -/
def Work.classDone (w : Work) (i : Nat) : Bool :=
  let b := w.chip.boot
  let every (n : Nat) (f : Nat → Bool) : Bool := (List.range n).all f
  if i = 1 then 3 ≤ b.step && every 32 w.lpdSettled
  else if i = 2 then 2 ≤ b.step && every 9 w.srtSettled
  else if b.step ≠ 5 then false
  else match i with
    | 0 => every 95 (fun k => bit b.hart (k + 1) || (w.hart (k + 1)).st = .failed || w.dieOut (4 + (k + 1) / 48))
    | 3 => every 4 (fun d => w.bistDone d || w.dieOut d)
    | 4 => every 128 (fun s => bit b.arc s || w.dieOut (s / 32))
    | 5 => every 256 (fun ch => bit b.hbm ch || (w.hbmCh ch).health = 2 || w.dieOut (ch / 64))
    | 6 => every 16 (fun n => bit b.cp n || w.dieOut (n / 4))
    | 7 => every 4 (fun d => bit b.fabric d || w.dieOut d)
    | 8 => every 48 (fun l => w.dieOut (l / 12) || !decide ((w.link l).st = .down ∨ (w.link l).st = .training ∨
        (w.link l).st = .discovery))
    | 9 => every 4 (fun p => (w.port p).st = .up || w.dieOut (4 + p / 2))
    | _ => every 2 (fun e => (w.eth e).up || w.dieOut (4 + e))

/-- Class i has settled. When the Archive settles, SCRATCH is set over the slices in service (R560). -/
def Work.setSettled (w : Work) (i : Nat) : Work :=
  if bit w.chip.boot.settled i then w
  else
    let w := { w with chip.boot.settled := setBit w.chip.boot.settled i true }
    if i ≠ 4 then w
    else { w with
      chip.boot.arcSettled := true
      chip.boot.scratch := w.chip.boot.arc ≠ 0
      chip.boot.scratchSlices := w.chip.boot.arc }

/-- What follows from a function that has come into service or failed: classes settle, HBM_WINDOW is set, pounds run or
fail, and bring-up goes on (R553, R560, R561, R563). -/
def Work.settle (w : Work) : Work :=
  let w := w.each (List.range 11) (fun w i => if w.classDone i then w.setSettled i else w)
  (w.checkWindow.settlePounds).advanceBoot

/-! ## Tile indices (R562) -/

/-- State in which a passing tile takes index t. -/
def Work.freshState (w : Work) (t : Nat) : TileSt :=
  if 144 ≤ t then .spare else if (w.tileOwner t).isSome then .idle else .unowned

/-- C-die d assigns its indices once every physical tile has finished BIST. Indices that were assigned before are kept
through an uncore warm reset (R159, R567). -/
def Work.assignDie (w : Work) (d : Nat) : Work :=
  let ok (k : Nat) : Bool := SMap.get none w.chip.boot.bist (d * 40 + k) = some true
  if bit w.chip.boot.assigned d then
    w.each (dieIndices d) (fun w t =>
      let x := w.tile t
      if x.st = .quarantined then w
      else w.setTile t { x with st := if ok x.phys.pos then w.freshState t else .quarantined })
  else
    let pass := idxs 40 ok
    let fail := idxs 40 (fun k => !ok k)
    let ids := dieIndices d
    let w := w.each (List.zip pass ids) (fun w e =>
      w.setTile e.2 { Tile.resetWith (PhysTile.reset d e.1) with st := w.freshState e.2 })
    let w := w.each (List.zip fail (ids.drop pass.length).reverse) (fun w e =>
      w.setTile e.2 { Tile.resetWith (PhysTile.reset d e.1) with st := .quarantined })
    { w with chip.boot.assigned := setBit w.chip.boot.assigned d true }

/-- A physical tile has finished BIST. -/
def Work.bist (w : Work) (d k : Nat) (pass : Bool) : Work :=
  if (SMap.get none w.chip.boot.bist (d * 40 + k)).isSome then w
  else
    let w := { w with chip.boot.bist := SMap.set none w.chip.boot.bist (d * 40 + k) (some pass) }
    if w.bistDone d then w.assignDie d else w

/-! ## Commands of steps 1 to 3 -/

/-- BRINGUP_START: RESET_N is high, and power and the reference are within their limits: step 1 starts (R553, R594). -/
def execBringupStart (s : State) :=
  lift (fun w =>
    if w.chip.boot.step ≠ 0 || !w.chip.boot.powered then w
    else { w with chip.boot.step := 1, chip.boot.resetLow := false, chip.boot.refOk := true }) s

/-- A copy of a firmware component is usable; an image that an update has brought takes effect (R483, R554). -/
def Firmware.take (x : Firmware) (newOk : Bool) : Firmware :=
  match x.pending with
  | some v => if newOk then { x with version := v.1, image := v.2, pending := none, verified := true } else { x with verified := true }
  | none => { x with verified := true }

/-- FIRMWARE_VERIFIED: with all four components the Lockkeeper comes into service and step 2 starts; a component without a
usable copy keeps the module in step 1 (R554, R597). -/
def Work.firmwareVerified (w : Work) (i : Nat) (ok0 ok1 : Bool) : Work :=
  let b := w.chip.boot
  if b.step ≠ 1 || b.fwFailed || bit b.fwVerified i then w
  else if !ok0 && !ok1 then { w with chip.boot.fwFailed := true }.driveFault 1
  else
    let w := { w with
      chip.boot.fwVerified := setBit b.fwVerified i true
      chip.flash.firmware := SMap.mapVal w.chip.flash.firmware (fun k x => if k = i then x.take ok1 else x) }
    if w.chip.boot.fwVerified = 0xF then { w with chip.boot.lockkeeper := true }.startStep2 else w

def execFirmwareVerified (component : Fin 4) (copy0Ok copy1Ok : Bool) (s : State) :=
  lift (fun w => w.firmwareVerified component.val copy0Ok copy1Ok) s

/-- SIRENT_TRAIN_TIMEOUT: a link that is not up 10 ms after the start of step 2 has failed (R555). -/
def execSirentTrainTimeout (link : SrtId) (s : State) :=
  lift (fun w =>
    if w.chip.boot.step ≠ 2 || w.srtSettled link.val then w else (w.failSirent link.val 2).settle) s

def execStoredCharterVerify (s : State) := lift (fun w => (w.storedVerify).settle) s

/-! ## Step 4 and the harts (R556, R557, R580) -/

/-- The host boot image of the Lockkeeper component, at most 2 MiB (log entry 4). -/
def Work.bootImage (w : Work) : List Byte :=
  match SMap.look w.chip.flash.firmware 0 with | some x => x.image.take (2 * 2 ^ 20) | none => []

/-- HOST0_RELEASE: the boot image is written to LP-DRAM and host core 0 starts (R556). The first release starts step 5. -/
def Work.releaseHost0 (w : Work) : Work :=
  let b := w.chip.boot
  if b.host0 || (b.step ≠ 4 && b.step ≠ 5) || b.uncorePhase1 then w
  else
    let w := w.pwrite 0 w.bootImage false none
    let w := w.setCore 0 { HostCore.reset with a1 := BitVec.ofNat 64 w.bootImage.length }
    let w := (w.modHart 0 (fun x => { x with st := .running }))
    let w := { w with chip.boot.host0 := true, chip.boot.hart := setBit w.chip.boot.hart 0 true }
    let w := w.hostFetch 0 0
    if b.step = 4 then w.startStep5.settle else w

def execHost0Release (s : State) := lift (fun w => w.releaseHost0) s

/-- Core c may write CAT_HART_CTL of hart h (R557). -/
def Work.mayStart (w : Work) (c h : Nat) : Bool :=
  c = 0 || w.provisioning || ((w.coreOwner h).isSome && w.coreOwner c = w.coreOwner h)

/-- Control offset of CAT_HART_CTL of hart h. -/
def hartCtlOff (h : Nat) : Nat := 0x400 + h * 8

/-- A write to CAT_HART_CTL of hart h (R557, R580, R610): ENTRY takes its value before GO starts the hart. -/
def Work.hartCtlWrite (w : Work) (c h : Nat) (z : Size) (high : Bool) (v : W64) : Work :=
  if h = 0 then w.ignoreReg c (hartCtlOff h + halfOff z high) z v
  else
    let go := newField z high v 63 63 0 = 1
    let entry := BitVec.ofNat 54 (newField z high v 55 2 (w.hart h).entry.toNat)
    if !w.mayStart c h || (go && (w.hart h).st ≠ .ready) then w.ignoreReg c (hartCtlOff h + halfOff z high) z v
    else
      let w := w.modHart h (fun x => { x with entry := entry })
      if !go then w
      else ((w.modHart h (fun x => { x with st := .running })).setCore h
        { HostCore.reset with
          pc := BitVec.ofNat 64 (entry.toNat * 4)
          a0 := BitVec.ofNat 64 h
          depth := (w.core h).depth
          clamped := (w.core h).clamped }).hostFetch h (entry.toNat * 4)

/-- HART_START: GO 1, in a write of the whole register, or of its upper half, which leaves ENTRY (R610). -/
def execHartStart (core target : CoreId) (size : Size) (value : W64) (s : State) :=
  lift (fun w => w.regStore core.val (hartCtlOff target.val) size true true value (fun w =>
    w.hartCtlWrite core.val target.val size true (if size = .b8 then setBit value 63 true else setBit value 31 true))) s

/-- HART_ENTRY_SET: GO 0. -/
def execHartEntrySet (core target : CoreId) (size : Size) (high : Bool) (value : W64) (s : State) :=
  lift (fun w => w.regStore core.val (hartCtlOff target.val) size high true value (fun w =>
    w.hartCtlWrite core.val target.val size high
      (if size = .b8 then setBit value 63 false else if high then setBit value 31 false else value))) s

/-! ## Functions that come into service (R558, R561) -/

/-- A host core has finished its self-test. -/
def Work.coreReady (w : Work) (h : Nat) (pass : Bool) : Work :=
  if h = 0 || w.dieOut (4 + h / 48) || (w.hart h).st ≠ .inReset then w
  else if pass then
    { w.modHart h (fun x => { x with st := .ready }) with chip.boot.hart := setBit w.chip.boot.hart h true }
  else w.modHart h (fun x => { x with st := .failed })

/-- An LP-DRAM channel is trained: it joins its half's interleave (R403, R404). -/
def Work.lpdReady (w : Work) (ch : Nat) : Work :=
  if w.lpdSettled ch then w
  else
    let w := w.modLpd ch (fun x => { x with mapped := true, trained := true })
    { w with
      chip.boot.lpd := setBit w.chip.boot.lpd ch true
      chip.boot.lpdTried := setBit w.chip.boot.lpdTried ch true }

/-- A root port's link is up (R465, R482). -/
def Work.portReady (w : Work) (p speed width : Nat) (cxl : Bool) : Work :=
  if ((w.port p).st ≠ .training && (w.port p).st ≠ .retraining) || w.dieOut (4 + p / 2) then w
  else w.modPort p (fun x => { x with st := .up, speed := speed, width := min width 16, cxl := cxl })

/-- FUNCTION_READY. -/
def Work.functionReady (w : Work) : Function → Work
  | .core c pass => if w.chip.boot.step = 5 then w.coreReady c.val pass else w
  | .lpd ch => if w.chip.boot.step = 3 then w.lpdReady ch.val else w
  | .slice s =>
    if w.chip.boot.step = 5 && !bit w.chip.boot.settled 4 && !w.dieOut (s.val / 32) then
      { w with chip.boot.arc := setBit w.chip.boot.arc s.val true } else w
  | .tile d k pass => if w.chip.boot.step = 5 && !w.dieOut d.val then w.bist d.val k.val pass else w
  | .cp n =>
    if w.chip.boot.step = 5 && !bit w.chip.boot.settled 6 && !w.dieOut (n.val / 4) then
      { w with chip.boot.cp := setBit w.chip.boot.cp n.val true } else w
  | .fabric d =>
    if w.chip.boot.step = 5 && !bit w.chip.boot.settled 7 && !w.dieOut d.val then
      { w with chip.boot.fabric := setBit w.chip.boot.fabric d.val true } else w
  | .hbm ch =>
    if w.chip.boot.step = 5 && (w.hbmCh ch.val).health ≠ 2 && !w.dieOut (ch.val / 64) then
      { w.modHbm ch.val (fun x => { x with trained := true }) with chip.boot.hbm := setBit w.chip.boot.hbm ch.val true }
    else w
  | .pcie p speed width cxl => if w.chip.boot.step = 5 then w.portReady p.val speed.toNat width.toNat cxl else w
  | .ethernet e =>
    if w.chip.boot.step = 5 && !w.dieOut (4 + e.val) then 
      (if (w.eth e.val).up then w else w.aplicRaise (17 + e.val)).modEth e.val (fun x => { x with up := true, fault := false })
    else w
  | .power => if w.chip.boot.step = 2 then { w with chip.boot.power := true } else w
  | .uncoreH0 => if w.chip.boot.step = 2 then { w with chip.boot.uncoreH0 := true } else w
  | .uncoreH1 => if w.chip.boot.step = 2 && !w.dieOut 5 then { w with chip.boot.uncoreH1 := true } else w
  | .iommu => if w.chip.boot.step = 2 then { w with chip.boot.iommu := true } else w
  | .standby => if 1 ≤ w.chip.boot.step && !w.dieOut 5 then { w with chip.boot.standby := true } else w

def execFunctionReady (function : Function) (s : State) := lift (fun w => (w.functionReady function).settle) s

/-- The deadline of a class: a member that is not in service has failed (R560, R561). -/
def Work.classTimeout (w : Work) (c : SettleClass) : Work :=
  let five := w.chip.boot.step = 5
  match c with
  | .harts =>
    if !five then w
    else w.each ((List.range 96).filter (fun h => h ≠ 0 && (w.hart h).st = .inReset && !w.dieOut (4 + h / 48)))
      (fun w h => w.modHart h (fun x => { x with st := .failed }))
  | .lpd ch =>
    if w.chip.boot.step ≠ 3 || w.lpdSettled ch.val then w
    else { w with chip.boot.lpdTried := setBit w.chip.boot.lpdTried ch.val true }.failLpd ch.val 3
  | .sirent =>
    if w.chip.boot.step ≠ 2 then w
    else w.each ((List.range 9).filter (fun l => !w.srtSettled l)) (fun w l => w.failSirent l 2)
  | .tiles =>
    if !five then w
    else w.each ((List.range 160).filter (fun i => !w.dieOut (i / 40))) (fun w i => w.bist (i / 40) (i % 40) false)
  | .archive =>
    if !five || bit w.chip.boot.settled 4 then w
    else
      let w := w.each ((List.range 128).filter (fun s => !bit w.chip.boot.arc s && !w.dieOut (s / 32))) (fun w s =>
        (w.failHbm (2 * s) 3).failHbm (2 * s + 1) 3)
      w.setSettled 4
  | .hbm =>
    if !five || bit w.chip.boot.settled 5 then w
    else w.each ((List.range 256).filter (fun ch => !bit w.chip.boot.hbm ch && !w.dieOut (ch / 64))) (fun w ch => w.failHbm ch 3)
  | .cp => if five then w.setSettled 6 else w
  | .fabric => if five then w.setSettled 7 else w
  | .nyulle => if five then w.setSettled 8 else w
  | .pcie => if five then w.setSettled 9 else w
  | .ethernet => if five then w.setSettled 10 else w

def execClassSettleTimeout (cls : SettleClass) (s : State) := lift (fun w => (w.classTimeout cls).settle) s

/-- LOCKKEEPER_WATCHDOG: the standby takes the Lockkeeper's place; a load or a verification in progress is abandoned with no
effect (R564). -/
def Work.watchdog (w : Work) : Work :=
  if !w.chip.boot.lockkeeper then w
  else { w with
    chip.boot.lockkeeper := false
    chip.boot.standbyActive := w.chip.boot.standby
    chip.cht.verifying := none
    chip.cht.parts := [] }

def execLockkeeperWatchdog (s : State) := lift (fun w => w.watchdog) s

end Sys2Proof.Machine
end

