-- ==== Sys2Proof/Machine/Sirent.lean ====
section
/-!
DEFINITION. The Sirent link layer: flits, link-up, credits, acknowledgement and retry (R34 to R53), and the routes between dies
(R20, R47).
-/

namespace Sys2Proof.Machine

/-! ## Flits (R34 to R37) -/

def fHead (f : BitVec 320) : BitVec 32 := f.extractLsb' 0 32
def fPayload (f : BitVec 320) : BitVec 256 := f.extractLsb' 32 256
def fCheck (f : BitVec 320) : BitVec 32 := f.extractLsb' 288 32
def fKind (f : BitVec 320) : Nat := bits (fHead f) 23 21
def fVc (f : BitVec 320) : Nat := bits (fHead f) 20 18
def fSeq (f : BitVec 320) : Nat := bits (fHead f) 17 8
def fCrVc (f : BitVec 320) : Nat := bits (fHead f) 7 5
def fCrCnt (f : BitVec 320) : Nat := bits (fHead f) 4 0
/-- Payload bytes, lowest first. -/
def fBytes (f : BitVec 320) : List Byte := leBytes 32 (fPayload f).toNat

/-- HCHK passes. -/
def headerOk (f : BitVec 320) : Bool := crc8 ((fHead f).setWidth 24) = BitVec.ofNat 8 (bits (fHead f) 31 24)

/-- The payload code detects no error: the check symbols are those of the payload, or carry its poison (R391, R393). -/
def payloadOk (bs : List Byte) (check : W32) : Bool :=
  let errs := (List.range 4).map (fun j => (j, BitVec.ofNat 8 (check.toNat / 2 ^ (8 * j)) ^^^ (rsChecks bs).getD j 0))
  match rsDecode false errs false with
  | .detected => false
  | _ => true

/-- A link-control flit has no reserved OP and no reserved field that is not 0 (R37). A field that its OP does not use, whose
value R37 gives as 0, and a VERSION that no version has, count as reserved too (log entry 35). -/
def controlOk (f : BitVec 320) : Bool :=
  let b := fBytes f
  let op := leAt b 0 1
  1 ≤ op && op ≤ 4 && leAt b 1 1 = 0 && leAt b 2 2 < 1024 && leAt b 7 1 = 0 && leAt b 16 16 = 0 &&
  (op ≤ 2 || leAt b 2 2 = 0) && (op = 3 || leAt b 5 2 = 0) && (op = 3 || leAt b 8 8 = 0) &&
  (match op with | 3 => leAt b 4 1 < 4 | 4 => leAt b 4 1 = 1 || leAt b 4 1 = 2 | _ => leAt b 4 1 = 0)

/-- A flit passes its checks. A reserved KIND fails them (R36, R37). -/
def flitOk (f : BitVec 320) : Bool :=
  headerOk f && payloadOk (fBytes f) (fCheck f) && fKind f ≤ 4 && (fKind f ≠ 4 || controlOk f)

/-- A flit with its header check and its payload check (R34, R35). -/
def mkFlit (kind vc seq crVc crCnt : Nat) (payload : BitVec 256) : BitVec 320 :=
  let h : BitVec 24 := BitVec.ofNat 24 (kind * 2 ^ 21 + vc * 2 ^ 18 + seq * 2 ^ 8 + crVc * 2 ^ 5 + crCnt)
  let check := rsCheck (leBytes 32 payload.toNat)
  BitVec.ofNat 320 (check.toNat * 2 ^ 288 + payload.toNat * 2 ^ 32 + (crc8 h).toNat * 2 ^ 24 + h.toNat)

/-! ## The ends of a link -/

def SrtLink.side (x : SrtLink) (s : Nat) : SrtSide := if s = 0 then x.a else x.b
def Work.end_ (w : Work) (l s : Nat) : SrtSide := (w.srt l).side s
def Work.modEnd (w : Work) (l s : Nat) (f : SrtSide → SrtSide) : Work :=
  w.modSrt l (fun x => if s = 0 then { x with a := f x.a } else { x with b := f x.b })

/-- Die at end s of link l. -/
def endDie (l s : Nat) : Nat := let e := srtEnds.getD l (0, 0); if s = 0 then e.1 else e.2

/-- Versions that a die supports: bit 0 Sirent 1.0, bit 1 Sirent 1.1 (R50). -/
def Work.dieVersions (w : Work) (d : Nat) : BitVec 2 := if d < 4 && 1 ≤ w.fuse.rev.getD d 0 then 0b11 else 0b01

/-- Depth of a receive buffer in flits (R39). -/
def srtDepth (l : Nat) : Nat := if l < 4 then 64 else 32

/-- Credits that the next flit returns: those of the lowest VC that has any, at most 31 (R40). -/
def SrtSide.returns (x : SrtSide) : Nat × Nat :=
  match (List.range 8).find? (fun v => x.freed.getD v 0 ≠ 0) with
  | some v => (v, min 31 (x.freed.getD v 0))
  | none => (0, 0)

/-- Put a flit on the link; it returns credits. A message, data or credit-only flit takes the next SEQ and enters the retry
buffer (R40, R41). -/
def SrtSide.put (x : SrtSide) (kind vc : Nat) (payload : BitVec 256) : SrtSide :=
  let (v, n) := x.returns
  let f := mkFlit kind vc x.txSeq v n payload
  let x := { x with freed := modAt x.freed v (· - n), wire := x.wire ++ [f] }
  if 1 ≤ kind && kind ≤ 3 then
    { x with txSeq := (x.txSeq + 1) % 1024, retryBuf := x.retryBuf ++ [(x.txSeq, f)] }
  else x

/-- Payload of a link-control flit (R37). -/
def controlPayload (op seq version die rev : Nat) (depth : List Byte) : BitVec 256 :=
  BitVec.ofNat 256 (op + seq * 2 ^ 16 + version * 2 ^ 32 + die * 2 ^ 40 + rev * 2 ^ 48 + leNat depth * 2 ^ 64)

/-- Send a link-control flit. -/
def SrtSide.control (x : SrtSide) (op seq version die rev : Nat) (depth : List Byte) : SrtSide :=
  x.put 4 0 (controlPayload op seq version die rev depth)

/-- Send IDENTITY, and SELECT with the highest common version (R51). -/
def Work.sendIdentity (w : Work) (l s : Nat) : Work :=
  let d := endDie l s
  w.modEnd l s (fun x => x.control 3 0 (w.dieVersions d).toNat d (w.fuse.rev.getD d 0)
    (List.replicate 8 (BitVec.ofNat 8 (srtDepth l))))
def Work.common (w : Work) (l s : Nat) : Nat :=
  let v := w.dieVersions (endDie l s) &&& (w.end_ l s).peerVersions
  if bit v 1 then 2 else if bit v 0 then 1 else 0
def Work.sendSelect (w : Work) (l s : Nat) : Work :=
  let v := w.common l s
  w.modEnd l s (fun x => { x.control 4 0 v 0 0 [] with sentSelect := true, version := v })

/-- The link is up when both ends have sent and received SELECT; SEQ starts at 0 (R41, R51). -/
def Work.srtLinkUp (w : Work) (l : Nat) : Work :=
  let ready (x : SrtSide) : Bool := x.sentSelect && x.gotSelect && x.gotIdentity
  if (w.srt l).a.st = .training && ready (w.srt l).a && ready (w.srt l).b then
    let start (x : SrtSide) : SrtSide :=
      { x with
        st := .up, txSeq := 0, rxSeq := 0, retryBuf := [], transfer := List.replicate 8 4, discarding := false, asked := none
        unacked := 0 }
    (w.modSrt l (fun x => { x with a := start x.a, b := start x.b })).settle
  else w

/-! ## Link-up (R51) -/

/-- End s of link l trains and its lanes are deskewed. -/
def Work.trains (w : Work) (l s : Nat) : Bool := (w.end_ l s).st = .training && (w.end_ l s).deskewed

def execSrtLanesDeskewed (link : SrtId) (side : Fin 2) (s : State) :=
  lift (fun w =>
    if (w.end_ link.val side.val).st ≠ .training then w
    else (w.modEnd link.val side.val (fun x => { x with deskewed := true })).sendIdentity link.val side.val) s

/-- SRT_IDENTITY_TIMER: IDENTITY until the partner's has come, then SELECT until the partner's has come. -/
def Work.identityTimer (w : Work) (l s : Nat) : Work :=
  let x := w.end_ l s
  if !w.trains l s then w
  else if !x.gotIdentity then w.sendIdentity l s
  else if !x.gotSelect && w.common l s ≠ 0 then w.sendSelect l s
  else w

def execSrtIdentityTimer (link : SrtId) (side : Fin 2) (s : State) := lift (fun w => w.identityTimer link.val side.val) s

/-- A flit has arrived at end s: the partner's oldest flit leaves the link. -/
def Work.took (w : Work) (l s : Nat) : Work := w.modEnd l (1 - s) (fun x => { x with wire := x.wire.drop 1 })

/-- Credits that a flit returns. -/
def SrtSide.takeCredits (x : SrtSide) (f : BitVec 320) : SrtSide := { x with credits := modAt x.credits (fCrVc f) (· + fCrCnt f) }

/-- An idle or link-control flit: one that fails its checks is discarded and counted (R42); one that passes them and has the
OP of its row is acted on. -/
def Work.unsequenced (w : Work) (l s kind op : Nat) (f : BitVec 320) (act : Work → Work) : Work :=
  if headerOk f && fKind f ≠ kind && fKind f ≤ 4 then w
  else
    let w := w.took l s
    if !flitOk f then w.modEnd l s (fun x => { x with errFlits := satAdd 32 x.errFlits 1 })
    else if kind = 4 && leAt (fBytes f) 0 1 ≠ op then w
    else act (w.modEnd l s (fun x => x.takeCredits f))

/-- IDENTITY: the partner's versions and depths are recorded, and SELECT answers it; ends that share no version fail the link
(R51, R555). -/
def Work.srtIdentity (w : Work) (l s : Nat) (f : BitVec 320) : Work :=
  w.unsequenced l s 4 3 f (fun w =>
    let b := fBytes f
    let w := w.modEnd l s (fun x => { x with
      peerVersions := BitVec.ofNat 2 (leAt b 4 1)
      gotIdentity := true
      credits := if x.st = .training then (List.range 8).map (fun v => leAt b (8 + v) 1) else x.credits })
    if (w.end_ l s).st ≠ .training then w
    else if w.common l s = 0 then (w.failSirent l 3).settle
    else (w.sendSelect l s).srtLinkUp l)

def execSrtIdentity (link : SrtId) (side : Fin 2) (flit : BitVec 320) (s : State) :=
  lift (fun w => w.srtIdentity link.val side.val flit) s

/-- SELECT. -/
def Work.srtSelect (w : Work) (l s : Nat) (f : BitVec 320) : Work :=
  w.unsequenced l s 4 4 f (fun w =>
    if (w.end_ l s).st ≠ .training then w
    else
      let w := w.modEnd l s (fun x => { x with gotSelect := true })
      if (w.end_ l s).gotIdentity && w.common l s = 0 then (w.failSirent l 3).settle else w.srtLinkUp l)

def execSrtSelect (link : SrtId) (side : Fin 2) (flit : BitVec 320) (s : State) :=
  lift (fun w => w.srtSelect link.val side.val flit) s

/-! ## Sending (R39 to R41) -/

/-- End s of link l is up. -/
def SrtSide.isUp (x : SrtSide) : Bool := x.st = .up || x.st = .retrying

/-- The transfers of 128 B let VC vc send a flit: a message flit with its four data flits follows whole on its VC (R38). -/
def SrtSide.inTurn (x : SrtSide) (isData : Bool) (vc : Nat) : Bool :=
  let n := x.transfer.getD vc 4
  if isData then n < 4 else n = 0 || n = 4

/-- SRT_FLIT_SEND. What a message flit's payload holds is the sender's: one message, or on Sirent 1.1 two compressed ones
(R38; log entry 35). -/
def Work.srtSend (w : Work) (l s : Nat) (isData : Bool) (vc : Nat) (payload : BitVec 256) : Work :=
  let x := w.end_ l s
  if !x.isUp || x.credits.getD vc 0 = 0 || 512 ≤ x.retryBuf.length || !x.inTurn isData vc then w
  else w.modEnd l s (fun x =>
    { x.put (if isData then 2 else 1) vc payload with
      credits := modAt x.credits vc (· - 1)
      transfer := modAt x.transfer vc (fun n => if isData then n + 1 else 0) })

def execSrtFlitSend (link : SrtId) (side : Fin 2) (isData : Bool) (vc : BitVec 3) (payload : BitVec 256) (s : State) :=
  lift (fun w => w.srtSend link.val side.val isData vc.toNat payload) s

/-- SRT_CREDIT_RETURN: the oldest flit of a VC leaves its receive buffer, and its credit goes back in a credit-only flit, or,
where the retry buffer is full, in an idle flit (R40, R43). -/
def Work.creditReturn (w : Work) (l s vc : Nat) : Work :=
  let x := w.end_ l s
  if !x.isUp || !x.inbox.any (fun e => e.2.1 = vc) then w
  else w.modEnd l s (fun x =>
    let i := x.inbox.findIdx (fun e => e.2.1 = vc)
    { x with inbox := x.inbox.eraseIdx i, freed := modAt x.freed vc (· + 1) }.put (if 512 ≤ x.retryBuf.length then 0 else 3) 0 0)

def execSrtCreditReturn (link : SrtId) (side : Fin 2) (vc : BitVec 3) (s : State) :=
  lift (fun w => w.creditReturn link.val side.val vc.toNat) s

/-! ## Receiving and retry (R42 to R45) -/

/-- The receiver asks for the expected SEQ. -/
def SrtSide.ask (x : SrtSide) : SrtSide :=
  { x.control 2 x.rxSeq 0 0 0 [] with
    discarding := true, asked := some x.rxSeq, retries := satAdd 32 x.retries 1, st := .retrying }

/-- A retry has failed: it is asked for again, and the eighth fails the link (R45). -/
def Work.retryFailed (w : Work) (l s : Nat) : Work :=
  let w := w.modEnd l s (fun x => { x with consecFail := x.consecFail + 1 })
  if 8 ≤ (w.end_ l s).consecFail then w.failSirent l 1 else w.modEnd l s SrtSide.ask

/-- Acknowledge the highest SEQ accepted (R43). -/
def SrtSide.acknowledge (x : SrtSide) : SrtSide := { x.control 1 ((x.rxSeq + 1023) % 1024) 0 0 0 [] with unacked := 0 }

/-- A message, data or credit-only flit is accepted; the 128th since the last ACK is acknowledged at once (R43). -/
def SrtSide.accept (x : SrtSide) (f : BitVec 320) : SrtSide :=
  let x := x.takeCredits f
  let x := { x with
    rxSeq := (x.rxSeq + 1) % 1024
    unacked := x.unacked + 1
    discarding := false
    asked := none
    consecFail := if x.asked.isSome then 0 else x.consecFail
    st := .up
    inbox := if fKind f = 3 then x.inbox else x.inbox ++ [(decide (fKind f = 2), fVc f, fPayload f)] }
  if 128 ≤ x.unacked then x.acknowledge else x

/-- A message, data or credit-only flit arrives. -/
def Work.sequenced (w : Work) (l s kind : Nat) (f : BitVec 320) : Work :=
  let x := w.end_ l s
  if !x.isUp || (headerOk f && fKind f ≠ kind && fKind f ≤ 4) then w
  else
    let w := w.took l s
    let ok := flitOk f
    if ok && fSeq f = x.rxSeq then w.modEnd l s (fun x => x.accept f)
    else if x.discarding then
      let w := if ok then w else w.modEnd l s (fun x => { x with errFlits := satAdd 32 x.errFlits 1 })
      if !ok && headerOk f && x.asked = some (fSeq f) then w.retryFailed l s else w
    else w.modEnd l s (fun x => { x with errFlits := satAdd 32 x.errFlits 1 }.ask)

def execSrtMessageFlit (link : SrtId) (side : Fin 2) (flit : BitVec 320) (s : State) :=
  lift (fun w => w.sequenced link.val side.val 1 flit) s
def execSrtDataFlit (link : SrtId) (side : Fin 2) (flit : BitVec 320) (s : State) :=
  lift (fun w => w.sequenced link.val side.val 2 flit) s
def execSrtCreditFlit (link : SrtId) (side : Fin 2) (flit : BitVec 320) (s : State) :=
  lift (fun w => w.sequenced link.val side.val 3 flit) s
def execSrtIdleFlit (link : SrtId) (side : Fin 2) (flit : BitVec 320) (s : State) :=
  lift (fun w => w.unsequenced link.val side.val 0 0 flit id) s

/-- SRT_ACK_TIMER: the highest SEQ accepted is acknowledged (R43). -/
def execSrtAckTimer (link : SrtId) (side : Fin 2) (s : State) :=
  lift (fun w =>
    let x := w.end_ link.val side.val
    if !x.isUp || x.unacked = 0 then w
    else w.modEnd link.val side.val SrtSide.acknowledge) s

/-- Flits of a retry buffer that remain once SEQ n and those before it are acknowledged. -/
def ackUpTo (l : List (Nat × BitVec 320)) (n : Nat) : List (Nat × BitVec 320) :=
  if l.any (fun e => e.1 = n) then l.drop (l.findIdx (fun e => e.1 = n) + 1) else l

/-- ACK. -/
def Work.srtAck (w : Work) (l s : Nat) (f : BitVec 320) : Work :=
  w.unsequenced l s 4 1 f (fun w => w.modEnd l s (fun x => { x with retryBuf := ackUpTo x.retryBuf (leAt (fBytes f) 2 2) }))

def execSrtAck (link : SrtId) (side : Fin 2) (flit : BitVec 320) (s : State) :=
  lift (fun w => w.srtAck link.val side.val flit) s

/-- RETRY: the flit of the named SEQ and every later one are sent again, in order (R44). -/
def Work.srtRetry (w : Work) (l s : Nat) (f : BitVec 320) : Work :=
  w.unsequenced l s 4 2 f (fun w => w.modEnd l s (fun x =>
    { x with wire := x.wire ++ (x.retryBuf.dropWhile (fun e => e.1 ≠ leAt (fBytes f) 2 2)).map (·.2) }))

def execSrtRetry (link : SrtId) (side : Fin 2) (flit : BitVec 320) (s : State) :=
  lift (fun w => w.srtRetry link.val side.val flit) s

/-- SRT_RETRY_TIMEOUT. -/
def execSrtRetryTimeout (link : SrtId) (side : Fin 2) (s : State) :=
  lift (fun w =>
    let x := w.end_ link.val side.val
    if x.isUp && x.asked.isSome then w.retryFailed link.val side.val else w) s

/-! ## Routes between dies, and what a failed link has lost (R20, R46, R47) -/

/-- SRT_LOST_REQUEST_POISON: a requester whose request, or a message that its request waits on, was lost with the failed link
takes poison (R46, R372): a host core as a hardware error, any other requester as a poisoned DataResp. -/
def Work.poisonLost (w : Work) (l : Nat) : Work :=
  if (w.srt l).a.st ≠ .failed then w
  else
    let lost (m : Msg) : Bool := (w.dieRoute m.src m.dst m.line 6).contains l
    let gone := w.chip.net.filter lost
    let w := { w with chip.net := w.chip.net.filter (fun m => !lost m) }
    w.each gone (fun w m =>
      let a := w.opener m.kind m.home m.agent m.line
      if a < 96 then w.modCore a (fun x => { x with hwError := some (BitVec.ofNat 64 (m.line * 128)) })
      else w.sendFrom (agentDie a) (agentDie a) .dataResp m.home a m.line m.req .i 0xF)

def execSrtLostRequestPoison (link : SrtId) (s : State) := lift (fun w => w.poisonLost link.val) s

end Sys2Proof.Machine
end

