-- ==== Sys2Proof/Machine/Links.lean ====
section
/-!
DEFINITION. The link layer of the Nyulle links: flits, link-up, sequence numbers, retry, credits, time flits, loss of a partner
and the disabling of a link (R416 to R433, R438, R447, R461).
-/

namespace Sys2Proof.Machine

/-! ## Flits (R417 to R422) -/

/-- What a code word of a flit decodes to (R391, R393, R417). -/
def wordDecode (bs : List Byte) (check : W32) : Decoded :=
  rsDecode false ((List.range 4).map (fun j =>
    (j, BitVec.ofNat 8 (check.toNat / 2 ^ (8 * j)) ^^^ (rsChecks bs).getD j 0))) false

/-- The code word of 32 bytes: its check symbols, which carry poison, in its low bits (R391, R393; log entry 35). -/
def codeWord (bs : List Byte) (poisoned : Bool) : BitVec 288 :=
  let check := rsCheck bs ^^^ (if poisoned then BitVec.ofNat 32 (leNat poisonPattern) else 0)
  BitVec.ofNat 288 (check.toNat + leNat bs * 2 ^ 32)

/-- The levels of the 144 PAM4 symbols that carry a code word: symbol k carries bits 2k + 1 and 2k, Gray coded. What the other 128
symbols of a lane carry is the physical layer's (R417). -/
def laneSymbols (c : BitVec 288) : List Nat :=
  (List.range 144).map (fun k =>
    match bit c (2 * k + 1), bit c (2 * k) with
    | false, false => 0
    | false, true => 1
    | true, true => 2
    | true, false => 3)

/-- The flits of a message or of a control flit as they are sent: 64 bytes each, the last filled with zeros (R417, R420). -/
def flitWords (bs : List Byte) (poison : List Bool) : List (BitVec 288 × BitVec 288) :=
  (List.range ((bs.length + 63) / 64)).map (fun i =>
    let word (j : Nat) : BitVec 288 :=
      codeWord ((List.range 32).map (fun k => bs.getD (32 * j + k) 0)) (poison.getD j false)
    (word (2 * i), word (2 * i + 1)))

/-- VC and OP match (R428). -/
def vcMatches (vc op : Nat) : Bool :=
  match vc / 2 with
  | 0 => 1 ≤ op && op ≤ 6
  | 1 => 0x41 ≤ op && op ≤ 0x4F
  | 2 => 0x81 ≤ op && op ≤ 0x83
  | _ => false

end Sys2Proof.Machine

namespace Sys2Proof

open Sys2Proof.Machine

def NFlit.bytes (f : NFlit) : List Byte := leBytes 32 f.w0.toNat ++ leBytes 32 f.w1.toNat

def NFlit.decode0 (f : NFlit) : Decoded := wordDecode (leBytes 32 f.w0.toNat) f.c0
def NFlit.decode1 (f : NFlit) : Decoded := wordDecode (leBytes 32 f.w1.toNat) f.c1

/-- Both words of a header flit pass their check; a data flit's words may carry poison (R445). -/
def NFlit.wordsOk (f : NFlit) : Bool := f.decode0 = .good && f.decode1 = .good
def NFlit.dataOk (f : NFlit) : Bool := f.decode0 ≠ .detected && f.decode1 ≠ .detected

def NFlit.at_ (f : NFlit) (o k : Nat) : Nat := leAt f.bytes o k
def NFlit.kind (f : NFlit) : Nat := f.at_ 0 1
def NFlit.vc (f : NFlit) : Nat := f.at_ 1 1
def NFlit.seq (f : NFlit) : Nat := f.at_ 2 2
def NFlit.ndata (f : NFlit) : Nat := f.at_ 4 1
def NFlit.op (f : NFlit) : Nat := if f.kind = 2 then f.at_ 0x10 1 else f.at_ 0x14 1

/-- Reserved fields of a header flit are 0 (R419, R422, R423, R441, R454). -/
def NFlit.reservedOk (f : NFlit) : Bool :=
  f.vc < 8 && f.at_ 5 1 < 4 && f.at_ 7 1 = 0 && f.at_ 0xC 4 = 0 &&
  (match f.kind with
    | 1 => vcMatches f.vc f.op && f.at_ 0x38 8 = 0 && (4 ≤ f.vc || f.at_ 0x26 2 = 0)
    | 3 => f.at_ 0x19 7 = 0 && f.at_ 0x30 16 = 0
    | _ => true)

/-- A header flit passes (R421). -/
def NFlit.ok (f : NFlit) : Bool := f.wordsOk && f.kind ≤ 3 && f.reservedOk

end Sys2Proof

namespace Sys2Proof.Machine

/-- The 16 header bytes of a flit (R419). -/
def linkHeader (kind vc seq ndata : Nat) (ack cr : Option (Nat × Nat)) : List Byte :=
  leBytes 1 kind ++ leBytes 1 vc ++ leBytes 2 seq ++ leBytes 1 ndata ++ leBytes 1 (b2n ack.isSome + 2 * b2n cr.isSome) ++
  leBytes 1 (match cr with | some c => c.1 | none => 0) ++ leBytes 1 0 ++
  leBytes 2 (match cr with | some c => c.2 | none => 0) ++ leBytes 2 (match ack with | some a => a.1 | none => 0) ++ leBytes 4 0

/-- Credits that the next header flit returns: those of the lowest VC that has any, at most 512 (R425). -/
def NylLink.returns (x : NylLink) : Option (Nat × Nat) :=
  ((List.range 6).find? (fun v => x.freed.getD v 0 ≠ 0)).map (fun v => (v, min 512 (x.freed.getD v 0)))

/-- Put a header flit, and the data flits after it, on the link: it acknowledges and returns credits (R420, R425, R445). -/
def NylLink.put (x : NylLink) (kind vc seq ndata : Nat) (body data : List Byte) (poison : List Bool) : NylLink :=
  let ack := if x.unacked = 0 then none else some ((x.rxSeq + 65535) % 65536, 0)
  let cr := x.returns
  { x with
    wire := x.wire ++ flitWords (linkHeader kind vc seq ndata ack cr ++ body) [] ++ flitWords data poison
    unacked := 0
    freed := match cr with | some c => modAt x.freed c.1 (· - c.2) | none => x.freed }

/-- Send a link-control flit: OP, and further body bytes (R422). -/
def NylLink.control (x : NylLink) (op : Nat) (more : List Byte) : NylLink :=
  x.put 2 0 x.txSeq 0 (splice (List.replicate 48 0) 0 (leBytes 1 op ++ more)) [] []

/-- Flits that a retry buffer holds. -/
def NylLink.held (x : NylLink) : Nat := x.retryBuf.foldl (fun a e => a + e.2.flits) 0

/-- The link carries messages. -/
def NylLink.carries (x : NylLink) : Bool := x.st = .up || x.st = .retrying || x.st = .draining

/-- The link receives flits at all. -/
def NylLink.listens (x : NylLink) : Bool := x.carries || x.st = .discovery || x.st = .mismatch || x.st = .noCommon

/-! ## Messages that end at a requester (R437, R444, R446) -/

/-- An engine's remote request ends with a status, at an offset from its address: the record of R446, and what it does to
the engine (R144, R290, R292). -/
def Work.failRemote (w : Work) (tag status : Nat) (off : Nat := 0) : Work :=
  match SMap.look w.chip.remotes tag with
  | none => w
  | some r =>
    let w := { w with chip.remotes := SMap.erase w.chip.remotes tag }
    let (kind, id) := r.who.source
    let p := match r.who with
    | .mover t _ | .tile t => w.tileOwner t
    | .command q _ => w.sqOwner q
    | .power p => some p
    | .core c => w.coreOwner c
    let w := if 0x101 ≤ status && status ≤ 0x1FF then w.recRemote kind id p r.gaddr.toNat status else w
    let addr := if status < 0x100 then r.va + off else 0
    match r.who with
    | .command q n =>
      (match w.started? q n 4 with
        | some c => w.complete q c status 0 (BitVec.ofNat 64 addr)
        | none => w.failXfer r.who status addr)
    | _ => w.failXfer r.who status addr

/-- LOST counts on a link (R460). -/
def Work.countLost (w : Work) (l : Option Nat) : Work :=
  match l with
  | some l => w.modLink l (fun x => { x with lost := satAdd 32 x.lost 1 })
  | none => w

/-- The pound whose table routes what comes in on a link (R436). -/
def Work.transitPound (w : Work) (l : Nat) : Option Nat := (w.linkOwner l).orElse (fun _ => w.transitDefault)

/-- Answer a request with an error response, from the pound's table (R436, R437). -/
def Work.errorTo (w : Work) (m : NylMsg) (p : Option Nat) (status : Nat) : Work :=
  match w.sendMsg p
    { vc := 2, body := nylBody m.src w.moduleId 0x4F 0 (m.len - 1) m.offset m.tag status [], data := [], poison := []
      inbound := none, pound := p } with
  | (w, some _) => w
  | (w, none) => w.countLost m.inbound

/-- A module in provisioning has no routes: it answers a request on the link that brought it (R431). -/
def Work.answerOn (w : Work) (l : Nat) (m : NylMsg) (status : Nat) : Work :=
  w.modLink l (fun x => { x with queue := x.queue ++
    [{ vc := 2, body := nylBody m.src w.moduleId 0x4F 0 (m.len - 1) m.offset m.tag status [], data := [], poison := []
       inbound := none, pound := none }] })

/-- A message finds no route, or is given up: a request of this module ends with a status, a transit request is answered, and
anything else is dropped and counted (R433, R437, R447). -/
def Work.giveUp (w : Work) (m : NylMsg) (status : Nat) : Work :=
  match m.inbound with
  | none => if m.isRequest then w.failRemote m.tag status else w
  | some i => if m.isRequest then w.errorTo m w.transitDefault status else w.countLost (some i)

/-- Route a message again; a request of this module is noted under its new link (R433). -/
def Work.reroute (w : Work) (m : NylMsg) : Work :=
  match w.sendMsg m.pound m with
  | (w, some l) =>
    if m.inbound.isNone && m.isRequest then
      { w with chip.remotes := SMap.mapVal w.chip.remotes (fun k r => if k = m.tag then { r with link := some l } else r) }
    else w
  | (w, none) => w.giveUp m 0x102

/-! ## Loss of a partner (R432, R433) -/

/-- Links that carry the messages of a collective: those of the entries for its neighbours (R433, R456). -/
def Work.collLinks (w : Work) (c : Coll) : List Nat :=
  match (w.cfg? c.pound).bind (fun g => g.routes) with
  | none => []
  | some r => ([c.succ, c.pred].filterMap (fun d => r.entries.find? (fun e => e.modFirst ≤ d && d ≤ e.modLast))).flatMap
      (fun e => bitList e.links)

/-- Take a link out of service: what its queue holds is routed again, and its retry buffer is discarded with an answer to the
sources of transit requests (R433). -/
def Work.emptyLink (w : Work) (l : Nat) (st : NylState) : Work :=
  let x := w.link l
  let w := w.modLink l (fun x => { x with
    st := st, queue := [], retryBuf := [], discarding := false, asked := none, unacked := 0
    gotIdentity := false, sentSelect := false, gotSelect := false, consecFail := 0
    credits := List.replicate 6 0, freed := List.replicate 6 0 })
  let w := w.each x.queue (fun w m => w.reroute m)
  w.each (x.retryBuf.map (·.2)) (fun w m =>
    if m.isRequest then (if m.inbound.isSome then w.errorTo m w.transitDefault 0x101 else w)
    else w.countLost (some l))

/-- The partner of link l is lost: cause as R615. A link that is being disabled ends disabled; one that has failed three times
within 3,600 s stays failed (R433). -/
def Work.losePartner (w : Work) (l cause : Nat) : Work :=
  let x := w.link l
  if !x.carries then w
  else
    let fails := if cause = 1 then recent x.failures w.chip.refPs 3_600_000_000_000_000 else x.failures
    let stuck := cause = 1 && 3 ≤ (recent x.failures w.chip.refPs 3_600_000_000_000_000).length
    let w := w.record { cls := 0x0704, kind := 7, id := l, pound := optPound (w.linkOwner l), d0 := cause }
    let w := w.modLink l (fun x => { x with downs := satAdd 16 x.downs 1, failures := fails, stuck := stuck })
    let w := w.emptyLink l (if x.st = .draining then .disabled else if stuck then .failed else .training)
    { w with
      chip.remotes := SMap.mapVal w.chip.remotes (fun _ r => if r.link = some l then { r with lost := true } else r)
      chip.colls := w.chip.colls.map (fun c => if (w.collLinks c).contains l then { c with failed := some 0x101 } else c) }

/-- NYL_LOST_COMPLETE: remote operations whose request left over the lost link, and collectives it carried, end with status
0x0101 (R433, R456). -/
def Work.lostComplete (w : Work) (l : Nat) : Work :=
  let tags := (w.chip.remotes.filter (fun e => e.2.lost && e.2.link = some l)).map (·.1)
  let w := w.each tags (fun w t => w.failRemote t 0x101)
  w.each (w.chip.colls.filter (fun c => c.failed.isSome && (w.collLinks c).contains l)) (fun w c =>
    match w.cmd? c.sq c.seq with
    | some d => (w.endColl c 0x101).complete c.sq d 0x101
    | none => w.endColl c 0x101)

def execNylLostComplete (link : NylId) (s : State) := lift (fun w => w.lostComplete link.val) s

def execNylSilenceTimeout (link : NylId) (s : State) := lift (fun w => w.losePartner link.val 2) s
def execNylLaneLockLost (link : NylId) (lane : Fin 2) (s : State) :=
  lift (fun w => let _ := lane; w.losePartner link.val 4) s

/-! ## Receiving header flits (R421, R424 to R426) -/

/-- What a header flit that has passed brings: an acknowledgement and credits. -/
def NylLink.header (x : NylLink) (f : NFlit) : NylLink :=
  let x := if bit (BitVec.ofNat 8 (f.at_ 5 1)) 0 then
      let n := f.at_ 0xA 2
      let last (e : Nat × NylMsg) : Bool := (e.1 + e.2.ndata) % 65536 = n
      if x.retryBuf.any last then { x with retryBuf := x.retryBuf.drop (x.retryBuf.findIdx last + 1) } else x
    else x
  if bit (BitVec.ofNat 8 (f.at_ 5 1)) 1 then { x with credits := modAt x.credits (f.at_ 6 1) (· + f.at_ 8 2) } else x

/-- An idle, link-control or time flit: one that fails is discarded and counted; one that passes, and is of its row, is acted
on (R426). -/
def Work.plainFlit (w : Work) (l kind op : Nat) (f : NFlit) (act : Work → Work) : Work :=
  if !(w.link l).listens then w
  else if !f.ok then w.modLink l (fun x => { x with errFlits := satAdd 32 x.errFlits 1 })
  else if f.kind ≠ kind || (kind = 2 && f.op ≠ op) then w
  else act (w.modLink l (fun x => x.header f))

/-! ## Link-up (R430, R431) -/

/-- IDENTITY of this end (R422, R429). -/
def Work.nylIdentityBody (w : Work) (l : Nat) : List Byte :=
  List.replicate 7 0 ++ leBytes 8 w.fuse.serial.toNat ++ leBytes 2 w.moduleId ++ leBytes 1 l ++ leBytes 1 1 ++
  (List.replicate 6 (leBytes 2 512)).flatten

def Work.sendNylIdentity (w : Work) (l : Nat) : Work := w.modLink l (fun x => x.control 3 (w.nylIdentityBody l))

/-- NYL_TRAIN_DONE. -/
def execNylTrainDone (link : NylId) (s : State) :=
  lift (fun w =>
    if (w.link link.val).st ≠ .training then w
    else (w.modLink link.val (fun x => { x with st := .discovery })).sendNylIdentity link.val) s

/-- NYL_IDENTITY_TIMER: every 1 us until the partner's IDENTITY has come, and every 1 s with no common version. -/
def execNylIdentityTimer (link : NylId) (s : State) :=
  lift (fun w =>
    let x := w.link link.val
    if (x.st = .discovery && !x.gotIdentity) || x.st = .noCommon then w.sendNylIdentity link.val else w) s

/-- The link comes into service once both ends have sent and received SELECT (R431). -/
def Work.nylUp (w : Work) (l : Nat) : Work :=
  let x := w.link l
  if x.st = .discovery && x.sentSelect && x.gotSelect then
    let w := w.modLink l (fun x => { x with
      st := .up, version := 1, txSeq := 0, rxSeq := 0, discarding := false, asked := none, unacked := 0, consecFail := 0 })
    (w.record { cls := 0x0703, kind := 7, id := l, pound := optPound (w.linkOwner l), d0 := x.partnerSerial.toNat
                d1 := x.partnerModule, d2 := x.partnerLink }).settle
  else w

/-- IDENTITY (R430): SELECT answers it; a partner with the module's own ID, or without a common version, is not joined. -/
def Work.nylIdentity (w : Work) (l : Nat) (f : NFlit) : Work :=
  w.plainFlit l 2 3 f (fun w =>
    let own := w.moduleId
    let w := w.modLink l (fun x => { x with
      partnerSerial := BitVec.ofNat 64 (f.at_ 0x18 8)
      partnerModule := f.at_ 0x20 2
      partnerLink := f.at_ 0x22 1 % 64
      peerVersions := f.at_ 0x23 1 })
    if (w.link l).carries then w
    else if own < 0x8000 && f.at_ 0x20 2 = own then w.modLink l (fun x => { x with st := .mismatch, gotIdentity := true })
    else if f.at_ 0x23 1 % 2 = 0 then w.modLink l (fun x => { x with st := .noCommon, gotIdentity := true })
    else
      (w.modLink l (fun x =>
        { ({ x with st := .discovery } : NylLink).control 4 [0, 1] with
          gotIdentity := true
          sentSelect := true
          credits := (List.range 6).map (fun v => f.at_ (0x24 + 2 * v) 2) })).nylUp l)

def execNylIdentity (link : NylId) (flit : NFlit) (s : State) := lift (fun w => w.nylIdentity link.val flit) s

/-- SELECT (R431). -/
def execNylSelect (link : NylId) (flit : NFlit) (s : State) :=
  lift (fun w => w.plainFlit link.val 2 4 flit (fun w =>
    if (w.link link.val).st ≠ .discovery || flit.at_ 0x12 1 ≠ 1 then w
    else (w.modLink link.val (fun x => { x with gotSelect := true })).nylUp link.val)) s

/-- DOWN is a partner loss, with its reason (R432, R615). -/
def execNylDown (link : NylId) (flit : NFlit) (s : State) :=
  lift (fun w => w.plainFlit link.val 2 5 flit (fun w => w.losePartner link.val (3 + flit.at_ 0x12 1 * 256))) s

/-! ## Acknowledgement, retry and credits (R424 to R429) -/

def execNylAck (link : NylId) (flit : NFlit) (s : State) := lift (fun w => w.plainFlit link.val 2 1 flit id) s
def execNylIdleFlit (link : NylId) (flit : NFlit) (s : State) := lift (fun w => w.plainFlit link.val 0 0 flit id) s

/-- Send a message, first or again, under a sequence number. -/
def NylLink.putMsg (x : NylLink) (seq : Nat) (m : NylMsg) : NylLink := x.put 1 m.vc seq m.ndata m.body m.data m.poison

/-- RETRY: the named message and every later one are sent again, in order (R426). -/
def execNylRetry (link : NylId) (flit : NFlit) (s : State) :=
  lift (fun w => w.plainFlit link.val 2 2 flit (fun w => w.modLink link.val (fun x =>
    (x.retryBuf.dropWhile (fun e => e.1 ≠ flit.at_ 0x12 2)).foldl (fun x e => x.putMsg e.1 e.2) x))) s

/-- The receiver asks for the message at the expected SEQ. -/
def NylLink.ask (x : NylLink) : NylLink :=
  { x.control 2 (0 :: leBytes 2 x.rxSeq) with
    discarding := true, asked := some x.rxSeq, retries := satAdd 32 x.retries 1
    st := if x.st = .up then .retrying else x.st }

/-- NYL_RETRY_TIMER: RETRY is repeated every 2 us until the message is accepted. -/
def execNylRetryTimer (link : NylId) (s : State) :=
  lift (fun w => let x := w.link link.val
    if x.carries && x.asked.isSome then w.modLink link.val NylLink.ask else w) s

/-- A retry has failed: the eighth in a row fails the link (R427). -/
def Work.nylRetryFailed (w : Work) (l : Nat) : Work :=
  let w := w.modLink l (fun x => { x with consecFail := min 8 (x.consecFail + 1) })
  if 8 ≤ (w.link l).consecFail then w.losePartner l 1 else w.modLink l NylLink.ask

def execNylRetryTimeout (link : NylId) (s : State) :=
  lift (fun w => let x := w.link link.val
    if x.carries && x.asked.isSome then w.nylRetryFailed link.val else w) s

/-- NYL_ACK_TIMER: a link-control ACK carries what no other flit has carried (R425). -/
def execNylAckTimer (link : NylId) (s : State) :=
  lift (fun w => let x := w.link link.val
    if x.carries && x.unacked ≠ 0 then w.modLink link.val (fun x => x.control 1 []) else w) s

/-- NYL_CREDIT_RETURN: freed credits of a VC go back within 50 ns (R425). -/
def execNylCreditReturn (link : NylId) (vc : Fin 6) (s : State) :=
  lift (fun w => let x := w.link link.val
    if x.carries && x.freed.getD vc.val 0 ≠ 0 then w.modLink link.val (fun x => x.control 1 []) else w) s

/-- NYL_MESSAGE_SEND: the first queued message whose VC has the credits, none of its VC before it, while the retry buffer of 2,048
flits has room for it (R424, R429). -/
def Work.nylSend (w : Work) (l : Nat) : Work :=
  let x := w.link l
  let first (m : NylMsg) : Bool := (x.queue.find? (fun n => n.vc = m.vc)) = some m
  match x.queue.find? (fun m => first m && decide (m.flits ≤ x.credits.getD m.vc 0)) with
  | none => w
  | some m =>
    if !x.carries || 2048 < x.held + m.flits then w
    else w.modLink l (fun x => { x.putMsg x.txSeq m with
      queue := x.queue.erase m
      txSeq := (x.txSeq + m.flits) % 65536
      retryBuf := x.retryBuf ++ [(x.txSeq, m)]
      credits := modAt x.credits m.vc (· - m.flits) })

def execNylMessageSend (link : NylId) (s : State) := lift (fun w => w.nylSend link.val) s

/-- TRANSIT_CREDIT_TIMEOUT: a transit message that has waited 1 ms for credits is dropped and counted (R438). -/
def execTransitCreditTimeout (link : NylId) (s : State) :=
  lift (fun w =>
    let x := w.link link.val
    match x.queue.find? (fun m => m.inbound.isSome && decide (x.credits.getD m.vc 0 < m.flits)) with
    | none => w
    | some m => (w.modLink link.val (fun x => { x with queue := x.queue.erase m })).countLost m.inbound) s

/-! ## Accepting messages (R421, R426, R427, R439) -/

/-- Poison of the 32 B words of the data flits (R445). -/
def dataPoison (data : List NFlit) : List Bool := data.flatMap (fun f => [f.decode0 = .poisoned, f.decode1 = .poisoned])

/-- Payload bytes of a message: LEN + 1 for a WRITE, READ_DATA and CDATA, none for any other (R420, R441, R454). -/
def payloadLen (f : NFlit) : Nat :=
  if f.op = 2 || f.op = 3 || f.op = 0x41 || f.op = 0x81 then f.at_ 0x16 2 + 1 else 0

/-- The message that flits spell. -/
def nylMsg (l : Nat) (f : NFlit) (data : List NFlit) : NylMsg :=
  { vc := f.vc, body := f.bytes.drop 16, data := (data.flatMap NFlit.bytes).take (payloadLen f)
    poison := dataPoison data, inbound := some l, pound := none }

/-- Every flit of a message passes, and it has the data flits that it says (R421). -/
def msgOk (f : NFlit) (data : List NFlit) : Bool := f.ok && f.ndata = data.length && data.all NFlit.dataOk

/-- Forward a message for another module (R436 to R439). -/
def Work.forward (w : Work) (l : Nat) (m : NylMsg) : Work :=
  if m.hops = 63 then (if m.isRequest then w.errorTo m w.transitDefault 0x104 else w)
  else
    let m := { m with body := modAt m.body 5 (· + 1) }
    match w.sendMsg (w.transitPound l) m with
    | (w, some _) => w
    | (w, none) => if m.isRequest then w.errorTo m w.transitDefault 0x102 else w.countLost (some l)

/-- A message of n flits is accepted: its SEQ values are taken, its flits leave the receive buffer, and an ACK goes at once where the
next message could bring the flits accepted since the last one past 256 (R425 to R427, R429). -/
def NylLink.accept (x : NylLink) (f : NFlit) (n : Nat) : NylLink :=
  let x := x.header f
  let x := { x with
    rxSeq := (x.rxSeq + n) % 65536
    unacked := x.unacked + n
    discarding := false
    consecFail := if x.asked.isSome then 0 else x.consecFail
    asked := none
    st := if x.st = .retrying then .up else x.st
    freed := modAt x.freed f.vc (· + n) }
  if 256 < x.unacked + 65 then x.control 1 [] else x

/-- A message of one row arrives on link l: accepted whole or not at all, forwarded when it is for another module, else acted
on. A module in provisioning forwards nothing and answers requests with status 0x0004 (R426, R427, R431). -/
def Work.message (w : Work) (l op : Nat) (f : NFlit) (data : List NFlit) (act : Work → NylMsg → Work) : Work :=
  let x := w.link l
  if !x.carries || (f.ok && (f.kind ≠ 1 || f.op ≠ op)) then w
  else
    let good := msgOk f data
    if good && f.seq = x.rxSeq then
      let m := nylMsg l f data
      let w := w.modLink l (fun x => x.accept f (1 + data.length))
      if m.dst = w.moduleId && !w.provisioning then act w m
      else if w.provisioning then (if m.isRequest then w.answerOn l m 4 else w)
      else w.forward l m
    else if x.discarding then
      let w := if good then w else w.modLink l (fun x => { x with errFlits := satAdd 32 x.errFlits 1 })
      if !good && f.ok && x.asked = some f.seq then w.nylRetryFailed l else w
    else w.modLink l (fun x => { x with errFlits := satAdd 32 x.errFlits 1 }.ask)

/-! ## Time flits (R105, R106, R423) -/

/-- NYL_TIME_SEND: a link in service sends LT_NOW, HOPS and the echo of the last time flit received. -/
def Work.timeSend (w : Work) (l : Nat) : Work :=
  let x := w.link l
  if !(x.carries || x.st = .mismatch || x.st = .noCommon) then w
  else
    let hops := if w.locked then w.chip.time.hops else 15
    let body := leBytes 8 w.now ++ leBytes 1 hops ++ leBytes 7 0 ++ leBytes 8 x.lastTSend.toNat ++
      leBytes 8 (if x.lastTSend = 0 then 0 else (w.chip.refPs - x.lastTRecv) / 1000) ++ leBytes 16 0
    w.modLink l (fun x => x.put 3 0 x.txSeq 0 body [] [])

def execNylTimeSend (link : NylId) (s : State) := lift (fun w => w.timeSend link.val) s

/-- NYL_TIME_FLIT: it measures the delay, and a usable one from the parent gives a sample of Lock Time. One that is not usable ends no
source before its limit (R103, R105, R106, R109). -/
def Work.timeFlit (w : Work) (l : Nat) (f : NFlit) : Work :=
  w.plainFlit l 3 0 f (fun w =>
    let echo := f.at_ 0x20 8
    let delay : Nat :=
      if echo = 0 then (w.link l).delayNs
      else min 65535 ((((w.now : Int) - (echo : Int) - (f.at_ 0x28 8 : Int)) / 2).toNat)
    let w := w.modLink l (fun x => { x with delayNs := delay, lastTSend := BitVec.ofNat 64 (f.at_ 0x10 8), lastTRecv := w.chip.refPs })
    let hops := f.at_ 0x18 1
    if hops < 15 && bit w.chip.time.srcEn 2 then
      let w := w.modNylTime l (fun _ => { usable := true, hops := hops, last := w.chip.refPs })
      if hops < 8 then w.timeSample (.nyulle (Fin.ofNat 48 l)) (f.at_ 0x10 8 + delay) else w.refreshSource
    else (w.modNylTime l (fun x => { x with hops := hops })).refreshSource)

def execNylTimeFlit (link : NylId) (flit : NFlit) (s : State) := lift (fun w => w.timeFlit link.val flit) s

/-! ## NYL_CTRL (R447, R461) -/

/-- Control offset of NYL_CTRL of link l (R457). -/
def nylCtrlOff (l : Nat) : Nat := 0x400_0000 + l * 0x1_0000 + 0x30

/-- Code of STATE (R458). -/
def NylState.code : NylState → Nat
  | .down => 0 | .training => 1 | .discovery => 2 | .up => 3 | .retrying => 4 | .draining => 5 | .disabled => 6
  | .failed => 7 | .mismatch => 8 | .noCommon => 9

/-- An OP without effect is recorded (R461). -/
def Work.linkRefused (w : Work) (l op : Nat) : Work :=
  w.record { cls := 0x0706, kind := 7, id := l, pound := optPound (w.linkOwner l), action := 6, d0 := op, d1 := (w.link l).st.code }

/-- DISABLE: a link that carries messages drains; one that carries none is disabled at once (R447). -/
def Work.linkDisable (w : Work) (l : Nat) : Work :=
  let x := w.link l
  if x.st = .disabled || x.st = .draining then w.linkRefused l 1
  else if x.carries then w.modLink l (fun x => { x with st := .draining })
  else (w.modLink l (fun x => { (if x.listens then x.control 5 [0, 1] else x) with st := .disabled }))

/-- ENABLE: the link trains (R430). -/
def Work.linkEnable (w : Work) (l : Nat) : Work :=
  if (w.link l).st = .disabled then w.modLink l (fun x => { x with st := .training }) else w.linkRefused l 2

/-- RESET: DOWN with reason 0x02, everything of the link as after reset, and it trains again. Its queue is handled as on the
loss of a partner (R433, R461, R567). -/
def Work.linkReset (w : Work) (l : Nat) : Work :=
  let w := w.modLink l (fun x => if x.listens then x.control 5 [0, 2] else x)
  let w := w.emptyLink l .training
  let w := { w with
    chip.remotes := SMap.mapVal w.chip.remotes (fun _ r => if r.link = some l then { r with lost := true } else r)
    chip.colls := w.chip.colls.map (fun c => if (w.collLinks c).contains l then { c with failed := some 0x101 } else c) }
  (w.modLink l (fun x => { NylLink.zero with st := .training, wire := x.wire }))

/-- OP of NYL_CTRL. -/
def Work.linkOp (w : Work) (l op : Nat) : Work :=
  match op with
  | 1 => w.linkDisable l
  | 2 => w.linkEnable l
  | 3 => w.linkReset l
  | _ => w

/-- A store of an OP to NYL_CTRL by core c (R457). -/
def Work.nylCtrlStore (w : Work) (c l op : Nat) : Work :=
  w.regStore c (nylCtrlOff l) .b8 false ((w.linkOwner l).isSome && w.coreOwner c = w.linkOwner l) (BitVec.ofNat 64 op) (fun w =>
    w.linkOp l op)

def execNylLinkDisable (core : CoreId) (link : NylId) (s : State) := lift (fun w => w.nylCtrlStore core.val link.val 1) s
def execNylLinkEnable (core : CoreId) (link : NylId) (s : State) := lift (fun w => w.nylCtrlStore core.val link.val 2) s
def execNylLinkReset (core : CoreId) (link : NylId) (s : State) := lift (fun w => w.nylCtrlStore core.val link.val 3) s

/-- LINK_CONTROL: the management path's OP for a link that no pound owns; another has completion code ERROR_INVALID_DATA
(R447, R484). -/
def execLinkControl (link : NylId) (op : BitVec 2) (s : State) :=
  lift (fun w => w.manage (fun w =>
    if (w.linkOwner link.val).isSome then w.answer 2 [] else (w.linkOp link.val op.toNat).answer 0 [])) s

/-- NYL_DISABLE_TIMEOUT: what still waits on the link ends; it sends DOWN and is disabled (R447, R456). -/
def Work.disableTimeout (w : Work) (l : Nat) : Work :=
  let x := w.link l
  if x.st ≠ .draining then w
  else
    let tags := (w.chip.remotes.filter (fun e => e.2.link = some l)).map (·.1)
    let w := w.each tags (fun w t => w.failRemote t 0xF)
    let colls := w.chip.colls.filter (fun c => (w.collLinks c).contains l)
    let w := w.modLink l (fun x =>
      { x.control 5 [0, 1] with st := .disabled, queue := [], retryBuf := [], discarding := false, asked := none, unacked := 0
                                gotIdentity := false, sentSelect := false, gotSelect := false })
    let w := w.each (x.queue ++ x.retryBuf.map (·.2)) (fun w m =>
      if m.inbound.isSome && m.isRequest then w.errorTo m w.transitDefault 0x109
      else w)
    w.each colls (fun w c =>
      match w.cmd? c.sq c.seq with
      | some d => (w.endColl c 0xF).complete c.sq d 0xF
      | none => w.endColl c 0xF)

def execNylDisableTimeout (link : NylId) (s : State) := lift (fun w => w.disableTimeout link.val) s

end Sys2Proof.Machine
end

