-- ==== Sys2Proof/Machine/Remote.lean ====
section
/-!
DEFINITION. Requests of other modules, performed at their home, and the responses to this module's own requests
(R72, R440 to R446).
-/

namespace Sys2Proof.Machine

/-! ## Admission (R72, R443) -/

/-- Bytes of the populated HBM window. -/
def Work.hbmBytes (w : Work) : Nat := if w.chip.boot.hbmWindow then w.mapped.length * 2684354560 else 0

/-- The access-list entry that covers an access of another module (R72). A fenced pound's memory, and memory that is to be
zeroed, is covered by none (R92, R572). -/
def Work.covered (w : Work) (src off n permBit : Nat) : Option Nat :=
  match w.chip.cht.active with
  | none => none
  | some c =>
    (c.access.find? (fun e =>
      e.modFirst ≤ src && src ≤ e.modLast && e.offBase ≤ off && off + n ≤ e.offLast + 1 && bit e.perm permBit &&
      (w.cfg? e.pound).isSome && !(w.pound e.pound).fenced && !w.scrubbing (0x100_0000_0000 + off))).map (fun e => e.pound)

/-- A record of class "fabric access", at most 1,000 in a second (R72, R615). -/
def Work.recFabric (w : Work) (m : NylMsg) : Work :=
  if 1000 ≤ w.chip.rolls.rateFabric then { w with chip.rolls.suppressed := satAdd 32 w.chip.rolls.suppressed 1 }
  else { w with chip.rolls.rateFabric := w.chip.rolls.rateFabric + 1 }.record
    { cls := 0x0702, kind := 7, id := m.inbound.getD 0, action := 6, addr := m.offset, d0 := m.src, d1 := m.op }

/-- Answer a request, from the table of the pound whose entry admitted it (R436, R441). -/
def Work.respond (w : Work) (m : NylMsg) (p op : Nat) (data operand : List Byte) (poison : List Bool) : Work :=
  match w.sendMsg (some p)
    { vc := 2, body := nylBody m.src w.moduleId op 0 (m.len - 1) m.offset m.tag 0 operand, data := data, poison := poison
      inbound := none, pound := some p } with
  | (w, some _) => w
  | (w, none) => w.countLost m.inbound

/-- A request for this module is refused, or performed for the pound of its entry at a physical address (R443). The record of
a request beyond the window is the one that R615 places for a remote request (log entry 29). -/
def Work.inboundRequest (w : Work) (m : NylMsg) (permBit : Nat) (act : Work → Nat → Nat → Work) : Work :=
  if w.hbmBytes < m.offset + m.len then
    (w.errorTo m w.transitDefault 4).record
      { cls := 0x0301, kind := 7, id := m.inbound.getD 0, action := 6, addr := m.offset, d0 := 4 }
  else match w.covered m.src m.offset m.len permBit with
    | none => (w.errorTo m w.transitDefault 5).recFabric m
    | some p => act w p (0x100_0000_0000 + m.offset)

/-! ## READ, WRITE and the atomics (R441, R443) -/

/-- Poison of each 32 B word of a payload read at a (R445). -/
def Work.payloadPoison (w : Work) (a n : Nat) : List Bool :=
  (List.range ((n + 31) / 32)).map (fun i => (w.vpoison (a + 32 * i) (min 32 (n - 32 * i))).isSome)

def Work.inRead (w : Work) (m : NylMsg) : Work :=
  w.inboundRequest m 0 (fun w p a =>
    let bs := w.vread a m.len
    let ps := w.payloadPoison a m.len
    (w.arcReads a m.len (some p) none).respond m p 0x41 bs [] ps)

/-- Bytes that arrive poisoned poison the code words they lie in (R445). -/
def Work.pokeWords (w : Work) (a n : Nat) (ps : List Bool) : Work :=
  w.each (ps.zipIdx.filter (fun e => e.1 && 32 * e.2 < n)) (fun w e => w.pokePoison (a + 32 * e.2) (min 32 (n - 32 * e.2)))

def Work.inWrite (w : Work) (m : NylMsg) (publish : Bool) : Work :=
  w.inboundRequest m 1 (fun w p a =>
    let w := w.pwrite a m.data publish (some p)
    let w := if w.dead a then w else w.pokeWords a m.len m.poison
    w.respond m p 0x42 [] [] [])

/-- An atomic operation: the value that it stores, none where it stores none. A poisoned word is neither returned nor changed:
an error response says so (log entry 28). -/
def Work.inAtomic (w : Work) (m : NylMsg) (f : Nat → Option Nat) : Work :=
  w.inboundRequest m 1 (fun w p a =>
    if (w.vpoison a m.len).isSome then w.errorTo m (some p) 7
    else
      let old := leNat (w.vread a 8)
      let w := match f old with
        | some v => w.pwrite a (leBytes 8 v) true (some p)
        | none => w.arcReads a 8 (some p) none
      w.respond m p 0x43 [] (leBytes 8 old) [])

def execNylRead (link : NylId) (flit : NFlit) (data : List NFlit) (s : State) :=
  liftIf (nylData data) (fun w => w.message link.val 1 flit data Work.inRead) s
def execNylWritePlain (link : NylId) (flit : NFlit) (data : List NFlit) (s : State) :=
  liftIf (nylData data) (fun w => w.message link.val 2 flit data (fun w m => w.inWrite m false)) s
def execNylWritePublish (link : NylId) (flit : NFlit) (data : List NFlit) (s : State) :=
  liftIf (nylData data) (fun w => w.message link.val 3 flit data (fun w m => w.inWrite m true)) s
/-- ADD64 wraps modulo 2^64. -/
def execNylAdd64 (link : NylId) (flit : NFlit) (data : List NFlit) (s : State) :=
  liftIf (nylData data) (fun w => w.message link.val 4 flit data (fun w m =>
    w.inAtomic m (fun old => some ((old + leAt m.operand 0 8) % 2 ^ 64)))) s
def execNylSwap64 (link : NylId) (flit : NFlit) (data : List NFlit) (s : State) :=
  liftIf (nylData data) (fun w => w.message link.val 5 flit data (fun w m => w.inAtomic m (fun _ => some (leAt m.operand 0 8)))) s
/-- CAS64 writes only when the compare matches. -/
def execNylCas64 (link : NylId) (flit : NFlit) (data : List NFlit) (s : State) :=
  liftIf (nylData data) (fun w => w.message link.val 6 flit data (fun w m =>
    w.inAtomic m (fun old => if old = leAt m.operand 0 8 then some (leAt m.operand 8 8) else none))) s

/-! ## Responses (R444, R445) -/

/-- A response to a request that is still outstanding; a late one is discarded and counted (R444). -/
def Work.response (w : Work) (m : NylMsg) (ops : List Nat) (f : Work → Remote → Work) : Work :=
  match SMap.look w.chip.remotes m.tag with
  | some r =>
    if ops.contains r.op then f w r
    else w
  | none =>
    match m.inbound with
    | some l => w.modLink l (fun x => { x with stale := satAdd 16 x.stale 1 })
    | none => w

/-- Close a request, and go on with its engine's transfer. -/
def Work.closeRemote (w : Work) (tag : Nat) : Work := { w with chip.remotes := SMap.erase w.chip.remotes tag }

/-- Bytes of a packed group that have come. -/
def Xfer.addPart (x : Xfer) (pos : Nat) (bs : List Byte) : Xfer :=
  { x with group := x.group.map (fun (g : Piece × List (Nat × List Byte)) => (g.1, g.2 ++ [(pos, bs)])) }

/-- A group whose bytes have all come is unpacked, or compressed, and written (R405, R410). -/
def Work.groupCome (w : Work) (who : RemoteWho) : Work :=
  match w.xfer? who with
  | some x =>
    (match x.group with
    | some (p, parts) =>
      if w.outstanding who ≠ 0 then w
      else
        let bs := parts.foldl (fun a e => splice a e.1 e.2) (List.replicate (p.gather.getD 0) 0)
        let w := w.modXfer who (fun x => { x with group := none })
        match w.gathered (w.eng who) p bs with
        | (w, .bad s a) => w.failXfer who s a
        | (w, _) => w
    | none => w)
  | none => w

/-- Data of a READ reaches its engine: a destination, the value of a SEM_WAIT, or part of a group. The lines before a poisoned word
are written (R144, R445). -/
def Work.readData (w : Work) (m : NylMsg) : Work :=
  w.response m [1] (fun w r =>
    match (m.poison.take ((r.len + 31) / 32)).findIdx? id with
    | some i =>
      let n := (r.gaddr.toNat + 32 * i) / 128 * 128 - r.gaddr.toNat
      let w := match r.dst with
        | some d => if n = 0 then w else (w.engWrite (w.eng r.who) d (m.data.take n) false r.publish r.va).1
        | none => w
      w.failRemote m.tag 7 (32 * i)
    | none =>
      let w := w.closeRemote m.tag
      let w := match r.dst with
        | some d =>
          (match w.engWrite (w.eng r.who) d m.data false r.publish r.va with
          | (w, some s) => w.failXfer r.who s 0
          | (w, none) => w)
        | none =>
          match r.who with
          | .command q n =>
            if (w.started? q n 4).isSome then w.semSeen q n (BitVec.ofNat 64 (leNat m.data))
            else (w.modXfer r.who (fun x => x.addPart r.pos m.data)).groupCome r.who
          | _ => (w.modXfer r.who (fun x => x.addPart r.pos m.data)).groupCome r.who
      w.pump r.who)

def execReadData (link : NylId) (flit : NFlit) (data : List NFlit) (s : State) :=
  liftIf (nylData data) (fun w => w.message link.val 0x41 flit data Work.readData) s

/-- A write is visible at SYSTEM (R444). -/
def execWriteDone (link : NylId) (flit : NFlit) (data : List NFlit) (s : State) :=
  liftIf (nylData data) (fun w => w.message link.val 0x42 flit data (fun w m =>
    w.response m [2, 3] (fun w r => (w.closeRemote m.tag).pump r.who))) s

/-- An atomic operation is done; its engine, a SEM_SIGNAL, does not keep the old value (R293, R443). -/
def execAtomicDone (link : NylId) (flit : NFlit) (data : List NFlit) (s : State) :=
  liftIf (nylData data) (fun w => w.message link.val 0x43 flit data (fun w m =>
    w.response m [4, 5, 6] (fun w r => (w.closeRemote m.tag).pump r.who))) s

def execNylError (link : NylId) (flit : NFlit) (data : List NFlit) (s : State) :=
  liftIf (nylData data) (fun w => w.message link.val 0x4F flit data (fun w m =>
    w.response m [1, 2, 3, 4, 5, 6] (fun w _ => w.failRemote m.tag m.status))) s

/-- REMOTE_TIMEOUT: no response within 10 ms (R444). -/
def execRemoteTimeout (tag : W32) (s : State) := lift (fun w => w.failRemote tag.toNat 0x103) s

end Sys2Proof.Machine
end

