-- ==== Sys2Proof/Machine/Resets.lean ====
section
/-!
DEFINITION. The reset domains, pound self-reset, the reset and power pins, and debug accesses (R78, R371, R480, R481, R567 to
R574, R584 to R597).
-/

namespace Sys2Proof.Machine

/-! ## Pound self-reset (R309, R570 to R574) -/

/-- Control offsets of CAT_HEARTBEAT and CAT_POUND_CTRL of pound p (R575). -/
def beatOff (p : Nat) : Nat := 0x200 + p * 0x10
def poundCtrlOff (p : Nat) : Nat := 0x208 + p * 0x10

/-- Pound p self-resets: cause 1 heartbeat, 2 host-complex warm reset, 3 software. One that restarts or starts does so first
(R571, R574). -/
def Work.selfReset (w : Work) (p cause : Nat) : Work :=
  let x := w.pound p
  if x.held || x.selfResetAfter.isSome || x.cfg.isNone then w
  else if x.st ≠ .running then w.modPound p (fun x => { x with selfResetAfter := some cause, armed := false })
  else
    let w := w.modPound p (fun x =>
      { x with
        held := true, cause := cause, losses := satAdd 16 x.losses 1, armed := false, selfReset := true, st := .draining })
    ((w.holdQueues p).cancelPoundOrders p).settleSelfReset p

/-- SELF_RESET written to CAT_POUND_CTRL. -/
def Work.selfResetOp (w : Work) (c p : Nat) (v : W64) : Work :=
  let x := w.pound p
  if x.held || x.selfResetAfter.isSome then w.ignoreReg c (poundCtrlOff p) .b8 v else w.selfReset p 3

/-- RESUME: the fence is lifted, the queues are DISABLED, and the pound runs (R305, R573). -/
def Work.resumeOp (w : Work) (c p : Nat) (v : W64) : Work :=
  if (w.pound p).st ≠ .waitingOwner then w.ignoreReg c (poundCtrlOff p) .b8 v
  else
    let w := w.each (w.sqsOf p) (fun w q =>
      if (w.sq q).st ≠ .held then w
      else (w.modSq q (fun s => { s with st := .disabled })).modCq (w.sq q).cqNum (fun c =>
        { c with bound := c.bound - 1, reserved := c.reserved - 1 }))
    w.modPound p (fun x => { x with held := false, selfReset := false, fenced := false, armed := false, st := .running })

/-- DISARM. -/
def Work.disarmOp (w : Work) (c p : Nat) (v : W64) : Work :=
  if (w.pound p).armed then w.modPound p (fun x => { x with armed := false }) else w.ignoreReg c (poundCtrlOff p) .b8 v

/-- A write to CAT_POUND_CTRL of pound p by core c (R575, R580). -/
def Work.poundCtrlWrite (w : Work) (c p op : Nat) (v : W64) : Work :=
  match op with
  | 1 => w.selfResetOp c p v
  | 2 => w.resumeOp c p v
  | 3 => w.disarmOp c p v
  | _ => w

/-- A whole-register write of an OP to CAT_POUND_CTRL; any writer but a host core of pound p is refused (R70, R575). -/
def Work.poundCtrlStore (w : Work) (c p op : Nat) : Work :=
  w.regStore c (poundCtrlOff p) .b8 false (w.isPound c p) (BitVec.ofNat 64 op) (fun w =>
    w.poundCtrlWrite c p op (BitVec.ofNat 64 op))

def execSelfReset (core : CoreId) (pound : PoundId) (s : State) := lift (fun w => w.poundCtrlStore core.val pound.val 1) s
def execResume (core : CoreId) (pound : PoundId) (s : State) := lift (fun w => w.poundCtrlStore core.val pound.val 2) s
def execDisarm (core : CoreId) (pound : PoundId) (s : State) := lift (fun w => w.poundCtrlStore core.val pound.val 3) s

/-- A heartbeat of pound p (R570): the first one while it runs arms it. -/
def Work.heartbeat (w : Work) (p : Nat) : Work :=
  w.modPound p (fun x => { x with armed := x.armed || x.st = .running, lastBeat := w.chip.refPs })

def execCatHeartbeat (core : CoreId) (pound : PoundId) (s : State) :=
  lift (fun w => w.regStore core.val (beatOff pound.val) .b8 false (w.isPound core.val pound.val) 0
    (fun w => w.heartbeat pound.val)) s

/-- HEARTBEAT_CHECK: a pound whose last heartbeat is more than HEARTBEAT_MS old self-resets (R570). -/
def Work.heartbeatCheck (w : Work) : Work :=
  w.each (List.range 16) (fun w p =>
    let x := w.pound p
    match x.cfg with
    | some g => if x.armed && decide (x.lastBeat + g.beatMs * 1_000_000_000 < w.chip.refPs) then w.selfReset p 1 else w
    | none => w)

def execHeartbeatCheck (s : State) := lift (fun w => w.heartbeatCheck) s

/-- DRAIN_TIMEOUT_US of a self-reset has passed: what still runs completes with status 0x0011, and the fence comes into force
(R571). -/
def execSelfResetDrainTimeout (pound : PoundId) (s : State) :=
  lift (fun w =>
    let x := w.pound pound.val
    if !x.selfReset || x.st ≠ .draining || x.goal.isSome then w
    else (w.each (w.sqsOf pound.val) (fun w q => w.abortStarted q 0x11 7)).settleSelfReset pound.val) s

/-! ## Reset requests (R568, R569) -/

/-- Core c may write CAT_RESET (R569). -/
def Work.mayReset (w : Work) (c : Nat) : Bool := w.provisioning || ((w.coreOwner 0).isSome && w.coreOwner c = w.coreOwner 0)

/-- No bring-up and no uncore warm reset is in progress (R568, R595). -/
def Work.up (w : Work) : Bool := w.chip.boot.step = 5 && !w.chip.boot.uncorePhase1

/-- The host complex is reset: every host core, the interrupt files, and every pound self-resets. Step 4 and the harts'
self-tests follow (R332, R567, R570). -/
def Work.hostComplexReset (w : Work) : Work :=
  let w := w.warmResetAll
  let w := { w with
    chip.aia := { pend := [], regs := [], aplic := 0, wires := 0 }
    chip.boot.hart := 0
    chip.boot.hartCtl := []
    chip.boot.host0 := false
    chip.boot.cacheLost := false }
  w.each (List.range 16) (fun w p => w.selfReset p 2)

/-- Every entry that waits at a completion queue is written while the homes still accept writes (R481). -/
def Work.flushEntries (w : Work) : Work :=
  w.each (w.chip.cqs.map (·.1)) (fun w c => w.each (List.range (w.cq c).pend.length) (fun w _ => w.writeFront c))

/-- The first phase of an uncore warm reset: harts are reset, every command in flight completes with status 0x0010, lock orders
are discarded, and a charter that is staged or being verified is withdrawn (R82, R119, R481). -/
def Work.uncorePhase1 (w : Work) : Work :=
  let w := w.warmResetAll
  let w := { w with
    chip.boot.uncorePhase1 := true
    chip.boot.faultN := false
    chip.boot.waits := 0
    chip.boot.hart := 0
    chip.boot.hartCtl := []
    chip.boot.host0 := false }
  let w := w.moduleFault.flushEntries.discardOrders
  match w.chip.cht.verifying, w.chip.cht.staged with
  | some b, _ => { w with chip.cht.verifying := none }.chtError 0x25 (imageVersion b)
  | none, some (b, _) => { w with chip.cht.staged := none }.chtError 0x25 (imageVersion b)
  | none, none => w

/-- An uncore warm reset may begin: a module that waits for a module cold reset does not take it (R33, R568, R597). -/
def Work.warmAllowed (w : Work) : Bool := w.up && w.chip.boot.waits ≠ 1

/-- A write to CAT_RESET by core c (R568, R569, R578). -/
def Work.catReset (w : Work) (c op : Nat) (v : W64) : Work :=
  let ok : Bool := w.mayReset c && (if op = 1 then w.warmAllowed else w.up)
  if !ok then w.ignoreReg c 0x18 .b8 v
  else match op with
    | 1 => w.uncorePhase1
    | 2 => w.hostComplexReset
    | _ => w

def execUncoreWarmReset (core : CoreId) (s : State) :=
  lift (fun w => w.regStore core.val 0x18 .b8 false true 1 (fun w => w.catReset core.val 1 1)) s
def execHostComplexWarmReset (core : CoreId) (s : State) :=
  lift (fun w => w.regStore core.val 0x18 .b8 false true 2 (fun w => w.catReset core.val 2 2)) s

/-- HOST_CACHE_LOSS_RESET: 10 ms after dirty host-cache data has been lost (R371). -/
def execHostCacheLossReset (s : State) :=
  lift (fun w => if w.chip.boot.cacheLost && w.up then w.hostComplexReset else w) s

/-! ## The second phase of an uncore warm reset (R283, R481, R567) -/

/-- Posted writes that a port holds are lost: what they wrote to CXL memory is unknown (R480, R482). -/
def Work.losePosted (w : Work) (p : Nat) : Work :=
  let l := (w.port p).posted
  let w := w.modPort p (fun x => { x with posted := [] })
  w.each l (fun w e =>
    match w.place e.1 with
    | .cxl _ => let (w, bs) := w.deviceBytes e.2.1.length; w.put (.bytes e.1 bs)
    | _ => w)

/-- A tile through an uncore warm reset: as tile reset, its index and what belongs to the physical tile kept (R160, R551). -/
def Tile.warm (x : Tile) : Tile :=
  let y := Tile.resetWith { x.phys with auditPhase := 0, auditOrder := none }
  { y with
    st := if x.st = .quarantined then .quarantined else .offline
    exDue := if x.exDue = some .quarantine then x.exDue else none }

/-- The chip after the second phase: what R567 keeps, and everything else as after its reset. -/
def Chip.warm (c : Chip) : Chip :=
  let b := c.boot
  let r := Chip.resetWith c.flash b.addrSel
  { r with
    free := c.free
    refPs := c.refPs
    boot := { r.boot with
      powered := b.powered, refOk := b.refOk, i3cAddr := b.i3cAddr, eid := b.eid
      lockkeeper := b.lockkeeper, standby := b.standby, standbyActive := b.standbyActive
      fwVerified := b.fwVerified, assigned := b.assigned, heavyRun := b.heavyRun }
    cht := { c.cht with booted := false, verifying := none, staged := none, parts := [], restarting := [], deferred := [] }
    pounds := c.pounds.map (fun (e : Nat × Pound) => (e.1, { Pound.none with sparesGone := e.2.sparesGone }))
    time := { c.time with orders := [], nyl := [], ptp := [], parent := none }
    rolls := { r.rolls with seq := c.rolls.seq, seqReg := 0, buffer := c.rolls.buffer, lostRun := c.rolls.lostRun }
    pwr := { r.pwr with
      level := c.pwr.level, levelSet := c.pwr.levelSet
      mode := if c.pwr.brakeLow || !c.pwr.alerts.isEmpty then .divided else .normal
      floor := c.pwr.floor, slew := c.pwr.slew, capW := c.pwr.capW, voltMv := c.pwr.voltMv
      measW := c.pwr.measW, energyMj := c.pwr.energyMj, ballastMj := c.pwr.ballastMj
      divided := c.pwr.divided && (c.pwr.brakeLow || !c.pwr.alerts.isEmpty)
      alerts := c.pwr.alerts, brakeLow := c.pwr.brakeLow
      dies := SMap.mapVal c.pwr.dies (fun _ d => { d with droops := 0, st := 0 }) }
    tiles := SMap.mapVal c.tiles (fun _ x => x.warm)
    lpd := c.lpd
    sizeCodes := c.sizeCodes
    units := c.units
    nextTag := c.nextTag
    mgmt := c.mgmt }

/-- What is still to be zeroed for a new owner is zeroed before its pound comes up afresh (R91, R92, R399). -/
def Work.finishScrubs (w : Work) : Work :=
  let w := w.each w.chip.cht.scrubs (fun w s => w.scrub s)
  if w.mapPending then w.pzero 0x100_0000_0000 0x100_0000_0000 else w

/-- UNCORE_RESET_PHASE2: bring-up runs from step 2. -/
def Work.uncorePhase2 (w : Work) : Work :=
  if !w.chip.boot.uncorePhase1 then w
  else
    let w := w.finishScrubs
    let w := w.each (List.range 4) (fun w p => w.losePosted p)
    let w := { w with chip := w.chip.warm }
    w.expireSource.startStep2

def execUncoreResetPhase2 (s : State) := lift (fun w => w.uncorePhase2) s

/-! ## Module cold reset and the pins (R480, R567, R584 to R597) -/

/-- Module cold reset: everything but management flash and fuses is reset; the contents of memory are lost and read as after
power-on (R332, R567; log entry 1). -/
def Work.coldReset (w : Work) (powered : Bool) : Work :=
  let c := w.chip
  let r := Chip.resetWith c.flash c.boot.addrSel
  let w := { w with chip := { r with
    free := c.free
    boot := { r.boot with powered := powered, resetLow := powered }
    pwr := { r.pwr with voltMv := c.pwr.voltMv } } }
  w.put (.zero 0 (2 ^ 56))

/-- A low pulse too short to reset: a glitch is recorded, RESET_N 0 and WARM_RESET_N 1 (R594, R595). -/
def Work.glitch (w : Work) (pin ns : Nat) : Work :=
  if ns < 1000 then w else w.record { cls := 0x0109, count := ns, d0 := pin }

def execResetNFall (lowNs : W32) (s : State) :=
  lift (fun w =>
    if !w.chip.boot.powered || w.chip.boot.resetLow then w
    else if 10000 ≤ lowNs.toNat then w.coldReset true
    else w.glitch 0 lowNs.toNat) s

def execWarmResetNFall (lowNs : W32) (s : State) :=
  lift (fun w =>
    if !w.chip.boot.powered || w.chip.boot.resetLow then w
    else if lowNs.toNat < 10000 then w.glitch 1 lowNs.toNat
    else if w.warmAllowed then w.uncorePhase1
    else w) s

/-- POWER_APPLIED: with its input charged, the module is in module cold reset until BRINGUP_START (R584, R587). -/
def execPowerApplied (s : State) :=
  lift (fun w => if w.chip.boot.powered then w else { w with chip.boot.powered := true, chip.pwr.voltMv := 54000 }) s

/-- INPUT_VOLTAGE_EVENT: the input, held for some time (R332, R587). -/
def Work.inputVoltage (w : Work) (mv us : Nat) : Work :=
  let w := { w with chip.pwr.voltMv := mv }
  if us < 50 || !w.chip.boot.powered then w
  else if mv < 40000 || 60000 < mv then w.coldReset false
  else if mv < 46000 || 58000 < mv then w.regAlert 256
  else w

def execInputVoltageEvent (millivolts : BitVec 17) (heldUs : W32) (s : State) :=
  lift (fun w => w.inputVoltage millivolts.toNat heldUs.toNat) s

/-! ## Debug accesses (R78) -/

/-- The pound that a debug access concerns, and its bit of the DEBUG byte. -/
def Work.debugPath (w : Work) : DebugTarget → Option Nat × Nat
  | .hostCore c => (w.coreOwner c.val, 0)
  | .controlCore t => (w.tileOwner t.val, 1)
  | .vectorCore t _ => (w.tileOwner t.val, 2)
  | .trace t => (w.tileOwner t.val, 3)

/-- DEBUG_ACCESS: without its bit it reads 0, does nothing, and is recorded. With it, what a read returns is open: the manual
does not give the debug unit's registers (log entry 3). -/
def Work.debug (w : Work) (who : Option Nat) (t : DebugTarget) (addr : Nat) (isWrite : Bool) : Work :=
  let (p, i) := w.debugPath t
  let on : Bool := match p, w.chip.cht.active with
    | some p, some c => bit (c.debugBits.getD p 0) i
    | _, _ => false
  let answer (w : Work) (v : W64) : Work :=
    match who with
    | some c => if isWrite then w else w.hostRet c v.toNat
    | none => w
  if on then
    let (n, w) := w.take
    answer w (Config.freeWord n)
  else (answer w 0).record
    { cls := 0x0106, kind := if who.isSome then 1 else 0, id := who.getD 0, pound := optPound p, action := 6, addr := addr, d0 := i }

def execDebugAccess (requester : Option CoreId) (target : DebugTarget) (addr : W64) (isWrite : Bool) (value : W64) (s : State) :=
  lift (fun w => let _ := value; w.debug (requester.map (·.val)) target addr.toNat isWrite) s

end Sys2Proof.Machine
end

