-- ==== Sys2Proof/Machine/HostIo.lean ====
section
/-!
DEFINITION. The root ports, the invalidation of translations, and the wires of the APLIC (R463 to R473, R480, R482, R486).
-/

namespace Sys2Proof.Machine

/-! ## Inbound requests (R24, R70, R440, R465, R468, R471, R472) -/

/-- Where a piece of an inbound request goes. -/
inductive Inbound where
  /-- Performed at this address at the point of coherence. -/
  | at_ (a : Nat)
  /-- Forwarded to a port. -/
  | peer (q a : Nat)
  /-- Written to an interrupt file. -/
  | msi (f : Nat)
  | refused
deriving DecidableEq, Repr

/-- The completion of port p's inbound request. -/
def Work.reply (w : Work) (p : Nat) (s : PcieStatus) (bs : List Byte) (poison : Bool) : Work :=
  w.modPort p (fun x => { x with reply := some (s, bs, poison) })

/-- A function may present translated addresses: its device context enables ATS (R472). -/
def Work.atsEnabled (w : Work) (dev : Nat) : Bool :=
  match w.devCtx dev with
  | .ok (some c) => bit c.tc 1
  | _ => false

/-- Route a piece by its physical address, with the record of a refusal. -/
def Work.inboundPlace (w : Work) (p a n : Nat) (isWrite viaMsi : Bool) : Work × Inbound :=
  let owner := w.portOwner p
  let none_ (w : Work) : Work × Inbound := (w.recAddr 9 p owner a 0, .refused)
  let denied (w : Work) : Work × Inbound := (w.recOwner 9 p owner a 0, .refused)
  match w.place a with
  | .mmio q o =>
    if o < 0x400_0000 then denied w
    else if w.portOwner q = owner then (w, .peer q a) else denied w
  | .control o =>
    (match imsicFile o with
    | some f => if viaMsi && isWrite then (w, .msi f) else none_ w
    | none => none_ w)
  | .doorbell _ _ | .glob _ _ | .vacant => none_ w
  | _ =>
    match w.acc (.inbound owner) a n isWrite with
    | .ok => (w, .at_ (w.local_ a))
    | .notMapped => none_ w
    | .denied => denied w

/-- Translate and route a piece: R469's translation first, then the checks. -/
def Work.inboundPiece (w : Work) (p : Nat) (r : PcieRequest) (a n : Nat) (isWrite : Bool) : Work × Inbound :=
  let dev := r.requester.toNat
  if r.translated then
    if w.atsEnabled dev then w.inboundPlace p a n isWrite false else (w, .refused)
  else match w.translateMsi ownCache dev (r.pasid.map (·.toNat)) a isWrite with
    | (w, none) => (w, .refused)
    | (w, some (b, viaMsi)) => w.inboundPlace p b n isWrite viaMsi

/-- Bytes of an inbound write: publish writes (R336). -/
def Work.inboundWrite (w : Work) (p : Nat) (r : PcieRequest) (bs : List Byte) : Work :=
  let a := r.addr.toNat
  (pieces a bs.length).foldl (fun (w : Work) x =>
    let part := (bs.drop (x.1 - a)).take x.2
    match w.inboundPiece p r x.1 x.2 true with
    | (w, .at_ b) => w.pwrite b part true (w.portOwner p)
    | (w, .peer q b) => w.modPort q (fun y => { y with posted := y.posted ++ [(b, part, none)] })
    | (w, .msi f) =>
      let owner := w.portOwner p
      if owner.isSome && w.coreOwner (imsicHart f) = owner && x.1 % 4096 = 0 && part.length = 4 then w.imsicSet f (leNat part)
      else w.record { cls := 0x0801, kind := 9, id := p, pound := optPound owner, action := 6, addr := x.1, d0 := leNat part
                      d1 := r.requester.toNat }
    | (w, .refused) => w.reply p .ur [] false) (w.modPort p (fun y => { y with reply := none }))

/-- Bytes of an inbound read, through the port's read-ahead buffer; a read of a peer port's window is forwarded, and its completion
comes from there (R341, R471). -/
def Work.inboundRead (w : Work) (p : Nat) (r : PcieRequest) (n : Nat) : Work :=
  let go := (pieces r.addr.toNat n).foldl (fun (s : Work × Option (List Byte × Bool) × Bool) x =>
    match s with
    | (w, none, far) => (w, none, far)
    | (w, some (bs, bad), far) =>
      match w.inboundPiece p r x.1 x.2 false with
      | (w, .at_ b) =>
        let (w, d, q) := w.bufferRead p (.inbound (w.portOwner p)) b x.2
        (w, some (bs ++ d, bad || q.isSome), far)
      | (w, .peer q b) => (w.modPort q (fun y => { y with forwarded := y.forwarded ++ [b] }), some (bs, bad), true)
      | (w, _) => (w, none, far)) (w, some ([], false), false)
  match go with
  | (w, some (bs, bad), far) => if far then w.modPort p (fun y => { y with reply := none }) else w.reply p .sc bs bad
  | (w, none, _) => w.reply p .ur [] false

/-- An inbound AtomicOp, aimed at main memory; a poisoned word is returned and stays as it is (R465, R472). -/
def Work.inboundAtomic (w : Work) (p : Nat) (r : PcieRequest) (op : AmoOp) (z v cmp : Nat) : Work :=
  let a := r.addr.toNat
  if a % z ≠ 0 then w.reply p .ur [] false
  else match w.inboundPiece p r a z true with
    | (w, .at_ b) =>
      if !(w.place b).mainMemory then w.reply p .ur [] false
      else
        let old := w.vread b z
        if (w.vpoison b z).isSome then w.reply p .sc old true
        else (w.pwrite b (leBytes z (amoValue op z (leNat old) v cmp)) true (w.portOwner p)).reply p .sc old false
    | (w, _) => w.reply p .ur [] false

/-- PCIE_INBOUND_REQUEST, on a port whose link is up. -/
def Work.pcieInbound (w : Work) (p : Nat) (r : PcieRequest) : Work :=
  if (w.port p).st ≠ .up then w
  else match r.kind with
    | .write bs => w.inboundWrite p r bs
    | .read n => w.inboundRead p r n.toNat
    | .atomic op z v c => w.inboundAtomic p r op z.bytes v.toNat c.toNat

def execPcieInboundRequest (port : PortId) (request : PcieRequest) (s : State) :=
  liftIf request.wellFormed (fun w => w.pcieInbound port.val request) s

/-- INBOUND_MSI (R463, R468). -/
def execInboundMsi (port : PortId) (requester : W16) (addr : W64) (data : W32) (s : State) :=
  lift (fun w =>
    if (w.port port.val).st ≠ .up then w
    else w.msi ownCache requester.toNat none (w.portOwner port.val) 9 port.val addr.toNat data) s

/-! ## Completions (R395, R473) -/

/-- A non-posted request of a port ends: with its data, or with poison (R372, R395, R473). -/
def Work.endRequest (w : Work) (r : PortReq) (data : Option (List Byte)) : Work :=
  match r.core, r.who with
  | some c, _ =>
    (match data with
    | some bs => w.hostRetBytes c bs
    | none => w.hostTrap c 19 r.va)
  | none, some who =>
    let waits := match who with | .command q n => (w.started? q n 4).map (fun c => (q, c)) | _ => none
    let w := match data, waits, r.dst with
      | some bs, some (q, c), _ => w.semSeen q c.seq (BitVec.ofNat 64 (leNat bs))
      | none, some (q, c), _ => w.complete q c 7 0 (BitVec.ofNat 64 r.va)
      | some bs, none, some d =>
        (match w.engWrite (w.eng who) d bs false r.publish r.va with
        | (w, some s) => w.failXfer who s 0
        | (w, none) => w)
      | some _, none, none => w
      | none, none, _ => w.failXfer who 7 r.va
    w.pump who
  | none, none => w

/-- The request of port p with a tag ends; engines that waited for a request of a full port go on (R465). -/
def Work.pcieCompletion (w : Work) (p tag : Nat) (data : Nat → Option (List Byte)) : Work :=
  match (w.port p).reqs.find? (fun r => r.tag % 65536 = tag) with
  | none => w
  | some r =>
    let v := (w.modPort p (fun x => { x with reqs := x.reqs.filter (fun y => y.tag ≠ r.tag) })).endRequest r (data r.len)
    if (w.port p).full then v.pumpAll else v

def execPcieCompletion (port : PortId) (tag : W16) (status : PcieStatus) (poisoned : Bool) (data : List Byte) (s : State) :=
  lift (fun w => w.pcieCompletion port.val tag.toNat (fun n =>
    if status = .sc && !poisoned && data.length = n then some data else none)) s

def execPcieCompletionTimeout (port : PortId) (tag : W16) (s : State) :=
  lift (fun w => w.pcieCompletion port.val tag.toNat (fun _ => none)) s

/-! ## Link down, retrain and release (R480, R482, R486) -/

/-- The issuer of a posted write that was dropped (R333, R482). -/
def Work.postedLost (w : Work) (who : Option RemoteWho) (a : Nat) : Work :=
  match who with
  | some (.core c) => w.dropStore c a
  | some who => w.failXfer who 4 a
  | none => w

/-- The port enters the contained state, and asserts PERST (R482, R591); engines that waited for a request of a full port go on
(R465). -/
def Work.pcieDown (w : Work) (p : Nat) : Work :=
  let x := w.port p
  if x.st ≠ .up && x.st ≠ .retraining then w
  else
    let w := w.losePosted p
    let w := w.modPort p (fun y => { y with
      st := .contained, speed := 0, width := 0, cxl := false, reqs := [], perstLow := true, refclk := false
      dropped := satAdd 32 y.dropped x.posted.length, linkDowns := satAdd 16 y.linkDowns 1 })
    let w := w.each x.posted (fun w e => w.postedLost e.2.2 e.1)
    let w := w.each x.reqs (fun w r => w.endRequest r none)
    let w := w.record { cls := 0x0802, kind := 9, id := p, pound := optPound (w.portOwner p), action := 6, count := x.posted.length }
    if x.full then w.pumpAll else w

def execPcieLinkDown (port : PortId) (s : State) := lift (fun w => w.pcieDown port.val) s

/-- A retrain: what the port holds stays there (R480). -/
def Work.portRetrain (w : Work) (p : Nat) : Work :=
  w.modPort p (fun x => { x with st := .retraining, retrains := satAdd 16 x.retrains 1 })

def execPcieLinkRetrain (port : PortId) (s : State) :=
  lift (fun w => if (w.port port.val).st = .up then w.portRetrain port.val else w) s

/-- Control offset of HIO_PORT_CTRL of port p. -/
def portCtrlOff (p : Nat) : Nat := 0x600_1010 + p * 0x100

/-- Code of HIO_PORT_STATUS.STATE (R486). -/
def PortState.code : PortState → Nat
  | .down => 0 | .training => 1 | .up => 2 | .retraining => 3 | .contained => 4

/-- OP of HIO_PORT_CTRL; one without effect is recorded (R486). -/
def Work.portOp (w : Work) (p op : Nat) : Work :=
  let st := (w.port p).st
  let refused (w : Work) : Work :=
    w.record { cls := 0x0803, kind := 9, id := p, pound := optPound (w.portOwner p), action := 6, d0 := op, d1 := st.code }
  match op with
  | 1 => if st = .up then w.portRetrain p else refused w
  | 2 => if st = .contained then w.modPort p Port.train else refused w
  | _ => w

/-- A host core may write the port's control register: it belongs to the port's pound, or no pound owns the port. -/
def Work.mayCtrlPort (w : Work) (c p : Nat) : Bool := (w.portOwner p).isNone || w.coreOwner c = w.portOwner p

/-- A store of an OP to HIO_PORT_CTRL. -/
def Work.portCtrlStore (w : Work) (c p op : Nat) : Work :=
  w.regStore c (portCtrlOff p) .b8 false (w.mayCtrlPort c p) (BitVec.ofNat 64 op) (fun w => w.portOp p op)

def execPortRetrain (core : CoreId) (port : PortId) (s : State) := lift (fun w => w.portCtrlStore core.val port.val 1) s
def execPortRelease (core : CoreId) (port : PortId) (s : State) := lift (fun w => w.portCtrlStore core.val port.val 2) s

/-- PCIE_INTX: wired source 1 + 4p + i (R464). -/
def execPcieIntx (port : PortId) (pin : Fin 4) (assert : Bool) (s : State) :=
  lift (fun w => if (w.port port.val).st = .up then w.aplicWire (1 + 4 * port.val + pin.val) assert else w) s

/-! ## Invalidation of translations (R470) -/

/-- Remove cached translations from every cache. -/
def Work.inval (w : Work) (hit : Xlat → Bool) : Work :=
  { w with chip.iommu.cache := (SMap.mapVal w.chip.iommu.cache (fun _ l => l.filter (fun e => !hit e))).filter (fun e => e.2 ≠ []) }

/-- The IOMMU has carried out the command at the head of its command queue. -/
def Work.iommuCommand (w : Work) : Work :=
  let h := (w.iommu32 0x20).toNat
  if bit (w.iommu32 0x48) 16 && h ≠ (w.iommu32 0x24).toNat then
    w.setIommu32 0x20 ((h + 1) % 2 ^ (bits (w.iommu32 0x18) 4 0 + 1))
  else w

/-- An operand that is absent covers every value. -/
def covers {n : Nat} (x : Option (BitVec n)) (v : Nat) : Bool :=
  match x with
  | some b => b.toNat = v
  | none => true

def execIotinvalVma (gscid pscid : Option (BitVec 20)) (addr : Option (BitVec 52)) (s : State) :=
  lift (fun w => (w.inval (fun e =>
    covers gscid e.gscid && covers pscid e.pscid && covers addr (e.vpage % 2 ^ 52))).iommuCommand) s

/-- IOTINVAL.GVMA: a cached translation does not hold its guest address, so every one of the GSCID goes. -/
def execIotinvalGvma (gscid : Option (BitVec 20)) (addr : Option (BitVec 52)) (s : State) :=
  lift (fun w => let _ := addr; (w.inval (fun e => covers gscid e.gscid)).iommuCommand) s

/-- An engine access is under way that has used a translation. -/
def Work.engineBusy (w : Work) : Bool :=
  !w.chip.remotes.isEmpty || w.chip.tiles.any (fun t => !t.2.heldWrites.isEmpty) ||
  w.chip.ports.any (fun p => p.2.reqs.any (fun r => r.who.isSome) || !p.2.posted.isEmpty)

/-- IOFENCE.C completes when no such access is under way; until then it waits. -/
def execIofenceC (s : State) :=
  lift (fun w => if w.engineBusy then w else { w with chip.iommu.fences := w.chip.iommu.fences + 1 }.iommuCommand) s

/-! ## 800GbE (R464, R474) -/

/-- ETH_LINK_DOWN: the port's link change is an interrupt, and the port is no PTP source (R104, R464). -/
def Work.ethDown (w : Work) (e : Nat) : Work :=
  if !(w.eth e).up then w
  else
    let w := w.modEth e (fun x => { x with up := false })
    ((w.aplicRaise (17 + e)).modPtp e (fun x => { x with valid := false })).expireSource

def execEthLinkDown (port : EthId) (s : State) := lift (fun w => w.ethDown port.val) s

end Sys2Proof.Machine
end

