-- ==== Sys2Proof/Machine/Roce.lean ====
section
/-!
DEFINITION. The RoCE engines: queue pairs, send entries, inbound requests, completions, retry and rate (R474 to R479, R487).
-/

namespace Sys2Proof.Machine

/-! ## Queue pairs (R475) -/

def Work.qp (w : Work) (e q : Nat) : Qp := SMap.get Qp.zero (w.eth e).qps q
def Work.modQp (w : Work) (e q : Nat) (f : Qp → Qp) : Work :=
  w.modEth e (fun x => { x with qps := SMap.set Qp.zero x.qps q (f (SMap.get Qp.zero x.qps q)) })

/-- Fields of the context. -/
def Qp.at_ (x : Qp) (o k : Nat) : Nat := leAt x.ctx o k
def Qp.kind (x : Qp) : Nat := x.at_ 1 1
def Qp.pid (x : Qp) : Nat := x.at_ 8 4 % 2 ^ 20
def Qp.sqSlots (x : Qp) : Nat := 2 ^ x.at_ 0x30 1
def Qp.rqSlots (x : Qp) : Nat := 2 ^ x.at_ 0x31 1
def Qp.cqSlots (x : Qp) : Nat := 2 ^ x.at_ 0x32 1
def Qp.pmtu (x : Qp) : Nat := 1024 * 2 ^ x.at_ 2 1

/-- A context keeps the rules of R475. -/
def qpCtxOk (b : List Byte) : Bool :=
  let log2 (o : Nat) : Bool := 4 ≤ leAt b o 1 && leAt b o 1 ≤ 15
  (leAt b 1 1 = 0 || leAt b 1 1 = 2) && leAt b 2 1 ≤ 2 && leAt b 3 1 < 8 && leAt b 4 4 < 2 ^ 24 && leAt b 8 4 < 2 ^ 20 &&
  leAt b 0x0C 4 < 2 ^ 24 && leAt b 0x20 8 % 4096 = 0 && leAt b 0x28 8 % 4096 = 0 && leAt b 0x38 8 % 4096 = 0 &&
  log2 0x30 && log2 0x31 && log2 0x32 && leAt b 0x36 2 = 0 &&
  (leAt b 0x33 1 = 0xFF || (1 ≤ leAt b 0x34 2 && leAt b 0x34 2 ≤ 2047))

/-- Entries of a table, and the physical address of entry i of b bytes, where the table holds it (R487). -/
def tableAt (base : BitVec 44) (log2 : BitVec 5) (i b : Nat) : Option Nat :=
  if i < 2 ^ min 16 log2.toNat then some (base.toNat * 4096 + i * b) else none

/-- Read a table entry as a volatile read under the ownership of the port's pound (R487). -/
def Work.tableRead (w : Work) (e : Nat) (a : Option Nat) (n : Nat) : Option (List Byte) :=
  match a with
  | some a =>
    if w.acc (.engine (w.ethOwner e)) a n false = .ok && (w.vpoison a n).isNone && (w.place a).mainMemory then some (w.vread a n)
    else none
  | none => none

/-- The engine sets STATE of a queue pair, in its context too. -/
def Work.qpState (w : Work) (e q st : Nat) : Work :=
  let x := w.eth e
  let w := w.modQp e q (fun x => { x with st := st })
  match tableAt x.qptBase x.qptLog2 q 64 with
  | some a =>
    if w.acc (.engine (w.ethOwner e)) a 1 true = .ok && (w.place a).mainMemory then
      w.pwrite a (leBytes 1 st) true (w.ethOwner e)
    else w
  | none => w

/-- The first doorbell after STATE becomes READY: the engine reads the context (R475). -/
def Work.qpLoad (w : Work) (e q : Nat) : Work :=
  let x := w.eth e
  if (w.qp e q).st ≠ 0 then w
  else match w.tableRead e (tableAt x.qptBase x.qptLog2 q 64) 64 with
    | none => w
    | some b =>
      if leAt b 0 1 ≠ 1 then w
      else
        let w := w.modQp e q (fun _ => { Qp.zero with ctx := b, loaded := true, st := 1, psn := leAt b 0x0C 4 })
        if qpCtxOk b then w else w.qpState e q 2

/-! ## Completions (R478) -/

/-- Read and write of a queue pair's addresses (R468, R475); a read goes through the engine's read-ahead buffer (R341). -/
def Work.qpRead (w : Work) (e pid va n : Nat) : Work × Res (List Byte) :=
  w.vaRead ownCache (roceDev e) (some pid) (.engine (w.ethOwner e)) 0xA e va n none (some (4 + e))
def Work.qpWrite (w : Work) (e pid va : Nat) (bs : List Byte) : Work × Res Unit :=
  w.vaWrite ownCache (roceDev e) (some pid) (.engine (w.ethOwner e)) 0xA e va bs true

/-- A completion slot is free: neither written and unconsumed, nor reserved by an entry in flight. -/
def Qp.slotFree (x : Qp) : Bool := (x.cseq.toNat + 65536 - x.cCons % 65536) % 65536 + x.inflight.length < x.cqSlots

/-- The interrupt of a completion: to the S-level file of IRQ_HART, a hart of the port's pound (R463, R479). -/
def Work.qpIrq (w : Work) (e : Nat) (x : Qp) : Work :=
  let h := x.at_ 0x33 1
  if h = 0xFF then w
  else if h < 96 && (w.ethOwner e).isSome && w.coreOwner h = w.ethOwner e then w.imsicSet (4096 + 16 * h) (x.at_ 0x34 2)
  else w.record { cls := 0x0801, kind := 0xA, id := e, pound := optPound (w.ethOwner e), action := 6
                  addr := ctlBase + 0xA00_0000 + h * 0x1_0000, d0 := x.at_ 0x34 2, d1 := roceDev e }

/-- Write a completion entry; the queue pair is in ERROR when it cannot be written. -/
def Work.qpEntry (w : Work) (e q wr op status bytes imm : Nat) : Work :=
  let x := w.qp e q
  let n := x.cseq + 1
  let b := leBytes 4 n.toNat ++ leBytes 4 wr ++ leBytes 1 op ++ leBytes 1 status ++ leBytes 2 0 ++ leBytes 4 bytes ++ leBytes 4 imm ++
    leBytes 4 0 ++ leBytes 8 w.now
  let w := w.modQp e q (fun x => { x with cseq := n })
  match w.qpWrite e x.pid (x.at_ 0x38 8 + n.toNat % x.cqSlots * 32) b with
  | (w, .ok _) => w.qpIrq e x
  | (w, .bad _ _) => w.qpState e q 2

/-- Fields of a send entry (R476). -/
def seOp (b : List Byte) : Nat := leAt b 0 1
def seWr (b : List Byte) : Nat := leAt b 4 4
def seLen (b : List Byte) : Nat := leAt b 0x10 4
def seSignaled (b : List Byte) : Bool := leAt b 1 1 % 2 = 1

/-- A send entry completes: a successful one writes an entry only when it is SIGNALED. -/
def Work.qpDone (w : Work) (e q : Nat) (b : List Byte) (status : Nat) : Work :=
  if status = 0 && !seSignaled b then w
  else w.qpEntry e q (seWr b) (seOp b) status (if status = 0 then seLen b else 0) (leAt b 0x14 4)

/-- ERROR: every entry in flight completes with status 0x05 (R478). -/
def Work.qpError (w : Work) (e q : Nat) : Work :=
  let l := (w.qp e q).inflight
  let w := (w.qpState e q 2).modQp e q (fun x => { x with inflight := [], rnrWait := false })
  w.each l (fun w b => w.qpDone e q b 5)

/-- The oldest entry in flight completes with a failure, and the queue pair is in ERROR. -/
def Work.qpFail (w : Work) (e q status : Nat) : Work :=
  match (w.qp e q).inflight with
  | [] => w
  | b :: rest => ((w.modQp e q (fun x => { x with inflight := rest })).qpDone e q b status).qpError e q

/-! ## Doorbells (R479) -/

/-- FLUSH: every outstanding entry completes with status 0x05 while slots are free, and STATE becomes RESET. -/
def Work.qpFlush (w : Work) (e q : Nat) : Work :=
  let l := (w.qp e q).inflight
  let w := w.modQp e q (fun x => { x with inflight := [] })
  let w := w.each l (fun w b => w.qpDone e q b 5)
  let x := w.qp e q
  let w := w.each (List.range ((x.sProd + 65536 - x.sCons) % 65536)) (fun w i =>
    if !(w.qp e q).slotFree then w
    else match w.qpRead e x.pid (x.at_ 0x20 8 + (x.sCons + i) % x.sqSlots * 64) 64 with
      | (w, .ok b) => w.qpDone e q b 5
      | (w, .bad _ _) => w)
  let w := w.each (List.range ((x.rProd + 65536 - x.rCons) % 65536)) (fun w i =>
    if !(w.qp e q).slotFree then w
    else match w.qpRead e x.pid (x.at_ 0x28 8 + (x.rCons + i) % x.rqSlots * 16) 16 with
      | (w, .ok b) => w.qpEntry e q (leAt b 12 4) 0x80 5 0 0
      | (w, .bad _ _) => w)
  (w.qpState e q 0).modQp e q (fun _ => Qp.zero)

/-- The indices of a doorbell. -/
def Work.qpBell (w : Work) (e q v : Nat) : Work :=
  let w := w.qpLoad e q
  let x := w.qp e q
  if x.st = 0 then w
  else if v / 2 ^ 63 = 1 then w.qpFlush e q
  else
    let s := v % 65536
    let r := v / 2 ^ 16 % 65536
    let c := v / 2 ^ 32 % 65536
    let ahead (a b n : Nat) : Bool := n < (a + 65536 - b) % 65536
    if x.st = 1 && (ahead s x.sCons x.sqSlots || ahead r x.rCons x.rqSlots || ahead (x.cseq.toNat % 65536) c x.cqSlots) then
      w.qpError e q
    else w.modQp e q (fun x => { x with sProd := s, rProd := r, cCons := c })

/-- Control offset of the doorbell of queue pair q of engine e. -/
def roceBellOff (e q : Nat) : Nat := 0x610_0000 + e * 0x8_0000 + q * 8

/-- A 64-bit store to a RoCE doorbell by core c. -/
def Work.roceStore (w : Work) (c e q : Nat) (v : W64) : Work :=
  w.regStore c (roceBellOff e q) .b8 false ((w.ethOwner e).isSome && w.coreOwner c = w.ethOwner e) v (fun w => w.qpBell e q v.toNat)

def execRoceDoorbell (core : CoreId) (port : EthId) (qp : W16) (value : W64) (s : State) :=
  lift (fun w => w.roceStore core.val port.val qp.toNat value) s
def execRoceFlush (core : CoreId) (port : EthId) (qp : W16) (value : W64) (s : State) :=
  lift (fun w => w.roceStore core.val port.val qp.toNat (setBit value 63 true)) s

/-! ## Send entries (R476, R478) -/

/-- Operations of a send entry. -/
def seKnown (op : Nat) : Bool := op ≤ 6 || op = 0x10

/-- A send entry keeps its rules: status 0x06 for its length, 0x01 for another (log entry 31). -/
def seCheck (x : Qp) (b : List Byte) : Nat :=
  if 2 ^ 31 < seLen b then 6
  else if !seKnown (seOp b) || 4 ≤ leAt b 1 1 || leAt b 2 2 ≠ 0 || leAt b 0x24 4 ≠ 0 || leAt b 0x38 8 ≠ 0 ||
      (seOp b = 0x10) != (x.kind = 2) then 1
  else 0

/-- Send an entry, first or again: the operations that carry local data read it; nothing, or the status of a failure. -/
def Work.seSend (w : Work) (e q : Nat) (b : List Byte) : Work × Option Nat :=
  let x := w.qp e q
  let out (w : Work) (data : List Byte) : Work × Option Nat :=
    (w.modQp e q (fun x => { x with sent := (seOp b, b ++ data) :: x.sent }), none)
  if 4 ≤ seOp b && seOp b ≤ 6 then out w []
  else match w.qpRead e x.pid (leAt b 8 8) (seLen b) with
    | (w, .ok data) => out w data
    | (w, .bad s _) => (w, some (if s = 7 then 7 else 1))

/-- Packets of an entry. -/
def Qp.packets (x : Qp) (b : List Byte) : Nat := max 1 ((seLen b + x.pmtu - 1) / x.pmtu)

/-- The engine takes the next send entry, when its operation is `op` or is none that there is. -/
def Work.takeSend (w : Work) (e q op : Nat) : Work :=
  let x := w.qp e q
  if x.st = 0 || x.sProd = x.sCons || !x.slotFree then w
  else match w.qpRead e x.pid (x.at_ 0x20 8 + x.sCons % x.sqSlots * 64) 64 with
    | (w, .bad _ _) =>
      ((w.modQp e q (fun x => { x with sCons := (x.sCons + 1) % 65536 })).qpEntry e q 0 op (if x.st = 2 then 5 else 1) 0 0).qpError e q
    | (w, .ok b) =>
      if seOp b ≠ op && seKnown (seOp b) then w
      else if leAt b 1 1 / 2 % 2 = 1 && x.inflight.any (fun y => 4 ≤ seOp y && seOp y ≤ 6) then w
      else
        let w := w.modQp e q (fun x => { x with sCons := (x.sCons + 1) % 65536 })
        if x.st = 2 then w.qpDone e q b 5
        else if seCheck x b ≠ 0 then (w.qpDone e q b (seCheck x b)).qpError e q
        else match w.seSend e q b with
          | (w, some s) => (w.qpDone e q b s).qpError e q
          | (w, none) =>
            if x.kind = 2 then w.qpDone e q b 0
            else w.modQp e q (fun x => { x with inflight := x.inflight ++ [b], psn := (x.psn + x.packets b) % 2 ^ 24 })

def execRoceSend (port : EthId) (qp : W16) (s : State) := lift (fun w => w.takeSend port.val qp.toNat 0) s
def execRoceSendImm (port : EthId) (qp : W16) (s : State) := lift (fun w => w.takeSend port.val qp.toNat 1) s
def execRoceWrite (port : EthId) (qp : W16) (s : State) := lift (fun w => w.takeSend port.val qp.toNat 2) s
def execRoceWriteImm (port : EthId) (qp : W16) (s : State) := lift (fun w => w.takeSend port.val qp.toNat 3) s
def execRoceRead (port : EthId) (qp : W16) (s : State) := lift (fun w => w.takeSend port.val qp.toNat 4) s
def execRoceFetchAdd (port : EthId) (qp : W16) (s : State) := lift (fun w => w.takeSend port.val qp.toNat 5) s
def execRoceCmpSwap (port : EthId) (qp : W16) (s : State) := lift (fun w => w.takeSend port.val qp.toNat 6) s
def execRoceRawFrame (port : EthId) (qp : W16) (s : State) := lift (fun w => w.takeSend port.val qp.toNat 0x10) s

/-! ## Answers to this engine's requests (R478) -/

/-- The oldest entry in flight is acknowledged; an atomic's old value goes to LADDR. -/
def Work.qpAck1 (w : Work) (e q : Nat) (old : W64) : Work :=
  let x := w.qp e q
  match x.inflight with
  | [] => w
  | b :: rest =>
    if seOp b = 4 then w
    else
      let w := w.modQp e q (fun x => { x with inflight := rest, retry := 0, rnr := 0, rnrWait := false })
      if seOp b < 4 then w.qpDone e q b 0
      else match w.qpWrite e x.pid (leAt b 8 8) (leBytes 8 old.toNat) with
        | (w, .ok _) => w.qpDone e q b 0
        | (w, .bad _ _) => (w.qpDone e q b 1).qpError e q

/-- An acknowledgement of entries in order; a READ waits for its data. -/
def Work.qpAcks : Nat → Work → Nat → Nat → W64 → Work
  | 0, w, _, _, _ => w
  | n + 1, w, e, q, old => if (w.qp e q).st = 1 then Work.qpAcks n (w.qpAck1 e q old) e q old else w

def execRoceAck (port : EthId) (qp count : W16) (atomicResult : W64) (s : State) :=
  lift (fun w => Work.qpAcks (min count.toNat (w.qp port.val qp.toNat).inflight.length) w port.val qp.toNat atomicResult) s

/-- READ data for the oldest READ in flight; it acknowledges the SENDs and WRITEs before it. -/
def Work.qpReadData (w : Work) (e q : Nat) (data : List Byte) : Work :=
  let l := (w.qp e q).inflight
  let k := l.findIdx (fun b => 4 ≤ seOp b)
  if (w.qp e q).st ≠ 1 || ((l.drop k).head?.map seOp) ≠ some 4 then w
  else
    let w := Work.qpAcks k w e q 0
    let x := w.qp e q
    match x.inflight with
    | [] => w
    | b :: rest =>
      if x.st ≠ 1 then w
      else
        let w := w.modQp e q (fun x => { x with inflight := rest, retry := 0, rnr := 0, rnrWait := false })
        if data.length ≠ seLen b then (w.qpDone e q b 6).qpError e q
        else match w.qpWrite e x.pid (leAt b 8 8) data with
          | (w, .ok _) => w.qpDone e q b 0
          | (w, .bad _ _) => (w.qpDone e q b 1).qpError e q

def execRoceReadResponse (port : EthId) (qp : W16) (data : List Byte) (s : State) :=
  lift (fun w => w.qpReadData port.val qp.toNat data) s

/-- A NAK: an RNR NAK asks for a retry, another ends the oldest request with status 0x02. -/
def Work.qpNak (w : Work) (e q : Nat) (k : NakKind) : Work :=
  let x := w.qp e q
  if x.st ≠ 1 || x.inflight.isEmpty then w
  else match k with
    | .rnr => w.modQp e q (fun x => { x with rnrWait := true })
    | .remoteAccess => w.qpFail e q 2

def execRoceNak (port : EthId) (qp : W16) (kind : NakKind) (s : State) := lift (fun w => w.qpNak port.val qp.toNat kind) s

/-- Send every entry in flight again. -/
def Work.qpResend (w : Work) (e q : Nat) : Work :=
  w.each (w.qp e q).inflight (fun w b =>
    if (w.qp e q).st ≠ 1 then w
    else match w.seSend e q b with
      | (w, none) => w
      | (w, some s) => w.qpFail e q s)

/-- ROCE_RETRY_TIMEOUT: 7 retries, then status 0x03. -/
def Work.qpRetry (w : Work) (e q : Nat) : Work :=
  let x := w.qp e q
  if x.st ≠ 1 || x.inflight.isEmpty then w
  else if 7 ≤ x.retry then w.qpFail e q 3
  else (w.modQp e q (fun x => { x with retry := x.retry + 1 })).qpResend e q

def execRoceRetryTimeout (port : EthId) (qp : W16) (s : State) := lift (fun w => w.qpRetry port.val qp.toNat) s

/-- ROCE_RNR_RETRY: 7 retries after RNR, then status 0x04. -/
def Work.qpRnr (w : Work) (e q : Nat) : Work :=
  let x := w.qp e q
  if x.st ≠ 1 || !x.rnrWait || x.inflight.isEmpty then w
  else if 7 ≤ x.rnr then w.qpFail e q 4
  else (w.modQp e q (fun x => { x with rnr := x.rnr + 1, rnrWait := false })).qpResend e q

def execRoceRnrRetry (port : EthId) (qp : W16) (s : State) := lift (fun w => w.qpRnr port.val qp.toNat) s

/-- ROCE_CNP: the rate halves, at most once in 50 us (R474). -/
def execRoceCnp (port : EthId) (qp : W16) (s : State) :=
  lift (fun w =>
    let t := w.chip.refPs
    match (w.qp port.val qp.toNat).lastCnp with
    | some l => if t < l + 50_000_000 then w else w.modQp port.val qp.toNat (fun x => { x with rate := x.rate / 2, lastCnp := some t })
    | none => w.modQp port.val qp.toNat (fun x => { x with rate := x.rate / 2, lastCnp := some t })) s

/-- ROCE_RATE_RECOVER: by 1/16 of line rate, which is 2^20 here. -/
def execRoceRateRecover (port : EthId) (qp : W16) (s : State) :=
  lift (fun w => w.modQp port.val qp.toNat (fun x => { x with rate := min 1048576 (x.rate + 65536) })) s

/-! ## Inbound requests (R477, R478) -/

/-- The engine answers an inbound request. -/
def Work.qpAnswer (w : Work) (e q code : Nat) (data : List Byte) : Work :=
  w.modQp e q (fun x => { x with answer := code, answerData := data })

/-- The PASID under which a key admits an access. -/
def Work.rkeyPid (w : Work) (e rkey addr n permBit : Nat) : Option Nat :=
  let x := w.eth e
  match w.tableRead e (tableAt x.mrtBase x.mrtLog2 (rkey / 256) 32) 32 with
  | none => none
  | some b =>
    let base := leAt b 0 8
    if bit (BitVec.ofNat 8 (leAt b 0x14 1)) 3 && leAt b 0x15 1 = rkey % 256 && base ≤ addr && addr + n ≤ base + leAt b 8 8 &&
      bit (BitVec.ofNat 8 (leAt b 0x14 1)) permBit then some (leAt b 0x10 4 % 2 ^ 20)
    else none

/-- Take a receive entry for a message or an immediate: it writes the data, completes, and answers; without an entry or a slot
the answer is an RNR NAK, and a raw frame is dropped. -/
def Work.qpReceive (w : Work) (e q : Nat) (place : Bool) (data : List Byte) (bytes : Nat) (imm : Option W32) : Work :=
  let x := w.qp e q
  if x.rProd = x.rCons || !x.slotFree then (if x.kind = 2 then w else w.qpAnswer e q 2 [])
  else
    let op := if imm.isSome then 0x81 else 0x80
    let im := match imm with | some i => i.toNat | none => 0
    match w.qpRead e x.pid (x.at_ 0x28 8 + x.rCons % x.rqSlots * 16) 16 with
    | (w, .bad _ _) => (w.qpAnswer e q 3 []).qpError e q
    | (w, .ok b) =>
      let w := w.modQp e q (fun x => { x with rCons := (x.rCons + 1) % 65536 })
      if place && leAt b 8 4 < data.length then ((w.qpAnswer e q 3 []).qpEntry e q (leAt b 12 4) op 6 0 im).qpError e q
      else match (if place then w.qpWrite e x.pid (leAt b 0 8) data else (w, .ok ())) with
        | (w, .bad _ _) => ((w.qpAnswer e q 3 []).qpEntry e q (leAt b 12 4) op 1 0 im).qpError e q
        | (w, .ok _) => (w.qpAnswer e q 1 []).qpEntry e q (leAt b 12 4) op 0 bytes im

/-- An 8 B atomic at an address of a process, at the point of coherence: the value it stores, none where it stores none. -/
def Work.qpAtomic (w : Work) (e q pid va : Nat) (f : Nat → Option Nat) : Work :=
  match w.vaRead ownCache (roceDev e) (some pid) (.engine (w.ethOwner e)) 0xA e va 8 with
  | (w, .bad _ _) => w.qpAnswer e q 3 []
  | (w, .ok old) =>
    match f (leNat old) with
    | none => w.qpAnswer e q 1 old
    | some v =>
      match w.qpWrite e pid va (leBytes 8 v) with
      | (w, .bad _ _) => w.qpAnswer e q 3 []
      | (w, .ok _) => w.qpAnswer e q 1 old

/-- ROCE_INBOUND_REQUEST at a queue pair that is READY. -/
def Work.qpRequest (w : Work) (e q : Nat) (r : RdmaRequest) : Work :=
  let x := w.qp e q
  let key (n permBit : Nat) : Option Nat := w.rkeyPid e r.rkey.toNat r.addr.toNat n permBit
  if x.st ≠ 1 || x.kind ≠ 0 then w
  else match r.kind with
    | .write bs imm =>
      (match key bs.length 1 with
      | none => w.qpAnswer e q 3 []
      | some pid =>
        if imm.isSome && (x.rProd = x.rCons || !x.slotFree) then w.qpAnswer e q 2 []
        else match w.qpWrite e pid r.addr.toNat bs with
          | (w, .bad _ _) => w.qpAnswer e q 3 []
          | (w, .ok _) => if imm.isSome then w.qpReceive e q false [] bs.length imm else w.qpAnswer e q 1 [])
    | .read n =>
      (match key n.toNat 0 with
      | none => w.qpAnswer e q 3 []
      | some pid =>
        match w.qpRead e pid r.addr.toNat n.toNat with
        | (w, .bad _ _) => w.qpAnswer e q 3 []
        | (w, .ok bs) => w.qpAnswer e q 4 bs)
    | .fetchAdd a =>
      (match key 8 2 with
      | none => w.qpAnswer e q 3 []
      | some pid => if r.addr.toNat % 8 ≠ 0 then w.qpAnswer e q 3 [] else
        w.qpAtomic e q pid r.addr.toNat (fun old => some ((old + a.toNat) % 2 ^ 64)))
    | .cmpSwap c v =>
      (match key 8 2 with
      | none => w.qpAnswer e q 3 []
      | some pid => if r.addr.toNat % 8 ≠ 0 then w.qpAnswer e q 3 [] else
        w.qpAtomic e q pid r.addr.toNat (fun old => if old = c.toNat then some v.toNat else none))

def execRoceInboundRequest (port : EthId) (qp : W16) (request : RdmaRequest) (s : State) :=
  lift (fun w => w.qpRequest port.val qp.toNat request) s

def execRoceInboundSend (port : EthId) (qp : W16) (message : RdmaMessage) (s : State) :=
  lift (fun w =>
    if (w.qp port.val qp.toNat).st ≠ 1 then w
    else w.qpReceive port.val qp.toNat true message.data message.data.length message.imm) s

/-! ## HIO_ETH_QPT and HIO_ETH_MRT (R487) -/

/-- A table register as a word, and its fields after a write. -/
def tableWord (base : BitVec 44) (log2 : BitVec 5) : W64 := fields [(12, base.toNat), (0, log2.toNat)]
def tableBase (z : Size) (high : Bool) (v : W64) (base : BitVec 44) : BitVec 44 := BitVec.ofNat 44 (newField z high v 55 12 base.toNat)
def tableLog2 (z : Size) (high : Bool) (v : W64) (log2 : BitVec 5) : BitVec 5 := BitVec.ofNat 5 (newField z high v 4 0 log2.toNat)

/-- Control offset of HIO_ETH_QPT of port e. -/
def qptOff (e : Nat) : Nat := 0x600_2010 + e * 0x100

/-- A write to HIO_ETH_QPT, while every queue pair is in RESET; another is ignored and recorded. -/
def Work.qptWrite (w : Work) (c e : Nat) (z : Size) (high : Bool) (v : W64) : Work :=
  if (w.eth e).qps.any (fun x => x.2.st ≠ 0) then w.ignoreReg c (qptOff e + halfOff z high) z v
  else w.modEth e (fun x => { x with qptBase := tableBase z high v x.qptBase, qptLog2 := tableLog2 z high v x.qptLog2 })

def execHioEthQptWrite (core : CoreId) (port : EthId) (size : Size) (high : Bool) (value : W64) (s : State) :=
  lift (fun w => w.regStore core.val (qptOff port.val) size high
    ((w.ethOwner port.val).isSome && w.coreOwner core.val = w.ethOwner port.val) value (fun w =>
      w.qptWrite core.val port.val size high value)) s

end Sys2Proof.Machine
end

