-- ==== Sys2Proof/Machine/Registers.lean ====
section
/-!
DEFINITION. The control registers as a host core reads them: what each offset of the control region holds, and who may read
it (R7 to R13, R608 to R614). Offsets are multiples of 8 from the control base. The interrupt pages and the register file of
the IOMMU are in the file of interrupt registers.
-/

namespace Sys2Proof.Machine

/-! ## Maps of a block -/

/-- Number of the register at offset o in a row of n registers from `base`. -/
def row (o base n : Nat) : Option Nat := if base ≤ o && o < base + 8 * n && o % 8 = 0 then some ((o - base) / 8) else none

/-- Instance and offset within it, of the n instances of a block with this stride and extent (R608). -/
def inst (o base n stride extent : Nat) : Option (Nat × Nat) :=
  if base ≤ o && o < base + n * stride && (o - base) % stride < extent then some ((o - base) / stride, (o - base) % stride)
  else none

/-- Word k of a readiness vector. -/
def wordOf {n : Nat} (v : BitVec n) (k : Nat) : W64 := BitVec.ofNat 64 (v.toNat / 2 ^ (64 * k))

/-- A value that reads 0 until the charter is verified, at the end of bring-up step 3 (R614). -/
def Work.loaded (w : Work) (n : Nat) : Nat := if 4 ≤ w.chip.boot.step then n else 0
/-- A value that reads 0 until the power controller is in service (R614). -/
def Work.measured (w : Work) (n : Nat) : Nat := if w.chip.boot.power then n else 0

/-- Owner that the active charter gives a resource, for a CL field (R11, R611): 0xFF for none. -/
def Work.clOwner (w : Work) (f : PoundCfg → Bool) : Nat :=
  match w.chip.cht.active with
  | some c => optPound (c.ownerBy f)
  | none => 0xFF

/-- HBM_CHANNEL_MAP of the active charter. -/
def Work.clMap (w : Work) : BitVec 256 := match w.chip.cht.active with | some c => c.channelMap | none => 0

/-- Union of a way mask of every pound of the active charter. -/
def Work.clWays (w : Work) (f : PoundCfg → W16) : Nat :=
  match w.chip.cht.active with
  | some c => (c.pounds.foldl (fun (a : W16) e => a ||| f e.2) 0).toNat
  | none => 0

/-! ## CAT_ (R575 to R580) -/

/-- CAT_STATUS. -/
def Work.catStatus (w : Work) : W64 :=
  let b := w.chip.boot
  fields [(15, b2n (b.settled = 0x7FF)), (10, b2n b.scratch), (9, b2n b.hbmWindow), (8, b2n (!w.provisioning)), (7, b2n b.iommu),
    (6, b2n b.uncoreH1), (5, b2n b.uncoreH0), (4, b2n b.power), (3, b2n b.standbyActive), (2, b2n b.standby),
    (1, b2n b.lockkeeper), (0, b2n b.host0)]

/-- CAT_REV. -/
def Work.catRev (w : Work) : W64 :=
  fields ((List.range 6).map (fun d => (8 * d, w.loaded (w.fuse.rev.getD d 0 % 16 + b2n (w.dieOut d) * 16))))

/-- CAT_UNIT. -/
def Work.catUnit (w : Work) : W64 :=
  fields ([(31, w.chip.boot.fabric.toNat), (0, w.chip.boot.cp.toNat)] ++
    (List.range 9).map (fun l => (22 + l, b2n (w.srtUp l))) ++
    (List.range 2).map (fun e => (20 + e, b2n (w.eth e).up)) ++
    (List.range 4).map (fun p => (16 + p, b2n ((w.port p).st = .up || (w.port p).st = .retraining))))

/-- CAT_TILE word k. -/
def Work.catTile (w : Work) (k : Nat) : W64 :=
  fields ((List.range 64).map (fun i => (i, b2n (decide (64 * k + i < 160) && w.tileInService (64 * k + i)))))

/-- CAT_HBM word k. -/
def Work.catHbm (w : Work) (k : Nat) : W64 :=
  fields ((List.range 64).map (fun i => (i, b2n (bit w.chip.boot.hbm (64 * k + i) && (w.hbmCh (64 * k + i)).health ≠ 2))))

/-- CAT_POUND_CTRL. -/
def Pound.ctrlWord (x : Pound) : W64 := fields [(48, x.losses), (36, x.cause), (33, b2n x.armed), (32, b2n x.held)]

/-- Code of CAT_HART_CTL.STATE. -/
def HartState.code : HartState → Nat
  | .inReset => 0 | .ready => 1 | .running => 2 | .failed => 3

/-- CAT_HART_CTL. -/
def HartCtl.word (x : HartCtl) : W64 := fields [(60, x.st.code), (2, x.entry.toNat)]

/-- The CAT_ block. -/
def Work.catReg (w : Work) (o : Nat) : Option W64 :=
  match o with
  | 0x0 => some w.catStatus
  | 0x8 => some w.catRev
  | 0x10 => some (w.chip.boot.settled.setWidth 64)
  | 0x18 => some 0
  | 0x30 => some w.catUnit
  | 0x60 => some (w.chip.boot.lpd.setWidth 64)
  | 0x68 => some (fields ((List.range 48).map (fun l => (l, b2n (w.linkUp l)))))
  | _ =>
    (row o 0x40 2).map (fun k => wordOf w.chip.boot.hart k) <|>
    (row o 0x80 2).map (fun k => wordOf w.chip.boot.arc k) <|>
    (row o 0xA0 4).map (fun k => w.catHbm k) <|>
    (row o 0x100 3).map (fun k => w.catTile k) <|>
    (row o 0x200 32).map (fun k => if k % 2 = 0 then 0 else (w.pound (k / 2)).ctrlWord) <|>
    (row o 0x408 95).map (fun k => (w.hart (k + 1)).word)

/-! ## LT_ (R120 to R124) -/

/-- Code of LT_STATUS.STATE. -/
def LtState.code : LtState → Nat
  | .acquiring => 0 | .locked => 1 | .lost => 2

/-- LT_STATUS. -/
def TimeUnit.status (t : TimeUnit) : W64 :=
  fields [(32, t.orders.length), (16, t.steps), (12, t.hops), (9, b2n t.late), (8, b2n t.lostSeen), (4, t.source),
    (0, t.st.code)]

/-- LT_CTRL. -/
def TimeUnit.ctrl (t : TimeUnit) : W64 := fields [(16, t.ptpDomain.toNat), (8, t.ptpPorts.toNat), (0, t.srcEn.toNat)]

/-- The order set of pound p: AT, SPEC, CMD, RESULT. -/
def OrderRegs.word (x : OrderRegs) (k : Nat) : W64 :=
  match k with
  | 0 => x.at_
  | 1 => x.spec
  | 2 => 0
  | _ => fields [(16, x.index.toNat), (0, x.status)]

/-- Pound and register of an offset in the order sets. -/
def orderSet (o : Nat) : Option (Nat × Nat) := (inst o 0x100 16 0x40 0x20).map (fun x => (x.1, x.2 / 8))

/-- The LT_ block. -/
def Work.ltReg (w : Work) (o : Nat) : Option W64 :=
  match o with
  | 0x0 => some (BitVec.ofNat 64 w.now)
  | 0x8 => some w.chip.time.status
  | 0x10 => some w.chip.time.ctrl
  | 0x18 => some w.chip.time.epochOffset
  | _ => (orderSet o).map (fun x => (w.orderRegs x.1).word x.2)

/-! ## PWR_ (R517 to R520) -/

/-- Code of PWR_STATUS.MODE, and of PWR_P_STATUS.FG_STATE. -/
def PwrMode.code : PwrMode → Nat
  | .normal => 0 | .divided => 1 | .tripped => 2 | .refLost => 3
def FgState.code : FgState → Nat
  | .notMember => 0 | .member => 1 | .noResult => 2 | .invalid => 3 | .duplicate => 4 | .suspended => 5

/-- PWR_STATUS. -/
def Work.pwrStatus (w : Work) : W64 :=
  let p := w.chip.pwr
  fields [(52, w.measured (min 4095 (p.level / 200))), (40, p.ceiling), (28, min 4095 p.demandW), (4, b2n p.measOnly), (0, p.mode.code)]

/-- The module-wide registers at 0x08 to 0x38. -/
def Work.pwrModule (w : Work) (k : Nat) : W64 :=
  let p := w.chip.pwr
  match k with
  | 1 => fields [(54, p.floor), (44, p.slew), (32, p.capW)]
  | 2 => fields [(32, w.measured (min 65535 p.voltMv)), (16, min 65535 p.estW), (0, w.measured (min 65535 p.measW))]
  | 3 => BitVec.ofNat 64 (min (2 ^ 64 - 1) (p.energyMj / 100))
  | 4 => BitVec.ofNat 64 (min (2 ^ 64 - 1) (p.ballastMj / 100))
  | 5 => fields [(48, p.ovr6), (36, p.ovr5), (24, p.ovr4), (12, p.ovr3), (0, p.ovr2)]
  | 6 => fields [(56, p.breach), (48, p.distrust), (40, p.trip), (32, p.throttle), (24, p.brake), (16, p.alert), (8, p.current),
           (0, p.lateCnt)]
  | _ => p.rail

/-- PWR_P_STATUS, PWR_P_CTRL, PWR_P_FG_DESC and PWR_P_FG_BOARD. -/
def PoundPower.word (x : PoundPower) (k : Nat) : W64 :=
  match k with
  | 0 => fields [(52, min 4095 x.shareW), (40, x.targetMhz), (28, x.freqMhz), (16, x.groupMhz), (4, x.phase), (0, x.fg.code)]
  | 1 => fields [(32, x.hostMaxMhz), (0, b2n x.phaseEn)]
  | 2 => x.descWord
  | _ => fields [(13, x.fgBoard.toNat)]

/-- PWR_PHASE. -/
def phaseWord (e : Bool × Nat) : W64 := fields [(12, b2n e.1), (0, e.2)]

/-- PWR_DIE. -/
def Work.pwrDie (w : Work) (d : Nat) : W64 :=
  let x := w.diePow d
  fields [(56, w.loaded (min 255 (w.fuse.heavyOf d))), (32, min 65535 x.droops), (20, w.measured (min 4095 x.railMv)),
    (8, w.measured (min 255 x.tempC)), (0, x.st)]

/-- The PWR_ block. -/
def Work.pwrReg (w : Work) (o : Nat) : Option W64 :=
  if o = 0 then some w.pwrStatus
  else
    (row o 0x8 7).map (fun k => w.pwrModule (k + 1)) <|>
    (row o 0x100 64).map (fun k => (w.ppow (k / 4)).word (k % 4)) <|>
    (row o 0x400 256).map (fun k => phaseWord (SMap.get (false, 0) (w.ppow (k / 16)).phases (k % 16))) <|>
    (row o 0x1000 384).map (fun k => fields [(16, w.loaded (w.fuse.voltOf (k / 64) (k % 64) % 65536)),
      (0, w.loaded (w.fuse.freqOf (k / 64) (k % 64) % 4096))]) <|>
    (row o 0x2000 12).bind (fun k => if k % 2 = 0 then some (w.pwrDie (k / 2)) else none)

/-! ## CHT_ (R93 to R98) -/

/-- CHT_STATUS.STATE. -/
def ChtUnit.code (u : ChtUnit) : Nat :=
  if !u.booted then 0
  else if u.verifying.isSome then 1
  else if u.staged.isSome then 2
  else if !u.restarting.isEmpty then 3
  else if u.active.isNone then 4
  else 0

/-- Code of CHT_POUND_STATE. -/
def PoundSt.code : PoundSt → Nat
  | .absent => 0 | .running => 1 | .draining => 2 | .scrubbing => 3 | .starting => 4 | .waitingOwner => 5
  | .activationFailed => 6

/-- The CHT_ block. -/
def Work.chtReg (w : Work) (o : Nat) : Option W64 :=
  let u := w.chip.cht
  match o with
  | 0x0 => some (fields [(6, u.loadAddr.toNat)])
  | 0x8 => some (u.loadLen.setWidth 64)
  | 0x10 => some 0
  | 0x18 => some (fields [(16, u.error.toNat), (8, b2n u.late), (0, u.code)])
  | 0x20 => some (match u.active with | some c => c.version | none => 0)
  | 0x28 => some (match u.staged with | some s => s.2.version | none => 0)
  | 0x30 => some (match u.staged with | some s => BitVec.ofNat 64 s.2.activateAt | none => 0)
  | 0x38 => some (fields ((List.range 16).map (fun p => (4 * p, (w.pound p).st.code))))
  | 0x40 => some (match u.active with
      | some c => fields ((List.range 8).map (fun s => (s, b2n (c.custodians.any (fun x => x.slot = s)))))
      | none => 0)
  | _ => none

/-! ## FLT_ (R549, R550) -/

/-- FLT_POUND_DENY, FLT_POUND_COLL and FLT_POUND_SAMPLE. -/
def Rolls.poundWord (f : Rolls) (p k : Nat) : Option W64 :=
  match k with
  | 0 => some (fields [(0, SMap.get 0 f.deny p)])
  | 1 => some (fields [(48, SMap.get 0 f.afterUse p), (32, SMap.get 0 f.mismatch p), (0, SMap.get 0 f.skipped p)])
  | 2 => some (fields [(32, SMap.get 0 f.sampled p), (0, SMap.get 0 f.matched p)])
  | _ => none

/-- The FLT_ block. -/
def Work.fltReg (w : Work) (o : Nat) : Option W64 :=
  let f := w.chip.rolls
  match o with
  | 0x0 => some (tableWord f.base f.log2)
  | 0x8 => some (fields [(8, f.owner), (0, b2n f.enable)])
  | 0x10 => some (fields [(32, f.seqReg.toNat), (0, f.head.toNat)])
  | 0x18 => some (f.tail.setWidth 64)
  | 0x20 => some (fields [(32, f.lost), (0, f.suppressed)])
  | 0x28 => some (fields [(32, f.sumWritten), (16, f.sumSuppressed), (0, w.chip.flash.summary.records.length)])
  | _ =>
    (row o 0x100 64).bind (fun k => f.poundWord (k / 4) (k % 4)) <|>
    (row o 0x400 4).map (fun d => fields [(48, SMap.get 0 f.auditFailed d), (32, SMap.get 0 f.auditForced d),
      (0, SMap.get 0 f.auditPassed d)])

/-! ## CP_ (R313 to R316) -/

/-- Pound and register of an offset in the pound windows: 0 CP_QSEL, 1 to 8 CP_QCTX, 9 CP_QCMD, 10 CP_QRESULT. -/
def cpWindow (o : Nat) : Option (Nat × Nat) := (inst o 0x1000 16 0x100 0x58).map (fun x => (x.1, x.2 / 8))

/-- Pound of an offset in the row of CP_NOTICE, in block 0. -/
def cpNoticeOf (n o : Nat) : Option Nat := if n = 0 then (inst o 0x8000 16 0x40 8).map (·.1) else none

/-- A register of a pound's window. -/
def Work.cpWinWord (w : Work) (n p k : Nat) : W64 :=
  let x := w.cpWin n p
  if k = 0 then x.qsel
  else if k ≤ 8 then (if w.winOwned n p then BitVec.ofNat 64 (leAt x.snap (8 * (k - 1)) 8) else 0)
  else if k = 9 then 0
  else fields [(0, x.status)]

/-- The CP_ block of command processor n. -/
def Work.cpReg (w : Work) (n o : Nat) : Option W64 :=
  if o = 0 then some (fields [(32, 1), (16, n), (0, 0x1000)])
  else
    (cpWindow o).map (fun x => w.cpWinWord n x.1 x.2) <|>
    (cpNoticeOf n o).map (fun p => (w.pound p).noticeWord)

/-! ## TL_ (R161 to R166, R242 to R247, R269 to R272, R551, R552) -/

/-- TL_ID. -/
def Work.tlId (w : Work) (t : Nat) : W64 :=
  let x := (w.tile t).phys
  fields [(20, w.fuse.rev.getD x.die 0 % 16), (18, x.die % 4), (15, x.pos / 8 % 8), (12, x.pos % 8), (0, t)]

/-- TL_STATE. -/
def Work.tlState (w : Work) (t : Nat) : W64 :=
  fields [(40, w.clOwner (fun g => t < 144 && bit g.tileMask t)), (16, (w.tile t).launches % 65536), (0, (w.tile t).st.code)]

/-- TL_FAULT. -/
def TileFault.word (x : TileFault) : W64 :=
  if x.valid then fields [(63, 1), (32, x.hart), (16, x.kind), (0, x.cause % 65536)] else 0

/-- TL_OS_LAST. -/
def OsLast.word (x : OsLast) : W64 :=
  if x.valid then
    fields [(63, 1), (48, x.rows), (40, x.cols), (24, x.firstRow), (16, x.firstCol), (3, x.trigger), (0, x.outcome)]
  else 0

/-- The output-stage registers from 0x3800 on. -/
def Tile.osWord (x : Tile) (wait : Bool) (k : Nat) : W64 :=
  match k with
  | 1 => fields [(32, x.checksFailed), (0, x.checked)]
  | 2 => fields [(48, x.unrecovered), (32, x.reproduced), (16, x.second), (0, x.first)]
  | 3 => x.last.word
  | 4 => fields [(8, b2n (wait || x.heldWrites.any (fun h => x.holds h.1 h.2.1.length))),
           (0, (x.array.chains.filter (fun c => !c.ranges.isEmpty)).foldl (fun a c => a ||| 2 ^ (c.bank % 2)) 0)]
  | _ => 0

/-- Canals of the active charter, for the CL fields. -/
def Work.clCanals (w : Work) : List CanalRef :=
  match w.chip.cht.active with
  | some c => c.pounds.flatMap (fun e => e.2.canals.zipIdx.map (fun x => { pound := e.1, num := x.2, c := x.1 }))
  | none => []

/-- TL_CN_CFG. -/
def cnCfg (slotLog2 partner partnerPort num slots base : Nat) : W64 :=
  fields [(63, 1), (56, slotLog2), (48, partner), (46, partnerPort), (32, num), (23, slots - 1), (0, base)]

/-- A canal is tearing down: its pound drains and no command of it runs, so what is left is to finish the slots in transfer
(R266, R271; log entry 7). -/
def Work.canalEnding (w : Work) (r : CanalRef) : Bool :=
  decide ((w.pound r.pound).st = .draining) && (w.pound r.pound).goal.isSome && !(w.sqsOf r.pound).any w.sqBusy

/-- The registers of out-port p. -/
def Work.cnOut (w : Work) (t p k : Nat) : W64 :=
  let o := (w.tile t).outPort p
  match k with
  | 0 => (match w.clCanals.find? (fun r => r.c.prod = t && r.c.outPort = p) with
    | some r => cnCfg r.c.slotLog2 r.c.cons r.c.inPort r.num r.c.srcSlots r.c.srcBase
    | none => 0)
  | 1 => (match w.canalOut t p with
    | some r =>
      let st := if w.canalEnding r then 5 else if o.transfer then 2 else if o.credits = 0 && 1 ≤ (w.tile t).sem r.c.sendSem then 3 else 1
      fields [(37, st), (28, o.credits), (20, o.slot), (0, if o.transfer then o.left * 64 else 0)]
    | none => 0)
  | 2 => fields [(32, o.slots % 2 ^ 32), (16, o.resent), (0, o.discarded)]
  | _ => 0

/-- The registers of in-port p. -/
def Work.cnIn (w : Work) (t p k : Nat) : W64 :=
  let i := (w.tile t).inPort p
  match k with
  | 0 => (match w.clCanals.find? (fun r => r.c.cons = t && r.c.inPort = p) with
    | some r => cnCfg r.c.slotLog2 r.c.prod r.c.outPort r.num r.c.dstSlots r.c.dstBase
    | none => 0)
  | 1 => (match w.canalIn t p with
    | some r => fields [(37, if w.inPortHeld r then 4 else if w.canalEnding r then 5 else if i.transfer then 2 else 1), (20, i.slot),
        (0, if i.transfer then i.bytes else 0)]
    | none => 0)
  | 2 => fields [(32, i.slots % 2 ^ 32), (16, i.resent), (8, i.poisoned), (0, i.discarded)]
  | _ => 0

/-- The registers of Replay, Collation and Audit. -/
def Work.audWord (w : Work) (t k : Nat) : W64 :=
  let y := w.tile t
  let x := y.phys
  match k with
  | 0 => x.audLast
  | 1 => fields [(56, x.attempts), (32, min 255 x.peakC), (16, x.failPoint), (12, x.failPhase), (8, b2n x.belowBand),
           (7, b2n x.priority), (6, b2n x.overdue), (5, b2n x.due), (4, b2n y.exDue.isSome), (0, x.result)]
  | 2 => fields [(32, x.total), (0, min 2 (x.charges.filter (fun c => w.now < c + dayNs)).length)]
  | 3 => x.audDue
  | 4 => fields [(32, x.colSampled), (0, x.colChecked)]
  | _ => 0

/-- The TL_ block of index t. -/
def Work.tlReg (w : Work) (t o : Nat) : Option W64 :=
  let x := w.tile t
  match o with
  | 0x0 => some (w.tlId t)
  | 0x8 => some (w.tlState t)
  | 0x10 => some 0
  | 0x18 => some x.fault.word
  | 0x20 => some x.fault.pc
  | 0x28 => some x.fault.tval
  | 0x30 => some (x.exitCode.setWidth 64)
  | 0x40 => some x.semOverflow
  | _ =>
    (inst o 0x1000 64 0x20 0x10).map (fun s => if s.2 = 0 then fields [(0, x.sem s.1)] else 0) <|>
    (inst o 0x2000 16 0x180 0x180).map (fun j => (x.ledgerSlot j.1).word (j.2 / 8)) <|>
    (row o 0x3800 5).map (fun k => x.osWord (w.canals.any (fun r => r.c.cons = t && w.inPortHeld r)) k) <|>
    (inst o 0x4000 4 0x40 0x40).map (fun p => w.cnOut t p.1 (p.2 / 8)) <|>
    (inst o 0x4100 4 0x40 0x40).map (fun p => w.cnIn t p.1 (p.2 / 8)) <|>
    (row o 0x4000 512).map (fun _ => 0) <|>
    (row o 0x5000 512).map (fun k => w.audWord t k)

/-! ## HBM_, ARC_ and the LP-DRAM channels (R378 to R381, R412 to R415) -/

/-- HBM_ERR, and HIO_LPD_ERR. -/
def Channel.errWord (x : Channel) : W64 := fields [(48, x.poisonReads), (40, x.detected), (32, x.uncorrected), (0, x.corrected)]

/-- HBM_STATUS. -/
def Work.hbmStatus (w : Work) (ch : Nat) : W64 :=
  let m := w.clMap
  let on := bit m ch
  fields [(40, b2n on), (32, if on then ((bitList m).filter (· < ch)).length else 0), (16, ch / 2), (10, ch / 32), (5, ch % 32),
    (0, if w.dieOut (ch / 64) then 3 else (w.hbmCh ch).health)]

/-- The HBM_ block of channel ch. -/
def Work.hbmReg (w : Work) (ch o : Nat) : Option W64 :=
  let x := w.hbmCh ch
  match o with
  | 0x0 => some (w.hbmStatus ch)
  | 0x8 => some x.errWord
  | 0x10 => some (fields [(32, x.trains), (16, x.fails), (0, min 2 x.consec)])
  | 0x18 => some x.trainAt
  | _ => none

/-- Code of ARC_REG_STATE.STATE. -/
def RegState.code : RegState → Nat
  | .notLoaded => 0 | .active => 1 | .recovery => 2

/-- ARC_REG_POUND and ARC_REG_WAIT. -/
def Slice.regWord (x : Slice) (p : Nat) (isWait : Bool) : W64 :=
  if isWait then fields [(32, SMap.get 0 x.wrWait p), (0, SMap.get 0 x.rdWait p)]
  else fields [(32, (BitVec.ofInt 32 (SMap.get 0 x.wrTokens p)).toNat), (0, (BitVec.ofInt 32 (SMap.get 0 x.rdTokens p)).toNat)]

/-- ARC_WAY_ERR. -/
def Work.wayErr (w : Work) (s : Nat) : W64 :=
  fields ((List.range 16).map (fun y =>
    (4 * y, min 15 ((SMap.get [] (w.slice s).wayErrs y).filter (fun t => w.now < t + dayNs)).length)))

/-- The ARC_ block of slice s. -/
def Work.arcReg (w : Work) (s o : Nat) : Option W64 :=
  let x := w.slice s
  let h := w.home s
  match o with
  | 0x0 => some (fields [(0, b2n (bit w.clMap (2 * s))), (1, b2n (bit w.clMap (2 * s + 1)))])
  | 0x8 => some (fields [(0, x.st.code)])
  | 0x10 => some (fields [(32, x.expHits), (0, x.expansions)])
  | 0x800 => some (fields [(32, w.clWays (·.scratchWays)), (16, (SMap.get 0 w.chip.flash.summary.waysDisabled s).toNat),
      (0, w.clWays (·.cacheWays))])
  | 0x808 => some (w.wayErr s)
  | 0x810 => some (fields [(32, h.backInval), (0, h.dir.length)])
  | 0x818 => some (fields [(32, h.retries), (0, h.retry.length)])
  | 0x820 => some (fields [(32, x.pfUsed), (0, x.pfIssued)])
  | _ =>
    (row o 0x100 32).map (fun k => x.regWord (k / 2) (k % 2 = 1)) <|>
    (row o 0x900 16).map (fun p => fields [(32, SMap.get 0 x.pfClamped p), (0, SMap.get 16 x.pfDepth p)])

/-- HIO_LPD_STATUS of channel c of H-die h. -/
def Work.lpdStatus (w : Work) (h c : Nat) : W64 :=
  let x := w.lpdCh (16 * h + c)
  fields [(40, b2n x.mapped), (32, if x.mapped then ((w.lpdMapped h).filter (· < c)).length else 0), (0, x.health)]

/-! ## NYL_ and SRT_ (R54 to R56, R458 to R461) -/

/-- The NYL_ block of link l. -/
def Work.nylReg (w : Work) (l o : Nat) : Option W64 :=
  let x := w.link l
  match o with
  | 0x0 => some (fields [(44, x.consecFail), (40, x.version), (32, x.peerVersions), (8, w.clOwner (fun g => bit g.linkMask l)),
      (0, x.st.code)])
  | 0x8 => some (fields [(32, x.partnerLink), (0, x.partnerModule)])
  | 0x10 => some x.partnerSerial
  | 0x18 => some (fields [(32, x.retries), (0, x.errFlits)])
  | 0x20 => some (fields [(32, x.lost), (16, x.stale), (0, x.downs)])
  | 0x28 => some (fields [(0, x.delayNs)])
  | 0x30 => some 0
  | _ => none

/-- Code of SRT_LINK_STATUS.STATE. -/
def SrtState.code : SrtState → Nat
  | .down => 0 | .training => 1 | .up => 2 | .retrying => 3 | .failed => 4 | .excluded => 5

/-- The SRT_ block: the end of each link that R19 names first. -/
def Work.srtReg (w : Work) (o : Nat) : Option W64 :=
  if o = 0x400 then some (fields [(9, w.loaded w.chip.boot.dieExcluded.toNat), (0, w.loaded w.chip.boot.srtExcluded.toNat)])
  else (inst o 0 9 0x40 0x10).map (fun x =>
    let e := (w.srt x.1).a
    if x.2 = 0 then fields [(40, e.consecFail), (36, e.version), (32, e.peerVersions.toNat), (0, e.st.code)]
    else fields [(32, e.retries), (0, e.errFlits)])

/-! ## HIO_ (R415, R479, R486, R487) -/

/-- The registers of root port p. -/
def Work.portReg (w : Work) (p k : Nat) : Option W64 :=
  let x := w.port p
  match k with
  | 0 => some (fields [(32, w.clOwner (fun g => bit g.portMask p)), (20, b2n (x.cxl && x.st = .up)), (16, x.speed), (8, x.width),
      (0, x.st.code)])
  | 1 => some (fields [(32, x.dropped), (16, x.linkDowns), (0, x.retrains)])
  | 2 => some 0
  | _ => none

/-- The registers of 800GbE port e. -/
def Work.ethReg (w : Work) (e k : Nat) : Option W64 :=
  let x := w.eth e
  match k with
  | 0 => some (fields [(32, w.clOwner (fun g => bit g.portMask (4 + e))), (0, if x.up then 1 else if x.fault then 2 else 0)])
  | 1 => some (fields [(32, x.fecUncorr), (0, x.fcsErr)])
  | 2 => some (tableWord x.qptBase x.qptLog2)
  | 3 => some (tableWord x.mrtBase x.mrtLog2)
  | _ => none

/-- Engine and queue pair of a RoCE doorbell, by its offset in the HIO_ block. -/
def roceBell (o : Nat) : Option (Nat × Nat) := (inst o 0x10_0000 2 0x8_0000 0x8_0000).map (fun x => (x.1, x.2 / 8))

/-- The HIO_ block without the IOMMU and the interrupt pages. A doorbell's read is open, and answered elsewhere. -/
def Work.hioReg (w : Work) (o : Nat) : Option W64 :=
  (inst o 0x1000 4 0x100 0x18).bind (fun x => w.portReg x.1 (x.2 / 8)) <|>
  (inst o 0x2000 2 0x100 0x20).bind (fun x => w.ethReg x.1 (x.2 / 8)) <|>
  (row o 0x8000 64).map (fun k =>
    if k / 2 / 16 = 1 && w.dieOut 5 then 0
    else if k % 2 = 0 then w.lpdStatus (k / 2 / 16) (k / 2 % 16) else (w.lpdCh (k / 2)).errWord) <|>
  (roceBell o).map (fun _ => 0)

/-! ## The region as a whole (R608 to R613) -/

/-- A block of R608, with the instance. -/
inductive Block where
  | cat | lt | pwr | cht | flt
  | cp (n : Nat)
  | tl (t : Nat)
  | hbm (ch : Nat)
  | arc (s : Nat)
  | nyl (l : Nat)
  | srt
  | hio
deriving DecidableEq, Repr

/-- The block that holds a control offset, and the offset within its instance; none where the region is vacant (R608, R609). -/
def blockOf (o : Nat) : Option (Block × Nat) :=
  let single (b : Block) (base extent : Nat) : Option (Block × Nat) :=
    if base ≤ o && o < base + extent then some (b, o - base) else none
  let many (f : Nat → Block) (base n stride : Nat) : Option (Block × Nat) :=
    (inst o base n stride stride).map (fun x => (f x.1, x.2))
  single .cat 0 0x1_0000 <|> single .lt ltBase 0x1_0000 <|> single .pwr pwrBase 0x1_0000 <|> single .cht chtBase 0x1_0000 <|>
  single .flt fltBase 0x1_0000 <|> many .cp 0x10_0000 16 0x1_0000 <|> many .tl 0x100_0000 160 0x1_0000 <|>
  many .hbm 0x200_0000 256 0x1000 <|> many .arc 0x300_0000 128 0x1000 <|> many .nyl 0x400_0000 48 0x1_0000 <|>
  single .srt 0x500_0000 0x1_0000 <|> single .hio 0x600_0000 0x461_0000

/-- The register at a control offset that is a multiple of 8; none where there is none (R8, R609). -/
def Work.reg? (w : Work) (o : Nat) : Option W64 :=
  match blockOf o with
  | none => none
  | some (b, r) =>
    match b with
    | .cat => w.catReg r
    | .lt => w.ltReg r
    | .pwr => w.pwrReg r
    | .cht => w.chtReg r
    | .flt => w.fltReg r
    | .cp n => w.cpReg n r
    | .tl t => w.tlReg t r
    | .hbm ch => w.hbmReg ch r
    | .arc s => w.arcReg s r
    | .nyl l => w.nylReg l r
    | .srt => w.srtReg r
    | .hio => w.hioReg r

/-- Core c may read the register at a control offset (R613): the windows and order sets of its own pound, and TL_ registers
beyond TL_ID and TL_STATE of its own tiles (R123, R161, R312). -/
def Work.mayRead (w : Work) (c o : Nat) : Bool :=
  match blockOf o with
  | some (.lt, r) => (match orderSet r with | some x => w.isPound c x.1 | none => true)
  | some (.cp n, r) =>
    (match cpWindow r, cpNoticeOf n r with
      | some x, _ => w.isPound c x.1
      | none, some p => w.isPound c p
      | none, none => true)
  | some (.tl t, r) => r < 0x10 || w.ownsTile c t
  | _ => true

/-- The register of an excluded unit keeps its identity and state, and a HIO_ register its value; every other register of it
reads 0 (R612). -/
def keptOut (o : Nat) : Bool :=
  match blockOf o with
  | some (.tl _, r) => r < 0x10
  | some (.hbm _, r) => r = 0
  | some (.nyl _, r) => r = 0
  | some (.hio, _) => true
  | _ => false

end Sys2Proof.Machine
end

