-- ==== Sys2Proof/Machine/Interrupts.lean ====
section
/-!
DEFINITION. The register file of the IOMMU, the APLIC domains and the interrupt files as a host core reaches them
(R463, R464, R467, R609). Their layouts are those of the RISC-V IOMMU specification v1.0 and the AIA, which the rules name
(log entry 20).
-/

namespace Sys2Proof.Machine

/-! ## The register file of the IOMMU (R467) -/

/-- capabilities: the values of R467, and Svpbmt, which the harts have (log entry 20). -/
def iommuCaps : W64 :=
  fields [(0, 0x10), (9, 1), (10, 1), (11, 1), (15, 1), (17, 1), (18, 1), (19, 1), (22, 1), (24, 1), (25, 1), (30, 1), (32, 56), (38, 1),
    (39, 1), (40, 1)]

/-- Counter i of the performance monitor lies at this offset: 0 the cycle counter, 1 to 8 the event counters. -/
def counterOf (o : Nat) : Option Nat := if 0x60 ≤ o && o < 0x60 + 9 * 8 then some ((o - 0x60) / 8) else none

/-- A counter counts: it is not inhibited, and an event counter has an event (its count is then open, log entry 20). -/
def Work.counting (w : Work) (i : Nat) : Bool :=
  !bit (w.iommu32 0x5C) i && (i = 0 || bits (w.iommu64 (0x160 + 8 * (i - 1))) 14 0 ≠ 0)

/-- The bits of the 32-bit word at an offset that software sets as it writes them. -/
def iommuRw (o : Nat) : Nat :=
  let hiPpn := 0x3F_FFFF
  match o with
  | 0x10 => 0xFFFF_FC0F
  | 0x18 | 0x28 | 0x38 => 0xFFFF_FC1F
  | 0x14 | 0x1C | 0x2C | 0x3C => hiPpn
  | 0x24 | 0x30 | 0x40 => 0xFFFF_FFFF
  | 0x48 | 0x4C | 0x50 => 0x3
  | 0x5C => 0x1FF
  | 0x2F8 => 0xFFFF
  | _ =>
    if 0x60 ≤ o && o < 0xA8 then 0xFFFF_FFFF
    else if 0x160 ≤ o && o < 0x1A0 then 0xFFFF_FFFF
    else if 0x300 ≤ o && o < 0x400 then
      (match o % 16 with | 0 => 0xFFFF_FFFC | 4 => 0x00FF_FFFF | 8 => 0xFFFF_FFFF | _ => 1)
    else 0

/-- The bits that a 1 clears. -/
def iommuW1c (o : Nat) : Nat :=
  match o with
  | 0x48 => 0xF00
  | 0x4C | 0x50 => 0x300
  | 0x54 => 0xF
  | _ => 0

/-- The index registers of a queue keep to its size: cqt, fqh and pqh. -/
def Work.queueMask (w : Work) (o v : Nat) : Nat :=
  let base := match o with | 0x24 => some 0x18 | 0x30 => some 0x28 | 0x40 => some 0x38 | _ => none
  match base with
  | some b => v % 2 ^ (bits (w.iommu32 b) 4 0 + 1)
  | none => v

/-- A queue becomes enabled or disabled: its on bit follows, and enabling it zeroes its hardware index and its error bits. -/
def Work.queueOn (w : Work) (o old new : Nat) : Work :=
  let index := match o with | 0x48 => 0x20 | 0x4C => 0x34 | _ => 0x44
  if old % 2 = 0 && new % 2 = 1 then (w.setIommu32 o (new % 4 + 2 ^ 16)).setIommu32 index 0
  else if new % 2 = 0 then w.setIommu32 o (new % 2 ^ 16)
  else w.setIommu32 o new

/-- A write of a 32-bit word of the register file. -/
def Work.iommuWrite32 (w : Work) (o v : Nat) : Work :=
  let old := (w.iommu32 o).toNat
  let keep := (BitVec.ofNat 32 old &&& ~~~(BitVec.ofNat 32 (iommuRw o)) &&& ~~~(BitVec.ofNat 32 (iommuW1c o) &&& BitVec.ofNat 32 v)).toNat
  let new := w.queueMask o (keep ||| (BitVec.ofNat 32 v &&& BitVec.ofNat 32 (iommuRw o)).toNat)
  match o with
  | 0x48 | 0x4C | 0x50 => w.queueOn o old new
  | 0x10 => if 4 < new % 16 then w.setIommu32 o (new / 16 * 16 + old % 16) else w.setIommu32 o new
  | 0x5C =>
    let stopped := (List.range 9).filter (fun i => w.counting i && new.testBit i)
    (w.each stopped (fun w i =>
      let (n, w) := w.take
      let x := Config.freeWord n
      (w.setIommu32 (0x60 + 8 * i) (bits x 31 0)).setIommu32 (0x64 + 8 * i) (bits x 63 32))).setIommu32 o new
  | _ => if iommuRw o = 0 && iommuW1c o = 0 then w else w.setIommu32 o new

/-- A write of the register file: the words it reaches, the lower first. -/
def Work.iommuWrite (w : Work) (o : Nat) (z : Size) (v : W64) : Work :=
  if z = .b8 then (w.iommuWrite32 o (bits v 31 0)).iommuWrite32 (o + 4) (bits v 63 32) else w.iommuWrite32 o (bits v 31 0)

/-- A read of the register file: 8 bytes from a multiple of 8. -/
def Work.iommuRead (w : Work) (o : Nat) : Work × W64 :=
  if o = 0 then (w, iommuCaps)
  else match counterOf o with
    | some i =>
      if w.counting i then
        let (n, w) := w.take
        (w, Config.freeWord n)
      else (w, w.iommu64 o)
    | none => (w, w.iommu64 o)

/-! ## The APLIC (R463, R464) -/

/-- Sources of the APLIC. -/
def aplicSources : List Nat := (List.range 64).drop 1

/-- The source belongs to the domain at base offset d, and is not inactive. -/
def Work.aplicHas (w : Work) (d src : Nat) : Bool := w.aplicDomain src = d && w.aplicMode src ≠ 0 && src < 21

/-- The rectified input of a source: its wire, inverted for a falling edge or a low level. -/
def Work.aplicInput (w : Work) (src : Nat) : Bool :=
  let mode := w.aplicMode src
  bit w.chip.aia.wires src != (mode = 5 || mode = 7)

/-- Every pending source that is enabled and whose domain delivers is sent. -/
def Work.aplicSend (w : Work) : Work :=
  w.each (aplicSources.filter (fun s => bit w.chip.aia.aplic s)) (fun w s =>
    { w with chip.aia.aplic := setBit w.chip.aia.aplic s false }.aplicPend s)

/-- Software sets a source pending: a level source only while its input is high. -/
def Work.aplicSetPend (w : Work) (d src : Nat) : Work :=
  if !w.aplicHas d src || (6 ≤ w.aplicMode src && !w.aplicInput src) then w else w.aplicPend src

/-- Software clears a source's pending bit. -/
def Work.aplicClear (w : Work) (d src : Nat) : Work :=
  if w.aplicHas d src then { w with chip.aia.aplic := setBit w.chip.aia.aplic src false } else w

def Work.setAplic (w : Work) (o v : Nat) : Work := { w with chip.aia.regs := SMap.set 0 w.chip.aia.regs o (BitVec.ofNat 32 v) }

/-- Enable or disable a source. -/
def Work.aplicEnable (w : Work) (d src : Nat) (on : Bool) : Work :=
  if !w.aplicHas d src then w
  else
    let o := d + 0x1E00 + 4 * (src / 32)
    w.setAplic o (setBit (w.aplicReg o) (src % 32) on).toNat

/-- The sources of word k that a value names. -/
def namedSources (k : Nat) (v : W32) : List Nat := (bitList v).map (fun i => 32 * k + i)

/-- A bit for each source of word k of which f holds. -/
def sourceWord (k : Nat) (f : Nat → Bool) : Nat := ((List.range 32).filter (fun i => f (32 * k + i))).foldl (fun a i => a + 2 ^ i) 0

/-- A 32-bit register of the domain at base d. -/
def Work.aplicRead (w : Work) (d o : Nat) : Nat :=
  if o = 0 then 0x8000_0004 + bits (w.aplicReg d) 8 8 * 256
  else if o < 0x100 then (if d = 0 || w.aplicDomain (o / 4) = d then (w.aplicReg (d + o)).toNat else 0)
  else if o = 0x1BC4 && d = 0 then 0x8000_0000
  else if 0x1C00 ≤ o && o < 0x1C08 then sourceWord ((o - 0x1C00) / 4) (fun s => w.aplicHas d s && bit w.chip.aia.aplic s)
  else if 0x1D00 ≤ o && o < 0x1D08 then sourceWord ((o - 0x1D00) / 4) (fun s => w.aplicHas d s && w.aplicInput s)
  else if 0x1E00 ≤ o && o < 0x1E08 then
    sourceWord ((o - 0x1E00) / 4) (fun s => w.aplicHas d s && bit (w.aplicReg (d + 0x1E00 + 4 * (s / 32))) (s % 32))
  else if 0x3000 ≤ o && o < 0x3100 then
    (if o = 0x3000 || w.aplicHas d ((o - 0x3000) / 4) then (w.aplicReg (d + o)).toNat else 0)
  else 0

/-- A write of sourcecfg: the M domain may delegate a source to the S domain; a source that becomes inactive loses its
pending and enable bits. -/
def Work.aplicSource (w : Work) (d src : Nat) (v : W32) : Work :=
  let mode (n : Nat) : Nat := if n = 2 || n = 3 then 0 else n
  if 21 ≤ src || (d ≠ 0 && w.aplicDomain src ≠ d) then w
  else
    let w := if d = 0 && bit v 10 then w.setAplic (4 * src) (2 ^ 10) else w.setAplic (d + 4 * src) (mode (bits v 2 0))
    if 6 ≤ w.aplicMode src && w.aplicInput src then w.aplicPend src
    else if w.aplicMode src ≠ 0 then w
    else
      let off (b : Nat) : Nat := b + 0x1E00 + 4 * (src / 32)
      { (w.setAplic (off 0) (setBit (w.aplicReg (off 0)) (src % 32) false).toNat).setAplic (off 0x8000)
          (setBit (w.aplicReg (off 0x8000)) (src % 32) false).toNat with
        chip.aia.aplic := setBit w.chip.aia.aplic src false }

/-- An extempore MSI (genmsi): hart and identity. -/
def Work.aplicGen (w : Work) (d : Nat) (v : W32) : Work :=
  let h := bits v 31 18
  (w.setAplic (d + 0x3000) (h * 2 ^ 18 + bits v 10 0)).imsicSet (if d = 0 then h else 4096 + 16 * h) (bits v 10 0)

/-- The bytes of a 32-bit value in the other order. -/
def swap32 (v : W32) : W32 := BitVec.ofNat 32 (leNat (leBytes 4 v.toNat).reverse)

/-- A write of a 32-bit register of the domain at base d. -/
def Work.aplicWrite (w : Work) (d o : Nat) (v : W32) : Work :=
  if o = 0 then (w.setAplic d (bits v 8 8 * 256)).aplicSend
  else if o < 0x100 then w.aplicSource d (o / 4) v
  else if 0x1C00 ≤ o && o < 0x1C08 then w.each (namedSources ((o - 0x1C00) / 4) v) (fun w s => w.aplicSetPend d s)
  else if o = 0x1CDC || o = 0x2000 then w.aplicSetPend d v.toNat
  else if o = 0x2004 then w.aplicSetPend d (swap32 v).toNat
  else if 0x1D00 ≤ o && o < 0x1D08 then w.each (namedSources ((o - 0x1D00) / 4) v) (fun w s => w.aplicClear d s)
  else if o = 0x1DDC then w.aplicClear d v.toNat
  else if 0x1E00 ≤ o && o < 0x1E08 then
    (w.each (namedSources ((o - 0x1E00) / 4) v) (fun w s => w.aplicEnable d s true)).aplicSend
  else if o = 0x1EDC then (w.aplicEnable d v.toNat true).aplicSend
  else if 0x1F00 ≤ o && o < 0x1F08 then w.each (namedSources ((o - 0x1F00) / 4) v) (fun w s => w.aplicEnable d s false)
  else if o = 0x1FDC then w.aplicEnable d v.toNat false
  else if o = 0x3000 then w.aplicGen d v
  else if 0x3000 < o && o < 0x3100 && w.aplicHas d ((o - 0x3000) / 4) then w.setAplic (d + o) v.toNat
  else w

/-- Whether AIA defines a 32-bit register of a domain at this offset: of the M domain, its MSI address registers too. -/
def aplicDefined (d o : Nat) : Bool :=
  o < 0x1000 || (d = 0 && 0x1BC0 ≤ o && o < 0x1BD0) || (0x1C00 ≤ o && o < 0x1C80) || o = 0x1CDC || (0x1D00 ≤ o && o < 0x1D80) ||
  o = 0x1DDC || (0x1E00 ≤ o && o < 0x1E80) || o = 0x1EDC || (0x1F00 ≤ o && o < 0x1F80) || o = 0x1FDC || o = 0x2000 || o = 0x2004 ||
  (0x3000 ≤ o && o < 0x4000)

/-! ## The interrupt pages (R463) -/

/-- The domain and the offset within it, for a control offset in the APLIC's pages. -/
def aplicAt (o : Nat) : Option (Nat × Nat) :=
  if 0x900_0000 ≤ o && o < 0x900_8000 then some (0, o - 0x900_0000)
  else if 0x900_8000 ≤ o && o < 0x901_0000 then some (0x8000, o - 0x900_8000)
  else none

/-- The interrupt file of a control offset, unless it belongs to a hart of H1 and H1 is excluded (R612). -/
def Work.fileAt (w : Work) (o : Nat) : Option Nat :=
  (imsicFile o).filter (fun f => !(48 ≤ imsicHart f && w.dieOut 5))

end Sys2Proof.Machine
end

