-- ==== Sys2Proof/Machine/Access.lean ====
section
/-!
DEFINITION. Accesses of the host cores by physical address: loads and stores to memory, to the control region and to the
doorbell aperture, with what a write to each register does (R7 to R13, R24, R70, R276, R322, R328, R329, R610 to R613).
-/

namespace Sys2Proof.Machine

/-! ## What a write to a register does -/

/-- A register write: the core that makes it, the control offset of the register and of the access, and its size, half and
value. -/
structure RegWrite where
  core : Nat
  reg : Nat
  off : Nat
  size : Size
  high : Bool
  value : W64
deriving DecidableEq, Repr

/-- A field after the write (R610). -/
def RegWrite.field (x : RegWrite) (hi lo old : Nat) : Nat := newField x.size x.high x.value hi lo old
/-- The bits that the write carries to a field; 0 where it does not reach it. -/
def RegWrite.ones (x : RegWrite) (hi lo : Nat) : Nat := x.field hi lo 0
/-- The write reaches the field. -/
def RegWrite.reach (x : RegWrite) (hi lo : Nat) : Bool := reaches x.size x.high hi lo

/-- A write that its register ignores and records. -/
def Work.recorded (w : Work) (x : RegWrite) : Work := w.ignoreReg x.core x.off x.size x.value

/-- A write to a register with a CL field: recorded where it reaches the field (R11). -/
def Work.clWrite (w : Work) (x : RegWrite) (hi lo : Nat) : Work :=
  if x.reach hi lo then w.recCharterField x.core x.off x.value else w

/-- An OP field in bits 1:0. -/
def RegWrite.op (x : RegWrite) : Nat := x.ones 1 0

/-- CAT_ (R557, R569, R570, R575): whether the writer is allowed, and the effect. -/
def Work.catWrite (w : Work) (x : RegWrite) (o : Nat) : Bool × (Work → Work) :=
  if o = 0x18 then (true, fun w => if x.op = 0 || x.op = 3 then (if w.mayReset x.core then w else w.recorded x)
    else w.catReset x.core x.op x.value)
  else match row o 0x200 32, row o 0x408 95 with
    | some k, _ => (w.isPound x.core (k / 2), fun w =>
        if k % 2 = 0 then w.heartbeat (k / 2) else w.poundCtrlWrite x.core (k / 2) x.op x.value)
    | none, some k => (true, fun w => w.hartCtlWrite x.core (k + 1) x.size x.high x.value)
    | none, none => (true, fun w => w.recorded x)

/-- LT_ (R119 to R124). -/
def Work.ltWrite (w : Work) (x : RegWrite) (o : Nat) : Bool × (Work → Work) :=
  match orderSet o with
  | some (p, k) => (w.isPound x.core p, fun w =>
      match k with
      | 0 => w.modOrderRegs p (fun r => { r with at_ := BitVec.ofNat 64 (x.field 63 0 r.at_.toNat) })
      | 1 => w.modOrderRegs p (fun r => { r with spec := fields [(32, x.field 63 32 (bits r.spec 63 32)),
          (16, x.field 31 16 (bits r.spec 31 16)), (0, x.field 7 0 (bits r.spec 7 0))] })
      | 2 => if x.reach 1 0 then w.orderCmd p x.op (x.ones 27 16) else w
      | _ => w)
  | none => (true, fun w =>
      match o with
      | 0x8 => { w with
          chip.time.late := w.chip.time.late && x.ones 9 9 = 0
          chip.time.lostSeen := w.chip.time.lostSeen && x.ones 8 8 = 0 }
      | 0x10 | 0x18 => w.recorded x
      | _ => w)

/-- A host-core bound as PWR_P_CTRL keeps it: a multiple of 100, from 1,200 to 3,600 (R519). -/
def hostMaxOf (f : Nat) : Nat := min 3600 (max 1200 (f / 100 * 100))
/-- A preferred frequency as PWR_PHASE keeps it (R493). -/
def phaseFreq (f : Nat) : Nat := let g := f / 25 * 25; if g = 0 then 0 else max 600 g

/-- PWR_RAIL: the limits of the rails on which the writer's pound owns a tile; refused where the write reaches none of them
(R515, R613; log entry 33). -/
def Work.railWrite (w : Work) (x : RegWrite) : Bool × (Work → Work) :=
  let own (d : Nat) : Bool := match w.coreOwner x.core with | some p => (w.poundsOn d).contains p | none => false
  let mine := (List.range 4).filter (fun d => own d && x.reach (16 * d + 15) (16 * d))
  (!mine.isEmpty, fun w => { w with
    chip.pwr.rail := mine.foldl (fun r d => setBits r (16 * d + 15) (16 * d) (x.ones (16 * d + 15) (16 * d))) w.chip.pwr.rail })

/-- A register of pound p (R493, R499, R519): PWR_P_CTRL, PWR_P_FG_DESC or PWR_P_FG_BOARD. -/
def Work.poundPowerWrite (w : Work) (x : RegWrite) (p k : Nat) : Work :=
  match k with
  | 1 => (w.modPpow p (fun y => { y with
      hostMaxMhz := if x.reach 43 32 then hostMaxOf (x.ones 43 32) else y.hostMaxMhz
      phaseEn := x.field 0 0 (b2n y.phaseEn) = 1 })).retarget p
  | 2 => w.fgDescWrite p x.size x.high x.value
  | _ => w.modPpow p (fun y => { y with fgBoard := BitVec.ofNat 27 (x.field 39 13 y.fgBoard.toNat) })

/-- An entry of PWR_PHASE. -/
def Work.phaseWrite (w : Work) (x : RegWrite) (p k : Nat) : Work :=
  (w.modPpow p (fun y =>
    let e : Bool × Nat := SMap.get (false, 0) y.phases k
    let heavy : Bool := decide (x.field 12 12 (b2n e.1) = 1)
    let freq : Nat := if x.reach 11 0 then phaseFreq (x.ones 11 0) else e.2
    { y with phases := SMap.set (false, 0) y.phases k (heavy, freq) })).retarget p

/-- PWR_ (R517 to R520). -/
def Work.pwrWrite (w : Work) (x : RegWrite) (o : Nat) : Bool × (Work → Work) :=
  if o = 0x38 then w.railWrite x
  else match row o 0x100 64, row o 0x400 256 with
    | some k, _ =>
      if k % 4 = 0 then (true, fun w => w.recorded x)
      else (w.isPound x.core (k / 4), fun w => w.poundPowerWrite x (k / 4) (k % 4))
    | none, some k => (w.isPound x.core (k / 16), fun w => w.phaseWrite x (k / 16) (k % 16))
    | none, none => (true, fun w => w.recorded x)

/-- CHT_ (R79, R93 to R95). -/
def Work.chtWrite (w : Work) (x : RegWrite) (o : Nat) : Work :=
  match o with
  | 0x0 => { w with chip.cht.loadAddr := BitVec.ofNat 50 (x.field 55 6 w.chip.cht.loadAddr.toNat) }
  | 0x8 => { w with chip.cht.loadLen := BitVec.ofNat 25 (x.field 24 0 w.chip.cht.loadLen.toNat) }
  | 0x10 => if x.reach 1 0 then w.chtCommand x.core x.op else w
  | 0x18 => { w with
      chip.cht.error := if x.ones 23 16 = 0xFF then 0 else w.chip.cht.error
      chip.cht.late := w.chip.cht.late && x.ones 8 8 = 0 }
  | _ => w

/-- FLT_ (R546, R547, R549). -/
def Work.fltWrite (w : Work) (x : RegWrite) (o : Nat) : Work :=
  let f := w.chip.rolls
  match o with
  | 0x0 =>
    if f.enable then w.recorded x
    else { w with
      chip.rolls.base := tableBase x.size x.high x.value f.base
      chip.rolls.log2 := tableLog2 x.size x.high x.value f.log2 }
  | 0x8 => w.ringCtrl x.core x.size x.high x.value
  | 0x18 => w.ringCons x.core x.size x.high x.value
  | _ => w.recorded x

/-- CP_ (R313 to R316). -/
def Work.cpWrite (w : Work) (x : RegWrite) (n o : Nat) : Bool × (Work → Work) :=
  match cpWindow o, cpNoticeOf n o with
  | some (p, k), _ => (w.isPound x.core p, fun w =>
      if k = 0 then w.cpQsel n p x.size x.high x.value
      else if k ≤ 8 then w.cpQctx n p (k - 1) x.size x.high x.value
      else if k = 9 then (if x.reach 1 0 then w.queueCmd n p x.op else w)
      else w)
  | none, some p => (w.isPound x.core p, fun w => w.cpNotice x.core p x.size x.high x.value)
  | none, none => (true, fun w => w)

/-- OP of TL_CTRL (R158, R160). -/
def Work.tlOp (w : Work) (t op : Nat) : Work :=
  match op with
  | 1 => w.tlDisable t
  | 2 => w.tlEnable t
  | 3 => w.tlReset t
  | _ => w

/-- TL_ (R161 to R166, R244, R246, R270). -/
def Work.tlWrite (w : Work) (x : RegWrite) (t o : Nat) : Work :=
  match o with
  | 0x8 => w.clWrite x 47 40
  | 0x10 => w.tlOp t x.op
  | 0x18 => if x.ones 63 63 = 1 then w.modTile t (fun y => { y with fault := TileFault.zero }) else w
  | 0x40 => w.modTile t (fun y => { y with semOverflow := y.semOverflow &&& ~~~BitVec.ofNat 64 (x.ones 63 0) })
  | 0x3800 => w.modTile t (fun y => { y with
      ledger := y.ledger.filter (fun j => !(x.ones 15 0).testBit j.1) })
  | 0x3818 => if x.ones 63 63 = 1 then w.modTile t (fun y => { y with last := OsLast.zero }) else w
  | _ =>
    match inst o 0x1000 64 0x20 0x10, inst o 0x4000 8 0x40 8 with
    | some (s, k), _ => if k = 8 && x.ones 31 0 ≠ 0 then w.semAdd t s (x.ones 31 0) else w
    | none, some _ => w.recCharterField x.core x.off x.value
    | none, none => w

/-- HBM_, ARC_ and NYL_: a CL field's record, and the record of a write to a read-only register (R11, R378, R412, R457). -/
def Work.roWrite (w : Work) (x : RegWrite) (cl : Option (Nat × Nat)) : Work :=
  (match cl with | some (hi, lo) => w.clWrite x hi lo | none => w).recorded x

/-- ARC_ (R378 to R381, R414): a write that reaches the CL fields of ARC_WAY_STATE is recorded once (R11). -/
def Work.arcRegWrite (w : Work) (x : RegWrite) (s o : Nat) : Bool × (Work → Work) :=
  match row o 0x900 16 with
  | some p => (w.isPound x.core p, fun w => w.arcPfPound s p x.size x.high x.value)
  | none => (true, fun w =>
      if o = 0x800 then (if x.reach 47 32 then w.clWrite x 47 32 else w.clWrite x 15 0).recorded x
      else w.roWrite x (if o = 0 then some (1, 0) else none))

/-- NYL_ (R457, R461). -/
def Work.nylWrite (w : Work) (x : RegWrite) (l o : Nat) : Bool × (Work → Work) :=
  if o = 0x30 then ((w.linkOwner l).isSome && w.coreOwner x.core = w.linkOwner l, fun w => w.linkOp l x.op)
  else (true, fun w => w.roWrite x (if o = 0 then some (15, 8) else none))

/-- A core of the pound that owns 800GbE port e. -/
def Work.ownsEth (w : Work) (c e : Nat) : Bool := (w.ethOwner e).isSome && w.coreOwner c = w.ethOwner e

/-- The doorbell of a queue pair with the fields that the queue pair holds (R479). -/
def Qp.bellWord (x : Qp) : W64 := fields [(32, x.cCons % 65536), (16, x.rProd % 65536), (0, x.sProd % 65536)]

/-- HIO_ without the IOMMU and the interrupt pages (R415, R479, R486, R487). -/
def Work.hioWrite (w : Work) (x : RegWrite) (o : Nat) : Bool × (Work → Work) :=
  match inst o 0x1000 4 0x100 0x18, inst o 0x2000 2 0x100 0x20, roceBell o with
  | some (p, k), _, _ =>
    if k = 0x10 then (w.mayCtrlPort x.core p, fun w => w.portOp p x.op)
    else (true, fun w => if k = 0 then w.clWrite x 39 32 else w)
  | none, some (e, k), _ =>
    (match k with
      | 0x10 => (w.ownsEth x.core e, fun w => w.qptWrite x.core e x.size x.high x.value)
      | 0x18 => (w.ownsEth x.core e, fun w => w.modEth e (fun y => { y with
          mrtBase := tableBase x.size x.high x.value y.mrtBase
          mrtLog2 := tableLog2 x.size x.high x.value y.mrtLog2 }))
      | _ => (true, fun w => if k = 0 then w.clWrite x 39 32 else w))
  | none, none, some (e, q) =>
    (w.ownsEth x.core e, fun w => w.qpBell e q (merge (w.qp e q).bellWord x.size x.high x.value).toNat)
  | none, none, none => (true, fun w => w)

/-- Whether a core may make this register write, and what it does (R613). -/
def Work.regAct (w : Work) (x : RegWrite) : Bool × (Work → Work) :=
  match blockOf x.reg with
  | none => (true, fun w => w)
  | some (b, o) =>
    match b with
    | .cat => w.catWrite x o
    | .lt => w.ltWrite x o
    | .pwr => w.pwrWrite x o
    | .cht => (true, fun w => w.chtWrite x o)
    | .flt => (true, fun w => w.fltWrite x o)
    | .cp n => w.cpWrite x n o
    | .tl t => (w.ownsTile x.core t, fun w => w.tlWrite x t o)
    | .hbm _ => (true, fun w => w.roWrite x (if o = 0 then some (40, 40) else none))
    | .arc s => w.arcRegWrite x s o
    | .nyl l => w.nylWrite x l o
    | .srt => (true, fun w => w.recorded x)
    | .hio => w.hioWrite x o

/-! ## Accesses to the control region -/

/-- A malformed access (R8). -/
def Work.malformed (w : Work) (c o : Nat) (isWrite : Bool) (z : Size) (v : W64) : Work :=
  let w := w.recReg c (ctlBase + o) isWrite z.bytes v.toNat
  if isWrite then w.modCore c (fun x => { x with trap := none }) else w.hostRet c 0

/-- A write to an interrupt file: the pending set of an identity, in one byte order or the other, by a host core of the hart's
pound (R70, R463). -/
def Work.fileWrite (w : Work) (c f o : Nat) (z : Size) (v : W64) : Work :=
  if z ≠ .b4 || !(o % 4096 = 0 || o % 4096 = 4) then w.malformed c o true z v
  else if (w.coreOwner c).isNone && !w.provisioning || w.coreOwner c ≠ w.coreOwner (imsicHart f) then w.denyStore c (ctlBase + o)
  else
    let n : W32 := v.setWidth 32
    (w.imsicSet f (if o % 4096 = 0 then n else swap32 n).toNat).modCore c (fun x => { x with trap := none })

/-- A store by core c at a control offset (R7, R8, R463, R609). -/
def Work.ctlWrite (w : Work) (c o : Nat) (z : Size) (v : W64) : Work :=
  match w.fileAt o, aplicAt o with
  | some f, _ => w.fileWrite c f o z v
  | none, some (d, r) =>
    if z = .b4 && r % 4 = 0 && aplicDefined d r then
      (w.aplicWrite d r (v.setWidth 32)).modCore c (fun x => { x with trap := none })
    else w.malformed c o true z v
  | none, none =>
    if !regSize z || o % z.bytes ≠ 0 then w.malformed c o true z v
    else if 0x600_0000 ≤ o && o < 0x600_1000 then
      (w.iommuWrite (o - 0x600_0000) z v).modCore c (fun x => { x with trap := none })
    else
      let reg := o / 8 * 8
      let high := o % 8 = 4
      if (w.reg? reg).isNone then w.malformed c o true z v
      else
        let a := w.regAct { core := c, reg := reg, off := o, size := z, high := high, value := v }
        w.regDo c reg z high a.1 v a.2

/-- The half of a 64-bit register that an access reads (R7). -/
def halfOf (z : Size) (o : Nat) (v : W64) : Nat := if z = .b8 then v.toNat else if o % 8 = 4 then bits v 63 32 else bits v 31 0

/-- What a read of the register at a control offset returns, where its unit may be excluded or not in service (R559, R612). -/
def Work.regRead (w : Work) (c o reg : Nat) (z : Size) (v : W64) : Work :=
  if w.blockOut reg then w.hostRet c (halfOf z o (if keptOut reg then v else 0))
  else if !w.mayRead c reg then w.denyLoad c (ctlBase + o)
  else if w.cpOut reg then (w.recReg c (ctlBase + o) false z.bytes 0).hostRet c 0
  else if w.tileOut reg then w.hostRet c 0
  else w.hostRet c (halfOf z o v)

/-- A load by core c at a control offset (R7, R8, R463, R609). -/
def Work.ctlRead (w : Work) (c o : Nat) (z : Size) : Work :=
  match w.fileAt o, aplicAt o with
  | some _, _ => if z = .b4 && (o % 4096 = 0 || o % 4096 = 4) then w.hostRet c 0 else w.malformed c o false z 0
  | none, some (d, r) =>
    if z = .b4 && r % 4 = 0 && aplicDefined d r then w.hostRet c (w.aplicRead d r) else w.malformed c o false z 0
  | none, none =>
    if !regSize z || o % z.bytes ≠ 0 then w.malformed c o false z 0
    else if 0x600_0000 ≤ o && o < 0x600_1000 then
      let (w, v) := w.iommuRead (o / 8 * 8 - 0x600_0000)
      w.hostRet c (halfOf z o v)
    else match w.reg? (o / 8 * 8) with
      | none => w.malformed c o false z 0
      | some v =>
        if 0x610_0000 ≤ o && o < 0x620_0000 then
          let (n, w) := w.take
          w.hostRet c (halfOf z o (Config.freeWord n))
        else w.regRead c o (o / 8 * 8) z v

/-! ## The doorbell aperture (R276) -/

/-- An access to the aperture that is neither a load nor a doorbell store: recorded. -/
def Work.badDoorbell (w : Work) (c q o : Nat) (v : W64) : Work :=
  (w.record { cls := 0x0601, kind := 1, id := c, pound := optPound (w.coreOwner c), action := 6
              addr := 0x3F00_0000_0000 + q * 8 + o, d0 := v.toNat }).modCore c (fun x => { x with trap := none })

/-- A store by core c at offset o of the doorbell of queue q. -/
def Work.bellStore (w : Work) (c q o : Nat) (z : Size) (v : W64) : Work :=
  if !regSize z || o ≠ 0 || (z = .b8 && bits v 63 32 ≠ 0) then w.badDoorbell c q o v
  else (w.modCore c (fun x => { x with trap := none })).ringDoorbell c q z v

/-! ## Loads and stores by address -/

/-- The value of a store of this size. -/
def sized (z : Size) (v : W64) : W64 := BitVec.ofNat 64 (v.toNat % 2 ^ (8 * z.bytes))

/-- A load of a host core (R24, R276, R322, R328). -/
def Work.hostLoad (w : Work) (c a : Nat) (z : Size) (pbmt : Pbmt) : Work :=
  match w.place a with
  | .control o => w.ctlRead c o z
  | .doorbell _ _ => w.hostRet c 0
  | _ => w.hostLoadMem c a z.bytes pbmt

/-- A store of a host core; one to an I/O region is performed when every earlier store is visible (R322, R328 to R330). -/
def Work.hostStore (w : Work) (c a : Nat) (z : Size) (v : W64) (pbmt : Pbmt) (nt : Bool) : Work :=
  match w.place a with
  | .control o => (w.drainStores c).ctlWrite c o z (sized z v)
  | .doorbell q o => (w.drainStores c).bellStore c q o z (sized z v)
  | _ => w.hostStoreMem c a (leBytes z.bytes v.toNat) pbmt nt

/-- A register write by address; the address of another place is a store there. -/
def Work.registerWrite (w : Work) (c a : Nat) (z : Size) (v : W64) : Work := w.hostStore c a z v .pma false

def execRegisterWrite (core : CoreId) (addr : PAddr) (size : Size) (value : W64) (s : State) :=
  lift (fun w => w.hostInstr core.val (fun w => w.registerWrite core.val addr.toNat size value)) s

/-- An access to the control region that is malformed in its size, its alignment or its offset has the outcome of R8; the same
operands where they are not malformed make the access that they name. -/
def Work.registerAccess (w : Work) (c a : Nat) (z : Size) (isWrite : Bool) (v : W64) : Work :=
  if isWrite then w.hostStore c a z v .pma false else w.hostLoad c a z .pma

def execRegisterAccessMalformed (core : CoreId) (addr : PAddr) (size : Size) (isWrite : Bool) (value : W64) (s : State) :=
  lift (fun w => w.hostInstr core.val (fun w => w.registerAccess core.val addr.toNat size isWrite value)) s

def execHostLoad (core : CoreId) (addr : PAddr) (size : Size) (pbmt : Pbmt) (s : State) :=
  liftIf (Instr.hostLoad core addr size pbmt).wellFormed (fun w => w.hostInstr core.val (fun w =>
    w.hostLoad core.val addr.toNat size pbmt)) s

def execHostStore (core : CoreId) (addr : PAddr) (size : Size) (value : W64) (pbmt : Pbmt) (s : State) :=
  liftIf (Instr.hostStore core addr size value pbmt).wellFormed (fun w => w.hostInstr core.val (fun w =>
    w.hostStore core.val addr.toNat size value pbmt false)) s

def execHostNtStore (core : CoreId) (addr : PAddr) (size : Size) (value : W64) (pbmt : Pbmt) (s : State) :=
  liftIf (Instr.hostNtStore core addr size value pbmt).wellFormed (fun w => w.hostInstr core.val (fun w =>
    w.hostStore core.val addr.toNat size value pbmt true)) s

end Sys2Proof.Machine
end

