-- ==== Sys2Proof/Machine/Collective.lean ====
section
/-!
DEFINITION. Collectives: their plans around the ring, compression with error feedback, and their messages
(R448 to R456).
-/

namespace Sys2Proof.Machine

/-! ## Plans (R450, R451, R454) -/

/-- A step of a plan: PHASE, whether its pieces derive from received ones, and its elements. -/
structure CollStep where
  phase : Nat
  derived : Bool
  lo : Nat
  len : Nat
deriving DecidableEq, Repr

/-- A piece of a step. -/
structure CollPiece where
  phase : Nat
  derived : Bool
  lo : Nat
  len : Nat
deriving DecidableEq, Repr

/-- Chunk k of a collective: its first element and its length (R450). -/
def Coll.chunk (c : Coll) (k : Nat) : Nat × Nat :=
  let n := max 1 c.members.length
  let size := ((c.count + n - 1) / n + 31) / 32 * 32
  let lo := min (k % n * size) c.count
  (lo, min (lo + size) c.count - lo)

/-- What the member of rank r sends, step by step. -/
def Coll.plan (c : Coll) (r : Nat) : List CollStep :=
  let n := c.members.length
  let ring (phase start : Nat) : List CollStep := (List.range (n - 1)).map (fun s =>
    { phase := phase, derived := decide (0 < s), lo := (c.chunk (start + 2 * n - s)).1, len := (c.chunk (start + 2 * n - s)).2 })
  match c.kind with
  | 1 => ring 0 (r + n - 1)
  | 2 => ring 1 r
  | 3 => ring 0 (r + n - 1) ++ ring 1 r
  | _ => if (r + 1) % n = c.root then [] else [{ phase := 2, derived := decide (r ≠ c.root), lo := 0, len := c.count }]

/-- Elements that a piece of a phase carries (R452). -/
def Coll.pieceElems (c : Coll) (phase : Nat) : Nat :=
  if c.wire then 3968 else if phase = 0 || !c.bf16 then 1024 else 2048

/-- Pieces of a step. -/
def Coll.stepPieces (c : Coll) (s : CollStep) : Nat := (s.len + c.pieceElems s.phase - 1) / c.pieceElems s.phase

/-- Pieces of a plan. -/
def Coll.total (c : Coll) (l : List CollStep) : Nat := l.foldl (fun a s => a + c.stepPieces s) 0

/-- Piece k of a plan. -/
def Coll.pieceOf (c : Coll) : List CollStep → Nat → Option CollPiece
  | [], _ => none
  | s :: rest, k =>
    if k < c.stepPieces s then
      some { phase := s.phase, derived := s.derived, lo := s.lo + k * c.pieceElems s.phase
             len := min (c.pieceElems s.phase) (s.len - k * c.pieceElems s.phase) }
    else Coll.pieceOf c rest (k - c.stepPieces s)

/-- The member's own plan, and that of its predecessor, which it receives. -/
def Coll.sends (c : Coll) : List CollStep := c.plan c.rank
def Coll.receives (c : Coll) : List CollStep := c.plan ((c.rank + c.members.length - 1) % max 1 c.members.length)

/-- Received pieces that reduce. -/
def Coll.reduceTotal (c : Coll) : Nat := c.total (c.receives.filter (fun s => s.phase = 0))

/-- Received piece k is not sent on: it is in the last step of its phase. -/
def Coll.terminal (c : Coll) (k : Nat) : Bool :=
  let l := c.receives
  let a := c.reduceTotal
  let tail (l : List CollStep) : Nat := match l.getLast? with | some s => c.stepPieces s | none => 0
  if k < a then decide (a ≤ k + tail (l.filter (fun s => s.phase = 0)))
  else if c.kind = 4 then c.sends.isEmpty
  else decide (c.total l ≤ k + tail l)

/-! ## Elements (R205, R208, R451) -/

/-- Bytes of an element of the buffers. -/
def Coll.es (c : Coll) : Nat := if c.bf16 then 2 else 4

/-- An element of a buffer as FP32. -/
def Coll.toFp32 (c : Coll) (code : Nat) : W32 := BitVec.ofNat 32 (if c.bf16 then code * 65536 else code)

/-- An FP32 value rounded to BF16 (R208). -/
def toBf16 (v : W32) : Nat := (bf16.convert .nearest (fp32Num v)).1

/-- An FP32 value rounded to DTYPE. -/
def Coll.ofFp32 (c : Coll) (v : W32) : Nat := if c.bf16 then toBf16 v else v.toNat

/-- The sum of two values in FP32 (R205). -/
def numAdd (x y : Num) : W32 :=
  match x, y with
  | .nan, _ => fp32Nan
  | _, .nan => fp32Nan
  | .inf a, .inf b => if a = b then BitVec.ofNat 32 (fp32.infCode a) else fp32Nan
  | .inf a, .fin _ _ => BitVec.ofNat 32 (fp32.infCode a)
  | .fin _ _, .inf b => BitVec.ofNat 32 (fp32.infCode b)
  | x, y => fp32Round (x.val + y.val) false

/-- A value as FP32. -/
def numFp32 : Num → W32
  | .nan => fp32Nan
  | .inf s => BitVec.ofNat 32 (fp32.infCode s)
  | .fin s m => fp32Round (if s then -m else m) s

/-- Little-endian words of k bytes. -/
def words (k : Nat) (bs : List Byte) (n : Nat) : List Nat := (List.range n).map (fun i => leAt bs (k * i) k)

/-! ## Compression (R452, R453) -/

/-- E4M3 codes of the wire: exponent field 0 is subnormal. -/
def wireFmt : FloatFmt := { eb := 4, mb := 3, bias := 7, top := .plain }

/-- The value of an element of a compressed block. -/
def wireValue (scale code : Nat) : Num :=
  if scale = 0xFF then .nan
  else match wireFmt.decode false code with
    | .fin s m => .fin s (m * pow2 ((scale : Int) - 127))
    | x => x

/-- Compress a block of values p with residuals: scale, codes, and new residuals (R453). -/
def compressBlock (p res : List W32) : Nat × List Nat × List W32 :=
  let v := (p.zip res).map (fun e => numAdd (fp32Num e.1) (fp32Num e.2))
  let x := v.map fp32Num
  if x.any (fun x => x.isNan || x.isInf) then (0xFF, v.map (fun _ => 0), v.map (fun _ => 0))
  else
    let amax := blockMax (x.map some)
    if amax = 0 then (0, v.map (fun _ => 0), v.map (fun _ => 0))
    else
      let e := mxExp 448 amax
      let codes := x.map (fun x => ((BlockFmt.mx wireFmt).element .nearest x (pow2 e)).1)
      let scale := (e + 127).toNat
      (scale, codes, (x.zip codes).map (fun xc =>
        let d := xc.1.val - (wireValue scale xc.2).val
        fp32Round d (decide (d < 0))))

/-- Compress a piece: its blocks, its payload, and the new residuals (R452). -/
def compressPiece (p res : List W32) : Nat × List Byte × List W32 :=
  let n := (p.length + 31) / 32
  let blocks := (List.range n).map (fun b => compressBlock ((p.drop (32 * b)).take 32) ((res.drop (32 * b)).take 32))
  let scales := blocks.map (fun b => BitVec.ofNat 8 b.1)
  let elems := blocks.flatMap (fun b => splice (List.replicate 32 (0 : Byte)) 0 (b.2.1.map (BitVec.ofNat 8)))
  (n, splice (List.replicate ((n + 63) / 64 * 64) 0) 0 scales ++ elems, blocks.flatMap (fun b => b.2.2))

/-- Values of a piece of n elements. -/
def Coll.values (c : Coll) (phase : Nat) (bs : List Byte) (n : Nat) : List Num :=
  if c.wire then
    let pad := ((n + 31) / 32 + 63) / 64 * 64
    (List.range n).map (fun i => wireValue (leAt bs (i / 32) 1) (leAt bs (pad + i) 1))
  else if phase = 0 then (words 4 bs n).map (fun v => fp32Num (BitVec.ofNat 32 v))
  else (words c.es bs n).map (fun v => fp32Num (c.toFp32 v))

/-! ## Reads and writes of the engine (R69, R440, R451, R456) -/

/-- Bytes at an address of the collective's buffers. -/
def Work.collRead (w : Work) (c : Coll) (va n : Nat) : Work × Res (List Byte) :=
  w.vaRead (cpCache (c.sq % 16)) (poundDev c.pound) (some c.pasid) (.engine (some c.pound)) 8 (c.sq % 16) va n (some (528 + c.die))

/-- Write bytes to the collective's buffers, for its command: publish writes (R336). -/
def Work.collWrite (w : Work) (c : Coll) (va : Nat) (bs : List Byte) : Work × Res Unit :=
  let e := w.eng (.command c.sq c.seq)
  (pieces va bs.length).foldl (fun (r : Work × Res Unit) p =>
    match r with
    | (w, .bad s a) => (w, .bad s a)
    | (w, .ok _) =>
      match w.engReach e false p.1 p.2 true with
      | (w, .bad s a) => (w, .bad s a)
      | (w, .ok a) =>
        match w.place a with
        | .glob _ _ => (w, .bad 4 p.1)
        | _ => ((w.engWrite e a ((bs.drop (p.1 - va)).take p.2) false true p.1).1, .ok ())) (w, .ok ())

/-- Update a collective. -/
def Work.modColl (w : Work) (c : Coll) (f : Coll → Coll) : Work :=
  { w with chip.colls := w.chip.colls.map (fun d => if d.sq = c.sq && d.seq = c.seq then f d else d) }

/-- The collective of command (q, n). -/
def Work.coll? (w : Work) (q : Nat) (n : W32) : Option Coll := w.chip.colls.find? (fun d => d.sq = q && d.seq = n)

/-- A collective fails with a status (R456). -/
def Work.failColl (w : Work) (c : Coll) (status addr : Nat) : Work :=
  let w := w.endColl c status
  match w.cmd? c.sq c.seq with
  | some d => w.complete c.sq d status 0 (BitVec.ofNat 64 addr)
  | none => w

/-- Physical address of a piece in STAGE. -/
def Coll.stageAddr (c : Coll) (piece : Nat) : Nat := 0x100_0000_0000 + (c.stage + piece % 128 * 4096) % 2 ^ 40

/-- Bytes that a piece of n elements has on the wire. -/
def Coll.pieceBytes (c : Coll) (phase n : Nat) : Nat :=
  if c.wire then ((n + 31) / 32 + 63) / 64 * 64 + (n + 31) / 32 * 32
  else n * (if phase = 0 then 4 else c.es)

/-- Bytes of a staged piece, read for the collective's pound through the Archive (R68 to R70, R349): one that the pound does not
reach fails the collective with status 4 or 5 and is recorded; a poisoned one fails it with status 7. -/
def Work.staged (w : Work) (c : Coll) (piece phase n : Nat) : Work × Res (List Byte) :=
  let a := c.stageAddr piece
  let k := c.pieceBytes phase n
  match w.acc (.engine (some c.pound)) a k false with
  | .notMapped => (w.recAddr 8 (c.sq % 16) (some c.pound) a 4, .bad 4 a)
  | .denied => (w.recOwner 8 (c.sq % 16) (some c.pound) a 5, .bad 5 a)
  | .ok =>
    match w.vpoison a k with
    | some b => (w, .bad 7 b)
    | none => (w.arcReads a k (some c.pound) (some (528 + c.die)), .ok (w.vread a k))

/-- One more piece is consumed, and acknowledged (R455). -/
def Work.consume (w : Work) (c : Coll) : Work :=
  let w := w.modColl c (fun d => { d with received := d.received.erase d.consumed, consumed := d.consumed + 1 })
  match w.coll? c.sq c.seq with
  | some d => w.sendColl d d.pred 0x82 0 0 d.consumed 0 0 0 []
  | none => w

/-- Write a received piece's values to DST, rounded to DTYPE. -/
def Work.collResult (w : Work) (c : Coll) (lo : Nat) (vs : List Num) : Work × Res Unit :=
  w.collWrite c (c.dst + c.es * lo) (vs.flatMap (fun v => leBytes c.es (c.ofFp32 (numFp32 v))))

/-- Elements of a buffer as FP32 words. -/
def Work.collElems (w : Work) (c : Coll) (base lo n : Nat) : Work × Res (List W32) :=
  match w.collRead c (base + c.es * lo) (c.es * n) with
  | (w, .bad s a) => (w, .bad s a)
  | (w, .ok bs) => (w, .ok ((words c.es bs n).map c.toFp32))

/-- Consume the next received piece when it is not sent on: the reduced value, or the gathered one, goes to DST (R450, R451). -/
def Work.consumeEnd (w : Work) (c : Coll) : Work × Bool :=
  match c.pieceOf c.receives c.consumed with
  | none => (w, false)
  | some p =>
    if !c.received.contains c.consumed || !c.terminal c.consumed then (w, false)
    else match w.staged c c.consumed p.phase p.len with
      | (w, .bad s a) => (w.failColl c s a, false)
      | (w, .ok bs) =>
        let vs := c.values p.phase bs p.len
        let (w, r) :=
          if p.phase = 0 then
            (match w.collElems c c.src p.lo p.len with
            | (w, .bad s a) => (w, .bad s a)
            | (w, .ok xs) => w.collResult c p.lo ((vs.zip xs).map (fun e => fp32Num (numAdd e.1 (fp32Num e.2)))))
          else if c.wire then w.collResult c p.lo vs
          else w.collWrite c (c.dst + c.es * p.lo) bs
        match r with
        | .bad s a => (w.failColl c s a, false)
        | .ok _ => (w.consume c, true)

/-- Consume such pieces in order while there are any. -/
def Work.consumeEnds : Nat → Work → Nat → W32 → Work
  | 0, w, _, _ => w
  | k + 1, w, q, n =>
    match w.coll? q n with
    | none => w
    | some c =>
      match w.consumeEnd c with
      | (w, true) => Work.consumeEnds k w q n
      | (w, false) => w

/-- A piece has come: what it allows is consumed. -/
def Work.collCome (w : Work) (c : Coll) (piece : Nat) : Work :=
  let w := w.modColl c (fun d => if d.received.contains piece then d else { d with received := d.received ++ [piece] })
  Work.consumeEnds 128 w c.sq c.seq

/-! ## Sending (R451, R453, R455) -/

/-- Compress values of elements from lo on, with the residuals that the call uses, and write the new ones. -/
def Work.compress (w : Work) (c : Coll) (lo : Nat) (vs : List W32) : Work × Res (Nat × List Byte) :=
  let a := c.residual + 4 * lo
  let old : Work × Res (List W32) :=
    if c.clear then (w, .ok (vs.map (fun _ => 0)))
    else match w.collRead c a (4 * vs.length) with
      | (w, .bad s b) => (w, .bad s b)
      | (w, .ok bs) => (w, .ok ((words 4 bs vs.length).map (BitVec.ofNat 32)))
  match old with
  | (w, .bad s b) => (w, .bad s b)
  | (w, .ok res) =>
    let r := compressPiece vs res
    match w.collWrite c a (r.2.2.flatMap (fun v => leBytes 4 v.toNat)) with
    | (w, .bad s b) => (w, .bad s b)
    | (w, .ok _) => (w, .ok (r.1, r.2.1))

/-- Values to send: blocks and payload. With native WIRE, partial sums travel as FP32, and results as DTYPE. -/
def Work.payload (w : Work) (c : Coll) (p : CollPiece) (vs : List W32) : Work × Res (Nat × List Byte) :=
  if c.wire then w.compress c p.lo vs
  else (w, .ok (0, if p.phase = 0 then vs.flatMap (fun v => leBytes 4 v.toNat) else vs.flatMap (fun v => leBytes c.es (c.ofFp32 v))))

/-- A piece that starts at this member: of its source, or of the reduced chunk; a result is written to its own DST as the
others will decode it (R451). -/
def Work.firstPiece (w : Work) (c : Coll) (p : CollPiece) : Work × Res (Nat × List Byte) :=
  let base := if c.kind = 3 && p.phase = 1 then c.dst else c.src
  match w.collRead c (base + c.es * p.lo) (c.es * p.len) with
  | (w, .bad s a) => (w, .bad s a)
  | (w, .ok raw) =>
    let vs := (words c.es raw p.len).map c.toFp32
    if p.phase = 0 then w.payload c p vs
    else if !c.wire then
      (match w.collWrite c (c.dst + c.es * p.lo) raw with
      | (w, .bad s a) => (w, .bad s a)
      | (w, .ok _) => (w, .ok (0, raw)))
    else match w.compress c p.lo vs with
      | (w, .bad s a) => (w, .bad s a)
      | (w, .ok (n, bs)) =>
        match w.collResult c p.lo (c.values p.phase bs p.len) with
        | (w, .bad s a) => (w, .bad s a)
        | (w, .ok _) => (w, .ok (n, bs))

/-- A piece that passes on the next received one: with this member's part added, or as it came. -/
def Work.nextPiece (w : Work) (c : Coll) (p : CollPiece) : Work × Res (Nat × List Byte) :=
  match w.staged c c.consumed p.phase p.len with
  | (w, .bad s a) => (w, .bad s a)
  | (w, .ok bs) =>
    let vs := c.values p.phase bs p.len
    if p.phase = 0 then
      (match w.collElems c c.src p.lo p.len with
      | (w, .bad s a) => (w, .bad s a)
      | (w, .ok xs) => w.payload c p ((vs.zip xs).map (fun e => numAdd e.1 (fp32Num e.2))))
    else
      let n := if c.wire then (p.len + 31) / 32 else 0
      match (if c.wire then w.collResult c p.lo vs else w.collWrite c (c.dst + c.es * p.lo) bs) with
      | (w, .bad s a) => (w, .bad s a)
      | (w, .ok _) => (w, .ok (n, bs))

/-- The next piece may be sent: the window is open, and what it derives from has come (R455). -/
def Coll.canSend (c : Coll) (p : CollPiece) : Bool :=
  c.sent - c.acked < 128 &&
  (if p.derived then c.received.contains c.consumed else c.kind ≠ 3 || p.phase = 0 || c.reduceTotal ≤ c.consumed)

/-- COLLECTIVE_PIECE_SEND (R455). -/
def Work.collSend (w : Work) (q : Nat) (n : W32) : Work :=
  match w.coll? q n with
  | none => w
  | some c =>
    match c.pieceOf c.sends c.sent with
    | none => w
    | some p =>
      if !c.canSend p then w
      else match (if p.derived then w.nextPiece c p else w.firstPiece c p) with
        | (w, .bad s a) => w.failColl c s a
        | (w, .ok (blocks, bs)) =>
          let w := w.sendColl c c.succ 0x81 (bs.length - 1) (c.stage + c.sent % 128 * 4096) c.sent p.phase blocks 0 bs
          let w := w.modColl c (fun d => { d with sent := d.sent + 1 })
          let w := if p.derived then w.consume c else w
          Work.consumeEnds 128 w q n

def execCollectivePieceSend (queue : SqId) (seq : W32) (s : State) := lift (fun w => w.collSend queue.val seq) s

/-! ## The command (R448, R449, R456) -/

/-- The operands of COLLECTIVE keep the rules of R448. -/
def Cmd.collOk (c : Cmd) : Bool :=
  c.headerOk 1 1 && 1 ≤ c.at_ 0x0C 1 && c.at_ 0x0C 1 ≤ 4 && c.at_ 0x0D 1 ≤ 1 && c.at_ 0x0E 1 ≤ 1 && c.at_ 0x0F 1 ≤ 1 &&
  1 ≤ c.at_ 0x20 8 && c.at_ 0x20 8 ≤ 2 ^ 32 && (c.at_ 0x0C 1 = 4 || c.at_ 0x38 2 = 0) && 1 ≤ c.at_ 0x3A 2 && c.zero 0x3C 0x40 &&
  c.at_ 0x40 8 % 4096 = 0 && (c.at_ 0x0E 1 = 1 || c.at_ 0x48 8 = 0) && c.zero 0x50 0x80

/-- The collective of a command, once its descriptor has been read. -/
def Work.newColl (w : Work) (q : Nat) (c : Cmd) (desc : List Byte) (ids : List Nat) (rank : Nat) : Coll :=
  let part (lo hi : Nat) : List Byte := (c.bytes.take hi).drop lo
  { sq := q, seq := c.seq, die := q % 16 / 4, pound := (w.sqOwner q).getD 0, pasid := (w.sq q).pid
    kind := c.at_ 0x0C 1, bf16 := decide (c.at_ 0x0D 1 = 1), wire := decide (c.at_ 0x0E 1 = 1), clear := decide (c.at_ 0x0F 1 = 1)
    src := c.at_ 0x10 8, dst := c.at_ 0x18 8, count := c.at_ 0x20 8, groupId := BitVec.ofNat 32 (c.at_ 0x28 4)
    inst := BitVec.ofNat 32 (c.at_ 0x2C 4), root := c.at_ 0x38 2, stage := c.at_ 0x40 8, residual := c.at_ 0x48 8
    members := ids, rank := rank, hash := fnv1a (desc ++ part 0x0C 0x0F ++ part 0x20 0x2C ++ part 0x38 0x3A)
    sent := 0, acked := 0, received := [], consumed := 0, failed := none }

/-- A message belongs to a running collective. -/
def Coll.takes (c : Coll) (m : NylMsg) : Bool := c.groupId.toNat = m.group && c.inst.toNat = m.inst

/-- A data piece for a running collective (R455, R456). -/
def Work.collPiece (w : Work) (c : Coll) (m : NylMsg) : Work :=
  if m.hash ≠ c.hash.toNat then w.failColl c 0x105 0 else w.collCome c m.piece

/-- The descriptor at GROUP_ADDR: its bytes. -/
def Work.groupBytes (w : Work) (q : Nat) (c : Cmd) : Work × Res (List Byte) :=
  let p := w.sqOwner q
  let read (w : Work) (n : Nat) : Work × Res (List Byte) :=
    w.vaRead (cpCache (q % 16)) (poundDev (p.getD 0)) (some (w.sq q).pid) (.engine p) 8 (q % 16) (c.at_ 0x30 8) n
      (some (528 + q % 16 / 4))
  match read w 8 with
  | (w, .ok bs) => if 32768 < leAt bs 0 4 then (w, .ok bs) else read w (8 + 2 * leAt bs 0 4)
  | r => r

/-- COLLECTIVE at its turn, an engine slot of its die being free: it starts, and takes the pieces that came before it. -/
def Work.collective (w : Work) (q : Nat) (c : Cmd) : Work :=
  if 16 ≤ (w.chip.colls.filter (fun d => d.die = q % 16 / 4)).length then w
  else match w.groupBytes q c with
    | (w, .bad s a) => w.beginDone q c s 0 (BitVec.ofNat 64 a)
    | (w, .ok bs) =>
      match parseGroup w.moduleId bs with
      | none => w.beginDone q c 0x108
      | some (ids, rank) =>
        if ids.length ≤ c.at_ 0x38 2 then w.beginDone q c 1
        else
          let d := w.newColl q c bs ids rank
          let mine (m : NylMsg) : Bool := d.takes m && m.src = d.pred
          let early := w.chip.early.filter mine
          let w := w.begin q c
          let w := { w with chip.colls := w.chip.colls ++ [d], chip.early := w.chip.early.filter (fun m => !mine m) }
          w.each early (fun w m =>
            match w.coll? q c.seq with
            | some d => w.collPiece d m
            | none => w)

def execCollective (queue : SqId) (s : State) :=
  lift (fun w => w.start queue.val 6 Cmd.collOk (fun w c => w.collective queue.val c)) s

/-- COLLECTIVE_COMPLETE: every piece is sent and acknowledged, and every received piece consumed. -/
def Work.collComplete (w : Work) (q : Nat) (n : W32) : Work :=
  match w.coll? q n, w.cmd? q n with
  | some c, some d =>
    if let some (status, a) := d.xf.failed then w.failColl c status a
    else if c.sent = c.total c.sends && c.acked = c.sent && c.consumed = c.total c.receives && w.xferQuiet (.command q n) then
      let w := { w with chip.colls := w.chip.colls.filter (fun e => !(e.sq = q && e.seq = n)) }
      (if d.scope = 3 then w.dropLines d.xf.lines else w).complete q d 0
    else w
  | _, _ => w

def execCollectiveComplete (queue : SqId) (seq : W32) (s : State) := lift (fun w => w.collComplete queue.val seq) s

def execCollectiveTimeout (queue : SqId) (seq : W32) (s : State) :=
  lift (fun w =>
    match w.coll? queue.val seq with
    | some c => w.failColl c 0x107 0
    | none => w) s

/-! ## Messages (R455, R456) -/

/-- CDATA: refused, its command completing with the address refused in DETAIL0 (R298), or written to STAGE and taken by its collective, or kept until that starts. -/
def Work.cdata (w : Work) (m : NylMsg) : Work :=
  let c? := w.chip.colls.find? (fun c => c.takes m && c.pred = m.src)
  match (if w.hbmBytes < m.offset + m.len then none else w.covered m.src m.offset m.len 2) with
  | none =>
    let w := w.recFabric m
    match c? with
    | some c => w.failColl c 5 (0x100_0000_0000 + m.offset)
    | none => w
  | some p =>
    let a := 0x100_0000_0000 + m.offset
    let w := w.pwrite a m.data true (some p)
    let w := if w.dead a then w else w.pokeWords a m.len m.poison
    match c? with
    | some c => w.collPiece c m
    | none => { w with chip.early := w.chip.early ++ [m] }

def execCdata (link : NylId) (flit : NFlit) (data : List NFlit) (s : State) :=
  liftIf (nylData data) (fun w => w.message link.val 0x81 flit data Work.cdata) s

/-- CACK: pieces consumed, cumulative. -/
def Work.cack (w : Work) (m : NylMsg) : Work :=
  match w.chip.colls.find? (fun c => c.takes m && c.succ = m.src) with
  | some c => w.modColl c (fun d => { d with acked := max d.acked (min m.piece d.sent) })
  | none => w

def execCack (link : NylId) (flit : NFlit) (data : List NFlit) (s : State) :=
  liftIf (nylData data) (fun w => w.message link.val 0x82 flit data Work.cack) s

/-- CABORT: the collective fails with status 0x0106. -/
def Work.cabort (w : Work) (m : NylMsg) : Work :=
  match w.chip.colls.find? (fun c => c.takes m && (c.pred = m.src || c.succ = m.src)) with
  | some c => w.failColl c 0x106 0
  | none => w

def execCabort (link : NylId) (flit : NFlit) (data : List NFlit) (s : State) :=
  liftIf (nylData data) (fun w => w.message link.val 0x83 flit data Work.cabort) s

end Sys2Proof.Machine
end

