-- ==== Sys2Proof/Machine/Dispatch.lean ====
section
/-!
DEFINITION. The meaning of each command: one arm per row of spec/opcode_table.json, each one direct call.
-/

namespace Sys2Proof.Machine

/-- The effect of a command on everything but the queue of waiting commands. -/
def exec (i : Instr) (s : State) : Host.Outcome State Fault Refusal :=
  match i with
  | .registerAccessMalformed core addr size isWrite value => Sys2Proof.Machine.execRegisterAccessMalformed core addr size isWrite value s
  | .registerWrite core addr size value => Sys2Proof.Machine.execRegisterWrite core addr size value s
  | .hostLoad core addr size pbmt => Sys2Proof.Machine.execHostLoad core addr size pbmt s
  | .hostStore core addr size value pbmt => Sys2Proof.Machine.execHostStore core addr size value pbmt s
  | .hostNtStore core addr size value pbmt => Sys2Proof.Machine.execHostNtStore core addr size value pbmt s
  | .hostAmo core op addr size value compare pbmt => Sys2Proof.Machine.execHostAmo core op addr size value compare pbmt s
  | .hostLr core addr size pbmt => Sys2Proof.Machine.execHostLr core addr size pbmt s
  | .hostSc core addr size value pbmt => Sys2Proof.Machine.execHostSc core addr size value pbmt s
  | .hostFence core pred succ => Sys2Proof.Machine.execHostFence core pred succ s
  | .fenceI core => Sys2Proof.Machine.execFenceI core s
  | .cboZero core addr pbmt => Sys2Proof.Machine.execCboZero core addr pbmt s
  | .cboClean core addr pbmt => Sys2Proof.Machine.execCboClean core addr pbmt s
  | .cboFlush core addr pbmt => Sys2Proof.Machine.execCboFlush core addr pbmt s
  | .cboInval core addr pbmt => Sys2Proof.Machine.execCboInval core addr pbmt s
  | .wcEntryTimeout core line => Sys2Proof.Machine.execWcEntryTimeout core line s
  | .storeDropped core fromWc => Sys2Proof.Machine.execStoreDropped core fromWc s
  | .referenceLost => Sys2Proof.Machine.execReferenceLost s
  | .srtLanesDeskewed link side => Sys2Proof.Machine.execSrtLanesDeskewed link side s
  | .srtIdentityTimer link side => Sys2Proof.Machine.execSrtIdentityTimer link side s
  | .srtIdentity link side flit => Sys2Proof.Machine.execSrtIdentity link side flit s
  | .srtSelect link side flit => Sys2Proof.Machine.execSrtSelect link side flit s
  | .srtFlitSend link side isData vc payload => Sys2Proof.Machine.execSrtFlitSend link side isData vc payload s
  | .srtMessageFlit link side flit => Sys2Proof.Machine.execSrtMessageFlit link side flit s
  | .srtDataFlit link side flit => Sys2Proof.Machine.execSrtDataFlit link side flit s
  | .srtCreditFlit link side flit => Sys2Proof.Machine.execSrtCreditFlit link side flit s
  | .srtIdleFlit link side flit => Sys2Proof.Machine.execSrtIdleFlit link side flit s
  | .srtCreditReturn link side vc => Sys2Proof.Machine.execSrtCreditReturn link side vc s
  | .srtAckTimer link side => Sys2Proof.Machine.execSrtAckTimer link side s
  | .srtAck link side flit => Sys2Proof.Machine.execSrtAck link side flit s
  | .srtRetry link side flit => Sys2Proof.Machine.execSrtRetry link side flit s
  | .srtRetryTimeout link side => Sys2Proof.Machine.execSrtRetryTimeout link side s
  | .srtLostRequestPoison link => Sys2Proof.Machine.execSrtLostRequestPoison link s
  | .indexExchange active spare => Sys2Proof.Machine.execIndexExchange active spare s
  | .exchangeDone active spare => Sys2Proof.Machine.execExchangeDone active spare s
  | .chtLoad core => Sys2Proof.Machine.execChtLoad core s
  | .chtCancel core => Sys2Proof.Machine.execChtCancel core s
  | .chtBadCommand core op => Sys2Proof.Machine.execChtBadCommand core op s
  | .chtVerifyDone => Sys2Proof.Machine.execChtVerifyDone s
  | .charterActivation => Sys2Proof.Machine.execCharterActivation s
  | .poundDrainTimeout pound => Sys2Proof.Machine.execPoundDrainTimeout pound s
  | .poundDrainEnd pound => Sys2Proof.Machine.execPoundDrainEnd pound s
  | .scrubDone pound => Sys2Proof.Machine.execScrubDone pound s
  | .poundStartDone pound => Sys2Proof.Machine.execPoundStartDone pound s
  | .lockPpsEdge => Sys2Proof.Machine.execLockPpsEdge s
  | .timeOfDay time => Sys2Proof.Machine.execTimeOfDay time s
  | .ptpSync port ptpTime => Sys2Proof.Machine.execPtpSync port ptpTime s
  | .ptpPortReturn => Sys2Proof.Machine.execPtpPortReturn s
  | .ltSourceTimeout source => Sys2Proof.Machine.execLtSourceTimeout source s
  | .setTimeConfig ctrl epochOffset => Sys2Proof.Machine.execSetTimeConfig ctrl epochOffset s
  | .ltOrderPost core pound => Sys2Proof.Machine.execLtOrderPost core pound s
  | .ltOrderCancel core pound index => Sys2Proof.Machine.execLtOrderCancel core pound index s
  | .ltOrderBadOp core pound op => Sys2Proof.Machine.execLtOrderBadOp core pound op s
  | .lockOrderNotice index => Sys2Proof.Machine.execLockOrderNotice index s
  | .operatingPointChange index => Sys2Proof.Machine.execOperatingPointChange index s
  | .powerCapStep index => Sys2Proof.Machine.execPowerCapStep index s
  | .postCapStep at_ noticeUs arg => Sys2Proof.Machine.execPostCapStep at_ noticeUs arg s
  | .immediateCap arg => Sys2Proof.Machine.execImmediateCap arg s
  | .hbmRetrainingWindow index => Sys2Proof.Machine.execHbmRetrainingWindow index s
  | .hbmRetrainTimeout channel => Sys2Proof.Machine.execHbmRetrainTimeout channel s
  | .hbmRetrainPost channel => Sys2Proof.Machine.execHbmRetrainPost channel s
  | .auditStart index => Sys2Proof.Machine.execAuditStart index s
  | .collationWindow index => Sys2Proof.Machine.execCollationWindow index s
  | .collationWindowEnd pound => Sys2Proof.Machine.execCollationWindowEnd pound s
  | .checkpointFence index => Sys2Proof.Machine.execCheckpointFence index s
  | .checkpointFenceReached pound => Sys2Proof.Machine.execCheckpointFenceReached pound s
  | .frequencyGroupEpoch index => Sys2Proof.Machine.execFrequencyGroupEpoch index s
  | .fgLeaderCollect pound => Sys2Proof.Machine.execFgLeaderCollect pound s
  | .fgRootCollect pound => Sys2Proof.Machine.execFgRootCollect pound s
  | .fgLeaderDistribute pound => Sys2Proof.Machine.execFgLeaderDistribute pound s
  | .fgMemberRead pound => Sys2Proof.Machine.execFgMemberRead pound s
  | .tileLoad tile hart dst rs1 imm size => Sys2Proof.Machine.execTileLoad tile hart dst rs1 imm size s
  | .tileStore tile hart src rs1 imm size => Sys2Proof.Machine.execTileStore tile hart src rs1 imm size s
  | .tileAmo tile hart op rd rs1 rs2 size => Sys2Proof.Machine.execTileAmo tile hart op rd rs1 rs2 size s
  | .tileLr tile hart rd rs1 size => Sys2Proof.Machine.execTileLr tile hart rd rs1 size s
  | .tileSc tile hart rd rs1 rs2 size => Sys2Proof.Machine.execTileSc tile hart rd rs1 rs2 size s
  | .semValueStore tile sem rs2 => Sys2Proof.Machine.execSemValueStore tile sem rs2 s
  | .signal tile hart sem rd rs2 => Sys2Proof.Machine.execSignal tile hart sem rd rs2 s
  | .wait tile hart sem rd rs2 => Sys2Proof.Machine.execWait tile hart sem rd rs2 s
  | .waitReturn tile hart => Sys2Proof.Machine.execWaitReturn tile hart s
  | .vectorCoreStart tile vcore rs2 => Sys2Proof.Machine.execVectorCoreStart tile vcore rs2 s
  | .vectorEcall tile vcore => Sys2Proof.Machine.execVectorEcall tile vcore s
  | .vectorFenceI tile vcore => Sys2Proof.Machine.execVectorFenceI tile vcore s
  | .vhexp2V tile vcore vd vs2 vm => Sys2Proof.Machine.execVhexp2V tile vcore vd vs2 vm s
  | .vhlog2V tile vcore vd vs2 vm => Sys2Proof.Machine.execVhlog2V tile vcore vd vs2 vm s
  | .vhrecV tile vcore vd vs2 vm => Sys2Proof.Machine.execVhrecV tile vcore vd vs2 vm s
  | .vhrsqrtV tile vcore vd vs2 vm => Sys2Proof.Machine.execVhrsqrtV tile vcore vd vs2 vm s
  | .tvflushWrite tile vcore value => Sys2Proof.Machine.execTvflushWrite tile vcore value s
  | .tmcompWrite tile value => Sys2Proof.Machine.execTmcompWrite tile value s
  | .ecall tile => Sys2Proof.Machine.execEcall tile s
  | .tileEndWaitDone tile => Sys2Proof.Machine.execTileEndWaitDone tile s
  | .tileTimeLimit tile => Sys2Proof.Machine.execTileTimeLimit tile s
  | .moverWordStore tile mover word rs2 => Sys2Proof.Machine.execMoverWordStore tile mover word rs2 s
  | .moverSubmit tile mover rs2 => Sys2Proof.Machine.execMoverSubmit tile mover rs2 s
  | .moverSubmitResume tile mover => Sys2Proof.Machine.execMoverSubmitResume tile mover s
  | .moverDescriptorStart tile mover => Sys2Proof.Machine.execMoverDescriptorStart tile mover s
  | .moverDescriptorComplete tile mover => Sys2Proof.Machine.execMoverDescriptorComplete tile mover s
  | .moverDescriptorFail tile mover => Sys2Proof.Machine.execMoverDescriptorFail tile mover s
  | .tlDisable core tile => Sys2Proof.Machine.execTlDisable core tile s
  | .tlEnable core tile => Sys2Proof.Machine.execTlEnable core tile s
  | .tlReset core tile => Sys2Proof.Machine.execTlReset core tile s
  | .tileDrainTimeout tile => Sys2Proof.Machine.execTileDrainTimeout tile s
  | .tlSemSignal core tile sem amount => Sys2Proof.Machine.execTlSemSignal core tile sem amount s
  | .tlFaultClear core tile => Sys2Proof.Machine.execTlFaultClear core tile s
  | .tlLgClear core tile slots => Sys2Proof.Machine.execTlLgClear core tile slots s
  | .tlOsLastClear core tile => Sys2Proof.Machine.execTlOsLastClear core tile s
  | .hmset tile index rs1 rd => Sys2Proof.Machine.execHmset tile index rs1 rd s
  | .hmget tile index rs1 rd => Sys2Proof.Machine.execHmget tile index rs1 rd s
  | .hmma tile funct7 rs2 rs1 rd => Sys2Proof.Machine.execHmma tile funct7 rs2 rs1 rd s
  | .hmdrain tile funct7 rs2 rs1 rd => Sys2Proof.Machine.execHmdrain tile funct7 rs2 rs1 rd s
  | .hmacc tile funct7 rs2 rs1 rd => Sys2Proof.Machine.execHmacc tile funct7 rs2 rs1 rd s
  | .hmsig tile funct7 rs2 rs1 rd => Sys2Proof.Machine.execHmsig tile funct7 rs2 rs1 rd s
  | .hmfence tile funct7 rs2 rs1 rd => Sys2Proof.Machine.execHmfence tile funct7 rs2 rs1 rd s
  | .hmfenceReturn tile => Sys2Proof.Machine.execHmfenceReturn tile s
  | .hmmaStart tile => Sys2Proof.Machine.execHmmaStart tile s
  | .hmaccStart tile => Sys2Proof.Machine.execHmaccStart tile s
  | .hmmaComplete tile => Sys2Proof.Machine.execHmmaComplete tile s
  | .hmaccComplete tile => Sys2Proof.Machine.execHmaccComplete tile s
  | .drainActive tile => Sys2Proof.Machine.execDrainActive tile s
  | .drainComplete tile fault => Sys2Proof.Machine.execDrainComplete tile fault s
  | .replayAttempt2Start tile => Sys2Proof.Machine.execReplayAttempt2Start tile s
  | .replayAttemptDone tile fault => Sys2Proof.Machine.execReplayAttemptDone tile fault s
  | .hmsigSignal tile => Sys2Proof.Machine.execHmsigSignal tile s
  | .outPortTake tile port => Sys2Proof.Machine.execOutPortTake tile port s
  | .outPortSlotRead tile port => Sys2Proof.Machine.execOutPortSlotRead tile port s
  | .inPortUnit tile port errors resentErrors => Sys2Proof.Machine.execInPortUnit tile port errors resentErrors s
  | .inPortSlotWritten tile port => Sys2Proof.Machine.execInPortSlotWritten tile port s
  | .inPortReturnTake tile port => Sys2Proof.Machine.execInPortReturnTake tile port s
  | .canalCreditArrive tile port => Sys2Proof.Machine.execCanalCreditArrive tile port s
  | .canalHeldTimeout tile port => Sys2Proof.Machine.execCanalHeldTimeout tile port s
  | .doorbell core queue size value => Sys2Proof.Machine.execDoorbell core queue size value s
  | .commandFetch cp => Sys2Proof.Machine.execCommandFetch cp s
  | .nop queue => Sys2Proof.Machine.execNop queue s
  | .launch queue => Sys2Proof.Machine.execLaunch queue s
  | .launchStart queue => Sys2Proof.Machine.execLaunchStart queue s
  | .loadingEnd queue seq => Sys2Proof.Machine.execLoadingEnd queue seq s
  | .launchComplete queue seq => Sys2Proof.Machine.execLaunchComplete queue seq s
  | .move queue => Sys2Proof.Machine.execMove queue s
  | .moveComplete queue seq => Sys2Proof.Machine.execMoveComplete queue seq s
  | .write queue => Sys2Proof.Machine.execWrite queue s
  | .writeComplete queue seq => Sys2Proof.Machine.execWriteComplete queue seq s
  | .semWait queue => Sys2Proof.Machine.execSemWait queue s
  | .semWaitPoll queue seq => Sys2Proof.Machine.execSemWaitPoll queue seq s
  | .semWaitTimeout queue seq => Sys2Proof.Machine.execSemWaitTimeout queue seq s
  | .semSignal queue => Sys2Proof.Machine.execSemSignal queue s
  | .collective queue => Sys2Proof.Machine.execCollective queue s
  | .phase queue => Sys2Proof.Machine.execPhase queue s
  | .hint queue => Sys2Proof.Machine.execHint queue s
  | .safePoint queue => Sys2Proof.Machine.execSafePoint queue s
  | .waitTime queue => Sys2Proof.Machine.execWaitTime queue s
  | .waitTimeReached queue seq => Sys2Proof.Machine.execWaitTimeReached queue seq s
  | .ledgerRead queue => Sys2Proof.Machine.execLedgerRead queue s
  | .opcodeReserved queue => Sys2Proof.Machine.execOpcodeReserved queue s
  | .completionWrite cq => Sys2Proof.Machine.execCompletionWrite cq s
  | .ackRead cq => Sys2Proof.Machine.execAckRead cq s
  | .msiWrite cq => Sys2Proof.Machine.execMsiWrite cq s
  | .cpQselWrite core cp pound size high value => Sys2Proof.Machine.execCpQselWrite core cp pound size high value s
  | .cpQctxWrite core cp pound word size high value => Sys2Proof.Machine.execCpQctxWrite core cp pound word size high value s
  | .queueEnable core cp pound => Sys2Proof.Machine.execQueueEnable core cp pound s
  | .queueDisable core cp pound => Sys2Proof.Machine.execQueueDisable core cp pound s
  | .cpQcmdBad core cp pound op => Sys2Proof.Machine.execCpQcmdBad core cp pound op s
  | .queueDrainTimeout queue => Sys2Proof.Machine.execQueueDrainTimeout queue s
  | .queueDrainEnd queue => Sys2Proof.Machine.execQueueDrainEnd queue s
  | .cpNoticeWrite core pound size high value => Sys2Proof.Machine.execCpNoticeWrite core pound size high value s
  | .rdshared home core line nature => Sys2Proof.Machine.execRdshared home core line nature s
  | .rdunique home core line nature => Sys2Proof.Machine.execRdunique home core line nature s
  | .upgrade home core line nature => Sys2Proof.Machine.execUpgrade home core line nature s
  | .zeroline home core line => Sys2Proof.Machine.execZeroline home core line s
  | .cleanline home core line => Sys2Proof.Machine.execCleanline home core line s
  | .flushline home core line => Sys2Proof.Machine.execFlushline home core line s
  | .wbreq home core line => Sys2Proof.Machine.execWbreq home core line s
  | .rdpref home core line nature => Sys2Proof.Machine.execRdpref home core line nature s
  | .rdvol home agent line nature => Sys2Proof.Machine.execRdvol home agent line nature s
  | .wrplain home agent line mask data => Sys2Proof.Machine.execWrplain home agent line mask data s
  | .wrpublish home agent line mask data => Sys2Proof.Machine.execWrpublish home agent line mask data s
  | .wrfull home agent line data => Sys2Proof.Machine.execWrfull home agent line data s
  | .atomic home agent op addr size value compare => Sys2Proof.Machine.execAtomic home agent op addr size value compare s
  | .snpshared home core line requester => Sys2Proof.Machine.execSnpshared home core line requester s
  | .snpunique home core line requester => Sys2Proof.Machine.execSnpunique home core line requester s
  | .snpinv home core line => Sys2Proof.Machine.execSnpinv home core line s
  | .snpflush home core line => Sys2Proof.Machine.execSnpflush home core line s
  | .snpclean home core line => Sys2Proof.Machine.execSnpclean home core line s
  | .snprecall home core line => Sys2Proof.Machine.execSnprecall home core line s
  | .snpcopy home core line => Sys2Proof.Machine.execSnpcopy home core line s
  | .comp home agent line => Sys2Proof.Machine.execComp home agent line s
  | .retry home agent line => Sys2Proof.Machine.execRetry home agent line s
  | .grant home agent line => Sys2Proof.Machine.execGrant home agent line s
  | .grantTimeout home agent line => Sys2Proof.Machine.execGrantTimeout home agent line s
  | .wbgo home core line => Sys2Proof.Machine.execWbgo home core line s
  | .wbcancel home core line => Sys2Proof.Machine.execWbcancel home core line s
  | .nodata home core line => Sys2Proof.Machine.execNodata home core line s
  | .snpresp home core line finalState forwardedDirty => Sys2Proof.Machine.execSnpresp home core line finalState forwardedDirty s
  | .compack home agent line => Sys2Proof.Machine.execCompack home agent line s
  | .dataresp home agent line granted data poison => Sys2Proof.Machine.execDataresp home agent line granted data poison s
  | .snpdata home dest line dirty data poison => Sys2Proof.Machine.execSnpdata home dest line dirty data poison s
  | .wbdata home core line data poison => Sys2Proof.Machine.execWbdata home core line data poison s
  | .lrHoldExpire core => Sys2Proof.Machine.execLrHoldExpire core s
  | .l2Prefetch core detector => Sys2Proof.Machine.execL2Prefetch core detector s
  | .archivePrefetch slice detector => Sys2Proof.Machine.execArchivePrefetch slice detector s
  | .readaheadExpire buffer line => Sys2Proof.Machine.execReadaheadExpire buffer line s
  | .cacheParityError core cache tagError line => Sys2Proof.Machine.execCacheParityError core cache tagError line s
  | .hostCacheLossReset => Sys2Proof.Machine.execHostCacheLossReset s
  | .hpfctlWrite core value => Sys2Proof.Machine.execHpfctlWrite core value s
  | .arcPfPoundWrite core slice pound size high value => Sys2Proof.Machine.execArcPfPoundWrite core slice pound size high value s
  | .bucketRefill => Sys2Proof.Machine.execBucketRefill s
  | .regulationActive slice => Sys2Proof.Machine.execRegulationActive slice s
  | .patrolScrub addr errors => Sys2Proof.Machine.execPatrolScrub addr errors s
  | .hbmChannelNoResponse channel => Sys2Proof.Machine.execHbmChannelNoResponse channel s
  | .expansionBufferExpire slice granule => Sys2Proof.Machine.execExpansionBufferExpire slice granule s
  | .nylTrainDone link => Sys2Proof.Machine.execNylTrainDone link s
  | .nylIdentityTimer link => Sys2Proof.Machine.execNylIdentityTimer link s
  | .nylIdentity link flit => Sys2Proof.Machine.execNylIdentity link flit s
  | .nylSelect link flit => Sys2Proof.Machine.execNylSelect link flit s
  | .nylDown link flit => Sys2Proof.Machine.execNylDown link flit s
  | .nylAck link flit => Sys2Proof.Machine.execNylAck link flit s
  | .nylRetry link flit => Sys2Proof.Machine.execNylRetry link flit s
  | .nylRetryTimer link => Sys2Proof.Machine.execNylRetryTimer link s
  | .nylRetryTimeout link => Sys2Proof.Machine.execNylRetryTimeout link s
  | .nylAckTimer link => Sys2Proof.Machine.execNylAckTimer link s
  | .nylCreditReturn link vc => Sys2Proof.Machine.execNylCreditReturn link vc s
  | .nylMessageSend link => Sys2Proof.Machine.execNylMessageSend link s
  | .nylIdleFlit link flit => Sys2Proof.Machine.execNylIdleFlit link flit s
  | .nylTimeSend link => Sys2Proof.Machine.execNylTimeSend link s
  | .nylTimeFlit link flit => Sys2Proof.Machine.execNylTimeFlit link flit s
  | .nylSilenceTimeout link => Sys2Proof.Machine.execNylSilenceTimeout link s
  | .nylLaneLockLost link lane => Sys2Proof.Machine.execNylLaneLockLost link lane s
  | .nylLostComplete link => Sys2Proof.Machine.execNylLostComplete link s
  | .nylRead link flit data => Sys2Proof.Machine.execNylRead link flit data s
  | .nylWritePlain link flit data => Sys2Proof.Machine.execNylWritePlain link flit data s
  | .nylWritePublish link flit data => Sys2Proof.Machine.execNylWritePublish link flit data s
  | .nylAdd64 link flit data => Sys2Proof.Machine.execNylAdd64 link flit data s
  | .nylSwap64 link flit data => Sys2Proof.Machine.execNylSwap64 link flit data s
  | .nylCas64 link flit data => Sys2Proof.Machine.execNylCas64 link flit data s
  | .readData link flit data => Sys2Proof.Machine.execReadData link flit data s
  | .writeDone link flit data => Sys2Proof.Machine.execWriteDone link flit data s
  | .atomicDone link flit data => Sys2Proof.Machine.execAtomicDone link flit data s
  | .nylError link flit data => Sys2Proof.Machine.execNylError link flit data s
  | .remoteTimeout tag => Sys2Proof.Machine.execRemoteTimeout tag s
  | .transitCreditTimeout link => Sys2Proof.Machine.execTransitCreditTimeout link s
  | .cdata link flit data => Sys2Proof.Machine.execCdata link flit data s
  | .cack link flit data => Sys2Proof.Machine.execCack link flit data s
  | .cabort link flit data => Sys2Proof.Machine.execCabort link flit data s
  | .collectivePieceSend queue seq => Sys2Proof.Machine.execCollectivePieceSend queue seq s
  | .collectiveComplete queue seq => Sys2Proof.Machine.execCollectiveComplete queue seq s
  | .collectiveTimeout queue seq => Sys2Proof.Machine.execCollectiveTimeout queue seq s
  | .nylLinkDisable core link => Sys2Proof.Machine.execNylLinkDisable core link s
  | .nylLinkEnable core link => Sys2Proof.Machine.execNylLinkEnable core link s
  | .nylLinkReset core link => Sys2Proof.Machine.execNylLinkReset core link s
  | .nylDisableTimeout link => Sys2Proof.Machine.execNylDisableTimeout link s
  | .linkControl link op => Sys2Proof.Machine.execLinkControl link op s
  | .pcieInboundRequest port request => Sys2Proof.Machine.execPcieInboundRequest port request s
  | .inboundMsi port requester addr data => Sys2Proof.Machine.execInboundMsi port requester addr data s
  | .pcieCompletion port tag status poisoned data => Sys2Proof.Machine.execPcieCompletion port tag status poisoned data s
  | .pcieCompletionTimeout port tag => Sys2Proof.Machine.execPcieCompletionTimeout port tag s
  | .pcieLinkDown port => Sys2Proof.Machine.execPcieLinkDown port s
  | .portRetrain core port => Sys2Proof.Machine.execPortRetrain core port s
  | .portRelease core port => Sys2Proof.Machine.execPortRelease core port s
  | .iotinvalVma gscid pscid addr => Sys2Proof.Machine.execIotinvalVma gscid pscid addr s
  | .iotinvalGvma gscid addr => Sys2Proof.Machine.execIotinvalGvma gscid addr s
  | .iofenceC => Sys2Proof.Machine.execIofenceC s
  | .roceDoorbell core port qp value => Sys2Proof.Machine.execRoceDoorbell core port qp value s
  | .roceFlush core port qp value => Sys2Proof.Machine.execRoceFlush core port qp value s
  | .roceSend port qp => Sys2Proof.Machine.execRoceSend port qp s
  | .roceSendImm port qp => Sys2Proof.Machine.execRoceSendImm port qp s
  | .roceWrite port qp => Sys2Proof.Machine.execRoceWrite port qp s
  | .roceWriteImm port qp => Sys2Proof.Machine.execRoceWriteImm port qp s
  | .roceRead port qp => Sys2Proof.Machine.execRoceRead port qp s
  | .roceFetchAdd port qp => Sys2Proof.Machine.execRoceFetchAdd port qp s
  | .roceCmpSwap port qp => Sys2Proof.Machine.execRoceCmpSwap port qp s
  | .roceRawFrame port qp => Sys2Proof.Machine.execRoceRawFrame port qp s
  | .roceInboundRequest port qp request => Sys2Proof.Machine.execRoceInboundRequest port qp request s
  | .roceAck port qp count atomicResult => Sys2Proof.Machine.execRoceAck port qp count atomicResult s
  | .roceRetryTimeout port qp => Sys2Proof.Machine.execRoceRetryTimeout port qp s
  | .roceRnrRetry port qp => Sys2Proof.Machine.execRoceRnrRetry port qp s
  | .roceCnp port qp => Sys2Proof.Machine.execRoceCnp port qp s
  | .roceRateRecover port qp => Sys2Proof.Machine.execRoceRateRecover port qp s
  | .hioEthQptWrite core port size high value => Sys2Proof.Machine.execHioEthQptWrite core port size high value s
  | .pldmDiscovery => Sys2Proof.Machine.execPldmDiscovery s
  | .pldmSensorRead sensor => Sys2Proof.Machine.execPldmSensorRead sensor s
  | .pldmFruRead => Sys2Proof.Machine.execPldmFruRead s
  | .pldmFirmwareUpdate component version image sigR sigS => Sys2Proof.Machine.execPldmFirmwareUpdate component version image sigR sigS s
  | .loadCharter offset part last => Sys2Proof.Machine.execLoadCharter offset part last s
  | .cancelCharter => Sys2Proof.Machine.execCancelCharter s
  | .clearExclusion target => Sys2Proof.Machine.execClearExclusion target s
  | .readSummary => Sys2Proof.Machine.execReadSummary s
  | .pldmUnsupported code => Sys2Proof.Machine.execPldmUnsupported code s
  | .getVersion => Sys2Proof.Machine.execGetVersion s
  | .getCapabilities => Sys2Proof.Machine.execGetCapabilities s
  | .negotiateAlgorithms ecdsaP384 sha384 => Sys2Proof.Machine.execNegotiateAlgorithms ecdsaP384 sha384 s
  | .getDigests => Sys2Proof.Machine.execGetDigests s
  | .getCertificate slot offset length => Sys2Proof.Machine.execGetCertificate slot offset length s
  | .challenge slot nonce => Sys2Proof.Machine.execChallenge slot nonce s
  | .getMeasurements index nonce => Sys2Proof.Machine.execGetMeasurements index nonce s
  | .sluiceTick sample => Sys2Proof.Machine.execSluiceTick sample s
  | .ballastChain tile mismatch => Sys2Proof.Machine.execBallastChain tile mismatch s
  | .measureCheck measuredW => Sys2Proof.Machine.execMeasureCheck measuredW s
  | .opStepEnd pound => Sys2Proof.Machine.execOpStepEnd pound s
  | .hostFreqStep core allowedMhz => Sys2Proof.Machine.execHostFreqStep core allowedMhz s
  | .droopDetect tile => Sys2Proof.Machine.execDroopDetect tile s
  | .droopClear tile => Sys2Proof.Machine.execDroopClear tile s
  | .opStepResume pound => Sys2Proof.Machine.execOpStepResume pound s
  | .heavyWindowEnd pound => Sys2Proof.Machine.execHeavyWindowEnd pound s
  | .thermalSample die tempC => Sys2Proof.Machine.execThermalSample die tempC s
  | .regulatorAlert regulator => Sys2Proof.Machine.execRegulatorAlert regulator s
  | .pwrBrakeFall lowNs => Sys2Proof.Machine.execPwrBrakeFall lowNs s
  | .pwrBrakeRise => Sys2Proof.Machine.execPwrBrakeRise s
  | .alertLowestPoint => Sys2Proof.Machine.execAlertLowestPoint s
  | .alertRelease measuredW => Sys2Proof.Machine.execAlertRelease measuredW s
  | .inputVoltageEvent millivolts heldUs => Sys2Proof.Machine.execInputVoltageEvent millivolts heldUs s
  | .pwrFgDescValid core pound size high value => Sys2Proof.Machine.execPwrFgDescValid core pound size high value s
  | .preemptAttempt tile reached => Sys2Proof.Machine.execPreemptAttempt tile reached s
  | .preemptRetry tile => Sys2Proof.Machine.execPreemptRetry tile s
  | .auditDue die => Sys2Proof.Machine.execAuditDue die s
  | .auditOverdue tile => Sys2Proof.Machine.execAuditOverdue tile s
  | .auditHeatTimeout tile tempC => Sys2Proof.Machine.execAuditHeatTimeout tile tempC s
  | .auditPhaseEnd tile tempC failPoint failIndex => Sys2Proof.Machine.execAuditPhaseEnd tile tempC failPoint failIndex s
  | .auditEnd tile => Sys2Proof.Machine.execAuditEnd tile s
  | .collationCheckDone checker matched => Sys2Proof.Machine.execCollationCheckDone checker matched s
  | .collationArbiterDone source result => Sys2Proof.Machine.execCollationArbiterDone source result s
  | .collationArbiterTimeout source => Sys2Proof.Machine.execCollationArbiterTimeout source s
  | .rateLimitSecond => Sys2Proof.Machine.execRateLimitSecond s
  | .fltRingEnable core size high value => Sys2Proof.Machine.execFltRingEnable core size high value s
  | .fltRingConsWrite core size high value => Sys2Proof.Machine.execFltRingConsWrite core size high value s
  | .resetNFall lowNs => Sys2Proof.Machine.execResetNFall lowNs s
  | .bringupStart => Sys2Proof.Machine.execBringupStart s
  | .firmwareVerified component copy0Ok copy1Ok => Sys2Proof.Machine.execFirmwareVerified component copy0Ok copy1Ok s
  | .sirentTrainTimeout link => Sys2Proof.Machine.execSirentTrainTimeout link s
  | .storedCharterVerify => Sys2Proof.Machine.execStoredCharterVerify s
  | .host0Release => Sys2Proof.Machine.execHost0Release s
  | .functionReady function => Sys2Proof.Machine.execFunctionReady function s
  | .classSettleTimeout cls => Sys2Proof.Machine.execClassSettleTimeout cls s
  | .hartStart core target size value => Sys2Proof.Machine.execHartStart core target size value s
  | .hartEntrySet core target size high value => Sys2Proof.Machine.execHartEntrySet core target size high value s
  | .lockkeeperWatchdog => Sys2Proof.Machine.execLockkeeperWatchdog s
  | .uncoreWarmReset core => Sys2Proof.Machine.execUncoreWarmReset core s
  | .warmResetNFall lowNs => Sys2Proof.Machine.execWarmResetNFall lowNs s
  | .uncoreResetPhase2 => Sys2Proof.Machine.execUncoreResetPhase2 s
  | .hostComplexWarmReset core => Sys2Proof.Machine.execHostComplexWarmReset core s
  | .catHeartbeat core pound => Sys2Proof.Machine.execCatHeartbeat core pound s
  | .heartbeatCheck => Sys2Proof.Machine.execHeartbeatCheck s
  | .selfReset core pound => Sys2Proof.Machine.execSelfReset core pound s
  | .selfResetDrainTimeout pound => Sys2Proof.Machine.execSelfResetDrainTimeout pound s
  | .resume core pound => Sys2Proof.Machine.execResume core pound s
  | .disarm core pound => Sys2Proof.Machine.execDisarm core pound s
  | .powerApplied => Sys2Proof.Machine.execPowerApplied s
  | .tileIllegalInstruction tile hart word => Sys2Proof.Machine.execTileIllegalInstruction tile hart word s
  | .regulatorAlertClear regulator => Sys2Proof.Machine.execRegulatorAlertClear regulator s
  | .ethLinkDown port => Sys2Proof.Machine.execEthLinkDown port s
  | .pcieIntx port pin assert => Sys2Proof.Machine.execPcieIntx port pin assert s
  | .pcieLinkRetrain port => Sys2Proof.Machine.execPcieLinkRetrain port s
  | .debugAccess requester target addr isWrite value => Sys2Proof.Machine.execDebugAccess requester target addr isWrite value s
  | .roceInboundSend port qp message => Sys2Proof.Machine.execRoceInboundSend port qp message s
  | .roceReadResponse port qp data => Sys2Proof.Machine.execRoceReadResponse port qp data s
  | .roceNak port qp kind => Sys2Proof.Machine.execRoceNak port qp kind s
  | .dynamicAddressAssignment address => Sys2Proof.Machine.execDynamicAddressAssignment address s
  | .setEndpointId eid => Sys2Proof.Machine.execSetEndpointId eid s

end Sys2Proof.Machine
end

