-- ==== Sys2Proof/Machine/Idle.lean ====
section
/-!
DEFINITION. What one cycle of the module reference does while no command waits (log entry 2): time passes, each hart's oldest
store becomes visible, and each root port sends its oldest posted write.
-/

namespace Sys2Proof.Machine

/-- Picoseconds that Lock Time advances in one reference cycle of 10 ns: the trim is open within 200 ppm (R102; log entry 5). -/
def trimmed (n : Nat) : Nat := ((10000 : Int) + max (-2) (min 2 (Config.freeTrim n))).toNat

/-- LT_NOW counts on the module reference (R102). -/
def Work.countTime (w : Work) : Work :=
  let (n, w) := w.take
  { w with chip.refPs := w.chip.refPs + 10000, chip.time.nowPs := w.chip.time.nowPs + trimmed n }

/-- A root port whose link is up sends its oldest posted write (R465, R482). -/
def Port.sendOne (x : Port) : Port := if x.st = .up then { x with posted := x.posted.drop 1 } else x

/-- One cycle of the module reference; none passes while the module has no power or no reference (R511, R596). -/
def Work.tick (w : Work) : Work :=
  if !w.chip.boot.powered || !w.chip.boot.refOk then w
  else
    let w := w.countTime
    let w := w.each (w.chip.cores.map (·.1)) (fun w c => w.drainOne c)
    { w with chip.ports := SMap.mapVal w.chip.ports (fun _ x => x.sendOne) }

end Sys2Proof.Machine
end

