-- ==== Sys2Proof/Safety.lean ====
section
/-!
DEFINITION. What holds of every state that a step can reach from one in which it holds, and the words in which statements
about commands are said: a command gives a next state, and what it leaves as it was.
-/

namespace Sys2Proof

open Sys2Proof.Machine

/-- The invariant of the module: memory is in its canonical form. -/
def Inv (s : State) : Prop := s.mem.wf = true

/-- The command has a next state, and P holds of it. -/
def Gives (c : Instr) (s : State) (P : State → Prop) : Prop := ∃ t, exec c s = .next t ∧ P t

/-- Memory, fuses and the waiting commands are as they were. -/
def SameMem (s t : State) : Prop := t.mem = s.mem ∧ t.fuse = s.fuse ∧ t.pending = s.pending

/-- Tile k, and host core c, of a state. -/
def tileOf (s : State) (k : Nat) : Tile := (Work.of s).tile k
def coreOf (s : State) (c : Nat) : HostCore := (Work.of s).core c

/-- Tile k becomes f of what it was, and nothing else on the chip or in memory has changed. -/
def TileTo (k : Nat) (f : Tile → Tile) (s t : State) : Prop :=
  SameMem s t ∧ t.chip = { s.chip with tiles := t.chip.tiles } ∧ tileOf t k = f (tileOf s k) ∧
  ∀ u, u ≠ k → tileOf t u = tileOf s u

/-- Host core c becomes f of what it was, and nothing else on the chip or in memory has changed. -/
def CoreTo (c : Nat) (f : HostCore → HostCore) (s t : State) : Prop :=
  SameMem s t ∧ t.chip = { s.chip with cores := t.chip.cores } ∧ coreOf t c = f (coreOf s c) ∧
  ∀ d, d ≠ c → coreOf t d = coreOf s d

/-- Host core c goes on at once: no hardware error is due, and no load of it from a port is outstanding (R322, R371). -/
def HartFree (s : State) (c : Nat) : Prop := (coreOf s c).hwError = none ∧ (Work.of s).hartBusy c = false

/-- A write of host core c to the register at control offset off takes effect at once: the hart goes on, none of its stores waits
in its store buffer, the writer may write it, and its unit is in service (R8, R70, R329, R559, R612). -/
def RegOpen (s : State) (c off : Nat) (allowed : Bool) : Prop :=
  HartFree s c ∧ (coreOf s c).storeBuf = [] ∧ (Work.of s).blockOut off = false ∧ allowed = true ∧ (Work.of s).cpOut off = false ∧ (Work.of s).tileOut off = false

/-- P holds of the state before the trap of host core c is cleared: the end of a write to a register. -/
def ThenCore (c : Nat) (P : State → State → Prop) (s t : State) : Prop :=
  ∃ u, P s u ∧ CoreTo c (fun x => { x with trap := none }) u t

/-- Bytes bs are stored from address a upward, and every other byte of memory reads as before; the code words that the
store covers whole are no longer poisoned, every other one is as it was (R372). -/
def Stored (a : Nat) (bs : List Byte) (s t : State) : Prop :=
  (∀ j, t.mem.read1 j = if a ≤ j ∧ j < a + bs.length then bs.getD (j - a) 0 else s.mem.read1 j) ∧
  ∀ cw, t.mem.poisoned cw = if a ≤ cw * 32 ∧ (cw + 1) * 32 ≤ a + bs.length then false else s.mem.poisoned cw

/-- Hart h of tile k stores bytes at offset a of its tile store and goes on, its registers changed by f; reservations of the
other cores of the tile on its granules end (R616); nothing else changes. -/
def TileStores (k h a : Nat) (bs : List Byte) (f : TileCore → TileCore) (s t : State) : Prop :=
  Stored (tileAddr k a) bs s t ∧ t.fuse = s.fuse ∧ t.pending = s.pending ∧
  t.chip = { s.chip with tiles := t.chip.tiles } ∧ (∀ u, u ≠ k → tileOf t u = tileOf s u) ∧
  tileOf t k = { tileOf s k with cores := (tileOf t k).cores } ∧
  (tileOf t k).core h = (((tileOf s k).modCore h f).advance h).core h ∧
  ∀ g, g ≠ h → (tileOf t k).core g =
    if ((tileOf s k).core g).reservedIn (tileAddr k a) bs.length then { (tileOf s k).core g with reserved := none }
    else (tileOf s k).core g

/-- Nothing of tile k's work lies outside the tile, nothing waits to be written to it, no write waits at a tile or a port, and no
other tile is in its launch. -/
def WorksAlone (s : State) (k : Nat) : Prop :=
  s.chip.samples = [] ∧ s.chip.remotes = [] ∧ (tileOf s k).array.replay = none ∧ (tileOf s k).heldWrites = [] ∧
  (∀ e ∈ s.chip.tiles, e.2.heldWrites = []) ∧ (∀ e ∈ s.chip.ports, e.2.posted = [] ∧ e.2.reqs = []) ∧
  ∀ l, (tileOf s k).launch = some l → (Work.of s).groupOf l.sq l.seq = [k]

/-- No queue's next command is a checked LAUNCH that names tile k. -/
def NoLaunchWaits (s : State) (k : Nat) : Prop :=
  ∀ q c, (Work.of s).turn? q 1 = some c → c.count = 1 → c.launchTiles.contains k = false

/-- The address of a tile core's access is in its tile store, aligned, and the core runs (R130, R131). -/
def StoreAccess (s : State) (k h a n : Nat) : Prop := (Work.of s).runs k h = true ∧ a % n = 0 ∧ a + n ≤ 0x60_0000

/-- A tile whose semaphore m has received n units: beyond 0xFFFF_FFFF it stays there and its overflow bit is set (R149). -/
def semPlus (x : Tile) (m n : Nat) : Tile :=
  if 0xFFFFFFFF < x.sem m + n then { x.setSem m 0xFFFFFFFF with semOverflow := setBit x.semOverflow m true }
  else x.setSem m (x.sem m + n)

/-- Tiles j and k alone have changed on the chip, and nothing in memory. -/
def OnlyTiles (j k : Nat) (s t : State) : Prop :=
  SameMem s t ∧ t.chip = { s.chip with tiles := t.chip.tiles } ∧ ∀ u, u ≠ j → u ≠ k → tileOf t u = tileOf s u

/-- An engine's write of bytes at offset off of tile k's store can be performed at once: the tile is in service and not in
an exchange, the bytes lie in its store and are not held, and no host core holds their lines dirty. -/
def StoreFree (s : State) (k off n : Nat) : Prop :=
  (Work.of s).tileInService k = true ∧ (tileOf s k).st ≠ .exchanging ∧ 0 < n ∧ off + n ≤ 0x60_0000 ∧
  (tileOf s k).holds off n = false ∧ (Work.of s).dirtyIn (lineLo (tileAddr k off)) (lineHi (tileAddr k off) n) = []

/-- No hart holds, after an LR, a line of these bytes of tile k's store (R326). -/
def NotHeld (s : State) (k off n : Nat) : Prop :=
  (Work.of s).heldBy none (lineLo (tileAddr k off)) (lineHi (tileAddr k off) n) = false

/-- No chain of tile k is sampled when it starts: its pound does not sample, or it has none (R530, R531). -/
def NoSampling (s : State) (k : Nat) : Prop := ∀ p, (Work.of s).tileOwner k = some p → (Work.of s).sampling p = false

/-- What an instruction of the array does to the tile as it enters the queue: it takes the next number, which rd receives,
and the control core goes on (R173). -/
def Queued (x : Tile) (a : Array_) (rd : Nat) (i : MInstr) : Tile :=
  (({ x with array := ({ a with issued := x.array.issued + 1, queue := a.queue ++ [i] }).settle }).modCore 0
    (fun c => c.setReg rd (BitVec.ofNat 64 (x.array.issued + 1)))).advance 0

/-- The command has a next state: its chip is that of workbench w, memory is what the writes of w leave, and fuses and queue
are as they were. -/
def Runs (c : Instr) (s : State) (w : Work) : Prop := exec c s = .next { s with chip := w.chip, mem := s.mem.perform w.wr }

/-- The command has a next state: its chip is ch, and memory, fuses and queue are as they were. -/
def Becomes (c : Instr) (s : State) (ch : Chip) : Prop := exec c s = .next { s with chip := ch }

/-- The trap of host core c is cleared: the end of an access that takes effect. -/
def untrap (c : Nat) (w : Work) : Work := w.modCore c (fun x => { x with trap := none })

/-- Submission queue q, and completion queue c, of a state. -/
def sqOf (s : State) (q : Nat) : Sq := (Work.of s).sq q
def cqOf (s : State) (c : Nat) : Cq := (Work.of s).cq c

/-- What opcode op of command-set version 1 asks of a command's header and operands (R284, R288 to R294). -/
def formatOk (op : Nat) (c : Cmd) : Bool :=
  match op with
  | 0 => c.headerOk 0 0
  | 1 => c.launchOk
  | 2 => c.headerOk 0 0 && c.at_ 0x0C 4 < 32 && c.zero 0x38 0x40
  | 3 => c.headerOk 1 7 && c.zero 0x0C 0x10 && c.zero 0x1C 0x40 && 1 ≤ c.at_ 0x18 2 && c.at_ 0x18 2 ≤ 448 &&
      c.at_ 0x1A 2 ≤ 1 && (c.at_ 0x18 2 + 63) / 64 ≤ c.extra
  | 4 => c.headerOk 0 0 && c.zero 0x0C 0x10 && c.at_ 0x10 8 % 8 = 0 && c.at_ 0x20 1 ≤ 1 && c.zero 0x21 0x24 && c.zero 0x28 0x40
  | 5 => c.signalOk
  | 7 => c.headerOk 0 0 && c.at_ 0x0C 1 ≤ 15 && c.zero 0x0D 0x40
  | 8 => c.headerOk 0 0 && c.at_ 0x0C 1 ≤ 15 && c.at_ 0x0D 1 = 0 && 1 ≤ c.at_ 0x0E 2 && c.at_ 0x0E 2 ≤ 10000 && c.zero 0x10 0x40
  | 9 => c.headerOk 0 0 && c.zero 0x1E 0x40
  | 10 => c.headerOk 0 0 && c.zero 0x0C 0x10 && c.zero 0x18 0x40
  | 11 => c.headerOk 0 0 && c.at_ 0x0E 1 ≤ 15 && c.at_ 0x0F 1 ≤ 1 && c.at_ 0x10 8 % 8 = 0 && c.zero 0x18 0x40
  | _ => false

/-- The next command of queue q to start is c, of opcode op, and it breaks no rule of its format. -/
def Turn (s : State) (q op : Nat) (c : Cmd) : Prop := (Work.of s).turn? q op = some c ∧ formatOk op c = true

/-- Command c of queue q, of opcode op and number n, has started and not completed. -/
def Going (s : State) (q : Nat) (n : W32) (op : Nat) (c : Cmd) : Prop := (Work.of s).started? q n op = some c

/-- A request on its way to a home: the home, the line, the requester, what it asks (R361), and what nature does to the line as
it is read. -/
structure Req where
  home : Nat
  line : Nat
  agent : Nat
  kind : MsgKind
  op : HomeOp
  nature : Nature

/-- The request that a command brings to a home. -/
def reqOf (c : Instr) : Option Req :=
  match c with
  | .rdshared h c l n => some { home := h, line := l.toNat, agent := c, kind := .rdShared, op := .read, nature := n }
  | .rdunique h c l n => some { home := h, line := l.toNat, agent := c, kind := .rdUnique, op := .read, nature := n }
  | .upgrade h c l n => some { home := h, line := l.toNat, agent := c, kind := .upgrade, op := .read, nature := n }
  | .rdpref h c l n => some { home := h, line := l.toNat, agent := c, kind := .rdPref, op := .read, nature := n }
  | .rdvol h a l n => some { home := h, line := l.toNat, agent := a, kind := .rdVol, op := .read, nature := n }
  | .zeroline h c l => some { home := h, line := l.line.toNat, agent := c, kind := .zeroLine, op := .read, nature := l.nature }
  | .cleanline h c l => some { home := h, line := l.line.toNat, agent := c, kind := .cleanLine, op := .read, nature := l.nature }
  | .flushline h c l => some { home := h, line := l.line.toNat, agent := c, kind := .flushLine, op := .read, nature := l.nature }
  | .wrplain h a l m d =>
    some { home := h, line := l.line.toNat, agent := a, kind := .wrPlain, op := .write m d, nature := l.nature }
  | .wrpublish h a l m d =>
    some { home := h, line := l.line.toNat, agent := a, kind := .wrPublish, op := .write m d, nature := l.nature }
  | .wrfull h a l d =>
    some { home := h, line := l.line.toNat, agent := a, kind := .wrFull, op := .write (BitVec.allOnes 128) d, nature := l.nature }
  | .atomic h a op addr z v k =>
    if amoSize op z then some { home := h, line := addr.addr.toNat / 128, agent := a, kind := .atomic,
                                op := .atomic op addr.addr.toNat z v k, nature := addr.nature }
    else none
  | _ => none

/-- The state as a request finds it: nature has repaired what it can, and a request that reads stored words has read the line
with what nature does to it (R376, R392). -/
def Req.at_ (r : Req) (s : State) : Work :=
  let w := (Work.of s).repair r.home r.nature
  if readsLine r.kind r.op then w.readLine r.line r.nature else w

/-- The request reaches the home of its line, which no scratchpad way and no tile holds, the requester may send it, the module
runs, and no tag or directory entry is lost (R317, R345, R367, R376). -/
def Req.arrives (r : Req) (s : State) : Prop :=
  (Work.of s).comes r.home r.line r.agent r.kind = true ∧ metadataGone r.nature r.home = false

/-- A directory entry that some core owns (R359). -/
def Machine.DirEntry.owned (e : DirEntry) : Prop := e.st = .o ∨ e.st = .em

end Sys2Proof
end

