-- ==== Sys2Proof/Certificates/Slice0/Obligations.lean ====
section
/-!
DEFINITION. The statements about the model, for the provers. Each names the rules of the manual it rests on.
-/

open Sys2Proof Sys2Proof.Machine

/-! ## The step -/

/-- The command at the front of the queue runs with the rest of the queue; on an empty queue one reference cycle passes
(log entry 2). -/
def Obligations.StepRunsTheFront : Prop :=
  ∀ (s : State) (c : Instr) (rest : List Instr),
    (s.pending = c :: rest → step s = exec c { s with pending := rest }) ∧
    (s.pending = [] → step s = lift Work.tick s)

/-- Every step, whatever command is at the front, keeps memory in its canonical form. -/
def Obligations.StepKeepsInv : Prop :=
  ∀ s t : State, Inv s → step s = .next t → Inv t

/-- Memory is in its canonical form after reset, no command waits, and every byte of it reads alike. -/
def Obligations.ResetMeetsInv : Prop :=
  Inv State.reset ∧ State.reset.pending = [] ∧ ∀ a b : Nat, State.reset.mem.read1 a = State.reset.mem.read1 b

/-- A command whose operands have the shape that the manual gives always has a next state, and one whose operands have
not never has one.

No command changes the fuses or the queue of waiting commands. -/
def Obligations.CommandOutcomes : Prop :=
  (∀ (s : State) (c : Instr),
     (c.wellFormed = true → ∃ t, exec c s = .next t) ∧ (c.wellFormed = false → exec c s = .fault .illFormed)) ∧
  (∀ (s t : State) (c : Instr), exec c s = .next t → t.fuse = s.fuse ∧ t.pending = s.pending)

/-- One reference cycle without a command: LT_NOW grows by 10 ns and its trim within 200 ppm (R102; log entries 2 and 5), the reference time by 10 ns;
a module without power or without its reference stands still. -/
def Obligations.IdleCycle : Prop :=
  ∀ s : State, s.pending = [] →
    ((s.chip.boot.powered && s.chip.boot.refOk) = false → step s = .next s) ∧
    (∀ t, step s = .next t → s.chip.boot.powered = true → s.chip.boot.refOk = true → s.chip.cores = [] →
      t.chip.refPs = s.chip.refPs + 10000 ∧ s.chip.time.nowPs + 9998 ≤ t.chip.time.nowPs ∧
      t.chip.time.nowPs ≤ s.chip.time.nowPs + 10002 ∧ t.mem = s.mem)


/-! ## Cores of a tile -/

/-- A core that goes on to the next instruction: pc and the instruction count advance, its row of 64 B is in the
instruction cache, which holds at most 512 rows (R126, R139); nothing else of the tile differs.

Vector cores: their start and halt, FENCE.I, tvflush and tmcomp, and the exp, log and reciprocal unit on a legal
instruction (R135 to R139, R409). -/
def Obligations.TileIssueAndVectorCores : Prop :=
  (∀ (x : Tile) (h : Nat),
     (x.advance h).core h =
       { x.core h with
         pc := (x.core h).pc + 4
         instret := (x.core h).instret + 1
         icache := ((x.advance h).core h).icache } ∧
     (x.core h).pc.toNat / 64 ∈ ((x.advance h).core h).icache ∧ ((x.advance h).core h).icache.length ≤ 512 ∧
     (∀ g : Nat, g ≠ h → (x.advance h).core g = x.core g) ∧ x.advance h = { x with cores := (x.advance h).cores }) ∧
  ((∀ (s : State) (k : TileId) (v : Fin 4) (rs2 : BitVec 5), (Work.of s).runs k 0 = true →
     ((tileOf s k).core (v + 1 : Nat)).running = false →
     Gives (.vectorCoreStart k v rs2) s (TileTo k (fun x =>
       (x.modCore (v + 1 : Nat) (fun c =>
         ({ TileCore.zero with running := true, pc := (x.core 0).reg rs2.toNat, flush := c.flush, exit := c.exit, cycle := c.cycle }).setReg
           10 (SMap.get 0 x.vargs (v + 1 : Nat)))).advance 0) s)) ∧
   (∀ (s : State) (k : TileId) (v : Fin 4) (rs2 : BitVec 5), (Work.of s).runs k 0 = true →
     ((tileOf s k).core (v + 1 : Nat)).running = true →
     Gives (.vectorCoreStart k v rs2) s (TileTo k (fun x => x.advance 0) s)) ∧
   (∀ (s : State) (k : TileId) (v : Fin 4), (Work.of s).runs k (v + 1 : Nat) = true →
     Gives (.vectorEcall k v) s (TileTo k (fun x => (x.advance (v + 1 : Nat)).modCore (v + 1 : Nat) (fun c =>
       { c with running := false, exit := c.reg 10 })) s)) ∧
   (∀ (s : State) (k : TileId) (v : Fin 4), (Work.of s).runs k (v + 1 : Nat) = true →
     Gives (.vectorFenceI k v) s (TileTo k (fun x => (x.advance (v + 1 : Nat)).modCore (v + 1 : Nat) (fun c =>
       { c with icache := [] })) s)) ∧
   (∀ (s : State) (k : TileId) (v : Fin 4) (value : W64), (Work.of s).runs k (v + 1 : Nat) = true →
     Gives (.tvflushWrite k v value) s (TileTo k (fun x => (x.modCore (v + 1 : Nat) (fun c =>
       { c with flush := value.getLsbD 0 })).advance (v + 1 : Nat)) s)) ∧
   (∀ (s : State) (k : TileId) (value : W64), (Work.of s).runs k 0 = true →
     Gives (.tmcompWrite k value) s (TileTo k (fun x => (x.modCore 0 (fun c =>
       { c with tmcomp := value &&& 1 })).advance 0) s)) ∧
   (∀ (s : State) (k : TileId) (v : Fin 4) (vd vs2 : BitVec 5) (vm : Bool), (Work.of s).runs k (v + 1 : Nat) = true →
     ((tileOf s k).core (v + 1 : Nat)).vhLegal vd.toNat vs2.toNat vm = true →
     let run (op : VhOp) := TileTo k (fun x =>
       (x.modCore (v + 1 : Nat) (fun c => c.vhRun op vd.toNat vs2.toNat vm)).advance (v + 1 : Nat)) s
     Gives (.vhexp2V k v vd vs2 vm) s (run .exp2) ∧ Gives (.vhlog2V k v vd vs2 vm) s (run .log2) ∧
     Gives (.vhrecV k v vd vs2 vm) s (run .recip) ∧ Gives (.vhrsqrtV k v vd vs2 vm) s (run .rsqrt)))

/-- SIGNAL, WAIT, the end of a wait, and the control core's store to VALUE (R146 to R149): the count, an overflow that
saturates, the register that receives the old count, a WAIT that stalls; nothing else changes.

TL_CTRL, TL_SEM_SIGNAL and TL_FAULT written by a host core of the tile's owner (R158, R160, R164, R166): for a tile that
no queue's next launch names and, at RESET, that no canal ends at. -/
def Obligations.TileSemaphoresAndControl : Prop :=
  ((∀ (s : State) (k : TileId) (h : TileHart) (sem : Fin 64) (rd rs2 : BitVec 5), (Work.of s).runs k h = true →
     Gives (.signal k h sem rd rs2) s (TileTo k (fun x =>
       ((semPlus x sem (((x.core h).reg rs2.toNat).toNat % 2 ^ 32)).modCore h (fun c =>
         c.setReg rd.toNat (sext 32 (x.sem sem)))).advance h) s)) ∧
   (∀ (s : State) (k : TileId) (h : TileHart) (sem : Fin 64) (rd rs2 : BitVec 5), (Work.of s).runs k h = true →
     (Work.of s).portTakes k sem = false →
     let x := tileOf s k
     let n := ((x.core h).reg rs2.toNat).toNat % 2 ^ 32
     (n = 0 ∨ n ≤ x.sem sem ∧ (∀ v ∈ x.waiters, v.sem ≠ sem) →
       Gives (.wait k h sem rd rs2) s (TileTo k (fun x =>
         ((x.setSem sem (x.sem sem - n)).modCore h (fun c => c.setReg rd.toNat (sext 32 (x.sem sem)))).advance h) s)) ∧
     (n ≠ 0 → (x.sem sem < n ∨ ∃ v ∈ x.waiters, v.sem = sem) →
       Gives (.wait k h sem rd rs2) s (TileTo k (fun x =>
         { x.modCore h (fun c => { c with stalled := true }) with
           waiters := x.waiters ++ [{ sem := sem, hart := h, amount := n, rd := rd.toNat }] }) s))) ∧
   (∀ (s : State) (k : TileId) (h : TileHart) (v : Waiter),
     (tileOf s k).waiters.find? (fun u => u.hart = h.val) = some v →
     (tileOf s k).waiters.find? (fun u => u.sem = v.sem) = some v → v.amount ≤ (tileOf s k).sem v.sem →
     Gives (.waitReturn k h) s (TileTo k (fun x =>
       { ((x.setSem v.sem (x.sem v.sem - v.amount)).modCore h (fun c =>
           { c.setReg v.rd (sext 32 (x.sem v.sem)) with stalled := false })).advance h with
         waiters := x.waiters.filter (fun u => u.hart ≠ h.val) }) s)) ∧
   (∀ (s : State) (k : TileId) (sem : Fin 64) (rs2 : BitVec 5), (Work.of s).runs k 0 = true →
     Gives (.semValueStore k sem rs2) s (TileTo k (fun x =>
       (x.setSem sem (((x.core 0).reg rs2.toNat).toNat % 2 ^ 32)).advance 0) s))) ∧
  ((∀ (s : State) (c : CoreId) (k : TileId), RegOpen s c (tlOff k + 0x10) ((Work.of s).ownsTile c k) → NoLaunchWaits s k →
     ((tileOf s k).st = .idle → Gives (.tlDisable c k) s (ThenCore c (TileTo k (fun x => { x with st := .disabled })) s)) ∧
     ((tileOf s k).st = .loading ∨ (tileOf s k).st = .running →
       Gives (.tlDisable c k) s (ThenCore c (TileTo k (fun x => { x with st := .draining })) s))) ∧
   (∀ (s : State) (c : CoreId) (k : TileId), RegOpen s c (tlOff k + 0x10) ((Work.of s).ownsTile c k) →
     (tileOf s k).st = .disabled → Gives (.tlEnable c k) s (ThenCore c (TileTo k (fun x => { x with st := .idle })) s)) ∧
   (∀ (s : State) (c : CoreId) (k : TileId), RegOpen s c (tlOff k + 0x10) ((Work.of s).ownsTile c k) →
     (tileOf s k).st = .disabled ∨ (tileOf s k).st = .quarantined ∨ (tileOf s k).st = .spare →
     (∀ r ∈ (Work.of s).canals, r.c.prod ≠ k.val ∧ r.c.cons ≠ k.val) →
     Gives (.tlReset c k) s (ThenCore c (TileTo k (fun x =>
       { Tile.resetWith x.phys with st := x.st, exDue := x.exDue })) s)) ∧
   (∀ (s : State) (c : CoreId) (k : TileId) (sem : Fin 64) (n : W32),
     RegOpen s c (tlOff k + 0x1008 + sem * 0x20) ((Work.of s).ownsTile c k) →
     Gives (.tlSemSignal c k sem n) s (ThenCore c (TileTo k (fun x => semPlus x sem n.toNat)) s)) ∧
   (∀ (s : State) (c : CoreId) (k : TileId), RegOpen s c (tlOff k + 0x18) ((Work.of s).ownsTile c k) →
     Gives (.tlFaultClear c k) s (ThenCore c (TileTo k (fun x => { x with fault := TileFault.zero })) s)))

/-- Loads of a tile core from its tile store: an integer register is sign or zero extended, a floating-point register is
NaN-boxed, a vector load fills elements vstart to vl - 1 from consecutive addresses and clears vstart; LR also reserves its
granule of 128 B (R128 to R131, R134, R616). Nothing else changes. -/
def Obligations.TileLoads : Prop :=
  (∀ (s : State) (k : TileId) (h : TileHart) (rd : BitVec 5) (signed : Bool) (rs1 : BitVec 5) (imm : BitVec 12) (z : Size),
    z ≠ .b16 →
    let a := localAddr ((tileOf s k).core h) rs1.toNat imm
    StoreAccess s k h a z.bytes → s.mem.poisonedIn (tileAddr k a) z.bytes = false →
    Gives (.tileLoad k h (.x rd signed) rs1 imm z) s (TileTo k (fun x =>
      (x.modCore h (fun c => c.setReg rd.toNat (extend z.bytes signed (leNat (s.mem.read (tileAddr k a) z.bytes))))).advance h) s)) ∧
  (∀ (s : State) (k : TileId) (h : TileHart) (rd : BitVec 5) (rs1 : BitVec 5) (imm : BitVec 12) (z : Size),
    z ≠ .b16 → z ≠ .b1 → h.val ≠ 0 →
    let a := localAddr ((tileOf s k).core h) rs1.toNat imm
    StoreAccess s k h a z.bytes → s.mem.poisonedIn (tileAddr k a) z.bytes = false →
    Gives (.tileLoad k h (.f rd) rs1 imm z) s (TileTo k (fun x =>
      (x.modCore h (fun c => { c with
        f := SMap.set 0 c.f rd.toNat (if z = .b8 then BitVec.ofNat 64 (leNat (s.mem.read (tileAddr k a) z.bytes))
          else BitVec.ofNat 64 (2 ^ 64 - 2 ^ (8 * z.bytes) + leNat (s.mem.read (tileAddr k a) z.bytes))) })).advance h) s)) ∧
  (∀ (s : State) (k : TileId) (h : TileHart) (vd : BitVec 5) (rs1 : BitVec 5) (imm : BitVec 12) (z : Size),
    z ≠ .b16 → h.val ≠ 0 → (Work.of s).runs k h = true → ((tileOf s k).core h).vill = false →
    let c := (tileOf s k).core h
    let a := localAddr c rs1.toNat imm
    (∀ i, c.vstart ≤ i → i < c.vl →
      StoreAccess s k h (a + i * z.bytes) z.bytes ∧ s.mem.poisonedIn (tileAddr k (a + i * z.bytes)) z.bytes = false) →
    Gives (.tileLoad k h (.v vd) rs1 imm z) s (TileTo k (fun x =>
      (x.modCore h (fun c =>
        { (idxs c.vl (fun i => c.vstart ≤ i)).foldl (fun d i =>
            d.setVelem vd.toNat i z.bytes (leNat (s.mem.read (tileAddr k (a + i * z.bytes)) z.bytes))) c with
          vstart := 0 })).advance h) s)) ∧
  (∀ (s : State) (k : TileId) (h : TileHart) (rd rs1 : BitVec 5) (z : Size), z = .b4 ∨ z = .b8 →
    let a := (((tileOf s k).core h).reg rs1.toNat).toNat
    StoreAccess s k h a z.bytes → s.mem.poisonedIn (tileAddr k a) z.bytes = false →
    Gives (.tileLr k h rd rs1 z) s (TileTo k (fun x =>
      (x.modCore h (fun c =>
        { c.setReg rd.toNat (sext (8 * z.bytes) (leNat (s.mem.read (tileAddr k a) z.bytes))) with
          reserved := some (tileAddr k a / 128) })).advance h) s))

/-- Stores and atomics of a tile core to its tile store: the bytes stored and no others, the reservations of the other cores
on that granule, the register that receives the old value or the answer of SC, and AMOADD.W on a semaphore, which is
SIGNAL or WAIT (R127, R131, R146, R616).

What the values of an AMO are, read as numbers of 32 or 64 bits (R131). -/
def Obligations.TileStoresAndAtomics : Prop :=
  ((∀ (s : State) (k : TileId) (h : TileHart) (src : StoreSrc) (rs1 : BitVec 5) (imm : BitVec 12) (z : Size), z ≠ .b16 →
     (∀ v, src ≠ .v v) → (h.val = 0 → ∃ r, src = .x r) →
     let a := localAddr ((tileOf s k).core h) rs1.toNat imm
     StoreAccess s k h a z.bytes → (tileOf s k).holds a z.bytes = false →
     Gives (.tileStore k h src rs1 imm z) s
       (TileStores k h a (((tileOf s k).core h).storeBytes src z.bytes 0) id s)) ∧
   (∀ (s : State) (k : TileId) (h : TileHart) (op : AmoOp) (rd rs1 rs2 : BitVec 5) (z : Size), z = .b4 ∨ z = .b8 → op ≠ .cas →
     let c := (tileOf s k).core h
     let a := (c.reg rs1.toNat).toNat
     let old := leNat (s.mem.read (tileAddr k a) z.bytes)
     StoreAccess s k h a z.bytes → s.mem.poisonedIn (tileAddr k a) z.bytes = false → (tileOf s k).holds a z.bytes = false →
     Gives (.tileAmo k h op rd rs1 rs2 z) s
       (TileStores k h a (leBytes z.bytes (amoValue op z.bytes old (c.reg rs2.toNat).toNat 0))
         (fun c => c.setReg rd.toNat (sext (8 * z.bytes) old)) s)) ∧
   (∀ (s : State) (k : TileId) (h : TileHart) (sem : Fin 64) (rd rs1 rs2 : BitVec 5), (Work.of s).runs k h = true →
     let a := (((tileOf s k).core h).reg rs1.toNat).toNat
     (a = 0x80_0008 + sem * 0x20 → exec (.tileAmo k h .add rd rs1 rs2 .b4) s = exec (.signal k h sem rd rs2) s) ∧
     (a = 0x80_0010 + sem * 0x20 → exec (.tileAmo k h .add rd rs1 rs2 .b4) s = exec (.wait k h sem rd rs2) s)) ∧
   (∀ (s : State) (k : TileId) (h : TileHart) (rd rs1 rs2 : BitVec 5) (z : Size), z = .b4 ∨ z = .b8 →
     let c := (tileOf s k).core h
     let a := (c.reg rs1.toNat).toNat
     StoreAccess s k h a z.bytes → s.mem.poisonedIn (tileAddr k a) z.bytes = false → (tileOf s k).holds a z.bytes = false →
     (c.reserved = some (tileAddr k a / 128) →
       Gives (.tileSc k h rd rs1 rs2 z) s
         (TileStores k h a (leBytes z.bytes (c.reg rs2.toNat).toNat)
           (fun c => { c.setReg rd.toNat 0 with reserved := none }) s)) ∧
     (c.reserved ≠ some (tileAddr k a / 128) →
       Gives (.tileSc k h rd rs1 rs2 z) s (TileTo k (fun x =>
         (x.modCore h (fun c => { c.setReg rd.toNat 1 with reserved := none })).advance h) s)))) ∧
  (∀ (z old v : Nat), (z = 4 ∨ z = 8) → old < 2 ^ (8 * z) → v < 2 ^ (8 * z) →
     amoValue .swap z old v 0 = v ∧ amoValue .add z old v 0 = (old + v) % 2 ^ (8 * z) ∧
     amoValue .and z old v 0 = (BitVec.ofNat (8 * z) old &&& BitVec.ofNat (8 * z) v).toNat ∧
     amoValue .or z old v 0 = (BitVec.ofNat (8 * z) old ||| BitVec.ofNat (8 * z) v).toNat ∧
     amoValue .xor z old v 0 = (BitVec.ofNat (8 * z) old ^^^ BitVec.ofNat (8 * z) v).toNat ∧
     amoValue .minu z old v 0 = min old v ∧ amoValue .maxu z old v 0 = max old v ∧
     amoValue .min z old v 0 =
       (if (BitVec.ofNat (8 * z) old).sle (BitVec.ofNat (8 * z) v) then old else v) ∧
     amoValue .max z old v 0 =
       (if (BitVec.ofNat (8 * z) old).sle (BitVec.ofNat (8 * z) v) then v else old))

/-- Ends of a program (R133, R155, R158, R165): a normal end and its wait, an illegal instruction, the time limit, a drain
that lasts too long, which spare a program that has ended normally; for a tile whose work lies within it.

A non-normal end of a program: TL_FAULT keeps its first cause, every core stops, the descriptors of both movers and
every instruction and chain of the array are discarded, and the tile's registers beside those stay (R155, R164, R184). -/
def Obligations.TileProgramEnds : Prop :=
  ((∀ (s : State) (k : TileId), (Work.of s).runs k 0 = true → (((tileOf s k).core 0).reg 10).toNat < 0x8000_0000 →
     Gives (.ecall k) s (TileTo k (fun x =>
       { (x.advance 0).modCore 0 (fun c => { c with running := false }) with
         endWait := true
         exitCode := ((x.core 0).reg 10).setWidth 32 }) s)) ∧
   (∀ (s : State) (k : TileId), WorksAlone s k → (tileOf s k).endWait = true → (tileOf s k).ended = none →
     (tileOf s k).quiet = true → (∀ h ∈ [1, 2, 3, 4], ((tileOf s k).core h).running = false) →
     Gives (.tileEndWaitDone k) s (TileTo k (fun x =>
       { x.stopCores with
         array := x.array.discard
         ended := some { kind := 0, cause := 0, code := x.exitCode.toNat, pc := 0 } }) s)) ∧
   (∀ (s : State) (k : TileId) (h : TileHart) (word : W32), WorksAlone s k → (tileOf s k).busy = true →
     (Work.of s).runs k h = true →
     Gives (.tileIllegalInstruction k h word) s (TileTo k (fun x => x.endBad h 1 2 (x.core h).pc (word.setWidth 64)) s)) ∧
   (∀ (s : State) (k : TileId), WorksAlone s k → (tileOf s k).busy = true →
     ((tileOf s k).endWait = false → Gives (.tileTimeLimit k) s (TileTo k (fun x => x.endBad 0 3 0 0 0) s)) ∧
     ((tileOf s k).endWait = true → Becomes (.tileTimeLimit k) s s.chip)) ∧
   (∀ (s : State) (k : TileId), WorksAlone s k → (tileOf s k).busy = true → (tileOf s k).st = .draining →
     ((tileOf s k).endWait = false → Gives (.tileDrainTimeout k) s (TileTo k (fun x => x.endBad 0 7 0 0 0) s)) ∧
     ((tileOf s k).endWait = true → Becomes (.tileDrainTimeout k) s s.chip))) ∧
  (∀ (x : Tile) (h kind cause : Nat) (pc tval : W64),
     let y := x.endBad h kind cause pc tval
     y.ended = some { kind := kind, cause := cause, code := 0, pc := pc } ∧
     y.fault = (if x.fault.valid then x.fault
       else { valid := true, hart := h, kind := kind, cause := cause, pc := pc, tval := tval }) ∧
     (∀ g, y.core g = { x.core g with running := false, stalled := false, reserved := none }) ∧
     (∀ m : Fin 2, (y.mover m).queue = [] ∧ (y.mover m).run = none ∧ (y.mover m).completed = (x.mover m).completed) ∧
     y.array = { x.array with queue := [], signals := [], feed := none, flying := [], words := [], laneM := [], laneN := [],
                              chains := [], open0 := none, open1 := none, active := none, pending := none,
                              activeOk := false, replay := none, restart := [], fencing := false, waiting := none } ∧
     y = { x with fault := y.fault, cores := y.cores, waiters := [], seqWaiting := [], mover0 := y.mover0,
                  mover1 := y.mover1, array := y.array, endWait := false, ended := y.ended })


/-! ## Movers and canals -/

/-- The windows and queues of the movers (R140 to R144): words 0 to 6, a submission to a queue with room and one to a full
queue, which stalls until an entry is free, and the start of a descriptor, whose requests are issued; one that breaks a rule fails at
once.

A mover's copy of one piece within its own tile store (R140 to R144): the start stores the bytes and leaves the
descriptor in progress with nothing more to issue; the completion, once its writes are visible at its SCOPE, counts it, signals its
semaphore and, at SCOPE SYSTEM, drops the read-ahead entries of its lines; a failure ends the program with KIND 0x02 and the mover's
status, and with it that of the other tiles of its launch. -/
def Obligations.Movers : Prop :=
  ((∀ (s : State) (k : TileId) (m : Fin 2) (word : Fin 7) (rs2 : BitVec 5), (Work.of s).runs k 0 = true →
     Gives (.moverWordStore k m word rs2) s (TileTo k (fun x =>
       (x.setMover m { x.mover m with window := SMap.set 0 (x.mover m).window word ((x.core 0).reg rs2.toNat) }).advance 0) s)) ∧
   (∀ (s : State) (k : TileId) (m : Fin 2) (rs2 : BitVec 5), (Work.of s).runs k 0 = true →
     let mv := (tileOf s k).mover m
     let win := SMap.set 0 mv.window 7 (((tileOf s k).core 0).reg rs2.toNat)
     let words := (List.range 8).map (fun i => SMap.get 0 win i) ++ [((tileOf s k).core 0).tmcomp]
     (mv.queue.length + b2n mv.run.isSome < 16 →
       Gives (.moverSubmit k m rs2) s (TileTo k (fun x =>
         (x.setMover m { mv with window := win, queue := mv.queue ++ [words] }).advance 0) s)) ∧
     (16 ≤ mv.queue.length + b2n mv.run.isSome →
       Gives (.moverSubmit k m rs2) s (TileTo k (fun x =>
         (x.setMover m { mv with window := win, waiting := some words }).modCore 0 (fun c => { c with stalled := true })) s))) ∧
   (∀ (s : State) (k : TileId) (m : Fin 2) (words : List W64), ((tileOf s k).mover m).waiting = some words →
     ((tileOf s k).mover m).queue.length + b2n ((tileOf s k).mover m).run.isSome < 16 →
     Gives (.moverSubmitResume k m) s (TileTo k (fun x =>
       ((x.setMover m { x.mover m with queue := (x.mover m).queue ++ [words], waiting := none }).modCore 0
         (fun c => { c with stalled := false })).advance 0) s)) ∧
   (∀ (s : State) (k : TileId) (m : Fin 2) (l : List W64) (rest : List (List W64)), ((tileOf s k).mover m).queue = l :: rest →
     ((tileOf s k).mover m).run = none → (moverFieldsOk l && (moverDesc l).ok) = false →
     Gives (.moverDescriptorStart k m) s (TileTo k (fun x => x.setMover m
       { x.mover m with queue := rest, run := some { words := l, xf := { Xfer.none with failed := some (1, 0) } } }) s)) ∧
   (∀ (s : State) (k : TileId) (m : Fin 2) (l : List W64) (rest : List (List W64)), ((tileOf s k).mover m).queue = l :: rest →
     ((tileOf s k).mover m).run = none →
     let d := moverDesc l
     let ok := moverFieldsOk l && d.ok && (Work.of s).weightOk ((Work.of s).eng (.mover k m)) d d.pieces
     let started := (Work.of s).modTile k (fun x => x.setMover m { x.mover m with
       queue := rest
       run := some { words := l, xf := if ok then { Xfer.none with todo := d.pieces } else { Xfer.none with failed := some (1, 0) } } })
     Runs (.moverDescriptorStart k m) s (started.pump (.mover k m)))) ∧
  ((∀ (s : State) (k : TileId) (m : Fin 2) (l : List W64) (rest : List (List W64)) (p : Piece),
     ((tileOf s k).mover m).queue = l :: rest → ((tileOf s k).mover m).run = none →
     moverFieldsOk l = true → (moverDesc l).ok = true → (moverDesc l).pieces = [p] →
     p.op = .copy → p.srcLocal = true → p.dstLocal = true →
     StoreFree s k p.src p.len → StoreFree s k p.dst p.len → NotHeld s k p.src p.len → NotHeld s k p.dst p.len →
     s.mem.firstPoison (tileAddr k p.src) p.len = none →
     Gives (.moverDescriptorStart k m) s (fun t =>
       Stored (tileAddr k p.dst) (s.mem.read (tileAddr k p.src) p.len) s t ∧
       (tileOf t k).mover m =
         { (tileOf s k).mover m with
           queue := rest
           run := some { words := l, xf := { Xfer.none with lines := (Work.of s).aheadLines (tileAddr k p.dst) p.len } } } ∧
       t.chip = { s.chip with tiles := t.chip.tiles, cores := t.chip.cores, homes := t.chip.homes, readAhead := t.chip.readAhead })) ∧
   (∀ (s : State) (k : TileId) (m : Fin 2) (r : MoverRun), ((tileOf s k).mover m).run = some r → r.words ≠ [] →
     let f := wordAt r.words 5
     (Work.of s).moverDone k m (bits f 6 5) = true →
     Gives (.moverDescriptorComplete k m) s (fun t => SameMem s t ∧
       (let x := tileOf s k
        let y := x.setMover m { x.mover m with run := none, completed := (x.mover m).completed + 1 }
        tileOf t k = { (if bit f 39 then semPlus y (bits f 37 32) (bits f 63 48) else y) with heldWrites := (tileOf t k).heldWrites }) ∧
       (∀ u, u ≠ k.val → tileOf t u = { tileOf s u with heldWrites := (tileOf t u).heldWrites }) ∧
       t.chip.readAhead = (if bits f 6 5 = 3 then ((Work.of s).dropLines r.xf.lines).chip.readAhead else s.chip.readAhead) ∧
       t.chip = { s.chip with tiles := t.chip.tiles, remotes := t.chip.remotes, ports := t.chip.ports, sqs := t.chip.sqs,
                              readAhead := t.chip.readAhead })) ∧
   (∀ (s : State) (k : TileId) (m : Fin 2) (r : MoverRun) (st a : Nat), ((tileOf s k).mover m).run = some r → r.words ≠ [] →
     r.xf.failed = some (st, a) →
     Runs (.moverDescriptorFail k m) s ((Work.of s).endTile k 0 2 (moverStatus st) 0 (wordAt r.words 0)) ∧
     (WorksAlone s k → (tileOf s k).busy = true →
       Gives (.moverDescriptorFail k m) s (TileTo k (fun x => x.endBad 0 2 (moverStatus st) 0 (wordAt r.words 0)) s))))

/-- The two ends of a canal (R251 to R255): the out-port takes a SEND unit and a credit, its last read signals FREE_SEM, the
last write of a slot signals READY_SEM, the in-port takes a RETURN unit and sends a credit, which arrives.

A unit of a canal (R252, R253, R267, R268): one that arrives without an error is written to the slot, and any one that arrives
fills 64 B of it; one whose bytes are held waits; a slot that still waits on held bytes at the teardown of its pound is abandoned. -/
def Obligations.Canals : Prop :=
  ((∀ (s : State) (k : TileId) (p : Fin 4) (r : CanalRef), (Work.of s).canalOut k p = some r →
     ((tileOf s k).outPort p).credits ≠ 0 → ((tileOf s k).outPort p).transfer = false → (tileOf s k).sem r.c.sendSem ≠ 0 →
     (Work.of s).inPortHeld r = false → (tileOf s k).st ≠ .exchanging →
     Gives (.outPortTake k p) s (TileTo k (fun x =>
       (x.setSem r.c.sendSem (x.sem r.c.sendSem - 1)).setOut p
         { x.outPort p with credits := (x.outPort p).credits - 1, transfer := true, readDone := false, left := 0 }) s)) ∧
   (∀ (s : State) (k : TileId) (p : Fin 4) (r : CanalRef), (Work.of s).canalOut k p = some r →
     ((tileOf s k).outPort p).transfer = true → (Work.of s).inPortHeld r = false →
     Gives (.outPortSlotRead k p) s (TileTo k (fun x =>
       let o := x.outPort p
       semPlus (x.setOut p
         { o with
           transfer := false
           readDone := true
           slot := (o.slot + 1) % r.c.srcSlots
           slots := (o.slots + 1) % 2 ^ 32
           left := 0
           flight := o.flight ++ ((List.range (r.c.size / 64)).drop o.left).map (fun i =>
             (Work.of s).readUnit k (r.c.srcBase + o.slot * r.c.size + i * 64)) }) r.c.freeSem 1) s)) ∧
   (∀ (s : State) (k : TileId) (p : Fin 4) (r : CanalRef), (Work.of s).canalIn k p = some r →
     ((tileOf s k).inPort p).transfer = true → r.c.size ≤ ((tileOf s k).inPort p).bytes →
     Gives (.inPortSlotWritten k p) s (TileTo k (fun x =>
       let i := x.inPort p
       semPlus (x.setIn p
         { i with transfer := false, bytes := 0, slot := (i.slot + 1) % r.c.dstSlots, slots := (i.slots + 1) % 2 ^ 32 })
         r.c.readySem 1) s)) ∧
   (∀ (s : State) (k : TileId) (p : Fin 4) (r : CanalRef), (Work.of s).canalIn k p = some r →
     (tileOf s k).sem r.c.returnSem ≠ 0 →
     Gives (.inPortReturnTake k p) s (fun t => OnlyTiles k r.c.prod s t ∧
       (tileOf t k).sem r.c.returnSem = (tileOf s k).sem r.c.returnSem - 1 ∧
       (tileOf t r.c.prod).outPort r.c.outPort =
         { (tileOf s r.c.prod).outPort r.c.outPort with
           creditsInFlight := ((tileOf s r.c.prod).outPort r.c.outPort).creditsInFlight + 1 })) ∧
   (∀ (s : State) (k : TileId) (p : Fin 4) (r : CanalRef), (Work.of s).canalOut k p = some r →
     ((tileOf s k).outPort p).creditsInFlight ≠ 0 →
     Gives (.canalCreditArrive k p) s (TileTo k (fun x => x.setOut p
       { x.outPort p with
         creditsInFlight := (x.outPort p).creditsInFlight - 1
         credits := min ((x.outPort p).credits + 1) r.c.dstSlots }) s))) ∧
  ((∀ (s : State) (k : TileId) (p : Fin 4) (r : CanalRef) (u : CanalUnit), (Work.of s).canalIn k p = some r →
     (Work.of s).nextUnit r = some u → u.poison = [false, false] → u.data.length = 64 →
     ((tileOf s k).inPort p).bytes < r.c.size →
     let off := r.c.dstBase + ((tileOf s k).inPort p).slot * r.c.size + ((tileOf s k).inPort p).bytes
     StoreFree s k off 64 →
     Gives (.inPortUnit k p [] []) s (fun t =>
       Stored (tileAddr k off) u.data s t ∧
       (tileOf t k).inPort p = { (tileOf s k).inPort p with
         transfer := true, waitingHeld := false, bytes := ((tileOf s k).inPort p).bytes + 64,
         poisoned := ((tileOf t k).inPort p).poisoned } ∧
       ((tileOf t r.c.prod).outPort r.c.outPort).flight = ((tileOf s r.c.prod).outPort r.c.outPort).flight.drop 1)) ∧
   (∀ (s : State) (k : TileId) (p : Fin 4) (r : CanalRef) (u : CanalUnit) (e f : List (Fin 2 × Fin 36 × Byte)),
     (Work.of s).canalIn k p = some r → (Work.of s).nextUnit r = some u → ((tileOf s k).inPort p).bytes < r.c.size →
     StoreFree s k (r.c.dstBase + ((tileOf s k).inPort p).slot * r.c.size + ((tileOf s k).inPort p).bytes) 64 →
     Gives (.inPortUnit k p e f) s (fun t =>
       ((tileOf t k).inPort p).transfer = true ∧ ((tileOf t k).inPort p).waitingHeld = false ∧
       ((tileOf t k).inPort p).bytes = ((tileOf s k).inPort p).bytes + 64 ∧
       ((tileOf t r.c.prod).outPort r.c.outPort).flight = ((tileOf s r.c.prod).outPort r.c.outPort).flight.drop 1)) ∧
   (∀ (s : State) (k : TileId) (p : Fin 4) (r : CanalRef) (u : CanalUnit) (e f : List (Fin 2 × Fin 36 × Byte)),
     (Work.of s).canalIn k p = some r → (Work.of s).nextUnit r = some u → ((tileOf s k).inPort p).bytes < r.c.size →
     (tileOf s k).st ≠ .exchanging →
     (tileOf s k).holds (r.c.dstBase + ((tileOf s k).inPort p).slot * r.c.size + ((tileOf s k).inPort p).bytes) 64 = true →
     Gives (.inPortUnit k p e f) s (TileTo k (fun x =>
       x.setIn p { x.inPort p with transfer := true, waitingHeld := true }) s)) ∧
   (∀ (s : State) (k : TileId) (p : Fin 4) (r : CanalRef), (Work.of s).canalIn k p = some r →
     (Work.of s).inPortHeld r = true → ((Work.of s).pound r.pound).st = .draining →
     let o := (tileOf s r.c.prod).outPort r.c.outPort
     let units := r.c.size / 64 - ((tileOf s k).inPort p).bytes / 64
     Gives (.canalHeldTimeout k p) s (fun t => OnlyTiles k r.c.prod s t ∧
       (tileOf t k).inPort p = { (tileOf s k).inPort p with
         transfer := false, waitingHeld := false, bytes := 0
         discarded := satAdd 8 ((tileOf s k).inPort p).discarded 1, abandoned := ((tileOf s k).inPort p).abandoned + 1 } ∧
       (tileOf t r.c.prod).outPort r.c.outPort =
         (if units ≤ o.flight.length then { o with flight := o.flight.drop units } else { o with transfer := false, left := 0, flight := [] }))))

/-! ## The matrix array and its output stage -/

/-- Parameters and status of the array (R174): hmset writes one of eight; hmget returns them and the counters.

Instructions of the array that issue (R173 to R180): an hmma or hmacc that starts a chain, or joins the open chain of its
bank, an hmdrain, which closes it, and an hmsig; each takes the next number. Each that passes its checks while the queue has room
joins its chain and is queued, whatever the chain and the sampling of its pound; one that meets a full queue stalls the control core
(R134).

What leaves the queue of its own accord is still unfinished: the same instructions, and at most eight signals wait outside
the queue (R173, R177, R182). -/
def Obligations.ArrayIssue : Prop :=
  ((∀ (s : State) (k : TileId) (index : BitVec 12) (rs1 : BitVec 5), (Work.of s).runs k 0 = true → index.toNat < 8 →
     Gives (.hmset k index rs1 0) s (TileTo k (fun x =>
       { x with array.params := SMap.set 0 x.array.params index.toNat ((x.core 0).reg rs1.toNat) }.advance 0) s)) ∧
   (∀ (s : State) (k : TileId) (index : BitVec 12) (rd : BitVec 5) (v : W64), (Work.of s).runs k 0 = true →
     let a := (tileOf s k).array
     (index.toNat < 8 ∧ v = SMap.get 0 a.params index.toNat ∨ index = 0x10 ∧ v = BitVec.ofNat 64 a.issued ∨
       index = 0x11 ∧ v = BitVec.ofNat 64 a.done ∨ index = 0x12 ∧ v = BitVec.ofNat 64 a.queue.length ∨
       index = 0x14 ∧ v = BitVec.ofNat 64 a.stall ∨ index = 0x15 ∧ v = BitVec.ofNat 64 a.poison) →
     Gives (.hmget k index 0 rd) s (TileTo k (fun x => (x.modCore 0 (fun c => c.setReg rd.toNat v)).advance 0) s))) ∧
  ((∀ (s : State) (k : TileId) (f : BitVec 7) (rs2 rs1 rd : BitVec 5), (Work.of s).runs k 0 = true →
     (tileOf s k).array.queue.length < 16 → NoSampling s k →
     let i := (Work.of s).capture k .hmma 2 f rs2.toNat rs1.toNat rd.toNat
     (tileOf s k).array.chainOk i = true → i.hmmaBad = none → (tileOf s k).array.openOf i.bk = none →
     Gives (.hmma k f rs2 rs1 rd) s (TileTo k (fun x =>
       let a := x.array
       let i := { i with chain := a.nextChain }
       let c : Chain := { id := a.nextChain, bank := i.bk, instrs := [i], drain := none, completed := 0, poisoned := false, ranges := i.reads }
       Queued x { a.setOpen i.bk (some a.nextChain) with chains := a.chains ++ [c], nextChain := a.nextChain + 1 } rd.toNat i) s)) ∧
   (∀ (s : State) (k : TileId) (f : BitVec 7) (rs2 rs1 rd : BitVec 5) (id : Nat) (c : Chain), (Work.of s).runs k 0 = true →
     (tileOf s k).array.queue.length < 16 →
     let i := (Work.of s).capture k .hmma 2 f rs2.toNat rs1.toNat rd.toNat
     (tileOf s k).array.chainOk i = true → i.hmmaBad = none → (tileOf s k).array.openOf i.bk = some id →
     (tileOf s k).array.chain? id = some c → (c.completed ≠ 1 ∨ ∀ j ∈ c.instrs, j.kind = .hmma) →
     Gives (.hmma k f rs2 rs1 rd) s (TileTo k (fun x =>
       let i := { i with chain := id }
       Queued x (x.array.modChain id (fun c => { c with instrs := c.instrs ++ [i], ranges := c.ranges ++ i.reads })) rd.toNat i) s)) ∧
   (∀ (s : State) (k : TileId) (f : BitVec 7) (rs2 rs1 rd : BitVec 5), (Work.of s).runs k 0 = true →
     (tileOf s k).array.queue.length < 16 → NoSampling s k → f.toNat < 2 →
     let i := (Work.of s).capture k .hmacc 4 f rs2.toNat rs1.toNat rd.toNat
     i.b.toNat % 64 = 0 → 512 ≤ i.b.toNat → i.a.toNat % 64 = 0 → beyond i.reads = none →
     (tileOf s k).array.openOf i.bk = none →
     Gives (.hmacc k f rs2 rs1 rd) s (TileTo k (fun x =>
       let a := x.array
       let i := { i with chain := a.nextChain }
       let c : Chain := { id := a.nextChain, bank := i.bk, instrs := [i], drain := none, completed := 0, poisoned := false, ranges := i.reads }
       Queued x { a.setOpen i.bk (some a.nextChain) with chains := a.chains ++ [c], nextChain := a.nextChain + 1 } rd.toNat i) s)) ∧
   (∀ (s : State) (k : TileId) (f : BitVec 7) (rs2 rs1 rd : BitVec 5) (id : Nat) (c : Chain), (Work.of s).runs k 0 = true →
     (tileOf s k).array.queue.length < 16 → f.toNat < 2 →
     let i := (Work.of s).capture k .hmdrain 3 f rs2.toNat rs1.toNat rd.toNat
     bits i.b 15 3 = 0 → i.a.toNat % 64 = 0 → beyond i.reads = none → (tileOf s k).array.openOf i.bk = some id →
     ((tileOf s k).array.setOpen i.bk none).chain? id = some c → (c.completed ≠ 1 ∨ ∀ j ∈ c.instrs, j.kind = .hmma) →
     Gives (.hmdrain k f rs2 rs1 rd) s (TileTo k (fun x =>
       let i := { i with chain := id }
       Queued x ((x.array.setOpen i.bk none).modChain id (fun c =>
         { c with drain := some i, ranges := c.ranges ++ (i.reads ++ (Work.of s).columnRanges k i.a.toNat) })) rd.toNat i) s)) ∧
   (∀ (s : State) (k : TileId) (rs2 rs1 rd : BitVec 5), (Work.of s).runs k 0 = true →
     (tileOf s k).array.queue.length < 16 →
     let i := (Work.of s).capture k .hmsig 5 0 rs2.toNat rs1.toNat rd.toNat
     i.a.toNat ≤ 63 → i.b.toNat % 2 ^ 32 ≠ 0 →
     Gives (.hmsig k 0 rs2 rs1 rd) s (TileTo k (fun x => Queued x x.array rd.toNat i) s)) ∧
   (∀ (s : State) (k : TileId) (f : BitVec 7) (rs2 rs1 rd : BitVec 5), (Work.of s).runs k 0 = true →
     (tileOf s k).array.queue.length < 16 →
     (let i := (Work.of s).capture k .hmma 2 f rs2.toNat rs1.toNat rd.toNat
      (tileOf s k).array.chainOk i = true → i.hmmaBad = none →
      Runs (.hmma k f rs2 rs1 rd) s ((Work.of s).joinChain k rd.toNat i)) ∧
     (let i := (Work.of s).capture k .hmacc 4 f rs2.toNat rs1.toNat rd.toNat
      (tileOf s k).array.chainOk i = true → f.toNat < 2 → i.b.toNat % 64 = 0 → 512 ≤ i.b.toNat → i.a.toNat % 64 = 0 →
      beyond i.reads = none →
      Runs (.hmacc k f rs2 rs1 rd) s ((Work.of s).joinChain k rd.toNat i)) ∧
     (let i := (Work.of s).capture k .hmdrain 3 f rs2.toNat rs1.toNat rd.toNat
      f.toNat < 2 → bits i.b 15 3 = 0 → i.a.toNat % 64 = 0 → beyond i.reads = none →
      ∀ id, (tileOf s k).array.openOf i.bk = some id →
      Runs (.hmdrain k f rs2 rs1 rd) s ((((Work.of s).modArray k (fun a => (a.setOpen i.bk none).modChain id (fun c =>
        { c with drain := some { i with chain := id }, ranges := c.ranges ++ (i.reads ++ (Work.of s).columnRanges k i.a.toNat) }))).retype
        k id).enqueue k rd.toNat { i with chain := id }))) ∧
   (∀ (s : State) (k : TileId) (f : BitVec 7) (rs2 rs1 rd : BitVec 5), (Work.of s).runs k 0 = true →
     16 ≤ (tileOf s k).array.queue.length →
     let stalls (kind : MKind) := TileTo k (fun x =>
       ({ x with array.waiting := some { kind := kind, funct7 := f, rs2 := rs2.toNat, rs1 := rs1.toNat, rd := rd.toNat } }).modCore 0
         (fun c => { c with stalled := true })) s
     Gives (.hmma k f rs2 rs1 rd) s (stalls .hmma) ∧ Gives (.hmacc k f rs2 rs1 rd) s (stalls .hmacc) ∧
     Gives (.hmdrain k f rs2 rs1 rd) s (stalls .hmdrain) ∧ Gives (.hmsig k f rs2 rs1 rd) s (stalls .hmsig))) ∧
  (∀ a : Array_, a.settle.unfinished.Perm a.unfinished ∧
     (a.signals.length ≤ 8 → a.settle.signals.length ≤ 8) ∧ a.settle.queue.length ≤ a.queue.length ∧
     a.settle.words = a.words ∧ a.settle.chains = a.chains ∧ a.settle.issued = a.issued)

/-- Execution in the array (R177, R182, R183, R186): hmfence with nothing unfinished returns, one with something unfinished stalls
and returns later; the next hmma or hmacc feeds, one that reads poison marks its chain, and an instruction that waits for an entry of
the queue goes on; the oldest one completes, and what its feed lost is open, but for one whose feed can have lost nothing (R172, log
entry 41); a signal adds its amount. -/
def Obligations.ArrayExecution : Prop :=
  (∀ (s : State) (k : TileId), (Work.of s).runs k 0 = true →
    ((tileOf s k).array.unfinished = [] → Gives (.hmfence k 0 0 0 0) s (TileTo k (fun x => x.advance 0) s)) ∧
    ((tileOf s k).array.unfinished ≠ [] → Gives (.hmfence k 0 0 0 0) s (TileTo k (fun x =>
      ({ x with array.fencing := true }).modCore 0 (fun c => { c with stalled := true })) s))) ∧
  (∀ (s : State) (k : TileId), (tileOf s k).array.fencing = true → (tileOf s k).array.unfinished = [] →
    Gives (.hmfenceReturn k) s (TileTo k (fun x =>
      (({ x with array.fencing := false }).modCore 0 (fun c => { c with stalled := false })).advance 0) s)) ∧
  (∀ (s : State) (k : TileId) (i : MInstr) (q : List MInstr), (tileOf s k).array.restart = [] →
    (tileOf s k).array.queue = i :: q → (tileOf s k).array.replay = none → (Work.of s).bankDrain k i ≠ 1 →
    (Work.of s).firstPoisonIn k i.reads = none → (tileOf s k).array.waiting = none →
    let fed := TileTo k (fun x => { x with array := ({ x.array with
      queue := q, flying := x.array.flying ++ x.array.feed.toList, feed := some i }).settle }) s
    (i.kind = .hmma → Gives (.hmmaStart k) s fed) ∧ (i.kind = .hmacc → Gives (.hmaccStart k) s fed)) ∧
  (∀ (s : State) (k : TileId) (i : MInstr) (q : List MInstr), (tileOf s k).array.restart ++ (tileOf s k).array.queue = i :: q →
    (tileOf s k).array.replay = none → (Work.of s).bankDrain k i ≠ 1 →
    let fed := (Work.of s).modArray k (fun a => ({ a with
      restart := a.restart.drop 1, queue := if a.restart.isEmpty then a.queue.drop 1 else a.queue
      flying := a.flying ++ a.feed.toList, feed := some i }).settle)
    let next := ((match fed.firstPoisonIn k i.reads with
      | some off => fed.poisonChain k i.chain off
      | none => fed).arrayResume k)
    (i.kind = .hmma → Runs (.hmmaStart k) s next) ∧ (i.kind = .hmacc → Runs (.hmaccStart k) s next)) ∧
  (∀ (s : State) (k : TileId) (i : MInstr) (q : List MInstr) (c : Chain),
    (tileOf s k).array.flying ++ (tileOf s k).array.feed.toList = i :: q →
    (tileOf s k).array.replay = none → (Work.of s).bankDrain k i = 0 → (tileOf s k).array.chain? i.chain = some c →
    let isInt := (Work.of s).chainInt k c
    let after (b : Array_) (lost : Nat) : Array_ :=
      { b.modChain i.chain (fun c => { c with completed := c.completed + 1 }) with
        feed := if (tileOf s k).array.flying.isEmpty then none else (tileOf s k).array.feed
        flying := (tileOf s k).array.flying.drop 1, stall := (tileOf s k).array.stall + lost
        done := (tileOf s k).array.done + b2n (!i.counted) }
    let rest (t : State) : Prop := SameMem s t ∧ t.chip = { s.chip with tiles := t.chip.tiles, free := s.chip.free + 1 } ∧
      ∀ u, u ≠ k.val → tileOf t u = tileOf s u
    (i.kind = .hmma → Gives (.hmmaComplete k) s (fun t => rest t ∧ ∃ lost, ((Work.of s).feedsClean k i = true → lost = 0) ∧
      tileOf t k = { tileOf s k with
        array := after ((tileOf s k).array.applyHmma i isInt ((Work.of s).tileNum k)) lost })) ∧
    (i.kind = .hmacc → Gives (.hmaccComplete k) s (fun t => rest t ∧ tileOf t k = { tileOf s k with
      array := after ((tileOf s k).array.applyHmacc i isInt ((Work.of s).tileNum k)) 0 }))) ∧
  (∀ (s : State) (k : TileId) (i : MInstr) (rest : List MInstr), (tileOf s k).array.signals = i :: rest →
    (tileOf s k).array.doneBefore i.num = true →
    ((tileOf s k).array.waiting = none → Gives (.hmsigSignal k) s (TileTo k (fun x =>
      semPlus { x with array := ({ x.array with signals := rest, done := x.array.done + 1 }).settle }
        i.a.toNat (i.b.toNat % 2 ^ 32)) s)) ∧
    Runs (.hmsigSignal k) s ((((Work.of s).modArray k (fun a => ({ a with signals := rest, done := a.done + 1 }).settle)).semAdd k
      i.a.toNat (i.b.toNat % 2 ^ 32)).arrayResume k))

/-- The output stage (R182, R218, R225, R226, R240): a valid drain becomes active; one whose tests pass writes its rows and
scales, empties its bank, releases its chain and signals; attempt 2 of a replay takes a free spare, to which the held bytes are copied; a recomputed attempt that
passes stands, and one that fails waits for attempt 2 behind every attempt that waits already. -/
def Obligations.OutputStage : Prop :=
  (∀ (s : State) (k : TileId) (d : MInstr) (c : Chain), (tileOf s k).array.pending = some d → (tileOf s k).array.active = none →
    (tileOf s k).array.chain? d.chain = some c → (Work.of s).drainInvalid k c d = false →
    (2 ≤ bits d.b 1 0 → seqOk (tileOf s k).seqEntries = true) →
    (Work.of s).firstPoisonIn k (d.reads ++ (Work.of s).columnRanges k d.a.toNat) = none → (tileOf s k).array.waiting = none →
    Gives (.drainActive k) s (TileTo k (fun x => { x with array :=
      ({ x.array with pending := none, active := some d, activeOk := true }).settle }) s)) ∧
  (∀ (s : State) (k : TileId) (d : MInstr) (c : Chain), (tileOf s k).array.pending = some d → (tileOf s k).array.active = none →
    (tileOf s k).array.chain? d.chain = some c → (Work.of s).drainInvalid k c d = false →
    (2 ≤ bits d.b 1 0 → seqOk (tileOf s k).seqEntries = true) →
    let act := (Work.of s).modArray k (fun a => ({ a with pending := none, active := some d, activeOk := true }).settle)
    Runs (.drainActive k) s ((match act.firstPoisonIn k (d.reads ++ act.columnRanges k d.a.toNat) with
      | some off => act.poisonChain k c.id off
      | none => act).arrayResume k)) ∧
  (∀ (s : State) (k : TileId) (d : MInstr) (c : Chain), WorksAlone s k → (tileOf s k).seqWaiting = [] →
    (tileOf s k).array.waiting = none →
    (tileOf s k).array.active = some d → (tileOf s k).array.chain? d.chain = some c → (tileOf s k).array.activeOk = true →
    c.completed = c.instrs.length → c.poisoned = false →
    let g := (Work.of s).desc k d.a.toNat
    let r := (Work.of s).drainResult k c d (tileOf s k).array
    g.check = 0 → g.winAct = 0 → g.lgEn = false →
    Gives (.drainComplete k none) s (fun t =>
      t.mem = s.mem.perform (r.writes.map (fun e => Wr.bytes (tileAddr k e.1) e.2)) ∧ t.fuse = s.fuse ∧
      t.chip = { s.chip with tiles := t.chip.tiles } ∧ (∀ u, u ≠ k.val → tileOf t u = tileOf s u) ∧
      (tileOf t k).array = { (tileOf s k).array.drainDone c.bank with
        chains := (tileOf s k).array.chains.filter (fun e => e.id ≠ c.id) } ∧
      (bit g.sem 7 = true → (tileOf t k).sem (bits g.sem 5 0) = min 0xFFFFFFFF ((tileOf s k).sem (bits g.sem 5 0) + g.amount)))) ∧
  (∀ (s : State) (k : TileId) (rp : Replay) (c : Chain) (u : Nat), (tileOf s k).array.replay = some rp → rp.attempt = 2 →
    rp.tile2 = none → (tileOf s k).array.chain? rp.chain = some c → (Work.of s).waitsBefore k rp.since = false →
    ((Work.of s).sparesOf (tileDie k)).find? (fun u => !(Work.of s).serves u) = some u → (Work.of s).attempt2Possible (tileDie k) = true →
    let copied := ((Work.of s).yieldSamples u).each c.ranges (fun w r =>
      w.coreWrite u 5 r.1 (w.mem.read (tileAddr k r.1) r.2))
    Runs (.replayAttempt2Start k) s (copied.modTile k (fun x =>
      { x with second := satAdd 16 x.second 1, array.replay := some { rp with tile2 := some u } }))) ∧
  (∀ (s : State) (k : TileId) (rp : Replay) (d : MInstr) (c : Chain), (tileOf s k).array.replay = some rp →
    (tileOf s k).array.active = some d → (tileOf s k).array.chain? rp.chain = some c → rp.attempt = 1 →
    let g := (Work.of s).desc k d.a.toNat
    let r := (Work.of s).drainResult k c d ((Work.of s).recompute k c)
    r.replays g = true → (Work.of s).attempt2Possible (tileDie k) = true →
    Gives (.replayAttemptDone k none) s (fun t =>
      t.mem = s.mem.perform (r.writes.map (fun e => Wr.bytes (tileAddr k e.1) e.2)) ∧
      (tileOf t k).array.replay = some { rp with attempt := 2, first := some r, since := (Work.of s).nextSince } ∧
      (tileOf t k).array.words = ((Work.of s).recompute k c).words)) ∧
  (∀ (s : State) (k : TileId) (rp : Replay) (d : MInstr) (c : Chain), (tileOf s k).array.replay = some rp →
    (tileOf s k).array.active = some d → (tileOf s k).array.chain? rp.chain = some c → rp.attempt = 1 →
    let g := (Work.of s).desc k d.a.toNat
    let a := (Work.of s).recompute k c
    let r := (Work.of s).drainResult k c d a
    r.replays g = false →
    Runs (.replayAttemptDone k none) s ((((Work.of s).modArray k (fun b =>
      { b with words := a.words, laneM := a.laneM, laneN := a.laneN })).standResult k c g rp r).endReplay k c g rp 1 1)) ∧
  (∀ (s : State) (c : CoreId) (k : TileId) (slots : W16), RegOpen s c (tlOff k + 0x3800) ((Work.of s).ownsTile c k) →
    Gives (.tlLgClear c k slots) s (ThenCore c (TileTo k (fun x =>
      { x with ledger := x.ledger.filter (fun e => !bit slots e.1) })) s)) ∧
  (∀ (s : State) (c : CoreId) (k : TileId), RegOpen s c (tlOff k + 0x3818) ((Work.of s).ownsTile c k) →
    Gives (.tlOsLastClear c k) s (ThenCore c (TileTo k (fun x => { x with last := OsLast.zero })) s))


/-! ## Commands of the submission queues -/

/-- The command whose turn it is has been fetched; no command before it has only been fetched; a fence, a SEM_SIGNAL and a
SAFE_POINT come only after every earlier command has completed (R286).

A command that breaks a rule of its format, or whose opcode the command set does not have, starts and completes with
status 0x0001 or 0x0002 (R287, R288, R298).

A completed command (R296, R299): its phase holds status, FLAGS and details; its entry, with its SEQ, TAG and queue, joins its
completion queue; a QUIET command with status 0 writes none, returns its reservation and leaves its queue. Other queues
keep theirs, and so does everything else on the chip, where no self-reset waits on the queue's pound.

A command that starts is no longer waiting: its phase is started, at the reference time of now, and LAST_STARTED is its
SEQ; nothing else changes (R280, R286). -/
def Obligations.CommandStarts : Prop :=
  (∀ (w : Work) (q : Nat) (c : Cmd), w.next? q = some c →
     c ∈ (w.sq q).cmds ∧ c.phase = .fetched ∧
     (∀ (l r : List Cmd), (w.sq q).cmds = l ++ c :: r → (∀ d ∈ l, d.seq ≠ c.seq) → ∀ d ∈ l,
       d.phase ≠ .fetched ∧ (c.fence = true ∨ c.op = 5 ∨ c.op = 9 → d.isDone = true))) ∧
  ((∀ (s : State) (q : SqId) (c : Cmd) (i : Instr) (op : Nat), (i, op) ∈
       [(Instr.nop q, 0), (Instr.launch q, 1), (Instr.launchStart q, 1), (Instr.move q, 2), (Instr.write q, 3),
        (Instr.semWait q, 4), (Instr.semSignal q, 5), (Instr.phase q, 7), (Instr.hint q, 8), (Instr.safePoint q, 9),
        (Instr.waitTime q, 10), (Instr.ledgerRead q, 11)] →
     (Work.of s).turn? q op = some c → formatOk op c = false → Runs i s ((Work.of s).beginDone q c 1)) ∧
   (∀ (s : State) (q : SqId) (c : Cmd), (Work.of s).next? q = some c → 0x0B < c.op →
     Runs (.opcodeReserved q) s ((Work.of s).beginDone q c 2))) ∧
  (∀ (w : Work) (q : Nat) (c : Cmd) (st fl : Nat) (d0 d1 : W64),
     (∀ p, w.sqOwner q = some p → (w.pound p).selfReset = false) →
     let v := w.complete q c st fl d0 d1
     let done := fun (s : Sq) => { s with cmds := s.cmds.map (fun x => if x.seq = c.seq then { x with phase := .completed st fl d0 d1 } else x) }
     let n := (w.sq q).cqNum
     (c.quiet = true ∧ st = 0 →
       v.sq q = Sq.settle { w.sq q with cmds := (w.sq q).cmds.filter (fun x => x.seq ≠ c.seq) } ∧
       v.cq n = { w.cq n with reserved := (w.cq n).reserved - 1 }) ∧
     (c.quiet = false ∨ st ≠ 0 →
       v.sq q = done (w.sq q) ∧
       v.cq n = { w.cq n with pend := (w.cq n).pend ++ [{ seq := c.seq, tag := c.tag, status := st, flags := fl
                                                          sq := BitVec.ofNat 32 q, d0 := d0, d1 := d1, reserved := true }] }) ∧
     (∀ p, p ≠ q → v.sq p = w.sq p) ∧ (∀ m, m ≠ n → v.cq m = w.cq m) ∧
     v = { w with chip := { w.chip with sqs := v.chip.sqs, cqs := v.chip.cqs } }) ∧
  (∀ (w : Work) (q : Nat) (c : Cmd),
     let v := w.begin q c
     v.sq q = { w.sq q with
       cmds := (w.sq q).cmds.map (fun x => if x.seq = c.seq then { x with phase := .started, startPs := w.chip.refPs } else x)
       started := c.seq } ∧
     (∀ p, p ≠ q → v.sq p = w.sq p) ∧ v = { w with chip := { w.chip with sqs := v.chip.sqs } })

/-- NOP, PHASE, HINT, WAIT_TIME, SAFE_POINT and the timeout of SEM_WAIT (R287, R292, R294, R494): what each does before its
entry, and the status and FLAGS it completes with.

SEM_WAIT reads its word at the point of coherence, when it starts and at each poll (R292): equal, or at least; with DETAIL0 the
value; a word that cannot be reached or read completes it with that status; a word of another module, or behind a port, is asked for
and arrives later, and nothing is read while it is on its way. -/
def Obligations.PlainCommandsAndWaits : Prop :=
  ((∀ (s : State) (q : SqId) (c : Cmd), Turn s q 0 c → Runs (.nop q) s ((Work.of s).beginDone q c 0)) ∧
   (∀ (s : State) (q : SqId) (c : Cmd), Turn s q 7 c →
     Runs (.phase q) s (((Work.of s).modSq q (fun x => { x with phase := c.at_ 0x0C 1 })).beginDone q c 0)) ∧
   (∀ (s : State) (q : SqId) (c : Cmd), Turn s q 8 c →
     (∀ p, (Work.of s).sqOwner q = some p →
       Runs (.hint q) s (((Work.of s).hintPower p (c.at_ 0x0C 1) (c.at_ 0x0E 2)).beginDone q c 0)) ∧
     ((Work.of s).sqOwner q = none → Runs (.hint q) s ((Work.of s).beginDone q c 0))) ∧
   (∀ (s : State) (q : SqId) (c : Cmd), Turn s q 10 c →
     let w := Work.of s
     let at_ := c.at_ 0x10 8
     (w.locked = true ∧ at_ < w.now → Runs (.waitTime q) s (w.beginDone q c 0 1)) ∧
     (w.locked = true ∧ at_ = w.now → Runs (.waitTime q) s (w.beginDone q c 0 0)) ∧
     (w.locked = false ∨ w.now < at_ → Runs (.waitTime q) s (w.begin q c))) ∧
   (∀ (s : State) (q : SqId) (n : W32) (c : Cmd), Going s q n 10 c →
     let w := Work.of s
     let at_ := c.at_ 0x10 8
     let late := at_ + 200 < w.now ∨ at_ < s.chip.time.lockedAt
     (w.locked = true ∧ at_ ≤ w.now ∧ late → Runs (.waitTimeReached q n) s (w.complete q c 0 1)) ∧
     (w.locked = true ∧ at_ ≤ w.now ∧ ¬late → Runs (.waitTimeReached q n) s (w.complete q c 0 0)) ∧
     (w.locked = false ∨ w.now < at_ → Becomes (.waitTimeReached q n) s s.chip)) ∧
   (∀ (s : State) (q : SqId) (c : Cmd), Turn s q 9 c →
     let w := Work.of s
     (c.safeTiles.any (fun k => w.tileOwner k = none || w.tileOwner k ≠ w.sqOwner q) = true →
       Runs (.safePoint q) s (w.beginDone q c 9)) ∧
     (c.safeTiles.any (fun k => w.tileOwner k = none || w.tileOwner k ≠ w.sqOwner q) = false →
       (c.safeTiles.all (fun k => (w.tile k).exDue = none && (w.tile k).st ≠ .exchanging) = true →
         Runs (.safePoint q) s (w.beginDone q c 0 0 (BitVec.ofNat 64 c.count))) ∧
       (c.safeTiles.any (fun k => (w.tile k).exDue.isSome || (w.tile k).st = .exchanging) = true →
         Runs (.safePoint q) s (w.begin q c)))) ∧
   (∀ (s : State) (q : SqId) (n : W32) (c : Cmd), Going s q n 4 c →
     (c.at_ 0x24 4 ≠ 0 → Runs (.semWaitTimeout q n) s
       (((Work.of s).leaveWrites (.command q n) (.command q n)).complete q c 0x12 0 c.seen)) ∧
     (c.at_ 0x24 4 = 0 → Becomes (.semWaitTimeout q n) s s.chip))) ∧
  (∀ (s : State) (q : SqId) (n : W32) (c : Cmd) (i : Instr) (w : Work),
     (i = .semWait q ∧ Turn s q 4 c ∧ n = c.seq ∧ w = (Work.of s).begin q c ∨ i = .semWaitPoll q n ∧ Going s q n 4 c ∧ w = Work.of s) →
     (w.xferQuiet (.command q c.seq) = false → Runs i s w) ∧
     (w.xferQuiet (.command q c.seq) = true →
     (∀ (v : Work) (st a : Nat), w.engReach (w.eng (.command q c.seq)) false (c.at_ 0x10 8) 8 false = (v, .bad st a) →
       Runs i s (v.complete q c st 0 (BitVec.ofNat 64 a))) ∧
     (∀ (v : Work) (a : Nat), w.engReach (w.eng (.command q c.seq)) false (c.at_ 0x10 8) 8 false = (v, .ok a) →
       (∀ m o, v.place a = .glob m o →
         let asked := v.issueRemote (.command q c.seq) (w.eng (.command q c.seq)).pound 1 a 8 [] []
           { Remote.blank with va := c.at_ 0x10 8 }
         (asked.2 = none → Runs i s asked.1) ∧ (∀ st, asked.2 = some st → Runs i s (asked.1.complete q c st))) ∧
       (∀ p o, v.place a = .mmio p o → Runs i s (v.portRead p (.command q c.seq) a (c.at_ 0x10 8) 8 none)) ∧
       ((∀ m o, v.place a ≠ .glob m o) → (∀ p o, v.place a ≠ .mmio p o) →
         ((v.vpoison a 8).isSome = true → Runs i s (v.complete q c 7 0 (BitVec.ofNat 64 (c.at_ 0x10 8)))) ∧
         ((v.vpoison a 8).isSome = false → Runs i s (v.semSeen q c.seq (BitVec.ofNat 64 (leNat (v.vread a 8)))))))))

/-- LAUNCH at its turn (R152, R157, R159, R289): a tile of another pound refuses it with 0x0009, a tile that cannot serve with the status
of its state; else it waits for its group.

A launch that waits takes its tiles only when all can be taken (R153, R262). It then resets its canals unless KEEP_SEM, and takes
every tile of its group into loading at once, with a clear array and movers, semaphores cleared unless KEEP_SEM, and mover 0 at the
image; then it writes inline arguments and begins to copy; the pound's phase is that of the launch (R153, R154, R492). -/
def Obligations.LaunchTiles : Prop :=
  (∀ (s : State) (q : SqId) (c : Cmd), Turn s q 1 c → c.count ≠ 1 →
     let w := Work.of s
     (c.launchTiles.any (fun k => w.tileOwner k = none || w.tileOwner k ≠ w.sqOwner q) = true →
       Runs (.launch q) s (w.beginDone q c 9)) ∧
     (c.launchTiles.any (fun k => w.tileOwner k = none || w.tileOwner k ≠ w.sqOwner q) = false →
       (∀ k, c.launchTiles.find? (fun k => !((w.tile k).st = .idle || (w.tile k).st = .loading || (w.tile k).st = .running ||
           (w.tile k).st = .exchanging)) = some k →
         Runs (.launch q) s (w.beginDone q c (match (w.tile k).st with
           | .offline => 8 | .draining | .disabled => 0x0A | .quarantined => 0x0B | _ => 9))) ∧
       (c.launchTiles.all (fun k => (w.tile k).st = .idle || (w.tile k).st = .loading || (w.tile k).st = .running ||
           (w.tile k).st = .exchanging) = true →
         Runs (.launch q) s (w.modSq q (fun x => { x with
           cmds := x.cmds.map (fun d => if d.seq = c.seq then { d with count := 1 } else d) }))))) ∧
  ((∀ (s : State) (q : SqId) (c : Cmd), Turn s q 1 c → (c.count ≠ 1 ∨ (Work.of s).canTake c = false) →
     Becomes (.launchStart q) s s.chip) ∧
   (∀ (s : State) (q : SqId) (c : Cmd), Turn s q 1 c → c.count = 1 → (Work.of s).canTake c = true →
     let p := ((Work.of s).sqOwner q).getD 0
     let phase := c.phaseTag (sqOf s q).phase
     let heavy := match (Work.of s).phaseEntry p phase with | some e => e.2 | none => false
     let rs := (Work.of s).canals.filter (fun r => c.launchTiles.contains r.c.prod || c.launchTiles.contains r.c.cons)
     let begun := ((Work.of s).begin q c).modCmd q c.seq (fun c => { c with tiles := c.launchTiles })
     let took := (if c.keepSem then begun else begun.each rs (fun w r => w.canalReset r)).each c.launchTiles.zipIdx (fun w e =>
       w.modTile e.1 (fun x => x.taken c { sq := q, seq := c.seq, limitUs := c.limitUs, phase := phase, heavy := heavy, flush := c.flush
                                           entry := c.entry, argOffset := c.argOffset, rank := e.2, size := c.launchTiles.length }))
     (∀ k ∈ c.launchTiles,
       (took.tile k).st = .loading ∧ (took.tile k).launches = ((tileOf s k).launches + 1) % 65536 ∧
       (∃ l, (took.tile k).launch = some l ∧ l.sq = q.val ∧ l.seq = c.seq ∧ l.rank = c.launchTiles.idxOf k ∧
         l.size = c.launchTiles.length ∧ l.entry = c.entry ∧ l.argOffset = c.argOffset ∧ l.limitUs = c.limitUs) ∧
       (took.tile k).array = Array_.zero ∧ (took.tile k).mover1 = Mover.zero ∧ (took.tile k).ended = none ∧
       (took.tile k).mover0 = { Mover.zero with run := some { words := [], xf := { Xfer.none with todo := c.loadPieces } } } ∧
       (∀ h, ((took.tile k).core h).running = false) ∧ (c.keepSem = false → ∀ m, (took.tile k).sem m = 0)) ∧
     Runs (.launchStart q) s
       (((took.each c.launchTiles (fun w k =>
         (if c.argInline && c.argLen ≠ 0 then
           w.pwrite (tileAddr k c.argOffset) ((c.bytes.drop 64).take c.argLen) false (some p)
          else w).pump (.mover k 0))).modPpow p (fun x => { x with phase := phase, hinted := none })).retarget p).setRails))

/-- Loading ends (R153, R154): a0 to a3 of each control core hold rank, size, ARG_OFFSET and tile index, it starts at ENTRY,
and the tile runs; a load that has failed stops the launch with that error's status and address.

A launch completes when every tile of its group has ended, at SCOPE SYSTEM with the read-ahead entries of its lines dropped (R156,
R158, R297, R298, R341): 0x0F after a drain that timed out; 0x0C
with tile, KIND, cause and exit code of the first tile that did not end well; else its result check; else 0. -/
def Obligations.LaunchLoads : Prop :=
  ((∀ (s : State) (q : SqId) (n : W32) (c : Cmd), Going s q n 1 c → c.tiles ≠ [] →
     c.tiles.all (fun k => ((Work.of s).loadOf k).isSome && (Work.of s).xferDone (.mover k 0)) = true →
     Runs (.loadingEnd q n) s ((Work.of s).each c.tiles (fun w k => w.modTile k (fun x => x.startCore k)))) ∧
   (∀ (x : Tile) (k : Nat) (l : TileLaunch), x.launch = some l →
     (x.startCore k).core 0 = { TileCore.zero with
       x := ((((TileCore.zero.setReg 10 (BitVec.ofNat 64 l.rank)).setReg 11 (BitVec.ofNat 64 l.size)).setReg 12
         (BitVec.ofNat 64 l.argOffset)).setReg 13 (BitVec.ofNat 64 k)).x
       pc := BitVec.ofNat 64 l.entry
       running := true } ∧
     (x.startCore k).st = (if x.st = .loading then .running else x.st) ∧ (x.startCore k).mover0 = Mover.zero ∧
     (∀ h, h ≠ 0 → (x.startCore k).core h = x.core h)) ∧
   (∀ (s : State) (q : SqId) (n : W32) (c : Cmd) (st a : Nat), Going s q n 1 c → c.tiles ≠ [] →
     c.tiles.all (fun k => ((Work.of s).loadOf k).isSome) = true →
     c.tiles.findSome? (fun k => ((Work.of s).loadOf k).bind (fun x => x.failed)) = some (st, a) →
     Runs (.loadingEnd q n) s
       ((((Work.of s).each c.tiles (fun w k =>
         (w.leaveWrites (.mover k 0) (.tile k)).modTile k (fun x => { x.leave with mover0 := Mover.zero }))).each c.tiles
         (fun w k => w.settleQuarantine k)).complete q c st 0 (BitVec.ofNat 64 a)))) ∧
  ((∀ (s : State) (q : SqId) (n : W32) (c : Cmd), Going s q n 1 c → c.tiles ≠ [] →
     c.tiles.all (fun k => (tileOf s k).ended.isSome) = true →
     let r := (Work.of s).launchResult c
     let left := ((Work.of s).each c.tiles (fun w k => w.modTile k Tile.leave)).each c.tiles (fun w k => w.settleQuarantine k)
     Runs (.launchComplete q n) s
       ((if c.scope = 3 then left.dropLines c.xf.lines else left).setRails.complete q c r.1 0 r.2.1 r.2.2)) ∧
   (∀ (s : State) (q : SqId) (n : W32) (c : Cmd), Going s q n 1 c →
     c.tiles.any (fun k => (tileOf s k).ended.isNone) = true → Becomes (.launchComplete q n) s s.chip) ∧
   (∀ (w : Work) (c : Cmd) (e : Nat → TileEnd), (∀ k ∈ c.tiles, (w.tile k).ended = some (e k)) →
     ((∃ k ∈ c.tiles, (e k).kind = 7) → (w.launchResult c).1 = 0x0F) ∧
     ((∀ k ∈ c.tiles, (e k).kind = 0 ∧ (e k).code = 0) → c.check = 0 → w.launchResult c = (0, 0, 0)) ∧
     ((∀ k ∈ c.tiles, (e k).kind = 0 ∧ (e k).code = 0) → c.check ≠ 0 →
       w.launchResult c = (c.check, BitVec.ofNat 64 c.checkTile, 0)) ∧
     (∀ k l r, c.tiles = l ++ k :: r → (∀ j ∈ c.tiles, (e j).kind ≠ 7) → (e k).kind ≠ 5 → ((e k).kind ≠ 0 ∨ (e k).code ≠ 0) →
       (∀ j ∈ l, (e j).kind = 5 ∨ (e j).kind = 0 ∧ (e j).code = 0) →
       w.launchResult c = (0x0C, BitVec.ofNat 64 (k + (e k).kind * 2 ^ 8 + (e k).cause % 65536 * 2 ^ 16 + (e k).code * 2 ^ 32),
         (w.tile k).fault.pc))))

/-- MOVE, WRITE, SEM_SIGNAL and LEDGER_READ (R290, R291, R293, R294): refusals of another pound's tile, what starts, and the slot that
LEDGER_READ clears; a SEM_SIGNAL at SYSTEM first drops what a read-ahead entry holds of earlier writes (R321).

A copy command completes (R287, R290, R298, R341): with the status of the error that stopped it and, for an address error, the
address; with 0 when all of it is visible; neither before what it has written is visible at its SCOPE. -/
def Obligations.CopyCommands : Prop :=
  ((∀ (s : State) (q : SqId) (c : Cmd), Turn s q 2 c →
     let d := (Work.of s).moveDesc q c
     let ok := d.ok && (Work.of s).weightOk ((Work.of s).eng (.command q c.seq)) d d.pieces
     (ok = false → Runs (.move q) s ((Work.of s).beginDone q c 1)) ∧
     (ok = true → Runs (.move q) s ((((Work.of s).begin q c).modCmd q c.seq (fun x =>
       { x with xf := { Xfer.none with todo := d.pieces } })).pump (.command q c.seq)))) ∧
   (∀ (s : State) (q : SqId) (c : Cmd), Turn s q 3 c →
     Runs (.write q) s (((Work.of s).begin q c).inlineWrite q c (c.at_ 0x10 8) ((c.bytes.drop 64).take (c.at_ 0x18 2))
       (c.at_ 0x1A 2 = 1))) ∧
   (∀ (s : State) (q : SqId) (c : Cmd), Turn s q 5 c →
     let w := if c.scope = 3 then (Work.of s).dropStale else Work.of s
     let k := c.at_ 0x20 2
     (c.at_ 0x0C 1 = 2 → w.tileOwner k = none ∨ w.tileOwner k ≠ w.sqOwner q → Runs (.semSignal q) s (w.beginDone q c 9)) ∧
     (c.at_ 0x0C 1 = 2 → w.tileOwner k ≠ none → w.tileOwner k = w.sqOwner q →
       Runs (.semSignal q) s (((w.begin q c).modTile k (fun x => semPlus x (c.at_ 0x22 1) (c.at_ 0x18 4))).complete q c 0)) ∧
     (c.at_ 0x0C 1 = 0 → Runs (.semSignal q) s
       (((w.begin q c).inlineWrite q c (c.at_ 0x10 8) (leBytes 8 (c.at_ 0x18 8)) true).writeComplete q c.seq)) ∧
     (c.at_ 0x0C 1 = 1 → Runs (.semSignal q) s (((w.begin q c).signalAdd q c).writeComplete q c.seq))) ∧
   (∀ (s : State) (q : SqId) (c : Cmd), Turn s q 11 c →
     let w := Work.of s
     let k := c.at_ 0x0C 2
     let copied := (w.begin q c).inlineWrite q c (c.at_ 0x10 8) ((tileOf s k).ledgerSlot (c.at_ 0x0E 1)).bytes true
     (w.tileOwner k = none ∨ w.tileOwner k ≠ w.sqOwner q → Runs (.ledgerRead q) s (w.beginDone q c 9)) ∧
     (w.tileOwner k ≠ none → w.tileOwner k = w.sqOwner q →
       (c.at_ 0x0F 1 = 0 → Runs (.ledgerRead q) s (copied.writeComplete q c.seq)) ∧
       (c.at_ 0x0F 1 = 1 → Runs (.ledgerRead q) s ((copied.modTile k (fun x =>
         { x with ledger := SMap.set LedgerSlot.zero x.ledger (c.at_ 0x0E 1) LedgerSlot.zero })).writeComplete q c.seq))))) ∧
  (∀ (s : State) (q : SqId) (n : W32) (c : Cmd) (i : Instr),
     (i = .moveComplete q n ∧ Going s q n 2 c ∨
       i = .writeComplete q n ∧ (Going s q n 3 c ∨ Going s q n 5 c ∨ Going s q n 11 c)) →
     let w := Work.of s
     let done := if c.scope = 3 then w.dropLines c.xf.lines else w
     (∀ st a, c.xf.failed = some (st, a) →
       (w.xferQuiet (.command q c.seq) = false → Becomes i s s.chip) ∧
       (w.xferQuiet (.command q c.seq) = true →
         Runs i s (done.complete q c st 0 (if 4 ≤ st && st ≤ 7 then BitVec.ofNat 64 a else 0)))) ∧
     (c.xf.failed = none → w.xferDone (.command q c.seq) = false → Becomes i s s.chip) ∧
     (c.xf.failed = none → w.xferDone (.command q c.seq) = true → Runs i s (done.complete q c 0)))

/-! ## Queues -/

/-- A doorbell, once every earlier store of the hart is visible (R276, R278, R329): a store of another size, or of 64 bits with an upper
half, is recorded; a queue of another pound gives the storing core a store access fault; a queue that is not RUNNING counts the
value as refused; TAIL moves forward as far as the ring allows; any other value stops the queue with ERROR 1.

The drain of a queue (R302, R305, R307): its timeout aborts what has started; its end waits until every command has completed and,
where the completion queue takes entries, every earlier entry has been written; it writes the terminal entry, which a FAULTED queue
holds, unbinds the completion queue, and leaves the queue DISABLED with its counters at HEAD and LAST_FETCHED. -/
def Obligations.DoorbellsAndDrains : Prop :=
  (∀ (s : State) (c : CoreId) (q : SqId) (z : Size) (v : W64), HartFree s c →
     let w := untrap c ((Work.of s).drainStores c)
     let x := w.sq q
     let a := 0x3F00_0000_0000 + q.val * 8
     let value := v.setWidth 32
     (regSize z = false ∨ z = .b8 ∧ 2 ^ 32 ≤ v.toNat → Runs (.doorbell c q z v) s (w.record
       { cls := 0x0601, kind := 1, id := c, pound := optPound (w.coreOwner c), action := 6, addr := a, d0 := v.toNat })) ∧
     (regSize z = true → (z = .b8 → v.toNat < 2 ^ 32) →
     (w.sqOwner q = none ∨ w.coreOwner c ≠ w.sqOwner q →
       Runs (.doorbell c q z v) s (w.denyStore c a) ∧
       ((coreOf s c).storeBuf = [] → Gives (.doorbell c q z v) s (CoreTo c (fun h =>
         { h with trap := some (7, BitVec.ofNat 64 a), resv := none, lrHold := false }) s))) ∧
     (w.sqOwner q ≠ none → w.coreOwner c = w.sqOwner q →
       (x.st ≠ .running → Runs (.doorbell c q z v) s (w.modSq q (fun x => { x with refused := min 0xFFFF_FFFF (x.refused + 1) }))) ∧
       (x.st = .running → value = x.tail → Runs (.doorbell c q z v) s w) ∧
       (x.st = .running → value ≠ x.tail → (value - x.tail).toNat < 2 ^ 31 → (value - x.head).toNat ≤ 2 ^ x.log2 →
         Runs (.doorbell c q z v) s (w.modSq q (fun x => { x with tail := value }))) ∧
       (x.st = .running → (2 ^ 31 ≤ (value - x.tail).toNat ∨ value ≠ x.tail ∧ 2 ^ x.log2 < (value - x.head).toNat) →
         Runs (.doorbell c q z v) s (w.stopSq q 1 0 value.toNat))))) ∧
  (∀ (s : State) (q : SqId),
     let x := sqOf s q
     (x.st ≠ .draining → Becomes (.queueDrainTimeout q) s s.chip ∧ Becomes (.queueDrainEnd q) s s.chip) ∧
     (x.st = .draining → Runs (.queueDrainTimeout q) s ((Work.of s).abortStarted q 0x0F 7)) ∧
     (x.st = .draining → (∃ c ∈ x.cmds, c.isDone = false) → Becomes (.queueDrainEnd q) s s.chip) ∧
     (x.st = .draining → (cqOf s x.cqNum).st ≠ .faulted → x.cmds ≠ [] ∨ (cqOf s x.cqNum).pend ≠ [] →
       Becomes (.queueDrainEnd q) s s.chip) ∧
     (x.st = .draining → (∀ c ∈ x.cmds, c.isDone = true) →
       (cqOf s x.cqNum).st = .faulted ∨ x.cmds = [] ∧ (cqOf s x.cqNum).pend = [] →
       let e : Entry := { seq := x.fetched, tag := 0, status := 0x13, flags := 0, sq := BitVec.ofNat 32 q
                          d0 := BitVec.ofNat 64 (x.head.toNat + x.tail.toNat * 2 ^ 32), d1 := BitVec.ofNat 64 x.aborted
                          reserved := true }
       let held := (Work.of s).modCq x.cqNum (fun c => { c with pend := c.pend ++ [e] })
       let written := (Work.of s).writeEntry x.cqNum e
       let put := if (cqOf s x.cqNum).st = .faulted then held else if written.2 then written.1
         else written.1.modCq x.cqNum (fun c => { c with pend := c.pend ++ [e] })
       Runs (.queueDrainEnd q) s ((put.modCq x.cqNum (fun c => { c with bound := c.bound - 1 })).modSq q (fun y =>
         { y with st := .disabled, tail := y.head, started := y.fetched, completed := y.fetched, cmds := [], aborted := 0 }))))


/-- A command processor's turn (R279, R285): with 4,096 commands in flight, or no eligible queue, it fetches nothing; else it fetches
from an eligible queue of its own, the next at or after its turn where there is one, and its turn is then the queue after it.

A fetch (R279, R285, R299): a slot that cannot be read stops the queue with that status; a command whose extension slots are not yet
there waits; a wrong SEQ writes an entry of status 0x0003 and stops the queue with ERROR 3; else HEAD passes the command, its
SEQ is the last fetched, one entry is reserved, and it waits to start. -/
def Obligations.CommandFetches : Prop :=
  (∀ (s : State) (n : CpId),
     let w := Work.of s
     (4096 ≤ w.inflight n → Becomes (.commandFetch n) s s.chip) ∧
     ((∀ e ∈ s.chip.sqs, e.1 % 16 = n → w.eligible e.1 = false) → Becomes (.commandFetch n) s s.chip) ∧
     (w.inflight n < 4096 → (∃ e ∈ s.chip.sqs, e.1 % 16 = n ∧ w.eligible e.1 = true) →
       ∃ e ∈ s.chip.sqs, e.1 % 16 = n ∧ w.eligible e.1 = true ∧
         (SMap.get 0 s.chip.cps n ≤ e.1 ∨
           ∀ d ∈ s.chip.sqs, d.1 % 16 = n → w.eligible d.1 = true → d.1 < SMap.get 0 s.chip.cps n) ∧
         Runs (.commandFetch n) s
           (Work.fetch { w with chip := { s.chip with cps := SMap.set 0 s.chip.cps n (e.1 + 1) } } e.1))) ∧
  (∀ (w v : Work) (q : Nat),
     let x := w.sq q
     let slot := x.base.toNat + x.head.toNat % 2 ^ x.log2 * 64
     (∀ st a, w.readSlot q x.head = (v, .bad st a) → w.fetch q = v.stopSq q st slot 0) ∧
     (∀ b, w.readSlot q x.head = (v, .ok b) →
       let extra := leAt b 1 1 % 8
       let seq : W32 := BitVec.ofNat 32 (leAt b 4 4)
       ((x.tail - x.head).toNat < 1 + extra → w.fetch q = v) ∧
       (1 + extra ≤ (x.tail - x.head).toNat → seq ≠ x.fetched + 1 →
         w.fetch q = ((v.modCq x.cqNum (fun c => { c with
           reserved := c.reserved + 1 })).modCq x.cqNum (fun c => { c with
           pend := c.pend ++ [{ seq := seq, tag := BitVec.ofNat 32 (leAt b 8 4), status := 3, flags := 0
                                sq := BitVec.ofNat 32 q, d0 := 0, d1 := 0, reserved := true }] })).stopSq q 3 slot seq.toNat) ∧
       (1 + extra ≤ (x.tail - x.head).toNat → seq = x.fetched + 1 → ∀ (u : Work) (more : List Byte),
         v.readSlots q (x.head + 1) extra = (u, .ok more) →
         w.fetch q = (u.modCq x.cqNum (fun c => { c with reserved := c.reserved + 1 })).modSq q (fun y =>
           { y with head := y.head + BitVec.ofNat 32 (1 + extra), fetched := seq
                    cmds := y.cmds ++ [{ seq := seq, bytes := b ++ more, phase := .fetched, startPs := 0, tiles := [], check := 0
                                         checkTile := 0, xf := Xfer.none, count := 0, seen := 0 }] }))))

/-- Completion entries (R295, R296, R300 to R302): the oldest entry of an ENABLED queue is written to the next slot once every write of its
command is visible, and its command leaves its queue unless the entry ends a drain or refuses a SEQ; a queue that is
not ENABLED writes none; a valid acknowledgement is taken, a value that is not valid, or a word that cannot be read, is recorded once;
the interrupt of a batch goes out once. -/
def Obligations.CompletionQueues : Prop :=
  (∀ (s : State) (c : CqId), ((cqOf s c).st ≠ .enabled ∨ (cqOf s c).pend = []) → Becomes (.completionWrite c) s s.chip) ∧
  (∀ (s : State) (c : CqId) (e : Entry) (rest : List Entry) (v : Work), (cqOf s c).st = .enabled → (cqOf s c).pend = e :: rest →
    ((Work.of s).entryReady e = false → Becomes (.completionWrite c) s s.chip) ∧
    ((Work.of s).entryReady e = true →
    ((Work.of s).writeEntry c e = (v, false) → Runs (.completionWrite c) s v) ∧
    ((Work.of s).writeEntry c e = (v, true) →
      (e.sq = 0xFFFF_FFFF ∨ e.status = 0x13 ∨ e.status = 3 →
        Runs (.completionWrite c) s (v.modCq c (fun x => { x with pend := rest }))) ∧
      (e.sq ≠ 0xFFFF_FFFF → e.status ≠ 0x13 → e.status ≠ 3 →
        Runs (.completionWrite c) s ((v.modCq c (fun x => { x with pend := rest })).retireCmd e.sq.toNat e.seq))))) ∧
  (∀ (w : Work) (c : Nat) (e : Entry),
    let x := w.cq c
    let va := x.base.toNat + (x.lastWritten + 1).toNat % 2 ^ x.log2 * 64
    let fetched := if e.sq = 0xFFFF_FFFF then 0 else (w.sq e.sq.toNat).fetched
    let r := w.vaWrite (cpCache (c % 16)) (poundDev ((w.cqOwner c).getD 0)) (some x.pid) (.ring (w.cqOwner c)) 8 (c % 16) va
      (e.bytes (x.lastWritten + 1) fetched w.now) true
    (∀ st a, r.2 = .bad st a → w.writeEntry c e = (r.1.faultCq c st a, false)) ∧
    (∀ l, r.2 = .ok l → w.writeEntry c e = (r.1.modCq c (fun y =>
      { y with lastWritten := x.lastWritten + 1, reserved := if e.reserved then y.reserved - 1 else y.reserved
               msiDue := y.msiDue || y.irq % 2 = 1 }), true))) ∧
  (∀ (s : State) (c : CqId), (cqOf s c).st = .disabled → Becomes (.ackRead c) s s.chip) ∧
  (∀ (s : State) (c : CqId) (v : Work) (b : List Byte), (cqOf s c).st ≠ .disabled →
    let x := cqOf s c
    let a : W32 := BitVec.ofNat 32 (leNat b)
    (Work.of s).vaRead (cpCache (c % 16)) (poundDev (((Work.of s).cqOwner c).getD 0)) (some x.pid) (.ring ((Work.of s).cqOwner c))
      8 (c % 16) x.ackAddr.toNat 8 = (v, .ok b) →
    (leNat b < 2 ^ 32 ∧ (a - x.lastAck).toNat ≤ (x.lastWritten - x.lastAck).toNat →
      Runs (.ackRead c) s (v.modCq c (fun y => { y with lastAck := a }))) ∧
    (2 ^ 32 ≤ leNat b ∨ (x.lastWritten - x.lastAck).toNat < (a - x.lastAck).toNat →
      BitVec.ofNat 64 (leNat b) ∈ x.badAcks → Runs (.ackRead c) s v) ∧
    (2 ^ 32 ≤ leNat b ∨ (x.lastWritten - x.lastAck).toNat < (a - x.lastAck).toNat →
      BitVec.ofNat 64 (leNat b) ∉ x.badAcks →
      Runs (.ackRead c) s ((v.modCq c (fun y => { y with badAcks := y.badAcks ++ [BitVec.ofNat 64 (leNat b)] })).record
        { cls := 0x0603, kind := 8, id := c % 16, pound := optPound ((Work.of s).cqOwner c), action := 6
          addr := x.ackAddr.toNat, d0 := leNat b, d1 := c }))) ∧
  (∀ (s : State) (c : CqId) (v : Work) (st a : Nat), (cqOf s c).st ≠ .disabled →
    let x := cqOf s c
    (Work.of s).vaRead (cpCache (c % 16)) (poundDev (((Work.of s).cqOwner c).getD 0)) (some x.pid) (.ring ((Work.of s).cqOwner c))
      8 (c % 16) x.ackAddr.toNat 8 = (v, .bad st a) →
    (x.ackFault = true → Runs (.ackRead c) s v) ∧
    (x.ackFault = false → Runs (.ackRead c) s ((v.modCq c (fun y => { y with ackFault := true })).recCqFault c 1 a st 1))) ∧
  (∀ (s : State) (c : CqId),
    let x := cqOf s c
    ((x.msiDue = false ∨ x.st = .disabled) → Becomes (.msiWrite c) s s.chip) ∧
    (x.msiDue = true → x.st ≠ .disabled →
      Runs (.msiWrite c) s (((Work.of s).modCq c (fun y => { y with msiDue := false })).msi (cpCache (c % 16))
        (poundDev (((Work.of s).cqOwner c).getD 0)) (some x.pid) ((Work.of s).cqOwner c) 8 (c % 16) x.msiAddr.toNat x.msiData)))

/-- Writes of a host core of the pound to its window of a command processor and to CP_NOTICE (R302, R305 to R307, R311, R314 to R316): what a selection latches,
what a write to the context of a DISABLED queue changes, what ENABLE, DISABLE and another OP do and with which status they are refused,
and the VALID bit that only an ENABLED queue of the pound keeps.

When ENABLE of a submission queue is refused, and with which STATUS (R305, R306). -/
def Obligations.QueueRegisters : Prop :=
  ((∀ (s : State) (c : CoreId) (n : CpId) (p : PoundId) (z : Size) (high : Bool) (v : W64), regSize z = true →
     RegOpen s c (cpOff n + 0x1000 + p.val * 0x100) ((Work.of s).isPound c p) →
     let r := merge ((Work.of s).cpWin n p).qsel z high v
     let w := (Work.of s).modCpWin n p (fun x => { x with cq := bit r 32, queue := bits r 19 0 })
     (w.winOwned n p = true → Runs (.cpQselWrite c n p z high v) s (untrap c
       (w.modCpWin n p (fun x => { x with snap := if bit r 32 then (w.cq (bits r 19 0)).bytes else (w.sq (bits r 19 0)).bytes })))) ∧
     (w.winOwned n p = false → Runs (.cpQselWrite c n p z high v) s (untrap c
       ((w.modCpWin n p (fun x => { x with snap := [] })).modCpWin n p (fun x => { x with status := 6 }))))) ∧
   (∀ (s : State) (c : CoreId) (n : CpId) (p : PoundId) (word : Fin 8) (z : Size) (high : Bool) (v : W64), regSize z = true →
     RegOpen s c (cpOff n + 0x1008 + p.val * 0x100 + word.val * 8) ((Work.of s).isPound c p) →
     let x := (Work.of s).cpWin n p
     let lo := word.val * 8 + (if z = .b8 then 0 else if high then 4 else 0)
     let len := if z = .b8 then 8 else 4
     ((Work.of s).winOwned n p = false → Runs (.cpQctxWrite c n p word z high v) s (untrap c (Work.of s))) ∧
     ((Work.of s).winOwned n p = true →
       (if x.cq then (cqOf s x.queue).st ≠ .disabled else (sqOf s x.queue).st ≠ .disabled) →
       Runs (.cpQctxWrite c n p word z high v) s (untrap c ((Work.of s).modCpWin n p (fun y => { y with status := 1 })))) ∧
     ((Work.of s).winOwned n p = true → x.cq = false → (sqOf s x.queue).st = .disabled → (∀ f ∈ sqFields, f.1 < lo ∨ lo + len < f.1 + f.2) →
       Runs (.cpQctxWrite c n p word z high v) s (untrap c ((Work.of s).modCpWin n p (fun y => { y with status := 1 })))) ∧
     ((Work.of s).winOwned n p = true → x.cq = false → (sqOf s x.queue).st = .disabled → word.val = 0 → z = .b8 →
       (sqOf s x.queue).log2 < 256 → (sqOf s x.queue).csv < 256 → (sqOf s x.queue).cq < 2 ^ 32 → (sqOf s x.queue).pasid < 2 ^ 32 →
       ∃ snap, Runs (.cpQctxWrite c n p word z high v) s (untrap c
         (((Work.of s).modSq x.queue (fun y => { y with base := v })).modCpWin n p (fun y => { y with snap := snap })))) ∧
     ((Work.of s).winOwned n p = true → x.cq = false → (sqOf s x.queue).st = .disabled →
       (∃ i, i < len ∧ inField sqFields lo len (lo + i) = true) →
       ∃ snap, Runs (.cpQctxWrite c n p word z high v) s (untrap c
         (((Work.of s).modSq x.queue (fun y =>
           let b := y.withBytes ((List.range 64).map (fun o =>
             if inField sqFields lo len o then (leBytes 8 v.toNat).getD (o - lo) 0 else (sqOf s x.queue).bytes.getD o 0))
           if lo ≤ 0x1C && 0x1C < lo + len then { b with started := b.fetched, completed := b.fetched, tail := b.head } else b)).modCpWin
           n p (fun y => { y with snap := snap })))) ∧
     ((Work.of s).winOwned n p = true → x.cq = true → (cqOf s x.queue).st = .disabled →
       (∃ i, i < len ∧ inField cqFields lo len (lo + i) = true) →
       ∃ snap, Runs (.cpQctxWrite c n p word z high v) s (untrap c
         (((Work.of s).modCq x.queue (fun y =>
           let b := y.withBytes ((List.range 64).map (fun o =>
             if inField cqFields lo len o then (leBytes 8 v.toNat).getD (o - lo) 0 else (cqOf s x.queue).bytes.getD o 0))
           if lo = 0x18 then { b with lastAck := b.lastWritten } else b)).modCpWin n p (fun y => { y with snap := snap })))) ∧
     ((Work.of s).winOwned n p = true → x.cq = true → (cqOf s x.queue).st = .disabled → (∀ f ∈ cqFields, f.1 < lo ∨ lo + len < f.1 + f.2) →
       Runs (.cpQctxWrite c n p word z high v) s (untrap c ((Work.of s).modCpWin n p (fun y => { y with status := 1 }))))) ∧
   (∀ (s : State) (c : CoreId) (n : CpId) (p : PoundId), RegOpen s c (cpOff n + 0x1048 + p.val * 0x100) ((Work.of s).isPound c p) →
     let w := Work.of s
     let x := w.cpWin n p
     let answers := fun (w : Work) (st : Nat) => untrap c (w.modCpWin n p (fun y => { y with status := st }))
     (w.winOwned n p = false → Runs (.queueEnable c n p) s (answers w 6) ∧ Runs (.queueDisable c n p) s (answers w 6)) ∧
     (w.winOwned n p = true → x.cq = false →
       (w.sqEnableStatus x.queue p ≠ 0 → Runs (.queueEnable c n p) s (answers w (w.sqEnableStatus x.queue p))) ∧
       (w.sqEnableStatus x.queue p = 0 → Runs (.queueEnable c n p) s (answers
         ((w.modCq (w.sq x.queue).cqNum (fun y => { y with bound := y.bound + 1, reserved := y.reserved + 1 })).modSq x.queue
           (fun y => { y with st := .running, aborted := 0 })) 0)) ∧
       ((w.sq x.queue).st = .running ∨ (w.sq x.queue).st = .stopped → Runs (.queueDisable c n p) s (answers
         ((w.modSq x.queue (fun y => { y with st := .draining, aborted := 0 })).abortFetched x.queue 0x0F) 0)) ∧
       ((w.sq x.queue).st ≠ .running → (w.sq x.queue).st ≠ .stopped → Runs (.queueDisable c n p) s (answers w 1))) ∧
     (w.winOwned n p = true → x.cq = true →
       (w.cqEnableStatus x.queue ≠ 0 → Runs (.queueEnable c n p) s (answers w (w.cqEnableStatus x.queue))) ∧
       (w.cqEnableStatus x.queue = 0 → Runs (.queueEnable c n p) s (answers
         ((w.modCq x.queue (fun y => { y with st := .enabled, ackFault := false })).writeHeld x.queue (w.cq x.queue).pend.length) 0)) ∧
       ((w.cq x.queue).bound ≠ 0 → Runs (.queueDisable c n p) s (answers w 5)) ∧
       ((w.cq x.queue).bound = 0 → (w.cq x.queue).st = .disabled → Runs (.queueDisable c n p) s (answers w 1)) ∧
       ((w.cq x.queue).bound = 0 → (w.cq x.queue).st ≠ .disabled →
         let lost := if (w.cq x.queue).st = .faulted then
           w.recCqFault x.queue (w.cq x.queue).pend.length 0 (w.cq x.queue).error 2 else w
         Runs (.queueDisable c n p) s (answers
           ((lost.modCq x.queue (fun y => { y with st := .disabled, pend := []
                                                   reserved := y.reserved - (y.pend.filter (fun e => e.reserved)).length })).noticeOff
             p x.queue) 0))) ∧
     (∀ op : BitVec 2, op = 0 ∨ op = 3 → Runs (.cpQcmdBad c n p op) s (answers w 7))) ∧
   (∀ (s : State) (c : CoreId) (p : PoundId) (z : Size) (high : Bool) (v : W64), regSize z = true →
     RegOpen s c (cpOff 0 + 0x8000 + p.val * 0x40) ((Work.of s).isPound c p) →
     let old := (Work.of s).pound p
     let low := z = .b8 ∨ high = false
     let up := z = .b8 ∨ high = true
     let cq := if low then bits v 17 0 else old.noticeCq
     let want : Bool := if up then (if z = .b8 then bit v 63 else bit v 31) else old.noticeValid
     let ok := (cqOf s cq).st = .enabled ∧ (Work.of s).cqOwner cq = some p.val
     let clears := z = .b8 ∧ bits v 47 32 = 0xFFFF ∨ z = .b4 ∧ high = true ∧ bits v 15 0 = 0xFFFF
     let w := (Work.of s).modPound p (fun x => { x with
       noticeCq := cq
       noticeValid := want && decide ok
       noticeDropped := if clears then 0 else x.noticeDropped })
     (want = false ∨ ok → Runs (.cpNoticeWrite c p z high v) s (untrap c w)) ∧
     (want = true → ¬ ok → Runs (.cpNoticeWrite c p z high v) s (untrap c
       (w.ignoreReg c (cpOff 0 + 0x8000 + p.val * 0x40 + (if z = .b4 ∧ high = true then 4 else 0)) z v))))) ∧
  (∀ (w : Work) (q p : Nat),
     let x := w.sq q
     let shape := x.pasid < 2 ^ 20 ∧ x.cq < 2 ^ 18 ∧ 4 ≤ x.log2 ∧ x.log2 ≤ 16 ∧ x.base.toNat % 4096 = 0
     let bound := (w.cq x.cqNum).st = .enabled ∧ w.cqOwner x.cqNum = some p
     (x.st ≠ .disabled → w.sqEnableStatus q p = 1) ∧
     (x.st = .disabled → ¬ (shape ∧ bound) → w.sqEnableStatus q p = 2) ∧
     (x.st = .disabled → shape → bound → x.csv ≠ 1 → w.sqEnableStatus q p = 3) ∧
     (x.st = .disabled → shape → bound → x.csv = 1 → w.cqFree x.cqNum < 1 → w.sqEnableStatus q p = 4) ∧
     (x.st = .disabled → shape → bound → x.csv = 1 → 1 ≤ w.cqFree x.cqNum → w.sqEnableStatus q p = 0))

/-! ## Lock orders -/

/-- Posting (R110, R112, R114): the table refuses an order while Lock Time is not LOCKED, less than 2 us or more than 24 h ahead, and one from outside beyond
3,840; an accepted one takes a free entry and the next number of acceptance.

LT_ORDER_CMD of a pound (R113, R119, R123, R124): what a POST needs, in the order of its statuses; what a CANCEL finds; any other OP is a bad
argument. A notice goes to the affected pounds at its moment (R118).

Orders of actions 0x06 and 0x07 (R304, R531): FENCE_SEQ of each queue of the pound takes LAST_STARTED; a
Collation window runs to AT + ARG us and ends then; a fence that every queue has reached goes to the notice queue. -/
def Obligations.OrdersAndWindows : Prop :=
  ((∀ (w : Work) (who : Poster) (at_ : Nat),
     (w.locked = false → w.postStatus who at_ = 2) ∧
     (w.locked = true → at_ < w.now + 2000 → w.postStatus who at_ = 3) ∧
     (w.locked = true → w.now + 2000 ≤ at_ → w.now + 86_400_000_000_000 < at_ → w.postStatus who at_ = 4) ∧
     (w.locked = true → w.now + 2000 ≤ at_ → at_ ≤ w.now + 86_400_000_000_000 →
       (who = .management ∨ (∃ p, who = .pound p)) → 3840 ≤ w.outsideOrders → w.postStatus who at_ = 1) ∧
     (w.locked = true → w.now + 2000 ≤ at_ → at_ ≤ w.now + 86_400_000_000_000 → w.outsideOrders < 3840 →
       w.postStatus who at_ = 0)) ∧
   (∀ (w : Work) (who : Poster) (action at_ pound arg : Nat), w.postStatus who at_ = 0 → w.chip.time.orders.length < 4096 →
     let r := w.post_ who action at_ pound 0 arg
     r.2.1 = 0 ∧ r.2.2 < 4096 ∧ w.order? r.2.2 = none ∧
     r.1.order? r.2.2 = some { action := action, at_ := at_, pound := pound, notice := 0, arg := arg, poster := who
                               accepted := w.chip.time.accepted, began := none, deadline := none, noticed := false } ∧
     r.1 = { w with chip := { w.chip with
       free := w.chip.free + 1
       time := { w.chip.time with orders := r.1.chip.time.orders, accepted := w.chip.time.accepted + 1 } } })) ∧
  ((∀ (s : State) (c : CoreId) (p : PoundId), RegOpen s c (ltBase + 0x110 + p.val * 0x40) ((Work.of s).isPound c p) →
     let r := (Work.of s).orderRegs p
     let action := bits r.spec 7 0
     let arg := bits r.spec 63 32
     let w := Work.of s
     let result := fun (w : Work) (st i : Nat) => untrap c (w.modOrderRegs p (fun x => { x with status := st, index := BitVec.ofNat 12 i }))
     (action = 6 ∧ arg = 0 ∨ action = 7 ∧ arg ≠ 0 → Runs (.ltOrderPost c p) s (result w 6 0)) ∧
     (action ≠ 6 → action ≠ 7 → Runs (.ltOrderPost c p) s (result w 5 0)) ∧
     (action = 6 ∧ arg ≠ 0 ∨ action = 7 ∧ arg = 0 →
       let t := w.post_ (.pound p) action r.at_.toNat p (bits r.spec 31 16) arg
       Runs (.ltOrderPost c p) s (result t.1 t.2.1 t.2.2)) ∧
     (∀ i : OrderIdx,
       (w.order? i = none → Runs (.ltOrderCancel c p i) s (result w 7 i)) ∧
       (∀ o, w.order? i = some o →
         (o.action = 3 → Runs (.ltOrderCancel c p i) s (result w 5 i)) ∧
         (o.action ≠ 3 → o.poster ≠ .pound p → Runs (.ltOrderCancel c p i) s (result w 7 i)) ∧
         (o.action ≠ 3 → o.poster = .pound p → o.began ≠ none → Runs (.ltOrderCancel c p i) s (result w 8 i)) ∧
         (o.action ≠ 3 → o.poster = .pound p → o.began = none → Runs (.ltOrderCancel c p i) s
           (result { w with chip := { s.chip with time := { s.chip.time with orders := SMap.erase s.chip.time.orders i } } } 0 i)))) ∧
     (∀ op : BitVec 2, op = 0 ∨ op = 3 → Runs (.ltOrderBadOp c p op) s (result w 6 0))) ∧
   (∀ (s : State) (i : OrderIdx),
     ((Work.of s).order? i = none → Becomes (.lockOrderNotice i) s s.chip) ∧
     (∀ o, (Work.of s).order? i = some o →
       (o.notice ≠ 0 ∧ o.noticed = false ∧ o.at_ ≤ (Work.of s).now + o.notice * 1000 ∧ o.began = none ∧ (Work.of s).locked = true →
         Runs (.lockOrderNotice i) s ((Work.of s).sendNotice i o)) ∧
       (o.notice = 0 ∨ o.noticed = true ∨ (Work.of s).now + o.notice * 1000 < o.at_ ∨ o.began ≠ none ∨ (Work.of s).locked = false →
         Becomes (.lockOrderNotice i) s s.chip)))) ∧
  ((∀ (s : State) (i : OrderIdx) (o : Order), (Work.of s).startable i 7 = some o →
     let w := (Work.of s).beginOrder i o (some 1_000_000)
     let qs := w.sqsOf o.pound
     let v := w.each qs (fun w q => w.modSq q (fun x => { x with fenceSeq := x.started }))
     Runs (.checkpointFence i) s ((v.modPound o.pound (fun x =>
       { x with fences := x.fences ++ [(o.at_, qs.map (fun q => (q, (v.sq q).fenceSeq)))] })).endOrder i)) ∧
   (∀ (s : State) (i : OrderIdx) (o : Order), (Work.of s).startable i 6 = some o →
     Runs (.collationWindow i) s (((Work.of s).beginOrder i o none).modPound o.pound (fun x =>
       { x with collWindowEnd := max x.collWindowEnd (o.at_ + o.arg * 1000) }))) ∧
   (∀ (s : State) (i : OrderIdx), ((Work.of s).startable i 6 = none → Becomes (.collationWindow i) s s.chip) ∧
     ((Work.of s).startable i 7 = none → Becomes (.checkpointFence i) s s.chip)) ∧
   (∀ (s : State) (p : PoundId), Runs (.collationWindowEnd p) s ((Work.of s).each (s.chip.time.orders.filter (fun (e : Nat × Order) =>
     e.2.action = 6 && e.2.pound = p.val && e.2.began.isSome && e.2.at_ + e.2.arg * 1000 ≤ (Work.of s).now)) (fun w e => w.endOrder e.1))) ∧
   (∀ (s : State) (p : PoundId) (i : Nat) (o : Order), s.chip.time.orders = [(i, o)] →
     (o.action = 6 → o.pound = p → (∃ b, o.began = some b) → o.at_ + o.arg * 1000 ≤ (Work.of s).now →
       Runs (.collationWindowEnd p) s ((Work.of s).endOrder i)) ∧
     (o.action ≠ 6 ∨ o.pound ≠ p ∨ o.began = none ∨ (Work.of s).now < o.at_ + o.arg * 1000 →
       Becomes (.collationWindowEnd p) s s.chip)) ∧
   (∀ (s : State) (p : PoundId) (f : Nat × List (Nat × W32)),
     ((Work.of s).pound p).fences.find? (fun f => f.2.all (fun e => (Work.of s).upTo e.1 e.2)) = some f →
     Runs (.checkpointFenceReached p) s (((Work.of s).modPound p (fun x =>
       { x with fences := x.fences.erase f })).notice p 0x15 f.1 0 0 f.1)) ∧
   (∀ (s : State) (p : PoundId), (∀ f ∈ ((Work.of s).pound p).fences, ∃ e ∈ f.2, (Work.of s).upTo e.1 e.2 = false) →
     Becomes (.checkpointFenceReached p) s s.chip) ∧
   (∀ (w : Work) (i : Nat) (o : Order) (d : Option Nat), w.noticeDue o = false → w.order? i = some o →
     w.beginOrder i o d = { w with chip := { w.chip with time := { w.chip.time with
       orders := SMap.insert (SMap.erase w.chip.time.orders i) i { o with began := some w.now, deadline := d, noticed := true }
       late := w.chip.time.late || decide (o.at_ + 1000 < w.now ∨ o.at_ < w.chip.time.lockedAt ∧ w.chip.time.lockedAt ≤ w.now) } } }))


/-! ## Lock Time -/

/-- The source in use is the first valid one of LOCK_PPS, PTP on its port and the Nyulle parent, or a Nyulle link that stands for one (log
entry 18); a sample from any other changes
nothing. From the one in use (R103, R108, R109): LOCKED stays within 25 ns and is lost beyond; LOST steps to it and is ACQUIRING;
ACQUIRING steps beyond 25 ns, and is LOCKED at the fourth sample in a row within.

Events of the sources and of LT_ configuration (R103, R109, R122, R592, R593): an edge of LOCK_PPS with its message is a sample, one within
500 ms is ignored, one more than 1.5 s after the last finds the source invalid; a message 100 to 900 ms after an edge tells the time of the next; a Sync of PTP_DOMAIN is a sample of PTP
time less LT_EPOCH_OFFSET, one of another domain is not taken; a limit that passes ends a source's validity; PTP goes back to port 0; what SET_TIME_CONFIG disables is no
longer valid. -/
def Obligations.LedgerTime : Prop :=
  ((∀ w : Work,
     ((bit w.chip.time.srcEn 0 && w.chip.time.ppsValid) = true → w.chooseSource = some .pps) ∧
     ((bit w.chip.time.srcEn 0 && w.chip.time.ppsValid) = false → ∀ e : EthId, w.choosePtp = some e.val → w.chooseSource = some (.ptp e)) ∧
     ((bit w.chip.time.srcEn 0 && w.chip.time.ppsValid) = false → w.choosePtp = none → ∀ l : NylId, w.chooseParent = some l.val →
       w.chooseSource = some (.nyulle l)) ∧
     ((bit w.chip.time.srcEn 0 && w.chip.time.ppsValid) = false → w.choosePtp = none → w.chooseNyulle = none → w.chooseSource = none)) ∧
   (∀ (w : Work) (src : TimeSource) (ns : Nat), (w.refreshSource.chooseSource ≠ some src → w.timeSample src ns = w.refreshSource)) ∧
   (∀ (w : Work) (src : TimeSource) (ns : Nat), w.refreshSource.chooseSource = some src →
     let v := w.refreshSource
     let diff : Int := (ns : Int) - (v.now : Int)
     let stepped := { v.chip.time with nowPs := ns * 1000, steps := min (v.chip.time.steps + 1) 0xFFFF, good := 0 }
     (v.chip.time.st = .locked → diff.natAbs ≤ 25 → w.timeSample src ns = v) ∧
     (v.chip.time.st = .locked → 25 < diff.natAbs → w.timeSample src ns = v.loseTime 2 (sourceCode src) diff) ∧
     (v.chip.time.st = .lost → w.timeSample src ns =
       Work.aplicRaise { v with chip := { v.chip with time := { stepped with st := .acquiring } } } 20) ∧
     (v.chip.time.st = .acquiring → 25 < diff.natAbs → w.timeSample src ns = { v with chip := { v.chip with time := stepped } }) ∧
     (v.chip.time.st = .acquiring → diff.natAbs ≤ 25 → v.chip.time.good < 3 →
       w.timeSample src ns = { v with chip := { v.chip with time := { v.chip.time with good := v.chip.time.good + 1 } } }) ∧
     (v.chip.time.st = .acquiring → diff.natAbs ≤ 25 → 3 ≤ v.chip.time.good → w.timeSample src ns = v.lockTime)) ∧
   (∀ (w : Work) (st : LtState), w.chip.time.st ≠ st →
     w.setLtState st = Work.aplicRaise { w with chip := { w.chip with time := { w.chip.time with st := st, good := 0 } } } 20)) ∧
  ((∀ s : State,
     let w := Work.of s
     let x := s.chip.time
     (∀ e, x.ppsEdge = some e → s.chip.refPs - e < 500_000_000_000 → Becomes .lockPpsEdge s s.chip) ∧
     (∀ e, x.ppsEdge = some e → 500_000_000_000 ≤ s.chip.refPs - e →
       let v := if 1_500_000_000_000 < s.chip.refPs - e then Work.expireSource { w with chip := { s.chip with time := { x with ppsValid := false } } }
         else w
       let edge (ok : Bool) : Work := { v with chip := { v.chip with time := { v.chip.time with
         ppsEdge := some s.chip.refPs, tod := none, ppsValid := ok } } }
       (∀ n, v.chip.time.tod = some n → Runs .lockPpsEdge s ((edge true).timeSample .pps n.toNat)) ∧
       (v.chip.time.tod = none → Runs .lockPpsEdge s (edge false).expireSource)) ∧
     (∀ e n, x.ppsEdge = some e → 500_000_000_000 ≤ s.chip.refPs - e → s.chip.refPs - e ≤ 1_500_000_000_000 → x.tod = some n →
       Runs .lockPpsEdge s (Work.timeSample { w with chip := { s.chip with time := { x with
         ppsEdge := some s.chip.refPs, tod := none, ppsValid := true } } } .pps n.toNat)) ∧
     (∀ n, x.ppsEdge = none → x.tod = some n →
       Runs .lockPpsEdge s (Work.timeSample { w with chip := { s.chip with time := { x with
         ppsEdge := some s.chip.refPs, tod := none, ppsValid := true } } } .pps n.toNat)) ∧
     (x.ppsEdge = none → x.tod = none →
       Runs .lockPpsEdge s (Work.expireSource { w with chip := { s.chip with time := { x with
         ppsEdge := some s.chip.refPs, tod := none, ppsValid := false } } }))) ∧
   (∀ (s : State) (time : W64),
     let on := s.chip.boot.lockkeeper = true ∨ s.chip.boot.standbyActive = true
     let told := { s.chip.mgmt with code := 0, data := [] }
     (¬ on → Becomes (.timeOfDay time) s s.chip) ∧
     (∀ e, on → s.chip.time.ppsEdge = some e → 100_000_000_000 ≤ s.chip.refPs - e → s.chip.refPs - e ≤ 900_000_000_000 →
       Becomes (.timeOfDay time) s { s.chip with time := { s.chip.time with tod := some time }, mgmt := told }) ∧
     (on → (∀ e, s.chip.time.ppsEdge = some e → s.chip.refPs - e < 100_000_000_000 ∨ 900_000_000_000 < s.chip.refPs - e) →
       Becomes (.timeOfDay time) s { s.chip with mgmt := told })) ∧
   (∀ (s : State) (e : EthId) (t : PtpTime),
     (t.domain = s.chip.time.ptpDomain →
       Runs (.ptpSync e t) s (((Work.of s).modPtp e (fun x => { x with valid := true, lastSync := s.chip.refPs })).timeSample (.ptp e)
         (t.time - s.chip.time.epochOffset).toNat)) ∧
     (t.domain ≠ s.chip.time.ptpDomain → Becomes (.ptpSync e t) s s.chip)) ∧
   (∀ s : State,
     ((Work.of s).ptpOk 0 = true → Runs .ptpPortReturn s (Work.refreshSource { Work.of s with chip := { s.chip with
       time := { s.chip.time with ptpUse := 0 } } })) ∧
     ((Work.of s).ptpOk 0 = false → Runs .ptpPortReturn s (Work.of s).refreshSource)) ∧
   (∀ s : State,
     Runs (.ltSourceTimeout .pps) s (Work.expireSource { Work.of s with chip := { s.chip with
       time := { s.chip.time with ppsValid := false } } }) ∧
     (∀ e : EthId, Runs (.ltSourceTimeout (.ptp e)) s ((Work.of s).modPtp e (fun x => { x with valid := false })).expireSource) ∧
     (∀ l : NylId, Runs (.ltSourceTimeout (.nyulle l)) s
       ((Work.of s).modNylTime l (fun x => { x with usable := false })).expireSource)) ∧
   (∀ w : Work, w.refreshSource.chooseSource.isSome = true → w.expireSource = w.refreshSource) ∧
   (∀ w : Work, w.refreshSource.chooseSource = none →
     (w.chip.time.st = .locked → w.expireSource = w.refreshSource.loseTime 1 w.chip.time.source 0) ∧
     (w.chip.time.st = .acquiring → w.expireSource = w.refreshSource.setLtState .lost) ∧
     (w.chip.time.st = .lost → w.expireSource = w.refreshSource)) ∧
   (∀ (s : State) (ctrl epoch : W64),
     (s.chip.boot.lockkeeper = false → s.chip.boot.standbyActive = false → Becomes (.setTimeConfig ctrl epoch) s s.chip) ∧
     (s.chip.boot.lockkeeper = true ∨ s.chip.boot.standbyActive = true →
       ∃ w : Work,
         w.chip.time.srcEn = ctrl.setWidth 3 ∧ w.chip.time.epochOffset = epoch ∧
         w.chip.time.ptpPorts = BitVec.ofNat 2 (bits ctrl 9 8) ∧ w.chip.time.ptpDomain = BitVec.ofNat 8 (bits ctrl 23 16) ∧
         w.chip.time.ppsValid = (s.chip.time.ppsValid && bit ctrl 0) ∧
         (∀ e, e < 2 → (w.ptpPort e).valid = (((Work.of s).ptpPort e).valid && bit ctrl 1 && bit ctrl (8 + e))) ∧
         (∀ l, (w.nylTime l).usable = (((Work.of s).nylTime l).usable && bit ctrl 2)) ∧
         ((Work.of s).chooseSource.isSome = true → Runs (.setTimeConfig ctrl epoch) s (w.expireSource.answer 0 [])) ∧
         ((Work.of s).chooseSource = none → Runs (.setTimeConfig ctrl epoch) s (w.refreshSource.answer 0 [])))))


/-! ## The charter -/

/-- CHT_CMD and the management commands that load or cancel a charter (R77 to R82, R94, R95): what each answers in ERROR, the image that is
then verified, and the parts that must follow one another.

A verified image (R80 to R84, R89): rejected with its error; staged under an order of action 0x03; or active at once when ACTIVATE_AT is 0. At its
moment the charter is active, its image in flash slot 0, and the last one's in slot 1; LATE is set where it starts more than 1 us after
ACTIVATE_AT, or because Lock Time has returned after it. -/
def Obligations.Charters : Prop :=
  ((∀ (s : State) (c : CoreId), RegOpen s c (chtBase + 0x10) true →
     let w := Work.of s
     let u := s.chip.cht
     let a := u.loadAddr.toNat * 64
     let n := u.loadLen.toNat
     (u.active = none → Runs (.chtLoad c) s (untrap c (w.chtError 0x21 0))) ∧
     (u.active ≠ none → (u.verifying ≠ none ∨ u.staged ≠ none) → Runs (.chtLoad c) s (untrap c (w.chtError 0x1E 0))) ∧
     (u.active ≠ none → u.verifying = none → u.staged = none → w.imageReachable c a n = false →
       Runs (.chtLoad c) s (untrap c (w.chtError 0x20 0))) ∧
     (u.active ≠ none → u.verifying = none → u.staged = none → w.imageReachable c a n = true →
       Runs (.chtLoad c) s (untrap c { w with chip := { s.chip with cht := { u with verifying := some (w.vread a n), error := 0 } } })) ∧
     (∀ b, u.verifying = some b → Runs (.chtCancel c) s (untrap c
       (Work.chtError { w with chip := { s.chip with cht := { u with verifying := none } } } 0x24 (imageVersion b)))) ∧
     (∀ x, u.verifying = none → u.staged = some x → Runs (.chtCancel c) s (untrap c { w with chip := { s.chip with
       cht := { u with staged := none, error := 0 }
       time := { s.chip.time with orders := s.chip.time.orders.filter (fun e => !(e.2.began.isNone && e.2.action = 3)) } } })) ∧
     (u.verifying = none → u.staged = none → Runs (.chtCancel c) s (untrap c
       (w.chtError (if u.restarting = [] then 0x23 else 0x1F) 0))) ∧
     (∀ op : BitVec 2, op = 0 ∨ op = 3 → Runs (.chtBadCommand c op) s (untrap c (w.chtError 0x22 0)))) ∧
   (∀ (s : State) (offset : W32) (part : List Byte) (last : Bool), part.length ≤ 65536 →
     s.chip.boot.lockkeeper = true ∨ s.chip.boot.standbyActive = true →
     let w := Work.of s
     let u := s.chip.cht
     let before := if offset = 0 then [] else u.parts
     let all := before ++ part
     let dropped : Work := { w with chip := { s.chip with cht := { u with parts := [] } } }
     (offset.toNat ≠ before.length → Runs (.loadCharter offset part last) s (w.answer 2 [])) ∧
     (offset.toNat = before.length → 16 * 2 ^ 20 < all.length ∨ last = true ∧ all = [] →
       Runs (.loadCharter offset part last) s ((dropped.chtError 0x20 0).answer 0x80 [0x20])) ∧
     (offset.toNat = before.length → all.length ≤ 16 * 2 ^ 20 → last = false →
       Runs (.loadCharter offset part last) s
         (Work.answer { w with chip := { s.chip with cht := { u with parts := all } } } 0 [])) ∧
     (offset.toNat = before.length → all.length ≤ 16 * 2 ^ 20 → last = true → all ≠ [] →
       (u.verifying ≠ none ∨ u.staged ≠ none →
         Runs (.loadCharter offset part last) s ((dropped.chtError 0x1E 0).answer 0x80 [0x1E])) ∧
       (u.verifying = none → u.staged = none → Runs (.loadCharter offset part last) s
         (Work.answer { w with chip := { s.chip with cht := { u with parts := [], verifying := some all, error := 0 } } } 0 [])))) ∧
   (∀ s : State,
     (s.chip.boot.lockkeeper = true ∨ s.chip.boot.standbyActive = true →
       Runs .cancelCharter s ((Work.of s).cancelCharter.1.answerStatus (Work.of s).cancelCharter.2)) ∧
     (s.chip.boot.lockkeeper = false → s.chip.boot.standbyActive = false →
       Becomes .cancelCharter s s.chip ∧
       ∀ (offset : W32) (part : List Byte) (last : Bool), part.length ≤ 65536 → Becomes (.loadCharter offset part last) s s.chip)) ∧
   (∀ (w : Work) (e v : Nat), e ≠ 0 →
     w.chtError e v = Work.record { w with chip := { w.chip with cht := { w.chip.cht with error := BitVec.ofNat 8 e } } }
       { cls := 0x0103, kind := 0xC, action := 6, d0 := v, d1 := e })) ∧
  ((∀ (s : State), s.chip.cht.verifying = none → Becomes .chtVerifyDone s s.chip) ∧
   (∀ (s : State) (b : List Byte), s.chip.cht.verifying = some b →
     let w : Work := { Work.of s with chip := { s.chip with cht := { s.chip.cht with verifying := none } } }
     (∀ e, w.verify .load b = .error e → Runs .chtVerifyDone s (w.chtError e (imageVersion b))) ∧
     (∀ c : Charter, w.verify .load b = .ok c →
       (c.activateAt = 0 → Runs .chtVerifyDone s (w.activate b c)) ∧
       (c.activateAt ≠ 0 → s.chip.time.orders.length < 4096 → ∃ i, i < 4096 ∧ (Work.of s).order? i = none ∧
         Becomes .chtVerifyDone s { s.chip with
           free := s.chip.free + 1
           cht := { s.chip.cht with verifying := none, staged := some (b, c) }
           time := { s.chip.time with
             accepted := s.chip.time.accepted + 1
             orders := SMap.insert s.chip.time.orders i
               { action := 3, at_ := c.activateAt, pound := 0xFF, notice := 0, arg := 0, poster := .lockkeeper
                 accepted := s.chip.time.accepted, began := none, deadline := none, noticed := false } } }))) ∧
   (∀ (s : State) (i : Nat) (e : Order) (b : List Byte) (c : Charter),
     s.chip.time.orders.find? (fun e => e.2.action = 3 && e.2.began.isNone) = some (i, e) → s.chip.cht.staged = some (b, c) →
     ((Work.of s).startable i 3 = none → Becomes .charterActivation s s.chip) ∧
     (∀ o, (Work.of s).startable i 3 = some o →
       let w := (Work.of s).beginOrder i o none
       Runs .charterActivation s ((Work.activate { w with chip := { w.chip with
         cht := { w.chip.cht with late := w.chip.cht.late || w.startsLate o w.now } } } b c).endOrder i))) ∧
   (∀ s : State, s.chip.cht.staged = none → Becomes .charterActivation s s.chip) ∧
   (∀ (w : Work) (b : List Byte) (c : Charter), ∃ v : Work,
     v.chip.cht.active = some c ∧ v.chip.cht.activeImage = b ∧ v.chip.cht.staged = none ∧ v.chip.flash.slot0 = b ∧
     ((w.moveCores c).chip.cht.activeImage ≠ [] → v.chip.flash.slot1 = (w.moveCores c).chip.cht.activeImage) ∧
     let u := ((v.each (List.range 16) (fun w' p => w'.applyPound w.chip.cht.active c p)).markScrubs w.chip.cht.active c).checkRing.recoverSlices
     w.activate b c = if u.mapPending then u.switchMap else u) ∧
   (∀ (o c : Charter) (p : Nat),
     (SMap.look c.pounds p = none → SMap.look o.pounds p = none → restarts (some o) c p = false ∧ restarts none c p = false) ∧
     (∀ g, SMap.look c.pounds p = some g →
       restarts none c p = true ∧
       (SMap.look o.pounds p = none → restarts (some o) c p = true) ∧
       (∀ h, SMap.look o.pounds p = some h → h.structure_ ≠ g.structure_ → restarts (some o) c p = true) ∧
       (∀ h, SMap.look o.pounds p = some h → h.structure_ = g.structure_ → sameSet (o.reached p) (c.reached p) = true →
         o.debugBits.getD p 0 = c.debugBits.getD p 0 → o.moduleId = c.moduleId → o.channelMap = c.channelMap →
         restarts (some o) c p = false))))

/-- The steps of a restart (R87, R90, R92): the drain ends only when no command runs, and the pound is then scrubbing with its new
structure, or gone, and takes a further charter that has come meanwhile; its drain's timeout aborts with 0x0F; zeroing ends where it
has begun, and a pound with nothing more to zero starts; a start that is done settles it, or takes the further charter. -/
def Obligations.PoundRestarts : Prop :=
  (∀ (s : State) (p : PoundId),
    let w := Work.of s
    let x := w.pound p
    (x.goal = none → Becomes (.poundDrainEnd p) s s.chip ∧ Becomes (.poundDrainTimeout p) s s.chip) ∧
    (x.goal ≠ none → (w.sqsOf p).any w.sqBusy = true → Becomes (.poundDrainEnd p) s s.chip) ∧
    (x.goal ≠ none → Runs (.poundDrainTimeout p) s
      (w.each (w.sqsOf p) (fun w q => (w.abortFetched q 0x0F).abortStarted q 0x0F 7))) ∧
    (∀ g rs, x.goal = some (g, rs) → (w.sqsOf p).any w.sqBusy = false →
      let torn := (w.canalTearDown p).dropQueues p g
      let gone := idxs 144 (fun k => torn.tileOwner k = some p.val && !(match g with | some g => bit g.tileMask k | none => false))
      let given := torn.each gone (fun w k => w.modTile k (fun x => { x.handOver .unowned with ledger := [] }))
      let v := ((given.modPound p (fun x => { x with cfg := g, regs := rs, goal := none, st := .scrubbing, fences := [] })).scrubsDrained
        p).scrubLeft
      (g ≠ none → Runs (.poundDrainEnd p) s (v.switchMap.each (List.range 16) (fun w p => w.settleScrub p))) ∧
      (g = none →
        let u : Work := { v with chip := { v.chip with
          cht := { v.chip.cht with restarting := without v.chip.cht.restarting p }
          pwr := { v.chip.pwr with pounds := SMap.erase v.chip.pwr.pounds p }
          pounds := SMap.modify Pound.none v.chip.pounds p (fun x => { Pound.none with losses := x.losses }) } }
        let z := u.switchMap.each (List.range 16) (fun w p => w.settleScrub p)
        (z.chip.cht.deferred.contains p.val = false → Runs (.poundDrainEnd p) s z) ∧
        (∀ c, z.chip.cht.deferred.contains p.val = true → z.chip.cht.active = some c →
          Runs (.poundDrainEnd p) s ((Work.scrubsNow { z with chip := { z.chip with
            cht := { z.chip.cht with deferred := without z.chip.cht.deferred p, late := true } } } p).startRestart p
              (SMap.look c.pounds p) (c.owned p))))) ∧
    Runs (.scrubDone p) s ((w.each (s.chip.cht.scrubs.filter (fun u => u.new = some p.val && w.scrubBegun u))
      (fun w u => w.scrub u)).settleScrub p) ∧
    (x.cfg = none ∨ x.st ≠ .starting ∨ s.chip.cht.restarting.contains p.val = false → Becomes (.poundStartDone p) s s.chip) ∧
    (∀ g, x.cfg = some g → x.st = .starting → s.chip.cht.restarting.contains p.val = true →
      let given := w.each (idxs 144 (fun k => bit g.tileMask k)) (fun w k => w.modTile k (fun x => x.handOver .idle))
      let v : Work := { given with chip := { given.chip with
        cht := { given.chip.cht with restarting := without given.chip.cht.restarting p } } }
      (v.chip.cht.deferred.contains p.val = false → Runs (.poundStartDone p) s (v.settlePound p)) ∧
      (∀ c, v.chip.cht.deferred.contains p.val = true → v.chip.cht.active = some c →
        Runs (.poundStartDone p) s (((Work.setUpPound { v with chip := { v.chip with
          cht := { v.chip.cht with deferred := without v.chip.cht.deferred p, late := true } } } p g).scrubsNow p).startRestart p
            (SMap.look c.pounds p) (c.owned p))))) ∧
  (∀ (w : Work) (p : Nat),
    let x := w.pound p
    let waits := w.mapPending && x.regs.any Region.inHbm && !w.chip.cht.deferred.contains p
    (x.st = .scrubbing → (∀ u ∈ w.chip.cht.scrubs, u.new ≠ some p ∨ u.newLater = true) → waits = false →
      w.settleScrub p = (w.modPound p (fun x => { x with st := .starting })).canalSetUp p
        (match x.cfg with | some g => g.canals | none => [])) ∧
    (x.st ≠ .scrubbing ∨ (∃ u ∈ w.chip.cht.scrubs, u.new = some p ∧ u.newLater = false) ∨ waits = true → w.settleScrub p = w)) ∧
  (∀ (w : Work) (p : Nat) (g : PoundCfg),
    let x := w.pound p
    x.cfg = some g →
    (x.st ≠ .starting ∨ w.chip.cht.restarting.contains p = true ∨ w.classesSettled g x.regs = false → w.settlePound p = w) ∧
    (x.st = .starting → w.chip.cht.restarting.contains p = false → w.classesSettled g x.regs = true →
      (w.resourceLost g x.regs = true → w.settlePound p = w.failPound p) ∧
      (w.resourceLost g x.regs = false → w.settlePound p = (w.setUpPound p g).runPound p))) ∧
  (∀ (w : Work) (p : Nat), (w.pound p).selfResetAfter = none → (w.pound p).held = false →
    w.runPound p = w.modPound p (fun x => { x with st := .running }))

/-! ## Bring-up -/

/-- Steps 1 to 4 of bring-up (R46, R47, R49, R553 to R556, R564, R597): when each command acts, and what it leaves.

Functions come into service and classes settle (R557, R558, R560 to R562, R580): what each report sets in the Catalogue, before what follows from it; what a deadline
settles; and the two forms of a write to CAT_HART_CTL. -/
def Obligations.BringUp : Prop :=
  ((∀ s : State,
     let b := s.chip.boot
     (b.step = 0 → b.powered = true → Becomes .bringupStart s { s.chip with boot := { b with step := 1, resetLow := false, refOk := true } }) ∧
     (b.step ≠ 0 ∨ b.powered = false → Becomes .bringupStart s s.chip) ∧
     (∀ (i : Fin 4) (ok0 ok1 : Bool),
       (b.step ≠ 1 ∨ b.fwFailed = true ∨ bit b.fwVerified i = true → Becomes (.firmwareVerified i ok0 ok1) s s.chip) ∧
       (b.step = 1 → b.fwFailed = false → bit b.fwVerified i = false →
         (ok0 = false → ok1 = false → Becomes (.firmwareVerified i ok0 ok1) s
           { s.chip with boot := { b with fwFailed := true, faultN := true, waits := 1 } }) ∧
         (ok0 = true ∨ ok1 = true →
           let w : Work := { Work.of s with chip := { s.chip with
             boot := { b with fwVerified := setBit b.fwVerified i true }
             flash := { s.chip.flash with firmware := (SMap.mapVal s.chip.flash.firmware
               (fun k x => if k = i.val then x.take ok1 else x)) } } }
           (setBit b.fwVerified i true ≠ 0xF → Runs (.firmwareVerified i ok0 ok1) s w) ∧
           (setBit b.fwVerified i true = 0xF → Runs (.firmwareVerified i ok0 ok1) s
             (Work.startStep2 { w with chip := { w.chip with boot := { w.chip.boot with lockkeeper := true } } }))))) ∧
     (∀ l : SrtId,
       (b.step ≠ 2 ∨ (Work.of s).srtSettled l = true → Becomes (.sirentTrainTimeout l) s s.chip) ∧
       (b.step = 2 → (Work.of s).srtSettled l = false → Runs (.sirentTrainTimeout l) s ((Work.of s).failSirent l 2).settle)) ∧
     Runs .storedCharterVerify s (Work.of s).storedVerify.settle ∧
     (b.host0 = true ∨ b.uncorePhase1 = true ∨ b.step ≠ 4 ∧ b.step ≠ 5 → Becomes .host0Release s s.chip) ∧
     (b.host0 = false → b.uncorePhase1 = false →
       let w := (((Work.of s).pwrite 0 (Work.of s).bootImage false none).setCore 0
         { HostCore.reset with a1 := BitVec.ofNat 64 (Work.of s).bootImage.length }).modHart 0 (fun x => { x with st := .running })
       let v := Work.hostFetch { w with chip := { w.chip with boot := { w.chip.boot with
         host0 := true, hart := setBit w.chip.boot.hart 0 true } } } 0 0
       (b.step = 5 → Runs .host0Release s v) ∧ (b.step = 4 → Runs .host0Release s v.startStep5.settle)) ∧
     (b.lockkeeper = false → Becomes .lockkeeperWatchdog s s.chip) ∧
     (b.lockkeeper = true → Becomes .lockkeeperWatchdog s { s.chip with
       boot := { b with lockkeeper := false, standbyActive := b.standby }
       cht := { s.chip.cht with verifying := none, parts := [] } })) ∧
   (∀ w : Work, (w.chip.boot.step ≠ 3 ∨ w.chip.cht.booted = true → w.storedVerify = w) ∧
     (∀ c, w.chip.boot.step = 3 → w.chip.cht.booted = false → w.chip.cht.active = none → 
       Work.verify { w with chip := { w.chip with cht := { w.chip.cht with booted := true } } } .stored w.chip.flash.slot0 = .ok c →
       w.storedVerify = Work.comeUp { w with chip := { w.chip with cht := { w.chip.cht with
         booted := true, active := some c, activeImage := w.chip.flash.slot0 } } })) ∧
   (∀ (w : Work) (l c : Nat), (w.srt l).a.st ≠ .failed → w.chip.boot.step ≤ 2 →
     let v := (w.srtState l .failed).record { cls := 0x0701, kind := 6, id := l, action := 7, d0 := c }
     w.failSirent l c = { v with chip := { v.chip with
       flash := { v.chip.flash with summary := { v.chip.flash.summary with linkExcluded := setBit v.chip.flash.summary.linkExcluded l true } }
       boot := { v.chip.boot with srtExcluded := setBit v.chip.boot.srtExcluded l true } } })) ∧
  ((∀ (s : State) (f : Function), Runs (.functionReady f) s ((Work.of s).functionReady f).settle) ∧
   (∀ (s : State) (c : SettleClass), Runs (.classSettleTimeout c) s ((Work.of s).classTimeout c).settle) ∧
   (∀ w : Work,
     let b := w.chip.boot
     let put := fun (x : Boot) => ({ w with chip := { w.chip with boot := x } } : Work)
     (b.step = 2 → w.functionReady .power = put { b with power := true } ∧ w.functionReady .uncoreH0 = put { b with uncoreH0 := true } ∧
       w.functionReady .iommu = put { b with iommu := true } ∧
       (w.dieOut 5 = false → w.functionReady .uncoreH1 = put { b with uncoreH1 := true })) ∧
     (b.step ≠ 2 → w.functionReady .power = w ∧ w.functionReady .uncoreH0 = w ∧ w.functionReady .iommu = w ∧ w.functionReady .uncoreH1 = w) ∧
     (b.step = 5 → ∀ n : CpId, bit b.settled 6 = false → w.dieOut (n / 4) = false →
       w.functionReady (.cp n) = put { b with cp := setBit b.cp n true }) ∧
     (b.step = 5 → ∀ i : SliceId, bit b.settled 4 = false → w.dieOut (i / 32) = false →
       w.functionReady (.slice i) = put { b with arc := setBit b.arc i true }) ∧
     (b.step = 5 → ∀ d : Fin 4, bit b.settled 7 = false → w.dieOut d = false →
       w.functionReady (.fabric d) = put { b with fabric := setBit b.fabric d true }) ∧
     (b.step = 3 → ∀ ch : Fin 32, w.lpdSettled ch = false →
       let v := w.modLpd ch (fun x => { x with mapped := true, trained := true })
       w.functionReady (.lpd ch) = { v with chip := { v.chip with boot := { b with
         lpd := setBit b.lpd ch true, lpdTried := setBit b.lpdTried ch true } } }) ∧
     (b.step = 5 → ∀ (h : CoreId) (pass : Bool), h.val ≠ 0 → w.dieOut (4 + h.val / 48) = false → (w.hart h).st = .inReset →
       (w.functionReady (.core h pass)).hart h = { w.hart h with st := if pass then .ready else .failed } ∧
       (w.functionReady (.core h pass)).chip.boot.hart = if pass then setBit b.hart h true else b.hart) ∧
     (b.step ≠ 5 → ∀ (h : CoreId) (pass : Bool) (n : CpId), w.functionReady (.core h pass) = w ∧ w.functionReady (.cp n) = w) ∧
     (b.step ≠ 5 → w.classTimeout .cp = w ∧ w.classTimeout .harts = w) ∧
     (b.step = 5 → w.classTimeout .cp = w.setSettled 6 ∧ w.classTimeout .ethernet = w.setSettled 10) ∧
     (∀ i, bit b.settled i = false → i ≠ 4 → w.setSettled i = put { b with settled := setBit b.settled i true }) ∧
     (bit b.settled 4 = false → w.setSettled 4 = put { b with
       settled := setBit b.settled 4 true, arcSettled := true, scratch := decide (b.arc ≠ 0), scratchSlices := b.arc })) ∧
   (∀ (s : State) (c h : CoreId) (z : Size) (v : W64), regSize z = true → RegOpen s c (hartCtlOff h) true →
     let w := Work.of s
     let entry : BitVec 54 := if z = .b8 then BitVec.ofNat 54 (bits v 55 2) else (w.hart h).entry
     let off := hartCtlOff h + (if z = .b4 then 4 else 0)
     let go := if z = .b8 then setBit v 63 true else setBit v 31 true
     (h.val ≠ 0 → w.mayStart c h = true → (w.hart h).st = .ready →
       Runs (.hartStart c h z v) s (untrap c ((((w.modHart h (fun x => { x with entry := entry })).modHart h (fun x =>
         { x with st := .running })).setCore h { HostCore.reset with
           pc := BitVec.ofNat 64 (entry.toNat * 4), a0 := BitVec.ofNat 64 h, depth := (w.core h).depth
           clamped := (w.core h).clamped }).hostFetch h (entry.toNat * 4)))) ∧
     (h.val = 0 ∨ w.mayStart c h = false ∨ (w.hart h).st ≠ .ready →
       Runs (.hartStart c h z v) s (untrap c (w.ignoreReg c off z go)))) ∧
   (∀ (s : State) (c h : CoreId) (v : W64), RegOpen s c (hartCtlOff h) true → h.val ≠ 0 →
     let w := Work.of s
     let entry : BitVec 54 := BitVec.ofNat 54 (bits v 55 2)
     (w.mayStart c h = true → ∀ high, Runs (.hartEntrySet c h .b8 high v) s (untrap c (w.modHart h (fun x => { x with entry := entry })))) ∧
     (w.mayStart c h = false → ∀ high, Runs (.hartEntrySet c h .b8 high v) s
       (untrap c (w.ignoreReg c (hartCtlOff h) .b8 (setBit v 63 false))))))


/-! ## Resets, pins and debug -/

/-- Self-reset of a pound, its heartbeat, and the three OPs of CAT_POUND_CTRL (R305, R309, R570 to R575): what a self-reset sets, what
waits for a restart first, what RESUME returns, what DISARM needs; a heartbeat arms a pound that runs. -/
def Obligations.SelfResets : Prop :=
  (∀ (s : State) (c : CoreId) (p : PoundId), RegOpen s c (poundCtrlOff p) ((Work.of s).isPound c p) →
    let w := Work.of s
    let x := w.pound p
    let ignored := fun (op : W64) => untrap c (w.ignoreReg c (poundCtrlOff p) .b8 op)
    (x.held = true ∨ x.selfResetAfter ≠ none → Runs (.selfReset c p) s (ignored 1)) ∧
    (x.held = false → x.selfResetAfter = none → Runs (.selfReset c p) s (untrap c (w.selfReset p 3))) ∧
    (x.st ≠ .waitingOwner → Runs (.resume c p) s (ignored 2)) ∧
    (x.st = .waitingOwner → Runs (.resume c p) s (untrap c ((w.each (w.sqsOf p) (fun w q => if (w.sq q).st ≠ .held then w
      else (w.modSq q (fun y => { y with st := .disabled })).modCq (w.sq q).cqNum (fun c =>
        { c with bound := c.bound - 1, reserved := c.reserved - 1 }))).modPound p (fun x =>
          { x with held := false, selfReset := false, fenced := false, armed := false, st := .running })))) ∧
    (x.st = .waitingOwner → (∀ q ∈ w.sqsOf p, (w.sq q).st ≠ .held) → Runs (.resume c p) s (untrap c (w.modPound p (fun x =>
      { x with held := false, selfReset := false, fenced := false, armed := false, st := .running })))) ∧
    (∀ q, x.st = .waitingOwner → w.sqsOf p = [q] → (w.sq q).st = .held → Runs (.resume c p) s (untrap c
      (((w.modSq q (fun y => { y with st := .disabled })).modCq (w.sq q).cqNum (fun c =>
        { c with bound := c.bound - 1, reserved := c.reserved - 1 })).modPound p (fun x =>
          { x with held := false, selfReset := false, fenced := false, armed := false, st := .running })))) ∧
    (x.armed = true → Runs (.disarm c p) s (untrap c (w.modPound p (fun x => { x with armed := false })))) ∧
    (x.armed = false → Runs (.disarm c p) s (ignored 3))) ∧
  (∀ (w : Work) (p cause : Nat),
    let x := w.pound p
    (x.held = true ∨ x.selfResetAfter ≠ none ∨ x.cfg = none → w.selfReset p cause = w) ∧
    (x.held = false → x.selfResetAfter = none → x.cfg ≠ none → x.st ≠ .running →
      w.selfReset p cause = w.modPound p (fun x => { x with selfResetAfter := some cause, armed := false })) ∧
    (x.held = false → x.selfResetAfter = none → x.cfg ≠ none → x.st = .running →
      w.selfReset p cause = (((w.modPound p (fun x => { x with
        held := true, cause := cause, losses := min (x.losses + 1) 0xFFFF, armed := false, selfReset := true
        st := .draining })).holdQueues p).cancelPoundOrders p).settleSelfReset p)) ∧
  (∀ (s : State) (c : CoreId) (p : PoundId), RegOpen s c (beatOff p) ((Work.of s).isPound c p) →
    Runs (.catHeartbeat c p) s (untrap c ((Work.of s).modPound p (fun x =>
      { x with armed := x.armed || x.st = .running, lastBeat := s.chip.refPs })))) ∧
  (∀ s : State, (∀ p, p < 16 → ((Work.of s).pound p).armed = false) → Becomes .heartbeatCheck s s.chip) ∧
  (∀ s : State, Runs .heartbeatCheck s ((Work.of s).each (List.range 16) (fun w p => match (w.pound p).cfg with
    | some g => if (w.pound p).armed ∧ (w.pound p).lastBeat + g.beatMs * 1_000_000_000 < w.chip.refPs then w.selfReset p 1 else w
    | none => w))) ∧
  (∀ (s : State) (p : PoundId) (g : PoundCfg), (∀ q, q < 16 → q ≠ p.val → ((Work.of s).pound q).cfg = none) →
    ((Work.of s).pound p).cfg = some g → ((Work.of s).pound p).armed = true → ((Work.of s).pound p).st = .scrubbing →
    ((Work.of s).pound p).held = false → ((Work.of s).pound p).selfResetAfter = none →
    (((Work.of s).pound p).lastBeat + g.beatMs * 1_000_000_000 < s.chip.refPs →
      Runs .heartbeatCheck s ((Work.of s).modPound p (fun x => { x with selfResetAfter := some 1, armed := false }))) ∧
    (s.chip.refPs ≤ ((Work.of s).pound p).lastBeat + g.beatMs * 1_000_000_000 → Becomes .heartbeatCheck s s.chip)) ∧
  (∀ (s : State) (p : PoundId),
    let x := (Work.of s).pound p
    (x.selfReset = false ∨ x.st ≠ .draining ∨ x.goal ≠ none → Becomes (.selfResetDrainTimeout p) s s.chip) ∧
    (x.selfReset = true → x.st = .draining → x.goal = none → Runs (.selfResetDrainTimeout p) s
      (((Work.of s).each ((Work.of s).sqsOf p) (fun w q => w.abortStarted q 0x11 7)).settleSelfReset p)))

/-- CAT_RESET, the reset pins, power and the input voltage (R33, R371, R480, R567 to R569, R584, R587, R594, R595, R597): who may reset and when, what a pulse too short
does, what a module cold reset keeps, and that memory then reads as after power-on; a debug access without its bit. -/
def Obligations.ResetsAndPins : Prop :=
  (∀ (s : State) (c : CoreId), RegOpen s c 0x18 true →
    let w := Work.of s
    (w.mayReset c = true → w.warmAllowed = true → Runs (.uncoreWarmReset c) s (untrap c w.uncorePhase1)) ∧
    (w.mayReset c = false ∨ w.warmAllowed = false → Runs (.uncoreWarmReset c) s (untrap c (w.ignoreReg c 0x18 .b8 1))) ∧
    (w.mayReset c = true → w.up = true → Runs (.hostComplexWarmReset c) s (untrap c w.hostComplexReset)) ∧
    (w.mayReset c = false ∨ w.up = false → Runs (.hostComplexWarmReset c) s (untrap c (w.ignoreReg c 0x18 .b8 2)))) ∧
  (∀ s : State,
    let w := Work.of s
    let b := s.chip.boot
    (b.cacheLost = true → w.up = true → Runs .hostCacheLossReset s w.hostComplexReset) ∧
    (b.cacheLost = false ∨ w.up = false → Becomes .hostCacheLossReset s s.chip) ∧
    (b.uncorePhase1 = false → Becomes .uncoreResetPhase2 s s.chip) ∧
    (b.uncorePhase1 = true →
      let v := w.finishScrubs.each (List.range 4) (fun w p => w.losePosted p)
      Runs .uncoreResetPhase2 s (Work.startStep2 (Work.expireSource { v with chip := v.chip.warm }))) ∧
    (∀ n : W32,
      (b.powered = false ∨ b.resetLow = true → Becomes (.resetNFall n) s s.chip ∧ Becomes (.warmResetNFall n) s s.chip) ∧
      (b.powered = true → b.resetLow = false →
        (10000 ≤ n.toNat → Runs (.resetNFall n) s (w.coldReset true)) ∧
        (1000 ≤ n.toNat → n.toNat < 10000 →
          Runs (.resetNFall n) s (w.record { cls := 0x0109, count := n.toNat, d0 := 0 }) ∧
          Runs (.warmResetNFall n) s (w.record { cls := 0x0109, count := n.toNat, d0 := 1 })) ∧
        (n.toNat < 1000 → Becomes (.resetNFall n) s s.chip ∧ Becomes (.warmResetNFall n) s s.chip) ∧
        (10000 ≤ n.toNat → w.warmAllowed = true → Runs (.warmResetNFall n) s w.uncorePhase1) ∧
        (10000 ≤ n.toNat → w.warmAllowed = false → Becomes (.warmResetNFall n) s s.chip))) ∧
    (b.powered = true → Becomes .powerApplied s s.chip) ∧
    (b.powered = false → Becomes .powerApplied s { s.chip with
      boot := { b with powered := true }, pwr := { s.chip.pwr with voltMv := 54000 } }) ∧
    (∀ (mv : BitVec 17) (us : W32),
      let v : Work := { w with chip := { s.chip with pwr := { s.chip.pwr with voltMv := mv.toNat } } }
      (us.toNat < 50 ∨ b.powered = false → Runs (.inputVoltageEvent mv us) s v) ∧
      (50 ≤ us.toNat → b.powered = true →
        (mv.toNat < 40000 ∨ 60000 < mv.toNat → Runs (.inputVoltageEvent mv us) s (v.coldReset false)) ∧
        (40000 ≤ mv.toNat ∧ mv.toNat < 46000 ∨ 58000 < mv.toNat ∧ mv.toNat ≤ 60000 →
          Runs (.inputVoltageEvent mv us) s (v.regAlert 256)) ∧
        (46000 ≤ mv.toNat → mv.toNat ≤ 58000 → Runs (.inputVoltageEvent mv us) s v)))) ∧
  (∀ (w : Work) (on : Bool),
    let v := w.coldReset on
    v.fuse = w.fuse ∧ v.chip.flash = w.chip.flash ∧ v.chip.boot.addrSel = w.chip.boot.addrSel ∧ v.chip.boot.powered = on ∧
    v.chip.boot.step = 0 ∧ v.chip.boot.refOk = (Chip.resetWith w.chip.flash w.chip.boot.addrSel).boot.refOk ∧
    v.chip.sqs = [] ∧ v.chip.cqs = [] ∧ v.chip.cht = (Chip.resetWith w.chip.flash w.chip.boot.addrSel).cht ∧
    v.chip.cores = [] ∧ v.wr = w.wr ++ [.zero 0 (2 ^ 56)]) ∧
  (∀ (s : State) (c : CoreId) (target : DebugTarget) (addr value : W64) (isWrite : Bool),
    let w := Work.of s
    let d := w.debugPath target
    (∀ p ch, d.1 = some p → s.chip.cht.active = some ch → bit (ch.debugBits.getD p 0) d.2 = true →
      (isWrite = true → Runs (.debugAccess (some c) target addr true value) s w.take.2) ∧
      (isWrite = false → Runs (.debugAccess (some c) target addr false value) s
        (w.take.2.hostRet c (Config.freeWord s.chip.free).toNat))) ∧
    ((d.1 = none ∨ s.chip.cht.active = none ∨ ∃ p ch, d.1 = some p ∧ s.chip.cht.active = some ch ∧ bit (ch.debugBits.getD p 0) d.2 = false) →
      Runs (.debugAccess (some c) target addr isWrite value) s ((if isWrite then w else w.hostRet c 0).record
        { cls := 0x0106, kind := 1, id := c, pound := optPound d.1, action := 6, addr := addr.toNat, d0 := d.2 }) ∧
      Runs (.debugAccess none target addr isWrite value) s (w.record
        { cls := 0x0106, kind := 0, id := 0, pound := optPound d.1, action := 6, addr := addr.toNat, d0 := d.2 })))

/-! ## Power -/

/-- Operating points (R490, R494 to R498): a sequence goes by steps of 25 MHz toward its goal and ends where it reaches it; another
change in the course of it turns it when the step in progress ends; a droop stretches a tile's clock and holds a step; it
resumes when no tile of the pound droops; while Lock Time is lost a sequence stands (R110); an order ends the one before it of its
pound, and one toward the present frequency ends at once where no sequence runs; a host core steps by 100 MHz. -/
def Obligations.OperatingPoints : Prop :=
  (∀ (s : State) (i : OrderIdx), (Work.of s).startable i 1 = none → Becomes (.operatingPointChange i) s s.chip) ∧
  (∀ (s : State) (i : OrderIdx) (o : Order), (Work.of s).startable i 1 = some o →
    let x := (Work.of s).ppow o.pound
    let steps := (if o.arg < x.freqMhz then x.freqMhz - o.arg else o.arg - x.freqMhz) / 25
    let w := ((match x.seqOrder with | some j => (Work.of s).endOrder j | none => Work.of s).beginOrder i o
      (some (steps * 10_000 + 1000)))
    (x.freqMhz = o.arg ∧ x.seqTo = none ∨ w.pwrNormal = false → Runs (.operatingPointChange i) s ((w.modPpow o.pound (fun y =>
      { y with seqTo := none, seqOrder := none, stepHeld := false })).endOrder i (!w.pwrNormal))) ∧
    (x.freqMhz ≠ o.arg → x.seqTo = none → w.pwrNormal = true → Runs (.operatingPointChange i) s (w.modPpow o.pound (fun y =>
      { y with seqTo := some o.arg, seqOrder := some i
               stepMhz := if y.freqMhz < o.arg then min o.arg (y.freqMhz + 25) else max o.arg (y.freqMhz - 25) }))) ∧
    (x.seqTo ≠ none → w.pwrNormal = true → Runs (.operatingPointChange i) s (w.modPpow o.pound (fun y =>
      { y with seqTo := some o.arg, seqOrder := some i })))) ∧
  (∀ (s : State) (p : PoundId),
    let x := (Work.of s).ppow p
    (x.seqTo = none ∨ x.stepHeld = true ∨ (Work.of s).locked = false → Becomes (.opStepEnd p) s s.chip) ∧
    (∀ goal, x.seqTo = some goal → x.stepHeld = false → (Work.of s).locked = true →
      let f := x.stepMhz
      let next := if f < goal then min goal (f + 25) else max goal (f - 25)
      let w := ((Work.of s).modPpow p (fun y => { y with freqMhz := f, stepMhz := next })).setRails
      (f ≠ goal → Runs (.opStepEnd p) s w) ∧
      (f = goal → x.seqOrder = none → Runs (.opStepEnd p) s (w.modPpow p (fun y => { y with seqTo := none, seqOrder := none }))) ∧
      (∀ i, f = goal → x.seqOrder = some i → Runs (.opStepEnd p) s
        ((w.modPpow p (fun y => { y with seqTo := none, seqOrder := none })).endOrder i)))) ∧
  (∀ (s : State) (k : TileId),
    ((tileOf s k).phys.stretched = true → Becomes (.droopDetect k) s s.chip) ∧
    ((tileOf s k).phys.stretched = false → ∃ w : Work,
      w.tile k = { tileOf s k with phys := { (tileOf s k).phys with stretched := true } } ∧
      (w.diePow (tileDie k)).droops = min (((Work.of s).diePow (tileDie k)).droops + 1) 0xFFFF ∧
      ((Work.of s).tileOwner k = none → Runs (.droopDetect k) s w) ∧
      (∀ p, (Work.of s).tileOwner k = some p → Runs (.droopDetect k) s (w.modPpow p (fun y =>
        { y with stepHeld := y.stepHeld || y.seqTo.isSome })))) ∧
    Gives (.droopClear k) s (TileTo k (fun x => { x with phys := { x.phys with stretched := false } }) s)) ∧
  (∀ (s : State) (p : PoundId),
    ((∃ e ∈ s.chip.tiles, e.2.phys.stretched = true ∧ (Work.of s).tileOwner e.1 = some p.val) → Becomes (.opStepResume p) s s.chip) ∧
    ((∀ e ∈ s.chip.tiles, e.2.phys.stretched = true → (Work.of s).tileOwner e.1 ≠ some p.val) →
      Runs (.opStepResume p) s ((Work.of s).modPpow p (fun y => { y with stepHeld := false }))) ∧
    ((Work.of s).windowBusy p = true → Becomes (.heavyWindowEnd p) s s.chip) ∧
    ((Work.of s).windowBusy p = false → Runs (.heavyWindowEnd p) s
      ((Work.of s).modPpow p (fun y => { y with heavyUntil := none })).setRails)) ∧
  (∀ (s : State) (c : CoreId) (mhz : BitVec 12),
    let w := Work.of s
    let f := w.coreMhz c
    let goal := max 1200 (min (min 3600 (w.hostMax c)) mhz.toNat / 100 * 100)
    (w.pwrNormal = false ∨ f = goal ∨ f < goal ∧ w.locked = false → Becomes (.hostFreqStep c mhz) s s.chip) ∧
    (w.pwrNormal = true → f < goal → w.locked = true →
      Runs (.hostFreqStep c mhz) s (w.setCoreMhz c (min goal (f + 100))).setRails) ∧
    (w.pwrNormal = true → goal < f → w.hostMax c ≤ mhz.toNat →
      Runs (.hostFreqStep c mhz) s (w.setCoreMhz c (max goal (f - 100))).setRails) ∧
    (w.pwrNormal = true → goal < f → mhz.toNat < w.hostMax c →
      Runs (.hostFreqStep c mhz) s (Work.setRails (Work.setCoreMhz { w with chip := { s.chip with
        pwr := { s.chip.pwr with ovr5 := min (s.chip.pwr.ovr5 + 1) 4095 } } } c (max goal (f - 100))))))

/-- The site's cap, and the Sluice (R111, R504 to R507, R512, R513): the ranges of an ARG, the statuses of a posting and of an immediate cap; an order of
action 0x02; the level moves toward the smaller of demand and ceiling, no faster than SLEW, and the floor yields to the cap.

Safety actions (R46, R185, R508, R510 to R512, R585 to R587, R596, R597): a thermal trip, a throttle and its end; an alert, a brake or a lost reference divides the clocks; the
lowest point removes the dividers; the release returns to normal; an estimate that disagrees for 20 ms is distrusted; a Ballast chain that mismatches is charged. -/
def Obligations.PowerLimits : Prop :=
  ((∀ (s : State) (at_ : W64) (n : W16) (a : W32), s.chip.boot.lockkeeper = true ∨ s.chip.boot.standbyActive = true →
     let w := Work.of s
     (w.argOk a.toNat = false →
       Runs (.postCapStep at_ n a) s (w.answer 0x80 [6]) ∧ Runs (.immediateCap a) s (w.answer 0x80 [6])) ∧
     (w.argOk a.toNat = true →
       let r := w.post_ .management 2 at_.toNat 0xFF n.toNat a.toNat
       (r.2.1 = 0 → Runs (.postCapStep at_ n a) s (r.1.answer 0 [])) ∧
       (r.2.1 ≠ 0 → Runs (.postCapStep at_ n a) s (r.1.answer 0x80 [BitVec.ofNat 8 r.2.1])) ∧
       (w.locked = true → Runs (.immediateCap a) s ((w.takeCap a.toNat).answer 0 [])) ∧
       (w.locked = false → (argCap a.toNat = 0 ∨ s.chip.pwr.capW ≤ argCap a.toNat ∨ argSlew a.toNat ≠ 0 ∨ argFloor a.toNat ≠ 0x3FF) →
         Runs (.immediateCap a) s (w.answer 0x80 [2])) ∧
       (w.locked = false → argCap a.toNat ≠ 0 → argCap a.toNat < s.chip.pwr.capW → argSlew a.toNat = 0 → argFloor a.toNat = 0x3FF →
         Runs (.immediateCap a) s ((w.takeCap a.toNat).answer 0 [])))) ∧
   (∀ (s : State) (at_ : W64) (n : W16) (a : W32), s.chip.boot.lockkeeper = false → s.chip.boot.standbyActive = false →
     Becomes (.postCapStep at_ n a) s s.chip ∧ Becomes (.immediateCap a) s s.chip) ∧
   (∀ (w : Work) (a : Nat), a < 2 ^ 32 → (w.argOk a = true ↔
     (argFloor a = 0 ∨ argFloor a = 0x3FF ∨ 35 ≤ argFloor a ∧ argFloor a ≤ 300) ∧ argSlew a ≤ 1000 ∧
     (argCap a = 0 ∨ 700 ≤ argCap a ∧ argCap a ≤ 3000) ∧
     (argFloor a = 0x3FF ∨ argFloor a * 10 ≤ if argCap a = 0 then w.chip.pwr.capW else argCap a))) ∧
   (∀ (s : State) (i : OrderIdx),
     ((Work.of s).startable i 2 = none → Becomes (.powerCapStep i) s s.chip) ∧
     (∀ o, (Work.of s).startable i 2 = some o →
       let w := ((match s.chip.pwr.capOrder with | some j => (Work.of s).endOrder j | none => Work.of s).takeCap o.arg)
       let above := w.chip.pwr.level - w.chip.pwr.capW * 200
       let v := w.beginOrder i o (some (above * 10_000 / w.chip.pwr.slew + 1_000_000))
       (above = 0 → Runs (.powerCapStep i) s (Work.endOrder { v with chip := { v.chip with pwr := { v.chip.pwr with capOrder := none } } } i)) ∧
       (above ≠ 0 → Runs (.powerCapStep i) s { v with chip := { v.chip with pwr := { v.chip.pwr with capOrder := some i.val } } }))) ∧
   (∀ (s : State) (x : PowerSample), x.wellFormed = true → Runs (.sluiceTick x) s ((Work.of s).sluice x)) ∧
   (∀ (p : Power) (d : Nat),
     let goal := 200 * max (min d p.ceiling) (min (p.floor * 10) (min p.capW 3000))
     (p.level < goal → p.level ≤ p.nextLevel d ∧ p.nextLevel d ≤ goal ∧ p.nextLevel d ≤ p.level + p.slew) ∧
     (goal ≤ p.level → goal ≤ p.nextLevel d ∧ p.nextLevel d ≤ p.level ∧ p.level ≤ p.nextLevel d + p.slew) ∧
     (p.level ≤ 200 * min p.capW 3000 → p.nextLevel d ≤ 200 * min p.capW 3000))) ∧
  ((∀ (s : State) (d : DieId) (t : Byte),
     let w := Work.of s
     let x := w.diePow d
     let v := w.modDiePow d (fun y => { y with tempC := t.toNat })
     (x.st = 2 → Runs (.thermalSample d t) s v) ∧
     (x.st ≠ 2 → 115 ≤ t.toNat → Runs (.thermalSample d t) s (v.thermalTrip d t.toNat)) ∧
     (x.st = 1 → 100 < t.toNat → t.toNat < 115 →
       Runs (.thermalSample d t) s ((v.modDiePow d (fun y => { y with st := 1, cool := 0 })).thermalStep d true)) ∧
     (x.st = 0 → 100 < t.toNat → t.toNat < 115 →
       Runs (.thermalSample d t) s ((Work.modDiePow { v with chip := { v.chip with
         pwr := { v.chip.pwr with throttle := min (v.chip.pwr.throttle + 1) 255 } } } d (fun y => { y with st := 1, cool := 0 })).thermalStep d true)) ∧
     (x.st ≠ 2 → 97 ≤ t.toNat → t.toNat ≤ 100 → Runs (.thermalSample d t) s (v.modDiePow d (fun y => { y with cool := 0 }))) ∧
     (x.st ≠ 2 → t.toNat < 97 → x.cool ≠ 9 →
       Runs (.thermalSample d t) s (v.modDiePow d (fun y => { y with st := 0, cool := (x.cool + 1) % 10 }))) ∧
     (x.st ≠ 2 → t.toNat < 97 → x.cool = 9 → w.pwrNormal = true →
       Runs (.thermalSample d t) s ((v.modDiePow d (fun y => { y with st := 0, cool := 0 })).thermalStep d false))) ∧
   (∀ (s : State) (r : Byte),
     let p := s.chip.pwr
     let put := fun (x : Power) => ({ Work.of s with chip := { s.chip with pwr := x } } : Work)
     Runs (.regulatorAlert r) s (put { p with alerts := without p.alerts r.toNat ++ [r.toNat], alert := min (p.alert + 1) 255 }).divide ∧
     Runs (.regulatorAlertClear (some r)) s (put { p with alerts := without p.alerts r.toNat }) ∧
     Runs (.regulatorAlertClear none) s (put { p with alerts := without p.alerts 256 }) ∧
     Runs .pwrBrakeRise s (put { p with brakeLow := false }) ∧
     (∀ n : W32,
       (n.toNat < 100 ∨ s.chip.boot.resetLow = true → Becomes (.pwrBrakeFall n) s s.chip) ∧
       (100 ≤ n.toNat → s.chip.boot.resetLow = false →
         Runs (.pwrBrakeFall n) s (put { p with brakeLow := true, brake := min (p.brake + 1) 255 }).divide)) ∧
     (p.mode = .refLost ∨ p.divided = false ∧ p.mode ≠ .tripped → Becomes .alertLowestPoint s s.chip) ∧
     (p.mode ≠ .refLost → p.divided = true → Runs .alertLowestPoint s (put { p with divided := false }).lowest) ∧
     (∀ m : BitVec 12,
       (p.mode ≠ .divided ∨ p.divided = true ∨ p.brakeLow = true ∨ p.alerts ≠ [] → Becomes (.alertRelease m) s s.chip) ∧
       (p.mode = .divided → p.divided = false → p.brakeLow = false → p.alerts = [] →
         Runs (.alertRelease m) s ((put { p with mode := .normal, level := m.toNat * 200, levelSet := true }).each
           (Work.of s).present (fun w q => w.follow q)))) ∧
     (s.chip.boot.refOk = false → Becomes .referenceLost s s.chip) ∧
     (s.chip.boot.refOk = true → Runs .referenceLost s (((Work.record (Work.lowest (Work.divide { Work.of s with chip := { s.chip with
       boot := { s.chip.boot with refOk := false }, pwr := { p with mode := .refLost } } }))
       { cls := 0x0107, kind := 0xB, action := 10 }).moduleFault).driveFault 1))) ∧
   (∀ (s : State) (m : W16),
     let p := s.chip.pwr
     let diff := if p.estW < m.toNat then m.toNat - p.estW else p.estW - m.toNat
     let q := { p with
       measW := m.toNat
       offMs := if 12 * m.toNat < diff * 100 then p.offMs + 1 else 0
       onMs := if diff * 100 ≤ 6 * m.toNat then p.onMs + 1 else 0 }
     let put := fun (x : Power) => ({ Work.of s with chip := { s.chip with pwr := x } } : Work)
     (p.measOnly = false → 20 < q.offMs → Runs (.measureCheck m) s ((put { q with
       measOnly := true, onMs := 0, ballastOn := false, distrust := min (p.distrust + 1) 255 }).record
         { cls := 0x0903, kind := 0xB, d0 := p.estW, d1 := m.toNat })) ∧
     (p.measOnly = true → 1000 ≤ q.onMs → Runs (.measureCheck m) s ((put { q with measOnly := false, offMs := 0 }).record
         { cls := 0x0904, kind := 0xB, d0 := p.estW, d1 := m.toNat })) ∧
     (p.measOnly = false ∧ q.offMs ≤ 20 ∨ p.measOnly = true ∧ q.onMs < 1000 → Runs (.measureCheck m) s (put q))) ∧
   (∀ (s : State) (k : TileId) (bad : Bool),
     (bad = false ∨ s.chip.pwr.ballastOn = false → Becomes (.ballastChain k bad) s s.chip) ∧
     let a := (tileOf s k).array
     (bad = true → s.chip.pwr.ballastOn = true → a.feed = none → a.queue = [] → a.restart = [] → a.replay = none →
       (∃ b, b < 2 ∧ ∀ c ∈ a.chains, c.bank ≠ b) → (tileOf s k).st ≠ .offline → (tileOf s k).st ≠ .audit →
       (tileOf s k).st ≠ .quarantined → (Work.of s).holdsSample k = false →
       Runs (.ballastChain k bad) s (((Work.of s).record {
           cls := 0x050A
           kind := 2
           id := k
           pound := optPound ((Work.of s).tileOwner k) }).chargeTile k))))


/-! ## Frequency groups and retraining -/

/-- Frequency groups (R499 to R503): PWR_P_FG_DESC; the record a member sends to its leader at each epoch; what leader and root collect and
write; what a member takes from its result, and that it has none; what a command does that its pound has no epoch for. -/
def Obligations.FrequencyGroups : Prop :=
  (∀ (s : State) (c : CoreId) (p : PoundId) (high : Bool) (v : W64),
    RegOpen s c (pwrBase + 0x110 + p.val * 0x20) ((Work.of s).isPound c p) →
    let w := (Work.of s).modPpow p (fun x => { x with fgDesc := BitVec.ofNat 53 (bits v 55 3), fgValid := bit v 0 })
    Runs (.pwrFgDescValid c p .b8 high v) s (untrap c (w.fgSetup p)) ∧
    (bit v 0 = false → Runs (.pwrFgDescValid c p .b8 high v) s (untrap c (w.modPpow p (fun x =>
      { x with fg := .notMember, members := [], groupMhz := 0 }))))) ∧
  (∀ (s : State) (i : OrderIdx),
    ((Work.of s).startable i 8 = none → Becomes (.frequencyGroupEpoch i) s s.chip) ∧
    (∀ o, (Work.of s).startable i 8 = some o →
      let w := ((Work.of s).beginOrder i o (some 1_000_000)).postEpoch o.pound (o.at_ + 1_000_000)
      let x := w.ppow o.pound
      (x.isMember = false → Runs (.frequencyGroupEpoch i) s (w.endOrder i)) ∧
      (x.isMember = true → Runs (.frequencyGroupEpoch i) s (w.boardWrite o.pound (x.rank / 256 * 256) (x.rank % 256 * 16)
        (leBytes 8 (o.at_ / 1_000_000) ++ leBytes 2 (w.attainable o.pound) ++ leBytes 1 x.phase ++ [0] ++ leBytes 2 1 ++ leBytes 2 0))))) ∧
  (∀ (s : State) (p : PoundId),
    let w := Work.of s
    let x := w.ppow p
    let n := min 256 (x.members.length - x.rank)
    (w.epochOrder p = none → Becomes (.fgLeaderCollect p) s s.chip ∧ Becomes (.fgRootCollect p) s s.chip ∧
      Becomes (.fgLeaderDistribute p) s s.chip ∧ Becomes (.fgMemberRead p) s s.chip) ∧
    (∀ i o, w.epochOrder p = some (i, o) →
      let e := o.at_ / 1_000_000
      (x.isMember = false ∨ x.rank % 256 ≠ 0 → Becomes (.fgLeaderCollect p) s s.chip ∧ Becomes (.fgLeaderDistribute p) s s.chip) ∧
      (x.isMember = false ∨ x.rank ≠ 0 → Becomes (.fgRootCollect p) s s.chip) ∧
      (x.isMember = true → x.rank % 256 = 0 → (∀ j, j < n → ∃ r ∈ w.current p 0 n e, r.1 = j) →
        ∀ f c, leastOf (w.current p 0 n e) = some (f, c) → Runs (.fgLeaderCollect p) s
          ((w.modPpow p (fun y => { y with missed := [] })).boardWrite p 0 (0x1000 + x.rank / 256 * 16) (fgRecord e f x.phase c))) ∧
      (x.isMember = true → x.rank = 0 → ∀ f c, leastOf (w.current p 0x1000 ((x.members.length + 255) / 256) e) = some (f, c) →
        Runs (.fgRootCollect p) s (w.each (List.range ((x.members.length + 255) / 256)) (fun w k =>
          w.boardWrite p (256 * k) 0x1800 (fgRecord e f x.phase c)))) ∧
      (x.isMember = true → x.rank % 256 = 0 → w.boardRead p 0x1800 = none → Becomes (.fgLeaderDistribute p) s s.chip) ∧
      (x.isMember = true → x.rank % 256 = 0 → ∀ r, w.boardRead p 0x1800 = some r → Runs (.fgLeaderDistribute p) s
        (w.each ((List.range n).filter (fun j => j ≠ 0)) (fun v j => v.boardWrite p (x.rank + j) 0x1800 r))) ∧
      (x.isMember = false → Runs (.fgMemberRead p) s (w.endOrder i)) ∧
      (x.isMember = true → (∀ f c, w.boardRecord p 0x1800 ≠ some (e, f, c)) →
        Runs (.fgMemberRead p) s ((w.modPpow p (fun y => { y with fg := .noResult })).endOrder i)) ∧
      (∀ f c, x.isMember = true → w.boardRecord p 0x1800 = some (e, f, c) → w.locked = false →
        let v := w.modPpow p (fun y => { y with fg := .member, groupMhz := f })
        let u := v.countOverrides p (v.wantTarget p)
        Runs (.fgMemberRead p) s ((u.modPpow p (fun y => { y with targetMhz := min (min f (u.freqMax p)) y.hard })).endOrder i)))) ∧
  (∀ (l : List (Nat × Nat × Nat)), 
    (l = [] → leastOf l = none) ∧
    (∀ f c, leastOf l = some (f, c) →
      (∀ r ∈ l, f ≤ r.2.1) ∧ (∃ r ∈ l, r.2.1 = f) ∧ c = (l.map (fun r => r.2.2)).foldl (· + ·) 0))

/-- Retraining of HBM channels (R390, R396 to R398): when a window is posted; what a window does to its channel and slice, and when it has none; a
window that fails; the return to ACTIVE.

Memory errors (R394, R398, R404, R406): a patrol of a word that no channel holds, or whose channel has failed, does nothing, another reads the
word at its channel, and what it writes back there lasts unless the Archive holds newer bytes of it; a clean sector whose word is
detected below it is given up; a channel of HBM or of LP-DRAM without response fails; an expansion buffer lets a granule go. -/
def Obligations.RetrainingAndMemoryErrors : Prop :=
  ((∀ (s : State) (ch : ChanId),
     let w := Work.of s
     (w.mapped.contains ch.val = false ∨ 16 ≤ (s.chip.time.orders.filter (fun e => e.2.action = 4)).length →
       Becomes (.hbmRetrainPost ch) s s.chip) ∧
     (w.mapped.contains ch.val = true → (s.chip.time.orders.filter (fun e => e.2.action = 4)).length < 16 →
       Runs (.hbmRetrainPost ch) s (w.post_ .power 4 (w.windowAt ch (w.now + 1_002_000)) 0xFF 1000 ch).1)) ∧
   (∀ (s : State) (i : OrderIdx),
     ((Work.of s).startable i 4 = none → Becomes (.hbmRetrainingWindow i) s s.chip) ∧
     (∀ o, (Work.of s).startable i 4 = some o →
       let w := (Work.of s).beginOrder i o (some 2000)
       (w.mapped.contains o.arg = false ∨ (w.hbmCh o.arg).health = 2 → Runs (.hbmRetrainingWindow i) s (w.endOrder i)) ∧
       (w.mapped.contains o.arg = true → (w.hbmCh o.arg).health ≠ 2 → Runs (.hbmRetrainingWindow i) s
         (((w.modHbm o.arg (fun x => { x with
           trains := min (x.trains + 1) 0xFFFF_FFFF, trainAt := BitVec.ofNat 64 o.at_, training := some o.at_ })).modSlice (o.arg / 2)
           (fun x => { x with st := .recovery, recoverAt := some (w.chip.refPs + 22_000_000) })).endOrder i)))) ∧
   (∀ (s : State) (ch : ChanId),
     let w := Work.of s
     let x := w.hbmCh ch
     (x.training = none → Becomes (.hbmRetrainTimeout ch) s s.chip) ∧
     (∀ t, x.training = some t →
       let n := min 2 (x.consec + 1)
       let v := (w.modHbm ch (fun x => { x with fails := min (x.fails + 1) 0xFFFF, consec := n, training := none })).record
         { cls := 0x0304, kind := 3, id := ch, d0 := n, d1 := t }
       (n = 1 ∨ x.health ≠ 0 → Runs (.hbmRetrainTimeout ch) s v) ∧
       (n = 2 → x.health = 0 → Runs (.hbmRetrainTimeout ch) s (v.failing false ch 3)))) ∧
   (∀ (s : State) (i : SliceId),
     let w := Work.of s
     let x := w.slice i
     (x.recoverAt = none ∨ x.st ≠ .recovery → Becomes (.regulationActive i) s s.chip) ∧
     (x.recoverAt ≠ none → x.st = .recovery → Runs (.regulationActive i) s
       (((w.modSlice i (fun y => { y with
         st := if w.mapped.any (fun ch => ch / 2 = i.val && (w.hbmCh ch).health = 2) then .recovery else .active
         recoverAt := none })).modHbm (2 * i.val) (fun y =>
         if y.training.isSome then { y with consec := 0, training := none } else y)).modHbm (2 * i.val + 1) (fun y =>
         if y.training.isSome then { y with consec := 0, training := none } else y))))) ∧
  ((∀ (s : State) (a : PAddr) (l : List (Fin 36 × Byte)),
     let w := Work.of s
     let errs := l.map (fun e => (e.1.val, e.2))
     (w.dead a.toNat = true → Becomes (.patrolScrub a l) s s.chip) ∧
     (w.dead a.toNat = false →
       (∀ off, w.place a.toNat = .hbm off →
         let under := (w.slice (w.arcAt (a.toNat / 128)).1).evict.contains (a.toNat / 128)
         let v := fun (lasts : Bool) => w.readWord (.channel false (w.hbmAt off).1) (a.toNat / 32) errs lasts
         (w.sectorAt a.toNat = none → Runs (.patrolScrub a l) s (v (!under))) ∧
         (∀ e, w.sectorAt a.toNat = some e → e.dirty = true → Runs (.patrolScrub a l) s (v false)) ∧
         (∀ e, w.sectorAt a.toNat = some e → e.dirty = false →
           ((w.mem.poisoned (a.toNat / 32) = true ∨ (v (!under)).mem.poisoned (a.toNat / 32) = false) → Runs (.patrolScrub a l) s (v (!under))) ∧
           (w.mem.poisoned (a.toNat / 32) = false → (v (!under)).mem.poisoned (a.toNat / 32) = true →
             Runs (.patrolScrub a l) s ((v (!under)).modSlice (w.arcAt (a.toNat / 128)).1
               (fun y => { y with sectors := SMap.erase y.sectors (a.toNat / 128) }))))) ∧
       (∀ h off, w.place a.toNat = .lpd h off →
         Runs (.patrolScrub a l) s (w.readWord (.channel true (w.lpdAt h off)) (a.toNat / 32) errs)) ∧
       ((∀ off, w.place a.toNat ≠ .hbm off) → (∀ h off, w.place a.toNat ≠ .lpd h off) → Becomes (.patrolScrub a l) s s.chip))) ∧
   (∀ (w : Work) (x : WordHome) (cw : Nat), w.mem.poisoned cw = false →
     (rsRead (w.correcting (cw * 32)) (w.mem.read (cw * 32) 32) [] false).2 = .good → w.readWord x cw [] = w) ∧
   (∀ (s : State) (ch : ChanId), Runs (.hbmChannelNoResponse (.hbm ch)) s ((Work.of s).failHbm ch 2)) ∧
   (∀ (s : State) (ch : LpdId), Runs (.hbmChannelNoResponse (.lpd ch)) s ((Work.of s).failLpd ch 2)) ∧
   (∀ (s : State) (i : SliceId) (g : BitVec 44),
     Becomes (.expansionBufferExpire i g) s ((Work.of s).modSlice i (fun x => { x with expand := without x.expand g.toNat })).chip))

/-! ## Exchanges, Audit, Collation, the ring -/

/-- The Audit (R536 to R542): what is due shows it, and the earliest due of a die is taken when no audit is in progress; a tile past its
overdue time; the start, the end of heating, the end of a phase with its first failure, and the end, which returns the tile
to the spares with its result, or quarantines it.

Preemption points and exchanges of tile indices (R29, R30, R524 to R526, R535): an attempt counts, and halts the cores only at a
point; an exchange that may start makes both indices exchanging; when it is done all state goes with the active index, without
reservations and with empty instruction caches, the spare index has a tile after reset, in quarantine or for an audit, and the writes that
waited at both are performed. -/
def Obligations.AuditsAndExchanges : Prop :=
  ((∀ (s : State) (d : Fin 4), (Work.of s).locked = true →
     let l := (dieIndices d).filter (Work.of s).auditCandidate
     let w := (Work.of s).each l (fun w k => w.modTile k (fun x => { x with phys := { x.phys with due := true } }))
     let ready := (dieIndices d).find? (fun k => (w.tile k).st = .audit && (w.tile k).phys.auditPhase = 0 &&
       !w.chip.time.orders.any (fun e => e.2.action = 5 && e.2.arg = k))
     (∀ k, ready = some k → Runs (.auditDue d) s (w.postAudit k)) ∧
     (ready = none → w.auditBusy d = true → Runs (.auditDue d) s w) ∧
     (ready = none → w.auditBusy d = false → l = [] → Runs (.auditDue d) s w) ∧
     (∀ k rest, ready = none → w.auditBusy d = false → sortBy (fun k => (w.tile k).phys.audDue.toNat) l = k :: rest →
       (144 ≤ k → Runs (.auditDue d) s (w.postAudit k)) ∧
       let v := w.modTile k (fun x => { x with exDue := some .audit })
       (k < 144 → (w.lowestSpare d).isSome = true → (w.tile k).phys.overdue = false → Runs (.auditDue d) s v) ∧
       (k < 144 → (w.lowestSpare d).isSome = true → (w.tile k).phys.overdue = true → Runs (.auditDue d) s (Work.record
         { v with chip := { v.chip with rolls := { v.chip.rolls with
           auditForced := SMap.modify 0 v.chip.rolls.auditForced (tileDie k) (fun n => min (n + 1) 0xFFFF) } } }
         { cls := 0x050F, kind := 2, id := k, pound := optPound (v.tileOwner k), d0 := (v.tile k).phys.attempts })) ∧
       (k < 144 → w.lowestSpare d = none → Runs (.auditDue d) s w))) ∧
   (∀ (s : State) (d : Fin 4), ((Work.of s).locked = false → Becomes (.auditDue d) s s.chip) ∧
     ((Work.of s).locked = true → (∀ k ∈ dieIndices d, (Work.of s).auditCandidate k = false ∧ (tileOf s k).st ≠ .audit) →
       Becomes (.auditDue d) s s.chip)) ∧
   (∀ (s : State) (k : TileId),
     let x := tileOf s k
     let w := Work.of s
     let late := x.phys.audDue ≠ 0 ∧ x.phys.audDue.toNat + w.overdueAfter k ≤ w.now ∧ x.phys.overdue = false ∧ w.locked = true
     (¬ late → Becomes (.auditOverdue k) s s.chip) ∧
     (late → x.exDue ≠ some .audit → Gives (.auditOverdue k) s (TileTo k (fun x =>
       { x with phys := { x.phys with overdue := true } }) s)) ∧
     (late → x.exDue = some .audit →
       let v := w.modTile k (fun x => { x with phys := { x.phys with overdue := true } })
       Runs (.auditOverdue k) s (Work.record { v with chip := { v.chip with rolls := { v.chip.rolls with
         auditForced := SMap.modify 0 v.chip.rolls.auditForced (tileDie k) (fun n => min (n + 1) 0xFFFF) } } }
         { cls := 0x050F, kind := 2, id := k, pound := optPound (w.tileOwner k), d0 := x.phys.attempts }))) ∧
   (∀ (s : State) (i : OrderIdx),
     ((Work.of s).startable i 5 = none → Becomes (.auditStart i) s s.chip) ∧
     (∀ o, (Work.of s).startable i 5 = some o →
       let w := (Work.of s).beginOrder i o (some 50_000_000)
       ((Work.of s).serves o.arg = true → Becomes (.auditStart i) s s.chip) ∧
       ((Work.of s).serves o.arg = false → (tileOf s o.arg).st ≠ .spare → (tileOf s o.arg).st ≠ .audit →
         Runs (.auditStart i) s (w.endOrder i)) ∧
       ((Work.of s).serves o.arg = false → (tileOf s o.arg).st = .spare ∨ (tileOf s o.arg).st = .audit →
         Runs (.auditStart i) s ((w.yieldSamples o.arg).modTile o.arg (fun x => { x with
           st := .audit
           phys := { x.phys with auditPhase := 1, auditOrder := some i.val, peakC := 0, belowBand := false, failPhase := 0
                                 failPoint := 0, failIndex := 0 } }))))) ∧
   (∀ (s : State) (k : TileId) (temp : Byte),
     ((tileOf s k).phys.auditPhase ≠ 1 → Becomes (.auditHeatTimeout k temp) s s.chip) ∧
     ((tileOf s k).phys.auditPhase = 1 → Gives (.auditHeatTimeout k temp) s (TileTo k (fun x => { x with
       phys := { x.phys with auditPhase := 2, peakC := max x.phys.peakC temp.toNat, belowBand := decide (temp.toNat < 90) } }) s))) ∧
   (∀ (s : State) (k : TileId) (temp : Byte) (fail : Option (Fin 3)) (n : W32),
     let ph := (tileOf s k).phys
     (ph.auditPhase = 0 ∨ 5 ≤ ph.auditPhase → Becomes (.auditPhaseEnd k temp fail n) s s.chip) ∧
     (ph.auditPhase = 1 → Gives (.auditPhaseEnd k temp fail n) s (TileTo k (fun x => { x with
       phys := { x.phys with auditPhase := 2, peakC := max x.phys.peakC temp.toNat, belowBand := decide (temp.toNat < 90) } }) s)) ∧
     (2 ≤ ph.auditPhase → ph.auditPhase ≤ 4 → Gives (.auditPhaseEnd k temp fail n) s (TileTo k (fun x => { x with
       phys := (match fail with
         | some q => if x.phys.failPhase = 0 then { x.phys with auditPhase := x.phys.auditPhase + 1, peakC := max x.phys.peakC temp.toNat
                                                                failPhase := x.phys.auditPhase, failPoint := q.val, failIndex := n.toNat }
                     else { x.phys with auditPhase := x.phys.auditPhase + 1, peakC := max x.phys.peakC temp.toNat }
         | none => { x.phys with auditPhase := x.phys.auditPhase + 1, peakC := max x.phys.peakC temp.toNat }) }) s))) ∧
   (∀ (s : State) (k : TileId),
     let ph := (tileOf s k).phys
     let w := (Work.of s).zeroStore k
     let d := tileDie k
     let fin (w : Work) : Work := match ph.auditOrder with | some i => w.endOrder i | none => w
     (ph.auditPhase ≠ 5 → Becomes (.auditEnd k) s s.chip) ∧
     (ph.auditPhase = 5 → ph.failPhase = 0 →
       let v := w.modTile k (fun x => { x with
         st := .spare
         phys := { x.phys with auditPhase := 0, auditOrder := none, audLast := BitVec.ofNat 64 w.now, priority := false, due := false
                               overdue := false, result := 1, audDue := BitVec.ofNat 64 (w.now + w.auditInterval d) } })
       Runs (.auditEnd k) s (fin (Work.record { v with chip := { v.chip with rolls := { v.chip.rolls with
         auditPassed := SMap.modify 0 v.chip.rolls.auditPassed d (fun n => min (n + 1) 0xFFFF_FFFF) } } }
         { cls := 0x050D, kind := 2, id := k, pound := optPound (v.tileOwner k), d0 := ph.peakC, d1 := b2n ph.belowBand }))) ∧
     (ph.auditPhase = 5 → ph.failPhase ≠ 0 →
       let v := w.modTile k (fun x => { x with phys := { x.phys with auditPhase := 0, auditOrder := none, result := 2 } })
       Runs (.auditEnd k) s (fin ((Work.record { v with chip := { v.chip with rolls := { v.chip.rolls with
         auditFailed := SMap.modify 0 v.chip.rolls.auditFailed d (fun n => min (n + 1) 0xFFFF) } } }
         { cls := 0x050E, kind := 2, id := k, pound := optPound (v.tileOwner k), action := 8, d0 := ph.failIndex
           d1 := ph.failPhase + ph.failPoint * 256, d2 := ph.peakC }).quarantine k 2))))) ∧
  ((∀ (s : State) (k : TileId) (reached : Bool),
     let x := tileOf s k
     let may := (x.st = .loading ∨ x.st = .running ∨ x.st = .draining) ∧ x.halted = false ∧ (Work.of s).mayExchange k = true
     (¬ may → Becomes (.preemptAttempt k reached) s s.chip ∧ Becomes (.preemptRetry k) s s.chip) ∧
     (may → Gives (.preemptAttempt k reached) s (TileTo k (fun x => { x with
       phys := { x.phys with attempts := min (x.phys.attempts + 1) 255 }, halted := reached && x.atPoint }) s)) ∧
     (x.phys.attempts = 0 → Becomes (.preemptRetry k) s s.chip) ∧
     (may → x.phys.attempts ≠ 0 → Gives (.preemptRetry k) s (TileTo k (fun x => { x with
       phys := { x.phys with attempts := min (x.phys.attempts + 1) 255 }, halted := x.atPoint }) s))) ∧
   (∀ (s : State) (i j : TileId), i.val < 144 →
     let x := tileOf s i
     let y := tileOf s j
     (((x.st = .idle ∨ x.st = .disabled ∨ x.st = .unowned) ∨
         (x.st = .loading ∨ x.st = .running ∨ x.st = .draining) ∧ x.halted = true ∧ x.atPoint = true) →
       (x.exDue = some .audit ∧ (Work.of s).lowestSpare (tileDie i) = some j.val ∨
         x.exDue = some .quarantine ∧ ((Work.of s).sparesOf (tileDie i)).contains j.val = true) →
       (Work.of s).serves j = false → (Work.of s).mayExchange i = true →
       x.portsQuiet = true → y.portsQuiet = true → x.heldWrites = [] → y.heldWrites = [] →
       Runs (.indexExchange i j) s ((((Work.of s).yieldSamples j).modTile i (fun x =>
         { x with exPrev := x.st, exWith := some j.val, st := .exchanging })).modTile j (fun y =>
         { y with exPrev := y.st, st := .exchanging })) ∧
       (s.chip.samples = [] → Gives (.indexExchange i j) s (fun t => OnlyTiles i j s t ∧
         tileOf t i = { x with exPrev := x.st, exWith := some j.val, st := .exchanging } ∧
         tileOf t j = { y with exPrev := y.st, st := .exchanging }))) ∧
     ((Work.of s).mayExchange i = false → Becomes (.indexExchange i j) s s.chip)) ∧
   (∀ (s : State) (i j : TileId), (tileOf s i).st ≠ .exchanging ∨ (tileOf s i).exWith ≠ some j.val →
     Becomes (.exchangeDone i j) s s.chip) ∧
   (∀ (s : State) (i j : TileId), (tileOf s i).st = .exchanging → (tileOf s i).exWith = some j.val →
     let x := tileOf s i
     let y := tileOf s j
     let moved : Tile := { x with
       phys := y.phys, st := x.exPrev, exDue := none, exWith := none, halted := false
       cores := SMap.mapVal x.cores (fun _ c => { c with reserved := none, icache := [] }) }
     let out : Tile := { Tile.resetWith { x.phys with attempts := 0, auditPhase := 0, auditOrder := none } with
       st := if x.exDue = some .quarantine then .quarantined else .audit }
     let w := (((Work.of s).setTile i moved).setTile j out).zeroStore j
     let done (w : Work) : Work := (((w.releaseHeld i).each y.heldWrites (fun w e =>
       w.pwrite (tileAddr j e.1) e.2.1 false none e.2.2)).countSafePoints i).settleQuarantine i
     (∀ h, moved.core h = { x.core h with reserved := none, icache := [] }) ∧
     (x.exDue ≠ some .quarantine → Runs (.exchangeDone i j) s (done (w.postAudit j))) ∧
     (x.exDue = some .quarantine →
       (w.tileOwner i = none → Runs (.exchangeDone i j) s (done w)) ∧
       (∀ p, w.tileOwner i = some p → Runs (.exchangeDone i j) s (done (w.modPound p (fun x =>
         { x with sparesGone := SMap.modify 0 x.sparesGone (tileDie i) (· + 1) })))))))

/-- Collation outcomes, the rates of records, and the Fault Rolls ring (R533 to R535, R545 to R547): a match ends its sample; a dispute takes an
arbiter; each outcome; the ring's two registers, and who may write them. -/
def Obligations.CollationAndRing : Prop :=
  (∀ (s : State) (u : TileId) (m : Bool),
    ((∀ x ∈ s.chip.samples, x.checker ≠ u.val ∨ x.captured = none ∨ x.disputed = true) →
      Becomes (.collationCheckDone u m) s s.chip) ∧
    (∀ x, s.chip.samples.find? (fun y => y.checker = u.val && y.captured.isSome && !y.disputed) = some x →
      let w := (Work.of s).modTile u (fun y => { y with phys := { y.phys with colChecked := min (y.phys.colChecked + 1) 0xFFFF_FFFF } })
      Runs (.collationCheckDone u true) s (Work.endSample { w with chip := { w.chip with rolls := { w.chip.rolls with
        matched := SMap.modify 0 w.chip.rolls.matched x.pound (fun n => min (n + 1) 0xFFFF_FFFF) } } } x) ∧
      Runs (.collationCheckDone u false) s (Work.takeArbiter { w with chip := { w.chip with
        samples := w.chip.samples.map (fun y => if y = x then { x with disputed := true } else y) } } { x with disputed := true }).1)) ∧
  (∀ (s : State) (k : TileId) (r : ArbiterResult),
    let w := Work.of s
    (w.disputed? k = none → Becomes (.collationArbiterDone k r) s s.chip ∧ Becomes (.collationArbiterTimeout k) s s.chip) ∧
    (∀ x u, w.disputed? k = some x → x.arbiter = some u →
      Runs (.collationArbiterDone k r) s ((w.modTile u (fun y =>
        { y with phys := { y.phys with colChecked := min (y.phys.colChecked + 1) 0xFFFF_FFFF } })).endMismatch x
          (match r with | .equalsSource => 1 | .equalsChecker => 2 | .differs => 3)) ∧
      Becomes (.collationArbiterTimeout k) s s.chip) ∧
    (∀ x, w.disputed? k = some x → x.arbiter = none → Runs (.collationArbiterTimeout k) s (w.endMismatch x 4))) ∧
  (∀ s : State, Becomes .rateLimitSecond s { s.chip with rolls := { s.chip.rolls with
    rateOwner := [], rateFabric := 0, rateRemote := 0, rateSummary := 0 } }) ∧
  (∀ (s : State) (c : CoreId) (high : Bool) (v : W64), RegOpen s c (fltBase + 8) true →
    let f := s.chip.rolls
    let w := Work.of s
    let put := fun (x : Rolls) => ({ w with chip := { s.chip with rolls := x } } : Work)
    let mine := f.enable = false ∨ f.owner = 0xFE ∨ w.coreOwner c = some f.owner
    (¬ mine → Runs (.fltRingEnable c .b8 high v) s (untrap c (w.ignoreReg c (fltBase + 8) .b8 v))) ∧
    (mine → bit v 0 = f.enable → Runs (.fltRingEnable c .b8 high v) s (untrap c w)) ∧
    (mine → bit v 0 = false → f.enable = true →
      Runs (.fltRingEnable c .b8 high v) s (untrap c (put { f with enable := false, owner := 0xFF }))) ∧
    (bit v 0 = true → f.enable = false →
      (w.ringRegion c = none → Runs (.fltRingEnable c .b8 high v) s (untrap c (w.ignoreReg c (fltBase + 8) .b8 v))) ∧
      (∀ o, w.ringRegion c = some o → Runs (.fltRingEnable c .b8 high v) s
        (untrap c (put { f with enable := true, owner := o }).flushBuffer)))) ∧
  (∀ (s : State) (c : CoreId) (high : Bool) (v : W64), RegOpen s c (fltBase + 0x18) true →
    let f := s.chip.rolls
    let w := Work.of s
    let t : W32 := BitVec.ofNat 32 (bits v 31 0)
    let mine := f.enable = false ∨ f.owner = 0xFE ∨ w.coreOwner c = some f.owner
    (¬ mine → Runs (.fltRingConsWrite c .b8 high v) s (untrap c (w.ignoreReg c (fltBase + 0x18) .b8 v))) ∧
    (mine → f.enable = false ∨ (t - f.tail).toNat ≤ (f.head - f.tail).toNat →
      Runs (.fltRingConsWrite c .b8 high v) s (untrap c { w with chip := { s.chip with rolls := { f with tail := t } } })) ∧
    (mine → f.enable = true → (f.head - f.tail).toNat < (t - f.tail).toNat →
      Runs (.fltRingConsWrite c .b8 high v) s (untrap c w)))


/-! ## Homes and the caches of the host cores -/

/-- A request at its home, one of rdshared, rdunique, upgrade, zeroline, cleanline, flushline, rdpref, rdvol, wrplain, wrpublish, wrfull and
atomic (R363, R365, R367, R369, R388): accepted, it opens a transaction, answered at once when no core is to be
snooped and else after the snoops of R363's table; the first that meets an open writeback joins it; one that meets another
transaction, a waiting entry or no free tracker enters the list with Retry, or is a prefetch that is dropped; a granted one is
accepted; one that needs HBM and is not latency-critical, of a pound whose bucket is empty, waits for tokens; one that joined a writeback
is served with no snoop, as in state I.

What a home answers once every snoop is answered (R363): the directory entry it leaves, the state it grants, data from the
home or from a cache, a write or an atomic performed at the point of coherence. -/
def Obligations.HomeRequests : Prop :=
  ((∀ (s : State) (c : Instr) (r : Req), reqOf c = some r → r.arrives s →
     let w := r.at_ s
     let x := w.home r.home
     let refused := if r.kind = .rdPref then w.send .noData r.home r.agent r.line .rdPref .i
       else (w.modHome r.home (fun x => { x with
         retry := x.retry ++ [{ kind := r.kind, agent := r.agent, line := r.line, granted := false }]
         retries := min (x.retries + 1) 0xFFFF_FFFF })).send .retry r.home r.agent r.line r.kind .i
     let ready := ∃ e ∈ x.retry, e.granted = true ∧ e.agent = r.agent ∧ e.line = r.line
     let waits := ∃ e ∈ x.retry, e.granted = false ∨ e.line = r.line
     (∀ e, x.retry.find? (fun e => e.granted && e.agent = r.agent && e.line = r.line) = some e →
       Runs c s ((w.modHome r.home (fun x => { x with retry := x.retry.erase e })).openTxn r.home r.line r.agent r.kind r.op)) ∧
     (¬ ready → w.txn? r.home r.line = none → ¬ waits → x.free r.home = true →
       (w.needsTokens r.home r.line r.agent r.kind r.op = none →
         Runs c s (w.openTxn r.home r.line r.agent r.kind r.op)) ∧
       (∀ p wr, w.needsTokens r.home r.line r.agent r.kind r.op = some (p, wr) →
         (16 ≤ w.waitingTokens r.home p → Runs c s refused) ∧
         (w.waitingTokens r.home p < 16 → Runs c s
           ((w.modSlice r.home (fun y => if wr then { y with wrWaiting := SMap.modify 0 y.wrWaiting p (· + 1) }
             else { y with rdWaiting := SMap.modify 0 y.rdWaiting p (· + 1) })).setTxn r.home r.line
             { Txn.opened r.kind r.agent r.op [] with tokens := some p })))) ∧
     (¬ ready → w.txn? r.home r.line = none → waits ∨ x.free r.home = false → Runs c s refused) ∧
     (¬ ready → ∀ t, w.txn? r.home r.line = some t →
       (t.kind = .wbReq → t.joined = none → ¬ waits →
         Runs c s (w.setTxn r.home r.line { t with joined := some (r.kind, r.agent, r.op) })) ∧
       (t.kind ≠ .wbReq ∨ t.joined ≠ none ∨ waits → Runs c s refused))) ∧
   (∀ (w : Work) (h l a : Nat) (kind : MsgKind) (op : HomeOp),
     let e := w.dirAt l
     let k := if kind = .upgrade && !bit e.present a then .rdUnique else kind
     let v := w.setTxn h l (Txn.opened k a op ((snoopsFor k e a).map (·.1)))
     let u := w.openTxn h l a kind op
     (snoopsFor k e a = [] → u = v.answerTxn h l (Txn.opened k a op [])) ∧
     (snoopsFor k e a ≠ [] → u = { v with chip.net := v.chip.net ++ (snoopsFor k e a).map (fun x =>
       { kind := x.2, home := h, agent := x.1, line := l, req := k, st := .i, src := homeDie h, dst := agentDie x.1
         vc := 2 + (if a < 96 then 0 else 1), poison := 0 }) })) ∧
   (∀ (w : Work) (h l a : Nat) (kind : MsgKind) (op : HomeOp),
     let t := Txn.opened (if kind = .upgrade then .rdUnique else kind) a op []
     let v := ((w.setDir l { w.dirAt l with st := .i, owner := 0 }).setTxn h l t).answerTxn h l t
     w.openJoined h l a kind op = if (v.dirAt l).st = .i ∧ (v.dirAt l).present ≠ 0 then v.setDir l { v.dirAt l with st := .s } else v) ∧
   (∀ (e : DirEntry) (a q : Nat) (k : MsgKind), (e.owned → bit e.present e.owner = true) → (e.st = .i → e.present = 0) →
     let listed := bit e.present q = true
     let owner := e.owned ∧ q = e.owner
     let other := listed ∧ q ≠ a
     ((q, k) ∈ snoopsFor .rdShared e a ↔ k = .snpShared ∧ owner ∧ q ≠ a) ∧
     ((q, k) ∈ snoopsFor .rdPref e a ↔ k = .snpShared ∧ owner ∧ q ≠ a) ∧
     ((q, k) ∈ snoopsFor .rdUnique e a ↔ (k = .snpUnique ∧ owner ∧ q ≠ a) ∨ (k = .snpInv ∧ other ∧ ¬ owner)) ∧
     ((q, k) ∈ snoopsFor .upgrade e a ↔ k = .snpInv ∧ other) ∧
     ((q, k) ∈ snoopsFor .zeroLine e a ↔ k = .snpInv ∧ other) ∧
     ((q, k) ∈ snoopsFor .wrFull e a ↔ k = .snpInv ∧ other) ∧
     ((q, k) ∈ snoopsFor .flushLine e a ↔ (k = .snpFlush ∧ owner) ∨ (k = .snpInv ∧ listed ∧ ¬ owner)) ∧
     ((q, k) ∈ snoopsFor .cleanLine e a ↔ k = .snpClean ∧ owner) ∧
     ((q, k) ∈ snoopsFor .rdVol e a ↔ k = .snpCopy ∧ owner) ∧
     ((q, k) ∈ snoopsFor .wrPlain e a ↔ k = .snpRecall ∧ owner) ∧
     ((q, k) ∈ snoopsFor .wrPublish e a ↔ (k = .snpFlush ∧ owner) ∨ (k = .snpInv ∧ other ∧ ¬ owner)) ∧
     ((q, k) ∈ snoopsFor .atomic e a ↔ (k = .snpFlush ∧ owner) ∨ (k = .snpInv ∧ other ∧ ¬ owner)))) ∧
  (∀ (w : Work) (h l : Nat) (t : Txn),
     let e := w.dirAt l
     let p := w.agentPound t.agent l
     let mine : DirEntry := { st := .em, owner := t.agent, present := setBit (if e.st = .i then e.present else 0) t.agent true }
     let shared : DirEntry := { e with present := setBit e.present t.agent true }
     let alone := setBit e.present t.agent false = 0
     let forwarded := t.dirty = true ∨ t.supplied = true ∨
       ∃ m ∈ w.chip.net, m.kind = .snpData ∧ m.agent = t.agent ∧ m.line = l
     let data (w : Work) (st : LineState) : Work := ((w.homeRead l p).setTxn h l
       { t with waiting := [], needAck := true, granted := st }).send .dataResp h t.agent l t.kind st
     let done (w : Work) (st : LineState) : Work := (w.send .comp h t.agent l t.kind st).closeTxn h l
     let ack (w : Work) (st : LineState) : Work :=
       if t.acked = true then w.closeTxn h l else w.setTxn h l { t with waiting := [], needAck := true, granted := st }
     let u := w.answerTxn h l t
     (t.kind = .rdShared ∨ t.kind = .rdPref →
       (e.st = .i → u = data (w.setDir l mine) .e) ∧
       (e.st = .s → ¬ forwarded → u = data (w.setDir l shared) .s) ∧
       (e.st = .s → forwarded → u = ack (w.setDir l shared) .s) ∧
       (e.owned → e.owner ≠ t.agent → u = ack (w.setDir l shared) .s) ∧
       (e.owned → e.owner = t.agent → alone → u = data (w.setDir l { e with st := .em }) .e) ∧
       (e.owned → e.owner = t.agent → ¬ alone →
         u = data (w.setDir l { st := .s, owner := 0, present := setBit e.present t.agent true }) .s)) ∧
     (t.kind = .rdUnique →
       (¬ forwarded → u = data (w.setDir l mine) .e) ∧
       (t.dirty = true → u = ack (w.setDir l mine) .m) ∧
       (t.dirty = false → forwarded → u = ack (w.setDir l mine) .e)) ∧
     (t.kind = .upgrade ∨ t.kind = .zeroLine → u = done (w.setDir l mine) .m) ∧
     (t.kind = .cleanLine ∨ t.kind = .flushLine → u = done w .i) ∧
     (t.kind = .rdVol → u = data w .i) ∧
     (∀ mask d, t.op = .write mask d → t.kind = .wrPlain → u = done (w.homeMask l mask d false p) .i) ∧
     (∀ mask d, t.op = .write mask d → t.kind = .wrPublish ∨ t.kind = .wrFull → u = done (w.homeMask l mask d true p) .i) ∧
     (∀ op a z v c, t.op = .atomic op a z v c → t.kind = .atomic → u = done (w.pwrite a
       (leBytes z.bytes (amoValue op z.bytes (leNat (w.mem.read a z.bytes)) v.toNat c.toNat)) true p) .i))

/-- A snoop at an L2 (R326, R364, R368): the state it leaves, the data it brings and to whom; it waits while the hart holds the line
after an LR. What else a message does: SnpResp, CompAck, DataResp, SnpData, Comp, NoData, Retry, Grant and its time limit, and
the writeback messages (R361, R363, R365, R367, R369). A message acts once it has arrived: it is on the network and none about its
line between its dies left before it (R21); before that nothing changes. -/
def Obligations.SnoopsAndAnswers : Prop :=
  (∀ (s : State) (h : HomeId) (c : CoreId) (l : BitVec 49) (r : CoreId) (i : Instr) (k : MsgKind) (dst : Nat),
    (i, k, dst) ∈ [(.snpshared h c l r, .snpShared, r.val), (.snpunique h c l r, .snpUnique, r.val), (.snpinv h c l, .snpInv, h.val + 1000),
      (.snpflush h c l, .snpFlush, h.val + 1000), (.snpclean h c l, .snpClean, h.val + 1000),
      (.snprecall h c l, .snpRecall, h.val + 1000), (.snpcopy h c l, .snpCopy, h.val + 1000)] →
    ((coreOf s c).lrHold = true → (coreOf s c).resv = some l.toNat → Becomes i s s.chip) ∧
    ((Work.of s).arrived k h c l.toNat = false → Becomes i s s.chip) ∧
    ((coreOf s c).lrHold = false ∨ (coreOf s c).resv ≠ some l.toNat → (Work.of s).arrived k h c l.toNat = true →
      let w := ((Work.of s).receive k h c l.toNat).2
      ∀ m, ((Work.of s).receive k h c l.toNat).1 = some m →
        let x := snoopEffect k (w.copyState c l.toNat)
        let v := if x.1 = .i then w.dropCopy c l.toNat else w.setCopy c l.toNat x.1
        let u := if x.2 then v.sendFrom (agentDie c) (if dst = h.val + 1000 then homeDie h else agentDie dst) .snpData h dst l.toNat m.req .i
          else v
        Runs i s (u.send .snpResp h c l.toNat m.req x.1))) ∧
  (∀ k : MsgKind,
    snoopEffect .snpShared .m = (.o, true) ∧ snoopEffect .snpShared .o = (.o, true) ∧ snoopEffect .snpShared .e = (.s, true) ∧
    snoopEffect .snpShared .s = (.s, false) ∧
    (∀ st, st = .m ∨ st = .o ∨ st = .e → snoopEffect .snpUnique st = (.i, true)) ∧ snoopEffect .snpUnique .s = (.i, false) ∧
    (∀ st, snoopEffect .snpInv st = (.i, false)) ∧
    (∀ st, snoopEffect .snpFlush st = (.i, decide (st = .m ∨ st = .o))) ∧
    snoopEffect .snpClean .m = (.e, true) ∧ snoopEffect .snpClean .o = (.s, true) ∧ snoopEffect .snpClean .e = (.e, false) ∧
    snoopEffect .snpClean .s = (.s, false) ∧
    snoopEffect .snpRecall .m = (.i, true) ∧ snoopEffect .snpRecall .o = (.i, true) ∧ snoopEffect .snpRecall .e = (.i, false) ∧
    (∀ st, st = .m ∨ st = .o ∨ st = .e → snoopEffect .snpCopy st = (st, true)) ∧
    (k ∈ [.snpShared, .snpUnique, .snpInv, .snpFlush, .snpClean, .snpRecall, .snpCopy] → snoopEffect k .i = (.i, false))) ∧
  (∀ (s : State) (h : HomeId) (c : CoreId) (l : BitVec 49) (st : LineState) (fwd : Bool),
    let w := ((Work.of s).receive .snpResp h c l.toNat).2
    ((Work.of s).arrived .snpResp h c l.toNat = false → Becomes (.snpresp h c l st fwd) s s.chip) ∧
    ((Work.of s).arrived .snpResp h c l.toNat = true →
      (∀ t, w.txn? h l.toNat = some t → c.val ∈ t.waiting →
        let v := w.setDir l.toNat ((w.dirAt l.toNat).after t.kind c st)
        let u : Txn := { t with
          waiting := without t.waiting c
          dirty := t.dirty || (fwd && t.kind = .rdUnique)
          supplied := t.supplied || ((t.kind = .rdShared || t.kind = .rdPref) && st ≠ .i) }
        let x := v.setTxn h l.toNat u
        (u.waiting ≠ [] ∨ x.dataComing h l.toNat = true → Runs (.snpresp h c l st fwd) s x) ∧
        (u.waiting = [] → x.dataComing h l.toNat = false → Runs (.snpresp h c l st fwd) s (x.answerTxn h l.toNat u))) ∧
      (∀ t, w.txn? h l.toNat = some t → c.val ∉ t.waiting → Runs (.snpresp h c l st fwd) s w) ∧
      (w.txn? h l.toNat = none → Runs (.snpresp h c l st fwd) s w))) ∧
  (∀ (s : State) (h : HomeId) (a : AgentId) (l : BitVec 49),
    let w := ((Work.of s).receive .compAck h a l.toNat).2
    ((Work.of s).arrived .compAck h a l.toNat = false → Becomes (.compack h a l) s s.chip) ∧
    ((Work.of s).arrived .compAck h a l.toNat = true →
      (∀ t, w.txn? h l.toNat = some t → t.agent = a.val → t.waitWb = false →
        (t.needAck = true →
          Runs (.compack h a l) s ((w.modHome h (fun x => { x with txns := SMap.erase x.txns l.toNat })).grantNext h)) ∧
        (t.needAck = false → Runs (.compack h a l) s (w.setTxn h l.toNat { t with acked := true }))) ∧
      (∀ t, w.txn? h l.toNat = some t → t.agent ≠ a.val ∨ t.waitWb = true → Runs (.compack h a l) s w) ∧
      (w.txn? h l.toNat = none → Runs (.compack h a l) s w))) ∧
  (∀ (s : State) (h : HomeId) (a : AgentId) (l : BitVec 49) (st : LineState) (d : LineData) (b : BitVec 4),
    let w := ((Work.of s).receive .dataResp h a l.toNat).2
    ((Work.of s).arrived .dataResp h a l.toNat = false → Becomes (.dataresp h a l st d b) s s.chip) ∧
    ((Work.of s).arrived .dataResp h a l.toNat = true → ∀ m, ((Work.of s).receive .dataResp h a l.toNat).1 = some m →
      (st ≠ .i → a.val < 96 → Runs (.dataresp h a l st d b) s ((w.install a l.toNat st d (b ||| m.poison)
        (if m.req = .rdPref then w.prefetchedBy a l.toNat else none)).send .compAck h a l.toNat .compAck st)) ∧
      (st = .i ∨ 96 ≤ a.val → Runs (.dataresp h a l st d b) s (w.send .compAck h a l.toNat .compAck st)))) ∧
  (∀ (s : State) (h : HomeId) (l : BitVec 49) (dirty : Bool) (d : LineData) (b : BitVec 4),
    let w := ((Work.of s).receive .snpData h (h.val + 1000) l.toNat).2
    ((Work.of s).arrived .snpData h (h.val + 1000) l.toNat = false → Becomes (.snpdata h .home l dirty d b) s s.chip) ∧
    ((Work.of s).arrived .snpData h (h.val + 1000) l.toNat = true →
      (w.txn? h l.toNat = none → Runs (.snpdata h .home l dirty d b) s w) ∧
      (∀ t, w.txn? h l.toNat = some t →
        let v := if dirty then w.homeWrite l.toNat d b (w.agentPound t.agent l.toNat) else w
        let last := t.waiting = [] ∧ t.needAck = false ∧ t.waitWb = false ∧ t.tokens = none ∧ v.dataComing h l.toNat = false
        (¬ last → Runs (.snpdata h .home l dirty d b) s v) ∧
        (last → Runs (.snpdata h .home l dirty d b) s (v.answerTxn h l.toNat t)))) ∧
    (∀ r : CoreId,
      let w := ((Work.of s).receive .snpData h r.val l.toNat).2
      ((Work.of s).arrived .snpData h r.val l.toNat = false → Becomes (.snpdata h (.requester r) l dirty d b) s s.chip) ∧
      ((Work.of s).arrived .snpData h r.val l.toNat = true →
        (w.txn? h l.toNat = none → Runs (.snpdata h (.requester r) l dirty d b) s w) ∧
        (∀ t, w.txn? h l.toNat = some t →
          (t.agent ≠ r.val → Runs (.snpdata h (.requester r) l dirty d b) s w) ∧
          (t.agent = r.val →
            let st : LineState := if t.kind = .rdUnique then (if dirty then .m else .e) else .s
            Runs (.snpdata h (.requester r) l dirty d b) s
              (((w.install r.val l.toNat st d b (if t.kind = .rdPref then w.prefetchedBy r.val l.toNat else none)).setTxn h l.toNat
                { t with supplied := true, dirty := t.dirty || (dirty && t.kind = .rdUnique) }).send
                .compAck h r.val l.toNat t.kind st)))))) ∧
  (∀ (s : State) (h : HomeId) (a : AgentId) (l : BitVec 49),
    let taken (k : MsgKind) : Work := ((Work.of s).receive k h a l.toNat).2
    let here (k : MsgKind) : Prop := (Work.of s).arrived k h a l.toNat = true
    (here .comp → ∀ m, ((Work.of s).receive .comp h a l.toNat).1 = some m →
      (a.val < 96 → m.req = .zeroLine → Runs (.comp h a l) s ((taken .comp).install a l.toNat .m 0 0 none)) ∧
      (a.val < 96 → m.req = .upgrade → Runs (.comp h a l) s ((taken .comp).setCopy a l.toNat .m)) ∧
      (96 ≤ a.val ∨ m.req ≠ .zeroLine ∧ m.req ≠ .upgrade → Runs (.comp h a l) s (taken .comp))) ∧
    (here .retry → Runs (.retry h a l) s (taken .retry)) ∧
    (here .grant →
      (∀ e, ((taken .grant).home h).retry.find? (fun e => e.granted && e.agent = a.val && e.line = l.toNat) = some e →
        Runs (.grant h a l) s ((taken .grant).send e.kind h a l.toNat e.kind .i)) ∧
      ((∀ e ∈ ((taken .grant).home h).retry, e.granted = false ∨ e.agent ≠ a.val ∨ e.line ≠ l.toNat) →
        Runs (.grant h a l) s (taken .grant))) ∧
    (¬ here .comp → Becomes (.comp h a l) s s.chip) ∧ (¬ here .retry → Becomes (.retry h a l) s s.chip) ∧
    (¬ here .grant → Becomes (.grant h a l) s s.chip) ∧
    Runs (.grantTimeout h a l) s (((Work.of s).modHome h (fun x => { x with
      retry := x.retry.filter (fun e => !(e.granted && e.agent = a.val && e.line = l.toNat)) })).grantNext h)) ∧
  (∀ (s : State) (h : HomeId) (c : CoreId) (l : BitVec 49) (d : LineData) (b : BitVec 4),
    let taken (k : MsgKind) : Work := ((Work.of s).receive k h c l.toNat).2
    let here (k : MsgKind) : Prop := (Work.of s).arrived k h c l.toNat = true
    let w := taken .wbReq
    let x := w.home h
    let e := w.dirAt l.toNat
    let mine := e.owned ∧ e.owner = c.val
    let go (w : Work) : Work :=
      (w.setTxn h l.toNat { Txn.opened .wbReq c .read [] with waitWb := true }).send .wbGo h c l.toNat .wbReq .i
    let held := x.retry.find? (fun r => r.granted && r.agent = c.val && r.line = l.toNat)
    (here .noData → Runs (.nodata h c l) s (taken .noData)) ∧ (¬ here .noData → Becomes (.nodata h c l) s s.chip) ∧
    (¬ here .wbReq → Becomes (.wbreq h c l) s s.chip) ∧
    (here .wbReq → (Work.of s).lineHome l.toNat = h.val → (Work.of s).homeOf (l.toNat * 128) ≠ none →
      (held = none → w.txn? h l.toNat = none → x.free h = true → (∀ r ∈ x.retry, r.granted = true ∧ r.line ≠ l.toNat) →
        (mine → Runs (.wbreq h c l) s (go w)) ∧
        (¬ mine → Runs (.wbreq h c l) s (w.send .wbCancel h c l.toNat .wbReq .i))) ∧
      (held = none → w.txn? h l.toNat ≠ none ∨ x.free h = false ∨ (∃ r ∈ x.retry, r.granted = false ∨ r.line = l.toNat) →
        Runs (.wbreq h c l) s (w.retryReq h l.toNat c .wbReq)) ∧
      (∀ r, held = some r →
        let v := w.modHome h (fun x => { x with retry := x.retry.erase r })
        (mine → Runs (.wbreq h c l) s (go v)) ∧
        (¬ mine → Runs (.wbreq h c l) s ((v.send .wbCancel h c l.toNat .wbReq .i).grantNext h)))) ∧
    (here .wbGo →
      ((∃ y ∈ ((taken .wbGo).core c).evict, y.line = l.toNat) →
        Runs (.wbgo h c l) s ((taken .wbGo).send .wbData h c l.toNat .wbReq .i)) ∧
      ((∀ y ∈ ((taken .wbGo).core c).evict, y.line ≠ l.toNat) → Runs (.wbgo h c l) s (taken .wbGo))) ∧
    (here .wbCancel → Runs (.wbcancel h c l) s
      ((taken .wbCancel).modCore c (fun x => { x with evict := x.evict.filter (fun e => e.line ≠ l.toNat) }))) ∧
    (¬ here .wbGo → Becomes (.wbgo h c l) s s.chip) ∧ (¬ here .wbCancel → Becomes (.wbcancel h c l) s s.chip) ∧
    (¬ here .wbData → Becomes (.wbdata h c l d b) s s.chip) ∧
    (here .wbData → ∀ t, (taken .wbData).txn? h l.toNat = some t → t.kind = .wbReq → t.agent = c.val → t.waitWb = true →
      let v := ((taken .wbData).homeWrite l.toNat d b ((taken .wbData).coreOwner c)).modCore c (fun x =>
        { x with evict := x.evict.filter (fun e => e.line ≠ l.toNat) })
      let u := v.setDir l.toNat ((v.dirAt l.toNat).drop c)
      (t.joined = none → Runs (.wbdata h c l d b) s (u.closeTxn h l.toNat)) ∧
      (∀ k a op, t.joined = some (k, a, op) → Runs (.wbdata h c l d b) s (u.openJoined h l.toNat a k op))))

/-- The bounds of the prefetchers, what a prefetch asks for, the refill of the buckets with the requests that waited, and parity errors of
the host-core caches (R352, R354, R370, R371, R381, R386, R388). -/
def Obligations.PrefetchAndParity : Prop :=
  (∀ (s : State) (c : CoreId) (v : W64), HartFree s c →
    Gives (.hpfctlWrite c v) s (CoreTo c (fun x => { x with
      depth := min 32 (v.toNat % 64)
      detectors := SMap.mapVal x.detectors (fun _ d => { d with depth := min d.depth (min 32 (v.toNat % 64)) })
      trap := none }) s)) ∧
  (∀ (s : State) (c : CoreId) (i : SliceId) (p : PoundId) (high : Bool) (v : W64),
    RegOpen s c (0x300_0000 + i.val * 0x1000 + 0x900 + p.val * 8) ((Work.of s).isPound c p) →
    Runs (.arcPfPoundWrite c i p .b8 high v) s (untrap c ((Work.of s).modSlice i (fun x => { x with
      pfDepth := SMap.set 16 x.pfDepth p (min 64 (v.toNat % 128))
      detectors := SMap.mapVal x.detectors (fun _ d => if d.pound = p then { d with depth := min d.depth (min 64 (v.toNat % 128)) } else d) })))) ∧
  (∀ (s : State) (c : CoreId) (k : Fin 16),
    (∀ d, SMap.look (coreOf s c).detectors k = some d → d.trained = true →
      Runs (.l2Prefetch c k) s ((Work.of s).l2Prefetch c k)) ∧
    ((∀ d, SMap.look (coreOf s c).detectors k = some d → d.trained = false) → Becomes (.l2Prefetch c k) s s.chip) ∧
    (∀ d, SMap.look (coreOf s c).detectors k = some d → d.trained = true → d.depth = 1 →
      let w := Work.of s
      let l := ((d.last : Int) + d.stride).toNat
      let busy := w.txn? (w.lineHome l) l ≠ none ∨ (w.home (w.lineHome l)).retry ≠ [] ∨
        (w.home (w.lineHome l)).free (w.lineHome l) = false ∨ w.heldBy (some c.val) l (l + 1) = true
      (l / 32 ≠ d.last / 32 ∨ w.l2 c l ≠ none ∨ busy → Becomes (.l2Prefetch c k) s s.chip) ∧
      (l / 32 = d.last / 32 → w.l2 c l = none → ¬ busy →
        w.acc (.core c) (l * 128) 128 false = .ok → (w.place (l * 128)).mainMemory = true →
        Runs (.l2Prefetch c k) s (w.fillShared c l (some k.val))))) ∧
  (∀ (s : State) (i : SliceId) (k : Fin 64),
    ((∀ d, SMap.look ((Work.of s).slice i).detectors k = some d → d.trained = false) → Becomes (.archivePrefetch i k) s s.chip) ∧
    (∀ d, SMap.look ((Work.of s).slice i).detectors k = some d → d.trained = true → d.depth = 1 →
      let w := Work.of s
      let l := ((d.last : Int) + d.stride).toNat
      ∀ o g, w.place (l * 128) = .hbm o → (w.arcAt l).1 = i.val → SMap.look (w.slice i).sectors l = none →
        l ∉ (w.slice i).evict → w.allocWays i (some d.pound) ≠ 0 → w.cfg? d.pound = some g →
        (((w.slice i).st ≠ .active ∨ g.rdRate = 0 ∨ 0 < SMap.get 0 (w.slice i).rdTokens d.pound) →
          Runs (.archivePrefetch i k) s (((w.charge i (some d.pound) false 128).modSlice i (fun x =>
            { x with pfIssued := min (x.pfIssued + 1) 0xFFFF_FFFF })).arcUse l (some d.pound) false (some k.val))) ∧
        ((w.slice i).st = .active → g.rdRate ≠ 0 → SMap.get 0 (w.slice i).rdTokens d.pound ≤ 0 →
          Becomes (.archivePrefetch i k) s s.chip))) ∧
  (∀ s : State,
    Runs .bucketRefill s (Work.of s).refillAll ∧
    (((Work.of s).refill.chip.homes.all (fun e => e.2.txns.all (fun x => x.2.tokens.isNone))) = true →
      Runs .bucketRefill s (Work.of s).refill.pumpAll)) ∧
  (∀ (x : Slice) (p : Nat) (rd wr : Nat × Nat),
    let y := x.refill p rd wr
    SMap.get 0 y.rdTokens p = min (SMap.get 0 x.rdTokens p + (rd.1 : Int)) (rd.2 : Int) ∧
    SMap.get 0 y.wrTokens p = min (SMap.get 0 x.wrTokens p + (wr.1 : Int)) (wr.2 : Int) ∧
    SMap.get 0 y.rdWait p = (if SMap.get 0 x.rdWaiting p = 0 ∧ p ∉ x.rdHeld then SMap.get 0 x.rdWait p
      else min (SMap.get 0 x.rdWait p + 1) 0xFFFF_FFFF) ∧
    (∀ q, q ≠ p → SMap.get 0 y.rdTokens q = SMap.get 0 x.rdTokens q ∧ SMap.get 0 y.wrTokens q = SMap.get 0 x.wrTokens q)) ∧
  (∀ (s : State) (c : CoreId) (l : BitVec 49),
    let w := Work.of s
    let rec0 (cls act : Nat) (k : CacheKind) : Rec :=
      { cls := cls, kind := 1, id := c.val, pound := optPound (w.coreOwner c), action := act, addr := l.toNat * 128
        d0 := cacheCode k, d1 := cacheSet k l.toNat }
    (w.l2 c l.toNat = none → ∀ k, Runs (.cacheParityError c k false l) s (w.record (rec0 0x0401 2 k))) ∧
    (∀ x, SMap.look (w.core c).lines l.toNat = some x → (w.core c).lines.filter (fun e => e.1 = l.toNat) = [(l.toNat, x)] →
      (x.st ≠ .m → x.st ≠ .o → Runs (.cacheParityError c .l2 false l) s
        (let v := w.dropCopy c l.toNat
         (v.setDir l.toNat ((w.dirAt l.toNat).drop c)).record (rec0 0x0401 2 .l2))) ∧
      (x.st = .m ∨ x.st = .o → Runs (.cacheParityError c .l2 false l) s
        (let v := w.homeWrite l.toNat x.data 0xF (w.coreOwner c)
         let u := ((v.dropCopy c l.toNat).setDir l.toNat ((v.dirAt l.toNat).drop c)).record (rec0 0x0402 3 .l2)
         { u.modCore c (fun y => { y with hwError := some (BitVec.ofNat 64 (l.toNat * 128)) }) with chip.boot.cacheLost := true }))))


/-! ## Accesses of the host cores -/

/-- Accesses of a host core to the control region by address (R7, R8, R70, R371, R463, R609, R612, R613): a write to a register, whole or to
one half; a read of one; an access that is malformed; a writer or reader that is refused; the interrupt files, the APLIC and the
IOMMU. A hardware error that is due comes first; a hart whose load is outstanding at a port waits; a store to a register comes after
every earlier store of its hart (R329). -/
def Obligations.RegisterAccesses : Prop :=
  (∀ (s : State) (c : CoreId) (a : PAddr) (z : Size) (v : W64) (p : Pbmt) (o : Nat), HartFree s c →
    (Work.of s).place a.toNat = .control o → ∀ i : Instr,
    (i = .registerWrite c a z v ∨ i = .registerAccessMalformed c a z true v ∨ (i = .hostStore c a z v p ∧ z ≠ .b16) ∨
      (i = .hostNtStore c a z v p ∧ z ≠ .b16)) →
    let w := (untrap c (Work.of s)).drainStores c
    let x : W64 := BitVec.ofNat 64 (v.toNat % 2 ^ (8 * z.bytes))
    let reg := o / 8 * 8
    let high := decide (o % 8 = 4)
    let r : RegWrite := { core := c, reg := reg, off := o, size := z, high := high, value := x }
    let bad := untrap c (w.recReg c (ctlBase + o) true z.bytes x.toNat)
    (w.fileAt o = none → aplicAt o = none →
      ((z ≠ .b4 ∧ z ≠ .b8) ∨ o % z.bytes ≠ 0 → Runs i s bad) ∧
      (z = .b4 ∨ z = .b8 → o % z.bytes = 0 → ¬ (0x600_0000 ≤ o ∧ o < 0x600_1000) →
        (w.reg? reg = none → Runs i s bad) ∧
        (w.reg? reg ≠ none → w.blockOut reg = true → Runs i s bad) ∧
        (w.reg? reg ≠ none → w.blockOut reg = false →
          ((w.regAct r).1 = false → Runs i s (w.denyStore c (ctlBase + o))) ∧
          ((w.regAct r).1 = true → w.cpOut reg = true → Runs i s bad) ∧
          ((w.regAct r).1 = true → w.cpOut reg = false → w.tileOut reg = false → Runs i s (untrap c ((w.regAct r).2 w))) ∧
          ((w.regAct r).1 = true → w.cpOut reg = false → w.tileOut reg = true → Runs i s (untrap c w)))) ∧
      (z = .b4 ∨ z = .b8 → o % z.bytes = 0 → 0x600_0000 ≤ o → o < 0x600_1000 →
        Runs i s (untrap c (w.iommuWrite (o - 0x600_0000) z x)))) ∧
    (∀ f, w.fileAt o = some f → z = .b4 → o % 4096 = 0 ∨ o % 4096 = 4 →
      let n : W32 := x.setWidth 32
      (w.provisioning = true ∨ (w.coreOwner c).isSome = true → w.coreOwner c = w.coreOwner (imsicHart f) →
        Runs i s (untrap c (w.imsicSet f (if o % 4096 = 0 then n else swap32 n).toNat))) ∧
      (w.coreOwner c ≠ w.coreOwner (imsicHart f) ∨ w.provisioning = false ∧ w.coreOwner c = none →
        Runs i s (w.denyStore c (ctlBase + o)))) ∧
    (∀ f, w.fileAt o = some f → z ≠ .b4 ∨ (o % 4096 ≠ 0 ∧ o % 4096 ≠ 4) → Runs i s bad) ∧
    (∀ d k, w.fileAt o = none → aplicAt o = some (d, k) →
      (z = .b4 → k % 4 = 0 → aplicDefined d k = true → Runs i s (untrap c (w.aplicWrite d k (x.setWidth 32)))) ∧
      (z ≠ .b4 ∨ k % 4 ≠ 0 ∨ aplicDefined d k = false → Runs i s bad))) ∧
  (∀ (s : State) (c : CoreId) (a : PAddr) (z : Size) (v : W64) (p : Pbmt) (o : Nat), HartFree s c →
    (Work.of s).place a.toNat = .control o → ∀ i : Instr,
    (i = .registerAccessMalformed c a z false v ∨ (i = .hostLoad c a z p ∧ z ≠ .b16)) →
    let w := untrap c (Work.of s)
    let ret (w : Work) (n : Nat) : Work := w.modCore c (fun x => { x with rd := BitVec.ofNat 128 n, trap := none })
    let bad := ret (w.recReg c (ctlBase + o) false z.bytes 0) 0
    let part (x : W64) : Nat := if z = .b8 then x.toNat else if o % 8 = 4 then x.toNat / 2 ^ 32 else x.toNat % 2 ^ 32
    let reg := o / 8 * 8
    (∀ f, w.fileAt o = some f →
      (z = .b4 → o % 4096 = 0 ∨ o % 4096 = 4 → Runs i s (ret w 0)) ∧
      (z ≠ .b4 ∨ (o % 4096 ≠ 0 ∧ o % 4096 ≠ 4) → Runs i s bad)) ∧
    (∀ d k, w.fileAt o = none → aplicAt o = some (d, k) →
      (z = .b4 → k % 4 = 0 → aplicDefined d k = true → Runs i s (ret w (w.aplicRead d k))) ∧
      (z ≠ .b4 ∨ k % 4 ≠ 0 ∨ aplicDefined d k = false → Runs i s bad)) ∧
    (w.fileAt o = none → aplicAt o = none →
      ((z ≠ .b4 ∧ z ≠ .b8) ∨ o % z.bytes ≠ 0 → Runs i s bad) ∧
      (z = .b4 ∨ z = .b8 → o % z.bytes = 0 →
        (0x600_0000 ≤ o → o < 0x600_1000 →
          let y := w.iommuRead (o / 8 * 8 - 0x600_0000)
          Runs i s (ret y.1 (part y.2))) ∧
        (¬ (0x600_0000 ≤ o ∧ o < 0x600_1000) → w.reg? reg = none → Runs i s bad) ∧
        (¬ (0x600_0000 ≤ o ∧ o < 0x600_1000) → w.reg? reg ≠ none → 0x610_0000 ≤ o → o < 0x620_0000 →
          Runs i s (ret w.take.2 (part (Config.freeWord w.take.1)))) ∧
        (¬ (0x600_0000 ≤ o ∧ o < 0x600_1000) → o < 0x610_0000 ∨ 0x620_0000 ≤ o → ∀ x : W64, w.reg? reg = some x →
          (w.blockOut reg = true → Runs i s (ret w (if keptOut reg then part x else 0))) ∧
          (w.blockOut reg = false → w.mayRead c reg = false → Runs i s (w.denyLoad c (ctlBase + o))) ∧
          (w.blockOut reg = false → w.mayRead c reg = true → w.cpOut reg = true → Runs i s bad) ∧
          (w.blockOut reg = false → w.mayRead c reg = true → w.cpOut reg = false → w.tileOut reg = true → Runs i s (ret w 0)) ∧
          (w.blockOut reg = false → w.mayRead c reg = true → w.cpOut reg = false → w.tileOut reg = false → Runs i s (ret w (part x))))))) ∧
  (∀ (s : State) (c : CoreId) (v : W64), (coreOf s c).hwError = some v → ∀ i : Instr,
    ((∃ a z x, i = .registerWrite c a z x) ∨ (∃ a z p, i = .hostLoad c a z p ∧ z ≠ .b16) ∨ (∃ x y, i = .hostFence c x y) ∨ i = .fenceI c) →
    Gives i s (CoreTo c (fun x => { x with hwError := none, trap := some (19, v), resv := none, lrHold := false }) s)) ∧
  (∀ (s : State) (c : CoreId), (coreOf s c).hwError = none → (Work.of s).hartBusy c = true → ∀ i : Instr,
    ((∃ a z x, i = .registerWrite c a z x) ∨ (∃ a z p, i = .hostLoad c a z p ∧ z ≠ .b16) ∨ (∃ x y, i = .hostFence c x y) ∨ i = .fenceI c) →
    Becomes i s s.chip) ∧
  (∀ (s : State) (c : CoreId) (f : Work → Work), HartFree s c → (Work.of s).hostIo c f = f ((Work.of s).drainStores c))

/-- Loads and stores of a host core to memory (R24, R70, R276, R322, R327 to R331, R333, R372): what is refused, what traps, what a
load returns and a store leaves in the store buffer or the write-combining buffer, the doorbell aperture, an
MMIO window, whose port has at most 768 requests outstanding (R465). -/
def Obligations.HostLoadsAndStores : Prop :=
  (∀ (s : State) (c : CoreId) (a : PAddr) (z : Size) (p : Pbmt), HartFree s c → z ≠ .b16 →
    let w := untrap c (Work.of s)
    let la := w.local_ a.toNat
    let pl := w.place la
    let i : Instr := .hostLoad c a z p
    (∀ q o, w.place a.toNat = .doorbell q o → Gives i s (CoreTo c (fun x => { x with rd := 0, trap := none }) s)) ∧
    ((∀ o, w.place a.toNat ≠ .control o) → (∀ q o, w.place a.toNat ≠ .doorbell q o) →
      (w.acc (.core c) a.toNat z.bytes false ≠ .ok →
        Gives i s (CoreTo c (fun x => { x with trap := some (5, BitVec.ofNat 64 a.toNat), resv := none, lrHold := false }) s)) ∧
      (w.acc (.core c) a.toNat z.bytes false = .ok →
        (∀ q o, pl = .mmio q o → a.toNat % z.bytes = 0 → 768 ≤ (w.port q).reqs.length → Runs i s w) ∧
        (∀ q o, pl = .mmio q o → a.toNat % z.bytes = 0 → (w.port q).reqs.length < 768 → Runs i s (w.modPort q (fun x => { x with
          reqs := x.reqs ++ [{ tag := x.freeTag, addr := a.toNat, va := a.toNat, len := z.bytes, core := some c.val, who := none, dst := none
                               publish := false }]
          nextTag := (x.freeTag + 1) % 1024 }))) ∧
        (∀ q o, pl = .mmio q o → a.toNat % z.bytes ≠ 0 → Runs i s (w.denyLoad c a.toNat)) ∧
        let waits := pl.type p = .main ∧ w.lineHeld c la z.bytes false = true ∨ w.exchangingAt la = true
        let d := w.each (linesOf la z.bytes) (fun w l => w.drainWcLine c l)
        ((∀ q o, pl ≠ .mmio q o) → waits → Runs i s w) ∧
        ((∀ q o, pl ≠ .mmio q o) → ¬ waits → pl.type p = .main →
          let v := d.bring c la z.bytes
          (v.cachedPoison c la z.bytes = none →
            Runs i s (v.hostRetBytes c (overlay (v.core c).storeBuf la (v.cached c la z.bytes)))) ∧
          (∀ b, v.cachedPoison c la z.bytes = some b → Runs i s (v.hostTrap c 19 (a.toNat + (b - la))))) ∧
        ((∀ q o, pl ≠ .mmio q o) → ¬ waits → pl.type p ≠ .main →
          let hit := ∀ j, j < z.bytes → buffered (d.core c).storeBuf (la + j) = true
          (hit ∨ d.vpoison a.toNat z.bytes = none →
            Runs i s ((d.arcReads a.toNat z.bytes (d.coreOwner c) none).hostRetBytes c
              (overlay (d.core c).storeBuf la (d.vread a.toNat z.bytes)))) ∧
          (¬ hit → ∀ b, d.vpoison a.toNat z.bytes = some b → Runs i s (d.hostTrap c 19 (a.toNat + (b - la)))))))) ∧
  (∀ (buf : List StoreUnit) (a : Nat) (bs : List Byte),
    (overlay buf a bs).length = bs.length ∧
    ∀ j, j < bs.length →
      (buffered buf (a + j) = false → (overlay buf a bs)[j]? = bs[j]?) ∧
      ∀ u rest, buf = rest ++ [u] → u.addr ≤ a + j → a + j < u.addr + u.bytes.length →
        (overlay buf a bs)[j]? = u.bytes[a + j - u.addr]?) ∧
  (∀ (s : State) (c : CoreId) (a : PAddr) (z : Size) (v : W64) (p : Pbmt) (nt : Bool), HartFree s c → z ≠ .b16 →
    let w := untrap c (Work.of s)
    let la := w.local_ a.toNat
    let pl := w.place la
    let i : Instr := if nt then .hostNtStore c a z v p else .hostStore c a z v p
    let bs := leBytes z.bytes v.toNat
    let buffer (nc : Bool) := CoreTo c (fun x => { x with
      trap := none, storeBuf := x.storeBuf ++ [{ addr := la, bytes := bs, nc := nc }] }) s
    (∀ q o, w.place a.toNat = .doorbell q o → o = 0 → z = .b4 ∨ (z = .b8 ∧ v.toNat < 2 ^ 32) →
      Runs i s ((untrap c (w.drainStores c)).ringDoorbell c q z (BitVec.ofNat 64 (v.toNat % 2 ^ (8 * z.bytes))))) ∧
    (∀ q o, w.place a.toNat = .doorbell q o → (z ≠ .b4 ∧ z ≠ .b8) ∨ o ≠ 0 ∨ z = .b8 ∧ 2 ^ 32 ≤ v.toNat →
      let x := w.drainStores c
      Runs i s (untrap c (x.record { cls := 0x0601, kind := 1, id := c.val, pound := optPound (x.coreOwner c), action := 6,
                                     addr := 0x3F00_0000_0000 + q * 8 + o, d0 := v.toNat % 2 ^ (8 * z.bytes) }))) ∧
    ((∀ o, w.place a.toNat ≠ .control o) → (∀ q o, w.place a.toNat ≠ .doorbell q o) →
      (w.acc (.core c) a.toNat z.bytes true ≠ .ok →
        Gives i s (CoreTo c (fun x => { x with trap := some (7, BitVec.ofNat 64 a.toNat), resv := none, lrHold := false }) s)) ∧
      (w.acc (.core c) a.toNat z.bytes true = .ok →
        (∀ q o, pl = .mmio q o → a.toNat % z.bytes = 0 →
          (0x400_0000 ≤ o → Runs i s ((w.drainStores c).post la bs (some (.core c)))) ∧
          (o < 0x400_0000 → Runs i s (((w.drainStores c).post la bs (some (.core c))).programHdm q o))) ∧
        (∀ q o, pl = .mmio q o → a.toNat % z.bytes ≠ 0 → Runs i s (w.denyStore c a.toNat)) ∧
        let d := w.each (linesOf la z.bytes) (fun w l => w.drainWcLine c l)
        let kept (nc : Bool) : Work := d.modCore c (fun x => { x with storeBuf := x.storeBuf ++ [{ addr := la, bytes := bs, nc := nc }] })
        ((∀ q o, pl ≠ .mmio q o) → pl.type p = .io → Runs i s ((d.drainStores c).drainUnit c { addr := la, bytes := bs, nc := true })) ∧
        ((∀ q o, pl ≠ .mmio q o) → pl.type p = .main → nt = false → Runs i s (kept false)) ∧
        ((∀ q o, pl ≠ .mmio q o) → pl.type p = .uncached → Runs i s (kept true)) ∧
        ((∀ q o, pl ≠ .mmio q o) → pl.type p = .main → nt = false → (coreOf s c).wc = [] → Gives i s (buffer false)) ∧
        ((∀ q o, pl ≠ .mmio q o) → pl.type p = .uncached → (coreOf s c).wc = [] → Gives i s (buffer true)) ∧
        ((∀ q o, pl ≠ .mmio q o) → pl.type p = .main → nt = true → Runs i s (w.wcStore c la bs))))) ∧
  (∀ (w : Work) (c : Nat) (a : Nat) (bs : List Byte) (l o : Nat), a = l * 128 + o → 0 < bs.length → o + bs.length ≤ 128 →
    (∀ e ∈ (w.core c).wc, e.line ≠ l) → (w.core c).wc.length < 8 →
    ∃ e : WcEntry, w.wcStore c a bs = w.modCore c (fun x => { x with wc := x.wc ++ [e] }) ∧ e.line = l ∧
      (∀ j, bit e.mask j = decide (o ≤ j ∧ j < o + bs.length)) ∧
      ∀ j, j < bs.length → (lineBytes e.data)[o + j]? = bs[j]?) ∧
  (∀ (w : Work) (c : Nat) (u : StoreUnit),
    (w.storeOk c u.addr u.bytes.length = false → w.drainUnit c u = (w.modCore c (fun x => { x with int35 := true })).record
      { cls := 0x0307, kind := 1, id := c, pound := optPound ((w.modCore c (fun x => { x with int35 := true })).coreOwner c),
        action := 6, addr := u.addr }) ∧
    (w.storeOk c u.addr u.bytes.length = true → (w.place (w.local_ u.addr)).mainMemory = true → u.nc = false →
      w.drainUnit c u = w.writeLine c (w.local_ u.addr) u.bytes) ∧
    (w.storeOk c u.addr u.bytes.length = true → (w.place (w.local_ u.addr)).mainMemory = false ∨ u.nc = true →
      w.drainUnit c u = w.coreWriteOut c (w.local_ u.addr) u.bytes))

/-- AMO, LR and SC of a host core, FENCE, FENCE.I and the cache-block operations, and what leaves the buffers by itself (R322, R323, R325,
R326, R327, R330, R331, R333, R341, R346, R355, R357). -/
def Obligations.HostAtomicsAndFences : Prop :=
  (∀ (s : State) (c : CoreId) (op : AmoOp) (a : PAddr) (z : Size) (v k : BitVec 128) (p : Pbmt),
    HartFree s c → amoSize op z = true →
    let w := untrap c (Work.of s)
    let la := w.local_ a.toNat
    let ty := (w.place la).type p
    let i : Instr := .hostAmo c op a z v k p
    let trap (n : Nat) := CoreTo c (fun x => { x with trap := some (n, BitVec.ofNat 64 a.toNat), resv := none, lrHold := false }) s
    (a.toNat % z.bytes ≠ 0 → Gives i s (trap 6)) ∧
    (a.toNat % z.bytes = 0 → ty = .io ∨ (w.place la).isMmio = true ∨ w.acc (.core c) a.toNat z.bytes true ≠ .ok →
      Gives i s (trap 7)) ∧
    let waits := ty = .main ∧ w.lineHeld c la z.bytes true = true ∨ w.exchangingAt la = true
    (a.toNat % z.bytes = 0 → (w.place la).isMmio = false → w.acc (.core c) a.toNat z.bytes true = .ok → ty ≠ .io → waits → Runs i s w) ∧
    (a.toNat % z.bytes = 0 → (w.place la).isMmio = false → w.acc (.core c) a.toNat z.bytes true = .ok → ty ≠ .io → ¬ waits →
      let d := (w.drainStores c).drainWc c
      let main (u : Work) : Prop :=
        (u.cachedPoison c la z.bytes = none →
          let old := u.cached c la z.bytes
          Runs i s ((u.writeLine c la (leBytes z.bytes (amoValue op z.bytes (leNat old) v.toNat k.toNat))).hostRetBytes c old)) ∧
        (∀ b, u.cachedPoison c la z.bytes = some b → Runs i s (u.hostTrap c 19 (a.toNat + (b - la))))
      (ty = .main → d.ownsLine c (la / 128) = true → main (d.touch c (la / 128))) ∧
      (ty = .main → d.ownsLine c (la / 128) = false → main (((d.l2Miss c (la / 128)).fillUnique c (la / 128)).touch c (la / 128))) ∧
      (ty = .uncached →
        (d.vpoison a.toNat z.bytes = none →
          let old := d.vread a.toNat z.bytes
          Runs i s ((d.coreWriteOut c la (leBytes z.bytes (amoValue op z.bytes (leNat old) v.toNat k.toNat))).hostRetBytes c old)) ∧
        (∀ b, d.vpoison a.toNat z.bytes = some b → Runs i s (d.hostTrap c 19 (a.toNat + (b - la))))))) ∧
  (∀ (s : State) (c : CoreId) (a : PAddr) (z : Size) (p : Pbmt), HartFree s c → z = .b4 ∨ z = .b8 →
    let w := untrap c (Work.of s)
    let la := w.local_ a.toNat
    let i : Instr := .hostLr c a z p
    (a.toNat % z.bytes = 0 → (w.place la).type p = .main → w.acc (.core c) a.toNat z.bytes false = .ok →
      let u := (w.drainWc c).bring c la z.bytes
      (w.lineHeld c la z.bytes false = true → Runs i s w) ∧
      (w.lineHeld c la z.bytes false = false → u.cachedPoison c la z.bytes = none →
        Runs i s ((u.hostRetBytes c (overlay (u.core c).storeBuf la (u.cached c la z.bytes))).modCore c (fun x =>
          { x with resv := some (la / 128), lrHold := true }))) ∧
      (w.lineHeld c la z.bytes false = false → ∀ b, u.cachedPoison c la z.bytes = some b →
        Runs i s (u.hostTrap c 19 (a.toNat + (b - la))))) ∧
    (a.toNat % z.bytes = 0 → (w.place la).type p ≠ .main ∨ w.acc (.core c) a.toNat z.bytes false ≠ .ok → Runs i s (w.denyLoad c a.toNat)) ∧
    (a.toNat % z.bytes ≠ 0 → Runs i s (w.hostTrap c 4 a.toNat))) ∧
  (∀ (s : State) (c : CoreId) (a : PAddr) (z : Size) (v : W64) (p : Pbmt), HartFree s c → z = .b4 ∨ z = .b8 →
    let w := untrap c (Work.of s)
    let la := w.local_ a.toNat
    let i : Instr := .hostSc c a z v p
    let d := (w.drainStores c).drainWc c
    let ends (n : Nat) (w : Work) : Work := (w.modCore c (fun x =>
      { x with resv := none, lrHold := false, rd := BitVec.ofNat 128 n, trap := none })).pumpAll
    let waits := (coreOf s c).resv = some (la / 128) ∧ w.lineHeld c la z.bytes true = true
    (a.toNat % z.bytes = 0 → (w.place la).type p = .main → w.acc (.core c) a.toNat z.bytes true = .ok →
      (waits → Runs i s w) ∧
      (¬ waits → (d.core c).resv = some (la / 128) → Runs i s (ends 0 (d.writeLine c la (leBytes z.bytes v.toNat)))) ∧
      (¬ waits → (d.core c).resv ≠ some (la / 128) → Runs i s (ends 1 d))) ∧
    (a.toNat % z.bytes = 0 → (w.place la).type p ≠ .main ∨ w.acc (.core c) a.toNat z.bytes true ≠ .ok → Runs i s (w.denyStore c a.toNat)) ∧
    (a.toNat % z.bytes ≠ 0 → Runs i s (w.hostTrap c 6 a.toNat))) ∧
  (∀ (s : State) (c : CoreId) (x y : FenceSet), HartFree s c →
    let w := untrap c (Work.of s)
    let none_ := y.r = false ∧ y.w = false ∧ y.i = false ∧ y.o = false
    (x.w = true → ¬ none_ → Runs (.hostFence c x y) s ((w.drainStores c).drainWc c)) ∧
    (x.w = false ∨ none_ → Runs (.hostFence c x y) s w) ∧
    Runs (.fenceI c) s ((w.drainStores c).modCore c (fun x => { x with
      fetched := []
      lines := SMap.mapVal x.lines (fun _ e => { e with l1i := none }) }))) ∧
  (∀ (s : State) (c : CoreId) (a : PAddr) (p : Pbmt), HartFree s c →
    let w := untrap c (Work.of s)
    let b := a.toNat / 128 * 128
    let la := w.local_ b
    let pl := w.place la
    let d := w.each (linesOf la 128) (fun w l => w.drainWcLine c l)
    (pl.type p = .io ∨ w.acc (.core c) b 128 true ≠ .ok → Runs (.cboZero c a p) s (w.denyStore c b)) ∧
    (∀ q o, pl = .mmio q o → pl.type p ≠ .io → w.acc (.core c) b 128 true = .ok → Runs (.cboZero c a p) s
      (((w.drainStores c).post la (List.replicate 128 0) (some (.core c))).programHdm q o)) ∧
    (pl.type p ≠ .io → pl.isMmio = false → w.acc (.core c) b 128 true = .ok →
      Runs (.cboZero c a p) s (d.modCore c (fun x => { x with
        storeBuf := x.storeBuf ++ [{ addr := la, bytes := List.replicate 128 0, nc := decide (pl.type p = .uncached) }] }))) ∧
    (pl.type p ≠ .io → pl.isMmio = false → w.acc (.core c) b 128 true = .ok → (coreOf s c).wc = [] →
      Gives (.cboZero c a p) s (CoreTo c (fun x => { x with
        trap := none
        storeBuf := x.storeBuf ++ [{ addr := la, bytes := List.replicate 128 0, nc := decide (pl.type p = .uncached) }] }) s)) ∧
    (∀ i f, (i = .cboClean c a p ∧ f = Work.cleanLine) ∨ (i = .cboFlush c a p ∧ f = Work.flushLine) ∨
        (i = .cboInval c a p ∧ f = Work.flushLine) →
      (w.acc (.core c) la 128 false ≠ .ok → Runs i s (w.denyStore c b)) ∧
      let held := w.heldBy (some c.val) (la / 128) (la / 128 + 1)
      (w.acc (.core c) la 128 false = .ok → held = true → Runs i s w) ∧
      (w.acc (.core c) la 128 false = .ok → held = false →
        let d := (w.drainStores c).drainWcLine c (la / 128)
        (pl.mainMemory = true → p ≠ .io → Runs i s (f d (la / 128))) ∧
        (pl.mainMemory = false ∨ p = .io → Runs i s d)))) ∧
  (∀ (s : State) (c : CoreId) (l : BitVec 49),
    Runs (.lrHoldExpire c) s ((Work.of s).modCore c (fun x => { x with lrHold := false })).pumpAll ∧
    ((∀ e ∈ s.chip.tiles, e.2.mover0.run = none ∧ e.2.mover1.run = none) → (∀ e ∈ s.chip.sqs, ∀ k ∈ e.2.cmds, k.phase ≠ .started) →
      Gives (.lrHoldExpire c) s (CoreTo c (fun x => { x with lrHold := false }) s)) ∧
    (∀ e, (coreOf s c).wc.find? (fun e => e.line = l.toNat) = some e →
      Runs (.wcEntryTimeout c l) s ((Work.of s).drainWcEntry c e)) ∧
    ((∀ e ∈ (coreOf s c).wc, e.line ≠ l.toNat) → Becomes (.wcEntryTimeout c l) s s.chip)) ∧
  (∀ (s : State) (c : CoreId),
    let w := Work.of s
    (∀ e rest, (coreOf s c).wc = e :: rest → w.storeOk c (e.line * 128) 128 = false →
      Runs (.storeDropped c true) s ((w.modCore c (fun x => { x with wc := rest })).dropStore c (e.line * 128))) ∧
    (∀ u rest, (coreOf s c).storeBuf = u :: rest → w.storeOk c u.addr u.bytes.length = false →
      Runs (.storeDropped c false) s ((w.modCore c (fun x => { x with storeBuf := rest })).dropStore c u.addr)) ∧
    (∀ u rest, (coreOf s c).storeBuf = u :: rest → w.storeOk c u.addr u.bytes.length = true →
      Becomes (.storeDropped c false) s s.chip)) ∧
  (∀ (s : State) (b : Fin 6) (l : BitVec 49), ∃ t, exec (.readaheadExpire b l) s = .next t ∧ SameMem s t ∧
    t.chip = { s.chip with readAhead := t.chip.readAhead } ∧
    ∀ k, SMap.look t.chip.readAhead k = (SMap.look s.chip.readAhead k).map (fun x =>
      if k = b.val then x.filter (fun r => r.line ≠ l.toNat) else x))


/-! ## Root ports, translations, wires -/

/-- Inbound requests and MSIs (R70, R336, R463, R465, R468, R471, R472): what a port that is not up does; where a piece goes by its physical
address, with the record of a refusal; each piece of a write or read, and an atomic, that is performed, forwarded or refused, reads through the port's read-ahead buffer; an
MSI.

Root ports (R333, R473, R480, R482, R486): a completion, or its time limit, ends the request with its tag, and
engines that waited for a full port go on (R465); link down, retrain and release, with PERST and the reference clock (R591); the OPs of HIO_PORT_CTRL that have no effect. INTx wires (R464), an Ethernet link that goes down, and the
invalidation of translations with IOFENCE.C (R470). -/
def Obligations.InboundRequestsAndPorts : Prop :=
  ((∀ (s : State) (p : PortId) (r : PcieRequest) (q : W16) (a : W64) (d : W32), r.wellFormed = true →
     ((Work.of s).port p).st ≠ .up →
     Becomes (.pcieInboundRequest p r) s s.chip ∧ Becomes (.inboundMsi p q a d) s s.chip) ∧
   (∀ (w : Work) (p a n : Nat) (wr viaMsi : Bool),
     let o := w.portOwner p
     let go := w.inboundPlace p a n wr viaMsi
     let gone := (w.recAddr 9 p o a 0, Inbound.refused)
     let denied := (w.recOwner 9 p o a 0, Inbound.refused)
     (∀ q k, w.place a = .mmio q k →
       (k < 0x400_0000 ∨ w.portOwner q ≠ o → go = denied) ∧ (0x400_0000 ≤ k → w.portOwner q = o → go = (w, .peer q a))) ∧
     ((∃ q k, w.place a = .doorbell q k) ∨ (∃ m k, w.place a = .glob m k) ∨ w.place a = .vacant → go = gone) ∧
     (∀ k, w.place a = .control k →
       (imsicFile k = none ∨ viaMsi = false ∨ wr = false → go = gone) ∧
       (∀ f, imsicFile k = some f → viaMsi = true → wr = true → go = (w, .msi f))) ∧
     ((∃ h k, w.place a = .lpd h k) ∨ (∃ k, w.place a = .hbm k) ∨ (∃ q, w.place a = .cxl q) ∨ (∃ y k, w.place a = .scratch y k) ∨
         (∃ t k, w.place a = .tile t k) →
       (w.acc (.inbound o) a n wr = .ok → go = (w, .at_ (w.local_ a))) ∧
       (w.acc (.inbound o) a n wr = .denied → go = denied) ∧ (w.acc (.inbound o) a n wr = .notMapped → go = gone))) ∧
   (∀ (s : State) (p : PortId) (r : PcieRequest), r.wellFormed = true → ((Work.of s).port p).st = .up →
     let w := Work.of s
     let i : Instr := .pcieInboundRequest p r
     let a := r.addr.toNat
     (r.translated = true → w.atsEnabled r.requester.toNat = false → ∀ n wr, w.inboundPiece p r a n wr = (w, .refused)) ∧
     (∀ bs, r.kind = .write bs →
       let put (u : Work) (x : Nat × Nat) : Work :=
         let part := (bs.drop (x.1 - a)).take x.2
         match u.inboundPiece p r x.1 x.2 true with
         | (y, .at_ b) => y.pwrite b part true (y.portOwner p)
         | (y, .peer q b) => y.modPort q (fun z => { z with posted := z.posted ++ [(b, part, none)] })
         | (y, .msi f) =>
           if (y.portOwner p).isSome = true ∧ y.coreOwner (imsicHart f) = y.portOwner p ∧ x.1 % 4096 = 0 ∧ part.length = 4 then
             y.imsicSet f (leNat part)
           else y.record { cls := 0x0801, kind := 9, id := p.val, pound := optPound (y.portOwner p), action := 6, addr := x.1
                           d0 := leNat part, d1 := r.requester.toNat }
         | (y, .refused) => y.modPort p (fun z => { z with reply := some (.ur, [], false) })
       Runs i s ((pieces a bs.length).foldl put (w.modPort p (fun y => { y with reply := none })))) ∧
     (∀ n, r.kind = .read n →
       let get (g : Work × Option (List Byte × Bool) × Bool) (x : Nat × Nat) : Work × Option (List Byte × Bool) × Bool :=
         match g with
         | (u, none, far) => (u, none, far)
         | (u, some (bs, bad), far) =>
           match u.inboundPiece p r x.1 x.2 false with
           | (y, .at_ b) =>
             let z := y.bufferRead p (.inbound (y.portOwner p)) b x.2
             (z.1, some (bs ++ z.2.1, bad || z.2.2.isSome), far)
           | (y, .peer q b) => (y.modPort q (fun z => { z with forwarded := z.forwarded ++ [b] }), some (bs, bad), true)
           | (y, _) => (y, none, far)
       let g := (pieces a n.toNat).foldl get (w, some ([], false), false)
       (g.2.1 = none → Runs i s (g.1.modPort p (fun y => { y with reply := some (.ur, [], false) }))) ∧
       (∀ bs bad, g.2.1 = some (bs, bad) → g.2.2 = false → Runs i s (g.1.modPort p (fun y => { y with reply := some (.sc, bs, bad) }))) ∧
       (∀ bs bad, g.2.1 = some (bs, bad) → g.2.2 = true → Runs i s (g.1.modPort p (fun y => { y with reply := none })))) ∧
     (∀ op z v k, r.kind = .atomic op z v k →
       let ur (u : Work) := u.modPort p (fun y => { y with reply := some (.ur, [], false) })
       (a % z.bytes ≠ 0 → Runs i s (ur w)) ∧
       (a % z.bytes = 0 → ∀ u b, w.inboundPiece p r a z.bytes true = (u, .at_ b) →
         let old := u.vread b z.bytes
         ((u.place b).mainMemory = false → Runs i s (ur u)) ∧
         ((u.place b).mainMemory = true → u.vpoison b z.bytes = none →
           Runs i s ((u.pwrite b (leBytes z.bytes (amoValue op z.bytes (leNat old) v.toNat k.toNat)) true (u.portOwner p)).modPort p
             (fun y => { y with reply := some (.sc, old, false) }))) ∧
         ((u.place b).mainMemory = true → (u.vpoison b z.bytes).isSome = true →
           Runs i s (u.modPort p (fun y => { y with reply := some (.sc, old, true) })))) ∧
       (a % z.bytes = 0 → ∀ u x, w.inboundPiece p r a z.bytes true = (u, x) → (∀ b, x ≠ .at_ b) → Runs i s (ur u)))) ∧
   (∀ (s : State) (p : PortId) (q : W16) (a : W64) (d : W32), ((Work.of s).port p).st = .up →
     let o := (Work.of s).portOwner p
     let lost (u : Work) (x : Nat) : Work :=
       u.record { cls := 0x0801, kind := 9, id := p.val, pound := optPound o, action := 6, addr := x, d0 := d.toNat, d1 := q.toNat }
     (∀ u, (Work.of s).translateMsi ownCache q.toNat none a.toNat true = (u, none) →
       Runs (.inboundMsi p q a d) s (lost u a.toNat)) ∧
     (∀ u b via, (Work.of s).translateMsi ownCache q.toNat none a.toNat true = (u, some (b, via)) →
       (∀ k f, u.place b = .control k → imsicFile k = some f →
         (via = true → b % 0x1000 = 0 → o.isSome = true → u.coreOwner (imsicHart f) = o → Runs (.inboundMsi p q a d) s (u.imsicSet f d.toNat)) ∧
         (via = false ∨ b % 0x1000 ≠ 0 ∨ o = none ∨ u.coreOwner (imsicHart f) ≠ o → Runs (.inboundMsi p q a d) s (lost u b))) ∧
       (∀ m k, u.place b = .glob m k → Runs (.inboundMsi p q a d) s (lost u b))))) ∧
  ((∀ (s : State) (p : PortId) (t : W16) (st : PcieStatus) (bad : Bool) (d : List Byte),
     let w := Work.of s
     ((w.port p).reqs.find? (fun r => r.tag % 65536 = t.toNat) = none →
       Becomes (.pcieCompletion p t st bad d) s s.chip ∧ Becomes (.pcieCompletionTimeout p t) s s.chip) ∧
     (∀ r, (w.port p).reqs.find? (fun r => r.tag % 65536 = t.toNat) = some r →
       let v := w.modPort p (fun x => { x with reqs := x.reqs.filter (fun y => y.tag ≠ r.tag) })
       let ends (u : Work) : Work := if (w.port p).full = true then u.pumpAll else u
       let good := st = .sc ∧ bad = false ∧ d.length = r.len
       (∀ c, r.core = some c →
         (good → Runs (.pcieCompletion p t st bad d) s (ends (v.modCore c (fun x => { x with rd := BitVec.ofNat 128 (leNat d), trap := none })))) ∧
         (¬ good → Runs (.pcieCompletion p t st bad d) s (ends (v.hostTrap c 19 r.va))) ∧
         Runs (.pcieCompletionTimeout p t) s (ends (v.hostTrap c 19 r.va))) ∧
       (∀ q n k, r.core = none → r.who = some (.command q n) → v.started? q n 4 = some k →
         let lost : Work := (v.complete q k 7 0 (BitVec.ofNat 64 r.va)).pump (.command q n)
         (good → Runs (.pcieCompletion p t st bad d) s (ends ((v.semSeen q k.seq (BitVec.ofNat 64 (leNat d))).pump (.command q n)))) ∧
         (¬ good → Runs (.pcieCompletion p t st bad d) s (ends lost)) ∧ Runs (.pcieCompletionTimeout p t) s (ends lost)) ∧
       (∀ who, r.core = none → r.who = some who → (∀ q n, who = .command q n → v.started? q n 4 = none) →
         let lost : Work := (v.failXfer who 7 r.va).pump who
         (r.dst = none → good → Runs (.pcieCompletion p t st bad d) s (ends (v.pump who))) ∧
         (∀ x u, r.dst = some x → good →
           (v.engWrite (v.eng who) x d false r.publish r.va = (u, none) → Runs (.pcieCompletion p t st bad d) s (ends (u.pump who))) ∧
           (∀ e, v.engWrite (v.eng who) x d false r.publish r.va = (u, some e) →
             Runs (.pcieCompletion p t st bad d) s (ends ((u.failXfer who e 0).pump who)))) ∧
         (¬ good → Runs (.pcieCompletion p t st bad d) s (ends lost)) ∧ Runs (.pcieCompletionTimeout p t) s (ends lost)) ∧
       (r.core = none → r.who = none → Runs (.pcieCompletion p t st bad d) s (ends v) ∧ Runs (.pcieCompletionTimeout p t) s (ends v)))) ∧
   (∀ (s : State) (p : PortId),
     let w := Work.of s
     let x := w.port p
     (x.st ≠ .up → x.st ≠ .retraining → Becomes (.pcieLinkDown p) s s.chip) ∧
     (x.st = .up ∨ x.st = .retraining → x.reqs = [] → x.posted = [] →
       Runs (.pcieLinkDown p) s
         (let v := (w.losePosted p).modPort p (fun x => { x with
           st := .contained, speed := 0, width := 0, cxl := false, reqs := [], perstLow := true, refclk := false
           dropped := min (x.dropped + 0) 0xFFFF_FFFF, linkDowns := min (x.linkDowns + 1) 0xFFFF })
          v.record { cls := 0x0802, kind := 9, id := p, pound := optPound (v.portOwner p), action := 6, count := 0 })) ∧
     (x.st = .up ∨ x.st = .retraining →
       let u := (w.losePosted p).modPort p (fun y => { y with
         st := .contained, speed := 0, width := 0, cxl := false, reqs := [], perstLow := true, refclk := false
         dropped := min (y.dropped + x.posted.length) 0xFFFF_FFFF, linkDowns := min (y.linkDowns + 1) 0xFFFF })
       Runs (.pcieLinkDown p) s
         (let v := (u.each x.posted (fun w e => w.postedLost e.2.2 e.1)).each x.reqs (fun w r => w.endRequest r none)
          let r := v.record { cls := 0x0802, kind := 9, id := p, pound := optPound (v.portOwner p), action := 6, count := x.posted.length }
          if 768 ≤ x.reqs.length then r.pumpAll else r)) ∧
     (x.st = .up → Runs (.pcieLinkRetrain p) s (w.modPort p (fun x => { x with st := .retraining, retrains := min (x.retrains + 1) 0xFFFF }))) ∧
     (x.st ≠ .up → Becomes (.pcieLinkRetrain p) s s.chip)) ∧
   (∀ (w : Work) (a : Nat) (c : Nat), w.postedLost (some (.core c)) a = w.dropStore c a ∧
     (∀ who, (∀ k, who ≠ .core k) → w.postedLost (some who) a = w.failXfer who 4 a) ∧ w.postedLost none a = w) ∧
   (∀ (s : State) (c : CoreId) (p : PortId), RegOpen s c (0x600_1010 + p.val * 0x100) ((Work.of s).mayCtrlPort c p) →
     let w := Work.of s
     let st := (w.port p).st
     let refused (op : Nat) : Work :=
       w.record { cls := 0x0803, kind := 9, id := p, pound := optPound (w.portOwner p), action := 6, d0 := op, d1 := st.code }
     (st = .up → Runs (.portRetrain c p) s (untrap c (w.modPort p (fun x =>
       { x with st := .retraining, retrains := min (x.retrains + 1) 0xFFFF })))) ∧
     (st ≠ .up → Runs (.portRetrain c p) s (untrap c (refused 1))) ∧
     (st = .contained → Runs (.portRelease c p) s (untrap c (w.modPort p (fun x => { x with st := .training, perstLow := false, refclk := true })))) ∧
     (st ≠ .contained → Runs (.portRelease c p) s (untrap c (refused 2)))) ∧
   (∀ (s : State) (p : PortId) (k : Fin 4) (on : Bool),
     (((Work.of s).port p).st = .up → Runs (.pcieIntx p k on) s ((Work.of s).aplicWire (1 + 4 * p.val + k.val) on)) ∧
     (((Work.of s).port p).st ≠ .up → Becomes (.pcieIntx p k on) s s.chip)) ∧
   (∀ (s : State) (e : EthId),
     (((Work.of s).eth e).up = true → Runs (.ethLinkDown e) s
       (((((Work.of s).modEth e (fun x => { x with up := false })).aplicRaise (17 + e)).modPtp e (fun x => { x with valid := false })).expireSource)) ∧
     (((Work.of s).eth e).up = false → Becomes (.ethLinkDown e) s s.chip)) ∧
   (∀ (s : State) (g p : Option (BitVec 20)) (a : Option (BitVec 52)),
     let keeps (hit : Xlat → Prop) (u : Work) : Prop := ∀ c x,
       (∃ l, SMap.look u.chip.iommu.cache c = some l ∧ x ∈ l) ↔ (∃ l, SMap.look s.chip.iommu.cache c = some l ∧ x ∈ l ∧ ¬ hit x)
     let drop (hit : Xlat → Bool) : Work := { Work.of s with chip.iommu.cache :=
       (SMap.mapVal s.chip.iommu.cache (fun _ l => l.filter (fun e => !hit e))).filter (fun e => e.2 ≠ []) }
     Runs (.iotinvalVma g p a) s
       (drop (fun x => covers g x.gscid && covers p x.pscid && covers a (x.vpage % 2 ^ 52))).iommuCommand ∧
     Runs (.iotinvalGvma g a) s (drop (fun x => covers g x.gscid)).iommuCommand ∧
     ((s.chip.iommu.cache.map (·.1)).Nodup →
       (∃ u, keeps (fun x => (∀ b, g = some b → x.gscid = b.toNat) ∧ (∀ b, p = some b → x.pscid = b.toNat) ∧
           (∀ b, a = some b → x.vpage % 2 ^ 52 = b.toNat)) u ∧
         { u.chip with iommu := { u.chip.iommu with cache := s.chip.iommu.cache } } = s.chip ∧ u.mem = s.mem ∧ u.wr = [] ∧
         Runs (.iotinvalVma g p a) s u.iommuCommand) ∧
       (∃ u, keeps (fun x => ∀ b, g = some b → x.gscid = b.toNat) u ∧
         { u.chip with iommu := { u.chip.iommu with cache := s.chip.iommu.cache } } = s.chip ∧ u.mem = s.mem ∧ u.wr = [] ∧
         Runs (.iotinvalGvma g a) s u.iommuCommand)) ∧
     ((Work.of s).engineBusy = true → Becomes .iofenceC s s.chip) ∧
     ((Work.of s).engineBusy = false →
       Runs .iofenceC s { Work.of s with chip.iommu.fences := s.chip.iommu.fences + 1 }.iommuCommand)))


/-! ## RoCE -/

/-- The doorbell of a queue pair and HIO_ETH_QPT (R475, R479, R487): an engine reads the context at the first doorbell after READY; the
indices; an index more than one ring ahead, which sets ERROR; FLUSH; a queue pair in RESET; the table registers.

Send entries (R476, R478): nothing is taken in RESET, with an empty ring or without a free completion slot; an entry of another operation
stays; one that keeps its rules is in flight after it is sent, or completes at once on a raw queue pair; one that breaks a rule
or whose ring cannot be read sets ERROR; in ERROR an entry completes as flushed. Every completion has the next CSEQ and its slot. -/
def Obligations.RoceSends : Prop :=
  ((∀ (s : State) (c : CoreId) (e : EthId) (q : W16) (v : W64),
     RegOpen s c (0x610_0000 + e.val * 0x8_0000 + q.toNat * 8)
       (((Work.of s).ethOwner e).isSome && (Work.of s).coreOwner c = (Work.of s).ethOwner e) →
     let w := (Work.of s).qpLoad e q.toNat
     let x := w.qp e q.toNat
     let sp := v.toNat % 2 ^ 16
     let rp := v.toNat / 2 ^ 16 % 2 ^ 16
     let cc := v.toNat / 2 ^ 32 % 2 ^ 16
     let far := x.sqSlots < (sp + 65536 - x.sCons) % 65536 ∨ x.rqSlots < (rp + 65536 - x.rCons) % 65536 ∨
       x.cqSlots < (x.cseq.toNat % 65536 + 65536 - cc) % 65536
     (x.st = 0 → Runs (.roceDoorbell c e q v) s (untrap c w) ∧ Runs (.roceFlush c e q v) s (untrap c w)) ∧
     (x.st ≠ 0 → Runs (.roceFlush c e q v) s (untrap c (w.qpFlush e q.toNat))) ∧
     (x.st ≠ 0 → v.toNat < 2 ^ 63 → x.st = 1 → far → Runs (.roceDoorbell c e q v) s (untrap c (w.qpError e q.toNat))) ∧
     (x.st ≠ 0 → v.toNat < 2 ^ 63 → x.st ≠ 1 ∨ ¬ far → Runs (.roceDoorbell c e q v) s (untrap c
       (w.modQp e q.toNat (fun x => { x with sProd := sp, rProd := rp, cCons := cc }))))) ∧
   (∀ (w : Work) (e q : Nat),
     let x := w.eth e
     let slot := tableAt x.qptBase x.qptLog2 q 64
     let fresh (b : List Byte) : Work := w.modQp e q (fun _ => { Qp.zero with ctx := b, loaded := true, st := 1, psn := leAt b 0x0C 4 })
     ((w.qp e q).st ≠ 0 ∨ w.tableRead e slot 64 = none → w.qpLoad e q = w) ∧
     ((w.qp e q).st = 0 → ∀ b, w.tableRead e slot 64 = some b →
       (leAt b 0 1 ≠ 1 → w.qpLoad e q = w) ∧ (leAt b 0 1 = 1 → qpCtxOk b = true → w.qpLoad e q = fresh b) ∧
       (leAt b 0 1 = 1 → qpCtxOk b = false → w.qpLoad e q = (fresh b).qpState e q 2))) ∧
   (∀ (s : State) (c : CoreId) (e : EthId) (high : Bool) (v : W64),
     RegOpen s c (0x600_2010 + e.val * 0x100) (((Work.of s).ethOwner e).isSome && (Work.of s).coreOwner c = (Work.of s).ethOwner e) →
     let used := ∃ x ∈ ((Work.of s).eth e).qps, x.2.st ≠ 0
     (used → Runs (.hioEthQptWrite c e .b8 high v) s (untrap c ((Work.of s).recReg c (ctlBase + 0x600_2010 + e.val * 0x100) true 8 v.toNat))) ∧
     (¬ used → Runs (.hioEthQptWrite c e .b8 high v) s (untrap c ((Work.of s).modEth e (fun x => { x with
       qptBase := v.extractLsb' 12 44
       qptLog2 := v.extractLsb' 0 5 })))))) ∧
  ((∀ (s : State) (e : EthId) (q : W16) (i : Instr) (op : Nat),
     (i, op) ∈ [(.roceSend e q, 0), (.roceSendImm e q, 1), (.roceWrite e q, 2), (.roceWriteImm e q, 3), (.roceRead e q, 4),
       (.roceFetchAdd e q, 5), (.roceCmpSwap e q, 6), (.roceRawFrame e q, 0x10)] →
     let w := Work.of s
     let n := q.toNat
     let x := w.qp e n
     let slot := x.at_ 0x20 8 + x.sCons % x.sqSlots * 64
     let next (u : Work) : Work := u.modQp e n (fun x => { x with sCons := (x.sCons + 1) % 65536 })
     (x.st = 0 ∨ x.sProd = x.sCons ∨ x.slotFree = false → Becomes i s s.chip) ∧
     (x.st ≠ 0 → x.sProd ≠ x.sCons → x.slotFree = true →
       (∀ u k a, w.qpRead e x.pid slot 64 = (u, .bad k a) → Runs i s
         (((next u).qpEntry e n 0 op (if x.st = 2 then 5 else 1) 0 0).qpError e n)) ∧
       (∀ u b, w.qpRead e x.pid slot 64 = (u, .ok b) →
         let fenced := leAt b 1 1 / 2 % 2 = 1 ∧ ∃ y ∈ x.inflight, 4 ≤ leAt y 0 1 ∧ leAt y 0 1 ≤ 6
         let broken := seCheck x b
         let known := leAt b 0 1 ≤ 6 ∨ leAt b 0 1 = 0x10
         let mine := leAt b 0 1 = op ∨ ¬ known
         (¬ mine → Runs i s u) ∧
         (mine → fenced → Runs i s u) ∧
         (mine → ¬ fenced → x.st = 2 → Runs i s ((next u).qpDone e n b 5)) ∧
         (mine → ¬ fenced → x.st ≠ 2 → broken ≠ 0 → Runs i s (((next u).qpDone e n b broken).qpError e n)) ∧
         (mine → ¬ fenced → x.st ≠ 2 → broken = 0 →
           (∀ v k, (next u).seSend e n b = (v, some k) → Runs i s ((v.qpDone e n b k).qpError e n)) ∧
           (∀ v, (next u).seSend e n b = (v, none) →
             (x.kind = 2 → Runs i s (v.qpDone e n b 0)) ∧
             (x.kind ≠ 2 → Runs i s (v.modQp e n (fun y => { y with
               inflight := y.inflight ++ [b]
               psn := (y.psn + max 1 ((leAt b 0x10 4 + x.pmtu - 1) / x.pmtu)) % 2 ^ 24 })))))))) ∧
   (∀ (x : Qp) (b : List Byte),
     (2 ^ 31 < leAt b 0x10 4 → seCheck x b = 6) ∧
     (leAt b 0x10 4 ≤ 2 ^ 31 → (seCheck x b = 0 ∨ seCheck x b = 1) ∧
       (seCheck x b = 0 ↔ (leAt b 0 1 ≤ 6 ∨ leAt b 0 1 = 0x10) ∧ leAt b 1 1 < 4 ∧ leAt b 2 2 = 0 ∧ leAt b 0x24 4 = 0 ∧
         leAt b 0x38 8 = 0 ∧ (leAt b 0 1 = 0x10 ↔ x.kind = 2)))) ∧
   (∀ (w : Work) (e q : Nat) (b : List Byte), 4 ≤ leAt b 0 1 → leAt b 0 1 ≤ 6 →
     w.seSend e q b = (w.modQp e q (fun x => { x with sent := (leAt b 0 1, b) :: x.sent }), none)) ∧
   (∀ (w : Work) (e q : Nat) (b : List Byte), leAt b 0 1 < 4 →
     let pid := (w.qp e q).pid
     (∀ u d, w.qpRead e pid (leAt b 8 8) (leAt b 0x10 4) = (u, .ok d) →
       w.seSend e q b = (u.modQp e q (fun x => { x with sent := (leAt b 0 1, b ++ d) :: x.sent }), none)) ∧
     (∀ u k a, w.qpRead e pid (leAt b 8 8) (leAt b 0x10 4) = (u, .bad k a) →
       w.seSend e q b = (u, some (if k = 7 then 7 else 1)))) ∧
   (∀ (w : Work) (e q : Nat) (b : List Byte) (k : Nat),
     (k = 0 → leAt b 1 1 % 2 = 0 → w.qpDone e q b k = w) ∧
     (k ≠ 0 → w.qpDone e q b k = w.qpEntry e q (leAt b 4 4) (leAt b 0 1) k 0 (leAt b 0x14 4)) ∧
     (k = 0 → leAt b 1 1 % 2 = 1 → w.qpDone e q b k = w.qpEntry e q (leAt b 4 4) (leAt b 0 1) 0 (leAt b 0x10 4) (leAt b 0x14 4))) ∧
   (∀ (w : Work) (e q wr op st bytes imm : Nat),
     let x := w.qp e q
     let n := x.cseq + 1
     let v := w.modQp e q (fun x => { x with cseq := n })
     let entry := leBytes 4 n.toNat ++ leBytes 4 wr ++ leBytes 1 op ++ leBytes 1 st ++ leBytes 2 0 ++ leBytes 4 bytes ++ leBytes 4 imm ++
       leBytes 4 0 ++ leBytes 8 v.now
     let wrote := v.qpWrite e x.pid (x.at_ 0x38 8 + n.toNat % x.cqSlots * 32) entry
     entry.length = 32 ∧
     (∀ u, wrote = (u, .ok ()) → w.qpEntry e q wr op st bytes imm = u.qpIrq e x) ∧
     (∀ u k a, wrote = (u, .bad k a) → w.qpEntry e q wr op st bytes imm = u.qpState e q 2)) ∧
   (∀ (w : Work) (e : Nat) (x : Qp),
     (x.at_ 0x33 1 = 0xFF → w.qpIrq e x = w) ∧
     (x.at_ 0x33 1 < 96 → w.ethOwner e ≠ none → w.coreOwner (x.at_ 0x33 1) = w.ethOwner e →
       w.qpIrq e x = w.imsicSet (4096 + 16 * x.at_ 0x33 1) (x.at_ 0x34 2))))

/-- Answers to a RoCE engine's requests, its retries and its rate (R474, R478): acknowledgements in order, READ data, NAKs, 7 retries and
then status 0x03 or 0x04 with the queue pair in ERROR, one halving in 50 us and recovery by a sixteenth.

Inbound RDMA requests and messages (R477, R478): the key that a request needs, its answer, and the receive entry, completion or RNR NAK
of a message or an immediate. -/
def Obligations.RoceReceives : Prop :=
  ((∀ (s : State) (e : EthId) (q k : W16) (old : W64),
     let w := Work.of s
     let n := q.toNat
     let x := w.qp e n
     (x.st ≠ 1 ∨ x.inflight = [] ∨ k = 0 → Becomes (.roceAck e q k old) s s.chip) ∧
     Runs (.roceAck e q k old) s (Work.qpAcks (min k.toNat x.inflight.length) w e n old) ∧
     (x.st = 1 → k = 1 → ∀ b rest, x.inflight = b :: rest →
       let v := w.modQp e n (fun x => { x with inflight := rest, retry := 0, rnr := 0, rnrWait := false })
       (leAt b 0 1 < 4 → Runs (.roceAck e q k old) s (v.qpDone e n b 0)) ∧
       (leAt b 0 1 = 4 → Becomes (.roceAck e q k old) s s.chip) ∧
       (4 < leAt b 0 1 →
         (∀ u, v.qpWrite e x.pid (leAt b 8 8) (leBytes 8 old.toNat) = (u, .ok ()) → Runs (.roceAck e q k old) s (u.qpDone e n b 0)) ∧
         (∀ u y a, v.qpWrite e x.pid (leAt b 8 8) (leBytes 8 old.toNat) = (u, .bad y a) →
           Runs (.roceAck e q k old) s ((u.qpDone e n b 1).qpError e n))))) ∧
   (∀ (m : Nat) (w : Work) (e q : Nat) (old : W64),
     Work.qpAcks 0 w e q old = w ∧ ((w.qp e q).st ≠ 1 → Work.qpAcks m w e q old = w) ∧
     ((w.qp e q).st = 1 →
       ((w.qp e q).inflight = [] → Work.qpAcks (m + 1) w e q old = Work.qpAcks m w e q old) ∧
       (∀ b rest, (w.qp e q).inflight = b :: rest →
         let v := w.modQp e q (fun x => { x with inflight := rest, retry := 0, rnr := 0, rnrWait := false })
         (leAt b 0 1 < 4 → Work.qpAcks (m + 1) w e q old = Work.qpAcks m (v.qpDone e q b 0) e q old) ∧
         (leAt b 0 1 = 4 → Work.qpAcks (m + 1) w e q old = Work.qpAcks m w e q old) ∧
         (4 < leAt b 0 1 →
           (∀ u, v.qpWrite e (w.qp e q).pid (leAt b 8 8) (leBytes 8 old.toNat) = (u, .ok ()) →
             Work.qpAcks (m + 1) w e q old = Work.qpAcks m (u.qpDone e q b 0) e q old) ∧
           (∀ u y a, v.qpWrite e (w.qp e q).pid (leAt b 8 8) (leBytes 8 old.toNat) = (u, .bad y a) →
             Work.qpAcks (m + 1) w e q old = Work.qpAcks m ((u.qpDone e q b 1).qpError e q) e q old))))) ∧
   (∀ (s : State) (e : EthId) (q : W16) (d : List Byte),
     let n := q.toNat
     let y := (Work.of s).qp e n
     (y.st ≠ 1 ∨ (∀ b ∈ y.inflight, leAt b 0 1 < 4) → Becomes (.roceReadResponse e q d) s s.chip) ∧
     (∀ a b rest, y.inflight = a ++ b :: rest → (∀ y ∈ a, leAt y 0 1 < 4) → 4 < leAt b 0 1 → Becomes (.roceReadResponse e q d) s s.chip) ∧
     (y.st = 1 → ∀ a0 b0 rest0, y.inflight = a0 ++ b0 :: rest0 → (∀ y ∈ a0, leAt y 0 1 < 4) → leAt b0 0 1 = 4 →
      let w := Work.qpAcks a0.length (Work.of s) e n 0
      let x := w.qp e n
      (x.st ≠ 1 ∨ x.inflight = [] → Runs (.roceReadResponse e q d) s w) ∧
      (x.st = 1 → ∀ b rest, x.inflight = b :: rest →
       let v := w.modQp e n (fun x => { x with inflight := rest, retry := 0, rnr := 0, rnrWait := false })
       (d.length ≠ leAt b 0x10 4 → Runs (.roceReadResponse e q d) s ((v.qpDone e n b 6).qpError e n)) ∧
       (d.length = leAt b 0x10 4 →
         (∀ u, v.qpWrite e x.pid (leAt b 8 8) d = (u, .ok ()) → Runs (.roceReadResponse e q d) s (u.qpDone e n b 0)) ∧
         (∀ u y a, v.qpWrite e x.pid (leAt b 8 8) d = (u, .bad y a) →
           Runs (.roceReadResponse e q d) s ((u.qpDone e n b 1).qpError e n)))))) ∧
   (∀ (s : State) (e : EthId) (q : W16),
     let w := Work.of s
     let n := q.toNat
     let x := w.qp e n
     let fails (k : Nat) : Work := w.qpFail e n k
     (x.st ≠ 1 ∨ x.inflight = [] → Becomes (.roceNak e q .rnr) s s.chip ∧ Becomes (.roceNak e q .remoteAccess) s s.chip ∧
       Becomes (.roceRetryTimeout e q) s s.chip ∧ Becomes (.roceRnrRetry e q) s s.chip) ∧
     (x.st = 1 → x.inflight ≠ [] →
       Runs (.roceNak e q .rnr) s (w.modQp e n (fun x => { x with rnrWait := true })) ∧
       Runs (.roceNak e q .remoteAccess) s (fails 2) ∧
       (7 ≤ x.retry → Runs (.roceRetryTimeout e q) s (fails 3)) ∧
       (x.retry < 7 → Runs (.roceRetryTimeout e q) s ((w.modQp e n (fun x => { x with retry := x.retry + 1 })).qpResend e n)) ∧
       (x.rnrWait = false → Becomes (.roceRnrRetry e q) s s.chip) ∧
       (x.rnrWait = true → 7 ≤ x.rnr → Runs (.roceRnrRetry e q) s (fails 4)) ∧
       (x.rnrWait = true → x.rnr < 7 →
         Runs (.roceRnrRetry e q) s ((w.modQp e n (fun x => { x with rnr := x.rnr + 1, rnrWait := false })).qpResend e n)))) ∧
   (∀ (w : Work) (e q k : Nat) (b : List Byte) (rest : List (List Byte)), (w.qp e q).inflight = b :: rest →
     w.qpFail e q k = ((w.modQp e q (fun x => { x with inflight := rest })).qpDone e q b k).qpError e q) ∧
   (∀ (w : Work) (e q : Nat), w.qpError e q = (w.qp e q).inflight.foldl (fun (w : Work) b => w.qpDone e q b 5)
     ((w.qpState e q 2).modQp e q (fun x => { x with inflight := [], rnrWait := false }))) ∧
   (∀ (w : Work) (e q : Nat), (w.qp e q).inflight = [] →
     w.qpError e q = (w.qpState e q 2).modQp e q (fun x => { x with inflight := [], rnrWait := false })) ∧
   (∀ (s : State) (e : EthId) (q : W16),
     let w := Work.of s
     let n := q.toNat
     let halved : Work := w.modQp e n (fun x => { x with rate := x.rate / 2, lastCnp := some s.chip.refPs })
     ((w.qp e n).lastCnp = none → Runs (.roceCnp e q) s halved) ∧
     (∀ t, (w.qp e n).lastCnp = some t → (t + 50_000_000 ≤ s.chip.refPs → Runs (.roceCnp e q) s halved) ∧
       (s.chip.refPs < t + 50_000_000 → Becomes (.roceCnp e q) s s.chip)) ∧
     Runs (.roceRateRecover e q) s (w.modQp e n (fun x => { x with rate := min (2 ^ 20) (x.rate + 2 ^ 16) })))) ∧
  ((∀ (w : Work) (e key a n k pid : Nat) (b : List Byte),
     w.tableRead e (tableAt (w.eth e).mrtBase (w.eth e).mrtLog2 (key / 256) 32) 32 = some b → k < 3 →
     (w.rkeyPid e key a n k = some pid ↔
       (leAt b 0x14 1).testBit 3 = true ∧ leAt b 0x15 1 = key % 256 ∧ leAt b 0 8 ≤ a ∧ a + n ≤ leAt b 0 8 + leAt b 8 8 ∧
       (leAt b 0x14 1).testBit k = true ∧ pid = leAt b 0x10 4 % 2 ^ 20)) ∧
   (∀ (s : State) (e : EthId) (q : W16) (r : RdmaRequest),
     let w := Work.of s
     let n := q.toNat
     let x := w.qp e n
     let i : Instr := .roceInboundRequest e q r
     let key (k b : Nat) := w.rkeyPid e r.rkey.toNat r.addr.toNat k b
     let answer (u : Work) (c : Nat) (d : List Byte) : Work := u.modQp e n (fun x => { x with answer := c, answerData := d })
     (x.st ≠ 1 ∨ x.kind ≠ 0 → Becomes i s s.chip) ∧
     (x.st = 1 → x.kind = 0 →
       (∀ bs imm, r.kind = .write bs imm →
         (key bs.length 1 = none → Runs i s (answer w 3 [])) ∧
         (∀ pid, key bs.length 1 = some pid →
           (imm ≠ none → x.rProd = x.rCons ∨ x.slotFree = false → Runs i s (answer w 2 [])) ∧
           (imm = none ∨ (x.rProd ≠ x.rCons ∧ x.slotFree = true) →
             (∀ u k a, w.qpWrite e pid r.addr.toNat bs = (u, .bad k a) → Runs i s (answer u 3 [])) ∧
             (∀ u, w.qpWrite e pid r.addr.toNat bs = (u, .ok ()) →
               (imm = none → Runs i s (answer u 1 [])) ∧ (imm ≠ none → Runs i s (u.qpReceive e n false [] bs.length imm)))))) ∧
       (∀ k, r.kind = .read k →
         (key k.toNat 0 = none → Runs i s (answer w 3 [])) ∧
         (∀ pid, key k.toNat 0 = some pid →
           (∀ u bs, w.qpRead e pid r.addr.toNat k.toNat = (u, .ok bs) → Runs i s (answer u 4 bs)) ∧
           (∀ u y a, w.qpRead e pid r.addr.toNat k.toNat = (u, .bad y a) → Runs i s (answer u 3 [])))) ∧
       (∀ k, r.kind = .fetchAdd k ∨ (∃ c, r.kind = .cmpSwap c k) →
         (key 8 2 = none → Runs i s (answer w 3 [])) ∧
         (∀ pid, key 8 2 = some pid →
           let read := w.vaRead ownCache (roceDev e) (some pid) (.engine (w.ethOwner e)) 0xA e r.addr.toNat 8
           let puts (u : Work) (new : Nat) (old : List Byte) : Prop :=
             (∀ v, u.qpWrite e pid r.addr.toNat (leBytes 8 new) = (v, .ok ()) → Runs i s (answer v 1 old)) ∧
             (∀ v y a, u.qpWrite e pid r.addr.toNat (leBytes 8 new) = (v, .bad y a) → Runs i s (answer v 3 []))
           (r.addr.toNat % 8 ≠ 0 → Runs i s (answer w 3 [])) ∧
           (r.addr.toNat % 8 = 0 → ∀ u y a, read = (u, .bad y a) → Runs i s (answer u 3 [])) ∧
           (r.addr.toNat % 8 = 0 → ∀ u old, read = (u, .ok old) →
             (r.kind = .fetchAdd k → puts u ((leNat old + k.toNat) % 2 ^ 64) old) ∧
             (∀ c, r.kind = .cmpSwap c k →
               (leNat old ≠ c.toNat → Runs i s (answer u 1 old)) ∧ (leNat old = c.toNat → puts u k.toNat old))))))) ∧
   (∀ (s : State) (e : EthId) (q : W16) (m : RdmaMessage),
     let w := Work.of s
     let n := q.toNat
     let x := w.qp e n
     let i : Instr := .roceInboundSend e q m
     let op := if m.imm.isSome then 0x81 else 0x80
     let im := match m.imm with | some b => b.toNat | none => 0
     let answer (u : Work) (c : Nat) : Work := u.modQp e n (fun x => { x with answer := c, answerData := [] })
     let slot := x.at_ 0x28 8 + x.rCons % x.rqSlots * 16
     (x.st ≠ 1 → Becomes i s s.chip) ∧
     (x.st = 1 → x.rProd = x.rCons ∨ x.slotFree = false →
       (x.kind ≠ 2 → Runs i s (answer w 2)) ∧ (x.kind = 2 → Becomes i s s.chip)) ∧
     (x.st = 1 → x.rProd ≠ x.rCons → x.slotFree = true →
       (∀ u k a, w.qpRead e x.pid slot 16 = (u, .bad k a) → Runs i s ((answer u 3).qpError e n)) ∧
       (∀ u b, w.qpRead e x.pid slot 16 = (u, .ok b) →
         let v := u.modQp e n (fun x => { x with rCons := (x.rCons + 1) % 65536 })
         (leAt b 8 4 < m.data.length → Runs i s (((answer v 3).qpEntry e n (leAt b 12 4) op 6 0 im).qpError e n)) ∧
         (m.data.length ≤ leAt b 8 4 →
           (∀ y, v.qpWrite e x.pid (leAt b 0 8) m.data = (y, .ok ()) →
             Runs i s ((answer y 1).qpEntry e n (leAt b 12 4) op 0 m.data.length im)) ∧
           (∀ y k a, v.qpWrite e x.pid (leAt b 0 8) m.data = (y, .bad k a) →
             Runs i s (((answer y 3).qpEntry e n (leAt b 12 4) op 1 0 im).qpError e n)))))))


/-! ## Nyulle links and the fabric -/

/-- Link-up (R430, R431): training, IDENTITY at its times, what a partner's IDENTITY and SELECT do, and the link that comes into service.

Time flits (R105, R106, R423): what a link sends, what one received measures, and the sample of Lock Time it gives. -/
def Obligations.NyulleLinkUpAndTime : Prop :=
  ((∀ (s : State) (l : NylId),
     let w := Work.of s
     let x := w.link l
     (x.st = .training → Runs (.nylTrainDone l) s ((w.modLink l (fun x => { x with st := .discovery })).sendNylIdentity l)) ∧
     (x.st ≠ .training → Becomes (.nylTrainDone l) s s.chip) ∧
     ((x.st = .discovery ∧ x.gotIdentity = false) ∨ x.st = .noCommon → Runs (.nylIdentityTimer l) s (w.sendNylIdentity l)) ∧
     (x.st ≠ .noCommon → x.st ≠ .discovery ∨ x.gotIdentity = true → Becomes (.nylIdentityTimer l) s s.chip)) ∧
   (∀ (s : State) (l : NylId) (f : NFlit),
     let x := (Work.of s).link l
     let i : Instr := .nylIdentity l f
     (x.listens = false → Becomes i s s.chip) ∧
     (x.listens = true → f.ok = false → Runs i s ((Work.of s).modLink l (fun x => { x with errFlits := min (x.errFlits + 1) 0xFFFF_FFFF }))) ∧
     (x.listens = true → f.ok = true → f.kind = 2 → f.op = 3 →
       let w := (Work.of s).modLink l (fun x => x.header f)
       let v := w.modLink l (fun x => { x with
         partnerSerial := BitVec.ofNat 64 (f.at_ 0x18 8)
         partnerModule := f.at_ 0x20 2
         partnerLink := f.at_ 0x22 1 % 64
         peerVersions := f.at_ 0x23 1 })
       let same := (Work.of s).moduleId < 0x8000 ∧ f.at_ 0x20 2 = (Work.of s).moduleId
       (x.carries = true → Runs i s v) ∧
       (x.carries = false → same → Runs i s (v.modLink l (fun x => { x with st := .mismatch, gotIdentity := true }))) ∧
       (x.carries = false → ¬ same → f.at_ 0x23 1 % 2 = 0 → Runs i s (v.modLink l (fun x => { x with st := .noCommon, gotIdentity := true }))) ∧
       (x.carries = false → ¬ same → f.at_ 0x23 1 % 2 = 1 → Runs i s
         ((v.modLink l (fun x => { ({ x with st := .discovery } : NylLink).control 4 [0, 1] with
           gotIdentity := true
           sentSelect := true
           credits := [f.at_ 0x24 2, f.at_ 0x26 2, f.at_ 0x28 2, f.at_ 0x2A 2, f.at_ 0x2C 2, f.at_ 0x2E 2] })).nylUp l))) ∧
     (x.listens = true → f.ok = true → f.kind ≠ 2 ∨ f.op ≠ 3 → Becomes i s s.chip)) ∧
   (∀ (s : State) (l : NylId) (f : NFlit), ((Work.of s).link l).listens = true → f.ok = true → f.kind ≠ 2 ∨ f.op ≠ 4 →
     Becomes (.nylSelect l f) s s.chip) ∧
   (∀ (s : State) (l : NylId) (f : NFlit), ((Work.of s).link l).listens = true → f.ok = true → f.kind = 2 → f.op = 4 →
     let w := (Work.of s).modLink l (fun x => x.header f)
     (((Work.of s).link l).st = .discovery → f.at_ 0x12 1 = 1 →
       Runs (.nylSelect l f) s ((w.modLink l (fun x => { x with gotSelect := true })).nylUp l)) ∧
     (((Work.of s).link l).st ≠ .discovery ∨ f.at_ 0x12 1 ≠ 1 → Runs (.nylSelect l f) s w)) ∧
   (∀ (w : Work) (l : Nat),
     let x := w.link l
     (x.st ≠ .discovery ∨ x.sentSelect = false ∨ x.gotSelect = false → w.nylUp l = w) ∧
     (x.st = .discovery → x.sentSelect = true → x.gotSelect = true →
       let v := w.modLink l (fun x => { x with
         st := .up, version := 1, txSeq := 0, rxSeq := 0, discarding := false, asked := none, unacked := 0, consecFail := 0 })
       w.nylUp l = (v.record { cls := 0x0703, kind := 7, id := l, pound := optPound (v.linkOwner l), d0 := x.partnerSerial.toNat,
                               d1 := x.partnerModule, d2 := x.partnerLink }).settle))) ∧
  ((∀ (s : State) (l : NylId),
     let w := Work.of s
     let x := w.link l
     let open_ := x.carries = true ∨ x.st = .mismatch ∨ x.st = .noCommon
     (¬ open_ → Becomes (.nylTimeSend l) s s.chip) ∧
     (open_ → Runs (.nylTimeSend l) s (w.modLink l (fun y => y.put 3 0 y.txSeq 0
       (leBytes 8 (s.chip.time.nowPs / 1000) ++ leBytes 1 (if s.chip.time.st = .locked then s.chip.time.hops else 15) ++ leBytes 7 0 ++
         leBytes 8 x.lastTSend.toNat ++ leBytes 8 (if x.lastTSend = 0 then 0 else (s.chip.refPs - x.lastTRecv) / 1000) ++ leBytes 16 0) [] [])))) ∧
   (∀ (s : State) (l : NylId) (f : NFlit), ((Work.of s).link l).listens = true → f.ok = true → f.kind = 3 →
     let w := (Work.of s).modLink l (fun x => x.header f)
     let echo := f.at_ 0x20 8
     let round : Int := (s.chip.time.nowPs / 1000 : Nat) - (echo : Int) - (f.at_ 0x28 8 : Int)
     let delay : Nat := if echo = 0 then (w.link l).delayNs else min 65535 (round / 2).toNat
     let v := w.modLink l (fun x => { x with delayNs := delay, lastTSend := BitVec.ofNat 64 (f.at_ 0x10 8), lastTRecv := s.chip.refPs })
     let hops := f.at_ 0x18 1
     let heard := v.modNylTime l (fun _ => { usable := true, hops := hops, last := s.chip.refPs })
     (hops < 8 → bit s.chip.time.srcEn 2 = true → Runs (.nylTimeFlit l f) s (heard.timeSample (.nyulle l) (f.at_ 0x10 8 + delay))) ∧
     (8 ≤ hops → hops < 15 → bit s.chip.time.srcEn 2 = true → Runs (.nylTimeFlit l f) s heard.refreshSource) ∧
     (15 ≤ hops ∨ bit s.chip.time.srcEn 2 = false → Runs (.nylTimeFlit l f) s
       ((v.modNylTime l (fun x => { x with hops := hops })).refreshSource))) ∧
   (∀ (s : State) (l : NylId) (f : NFlit), ((Work.of s).link l).listens = true → f.ok = true → f.kind ≠ 3 →
     Becomes (.nylTimeFlit l f) s s.chip))

/-- Sequence numbers, acknowledgement, retry and credits of a Nyulle link (R421, R424 to R429, R438): what is sent and when; what a header
flit brings; a message that is sent for its VC's credits; a retry that fails, the eighth of which loses the partner; a transit
message that waited too long. -/
def Obligations.NyulleRetry : Prop :=
  (∀ (s : State) (l : NylId) (f : NFlit),
    let x := (Work.of s).link l
    let w := (Work.of s).modLink l (fun x => x.header f)
    (x.listens = true → f.ok = true →
      (f.kind = 2 → f.op = 1 → Runs (.nylAck l f) s w) ∧
      (f.kind = 0 → Runs (.nylIdleFlit l f) s w) ∧
      (f.kind = 2 → f.op = 2 → Runs (.nylRetry l f) s (w.modLink l (fun x =>
        (x.retryBuf.dropWhile (fun e => e.1 ≠ f.at_ 0x12 2)).foldl (fun x e => x.put 1 e.2.vc e.1 e.2.ndata e.2.body e.2.data e.2.poison) x))) ∧
      (f.kind ≠ 2 ∨ f.op ≠ 1 → Becomes (.nylAck l f) s s.chip) ∧ (f.kind ≠ 2 ∨ f.op ≠ 2 → Becomes (.nylRetry l f) s s.chip) ∧
      (f.kind ≠ 0 → Becomes (.nylIdleFlit l f) s s.chip)) ∧
    (x.listens = true → f.ok = false → ∀ i ∈ [.nylAck l f, .nylIdleFlit l f, .nylRetry l f, .nylSelect l f, .nylDown l f, .nylTimeFlit l f],
      Runs i s ((Work.of s).modLink l (fun x => { x with errFlits := min (x.errFlits + 1) 0xFFFF_FFFF }))) ∧
    (x.listens = false → ∀ i ∈ [.nylAck l f, .nylIdleFlit l f, .nylRetry l f, .nylSelect l f, .nylDown l f, .nylTimeFlit l f],
      Becomes i s s.chip)) ∧
  (∀ (x : NylLink) (f : NFlit), f.at_ 5 1 = 0 → x.header f = x) ∧
  (∀ (x : NylLink) (f : NFlit), f.at_ 5 1 = 2 → x.credits.length = 6 → f.at_ 6 1 < 6 → ∀ v, v < 6 →
    (x.header f).credits.getD v 0 = x.credits.getD v 0 + (if v = f.at_ 6 1 then f.at_ 8 2 else 0) ∧
    (x.header f).retryBuf = x.retryBuf) ∧
  (∀ (x : NylLink) (f : NFlit) (a b : List (Nat × NylMsg)) (e : Nat × NylMsg), f.at_ 5 1 = 1 → x.retryBuf = a ++ e :: b →
    (e.1 + e.2.ndata) % 65536 = f.at_ 0xA 2 → (∀ d ∈ a, (d.1 + d.2.ndata) % 65536 ≠ f.at_ 0xA 2) →
    x.header f = { x with retryBuf := b }) ∧
  (∀ (s : State) (l : NylId) (v : Fin 6),
    let w := Work.of s
    let x := w.link l
    let asks (w : Work) : Work := w.modLink l (fun x => { x.control 2 (0 :: leBytes 2 x.rxSeq) with
      discarding := true, asked := some x.rxSeq, retries := min (x.retries + 1) 0xFFFF_FFFF
      st := if x.st = .up then .retrying else x.st })
    (x.carries = true → x.asked ≠ none →
      Runs (.nylRetryTimer l) s (asks w) ∧
      (x.consecFail < 7 → Runs (.nylRetryTimeout l) s (asks (w.modLink l (fun x => { x with consecFail := x.consecFail + 1 })))) ∧
      (7 ≤ x.consecFail → Runs (.nylRetryTimeout l) s ((w.modLink l (fun x => { x with consecFail := 8 })).losePartner l 1))) ∧
    (x.carries = false ∨ x.asked = none → Becomes (.nylRetryTimer l) s s.chip ∧ Becomes (.nylRetryTimeout l) s s.chip) ∧
    (x.carries = true → x.unacked ≠ 0 → Runs (.nylAckTimer l) s (w.modLink l (fun x => x.control 1 []))) ∧
    (x.carries = false ∨ x.unacked = 0 → Becomes (.nylAckTimer l) s s.chip) ∧
    (x.carries = true → x.freed.getD v 0 ≠ 0 → Runs (.nylCreditReturn l v) s (w.modLink l (fun x => x.control 1 []))) ∧
    (x.carries = false ∨ x.freed.getD v 0 = 0 → Becomes (.nylCreditReturn l v) s s.chip)) ∧
  (∀ (s : State) (l : NylId) (a b : List NylMsg) (m : NylMsg),
    let w := Work.of s
    let x := w.link l
    let held := x.retryBuf.foldl (fun n e => n + e.2.flits) 0
    x.queue = a ++ m :: b → m.flits ≤ x.credits.getD m.vc 0 →
    (∀ n ∈ a, n.vc ≠ m.vc ∧ ∀ k, a.find? (fun k => decide (k.vc = n.vc)) = some k → x.credits.getD n.vc 0 < k.flits) →
    (x.carries = true → held + m.flits ≤ 2048 →
      Runs (.nylMessageSend l) s (w.modLink l (fun x => { x.put 1 m.vc x.txSeq m.ndata m.body m.data m.poison with
        queue := a ++ b
        txSeq := (x.txSeq + m.flits) % 65536
        retryBuf := x.retryBuf ++ [(x.txSeq, m)]
        credits := modAt x.credits m.vc (· - m.flits) }))) ∧
    (2048 < held + m.flits → Becomes (.nylMessageSend l) s s.chip)) ∧
  (∀ (s : State) (l : NylId),
    let x := (Work.of s).link l
    (x.carries = false ∨ 2048 ≤ x.retryBuf.foldl (fun n e => n + e.2.flits) 0 ∨ x.queue = [] →
      Becomes (.nylMessageSend l) s s.chip) ∧
    ((∀ m ∈ x.queue, x.credits.getD m.vc 0 < m.flits) → Becomes (.nylMessageSend l) s s.chip) ∧
    let waits := fun (m : NylMsg) => m.inbound.isSome && decide (x.credits.getD m.vc 0 < m.flits)
    ((∀ m ∈ x.queue, m.inbound = none ∨ m.flits ≤ x.credits.getD m.vc 0) → Becomes (.transitCreditTimeout l) s s.chip) ∧
    (∀ m i, x.queue.find? waits = some m → m.inbound = some i →
      Runs (.transitCreditTimeout l) s (((Work.of s).modLink l (fun x => { x with queue := x.queue.erase m })).modLink i
        (fun x => { x with lost := min (x.lost + 1) 0xFFFF_FFFF }))))

/-- Loss of a partner and the OPs of NYL_CTRL (R432, R433, R447, R456, R457, R461, R484): how a link is lost and with which cause, what it does to the
link, to requests and collectives; when their ends come; DISABLE, ENABLE and RESET by the owner or the management path; a link that does not drain. -/
def Obligations.NyulleLoss : Prop :=
  (∀ (s : State) (l : NylId) (k : Fin 2),
    Runs (.nylSilenceTimeout l) s ((Work.of s).losePartner l 2) ∧ Runs (.nylLaneLockLost l k) s ((Work.of s).losePartner l 4) ∧
    Runs (.nylLostComplete l) s ((Work.of s).lostComplete l) ∧
    ((s.chip.remotes.filter (fun e => e.2.lost && e.2.link = some l.val)) = [] → s.chip.colls = [] →
      Becomes (.nylLostComplete l) s s.chip)) ∧
  (∀ (s : State) (l : NylId) (f : NFlit), ((Work.of s).link l).listens = true → f.ok = true → f.kind = 2 → f.op = 5 →
    Runs (.nylDown l f) s (((Work.of s).modLink l (fun x => x.header f)).losePartner l (3 + f.at_ 0x12 1 * 256))) ∧
  (∀ (w : Work) (l cause : Nat),
    let x := w.link l
    (x.carries = false → w.losePartner l cause = w) ∧
    (x.carries = true →
      let fails := if cause = 1 then recent x.failures w.chip.refPs 3_600_000_000_000_000 else x.failures
      let stuck := decide (cause = 1 ∧ 3 ≤ (recent x.failures w.chip.refPs 3_600_000_000_000_000).length)
      let u := w.record { cls := 0x0704, kind := 7, id := l, pound := optPound (w.linkOwner l), d0 := cause }
      let v := u.modLink l (fun y => { y with downs := min (y.downs + 1) 0xFFFF, failures := fails, stuck := stuck })
      let z := v.emptyLink l (if x.st = .draining then .disabled else if stuck then .failed else .training)
      w.losePartner l cause = { z with
        chip.remotes := SMap.mapVal z.chip.remotes (fun _ r => if r.link = some l then { r with lost := true } else r)
        chip.colls := z.chip.colls.map (fun c => if (z.collLinks c).contains l then { c with failed := some 0x101 } else c) })) ∧
  (∀ (w : Work) (l : Nat) (st : NylState),
    let x := w.link l
    let v := w.modLink l (fun y => { y with
      st := st, queue := [], retryBuf := [], discarding := false, asked := none, unacked := 0
      gotIdentity := false, sentSelect := false, gotSelect := false, consecFail := 0
      credits := List.replicate 6 0, freed := List.replicate 6 0 })
    w.emptyLink l st = (v.each x.queue (fun w m => w.reroute m)).each (x.retryBuf.map (·.2)) (fun w m =>
      if m.isRequest = false then w.countLost (some l) else if m.inbound.isSome then w.errorTo m w.transitDefault 0x101 else w)) ∧
  (∀ (w : Work) (tag status off : Nat) (r : Remote), SMap.look w.chip.remotes tag = some r →
    let v := { w with chip.remotes := SMap.erase w.chip.remotes tag }
    let p := match r.who with
      | .mover t _ => v.tileOwner t
      | .tile t => v.tileOwner t
      | .command q _ => v.sqOwner q
      | .power p => some p
      | .core c => v.coreOwner c
    let u := if 0x101 ≤ status ∧ status ≤ 0x1FF then v.recRemote r.who.source.1 r.who.source.2 p r.gaddr.toNat status else v
    let a := if status < 0x100 then r.va + off else 0
    ((∀ q n, r.who = .command q n → u.started? q n 4 = none) → w.failRemote tag status off = u.failXfer r.who status a) ∧
    (∀ q n c, r.who = .command q n → u.started? q n 4 = some c →
      w.failRemote tag status off = u.complete q c status 0 (BitVec.ofNat 64 a))) ∧
  (∀ (s : State) (c : CoreId) (l : NylId),
    RegOpen s c (0x400_0000 + l.val * 0x1_0000 + 0x30) (((Work.of s).linkOwner l).isSome && (Work.of s).coreOwner c = (Work.of s).linkOwner l) →
    let w := Work.of s
    let x := w.link l
    let refused (op : Nat) : Work := w.record
      { cls := 0x0706, kind := 7, id := l, pound := optPound (w.linkOwner l), action := 6, d0 := op, d1 := x.st.code }
    (x.st = .disabled ∨ x.st = .draining → Runs (.nylLinkDisable c l) s (untrap c (refused 1))) ∧
    (x.st = .up ∨ x.st = .retrying → Runs (.nylLinkDisable c l) s (untrap c (w.modLink l (fun x => { x with st := .draining })))) ∧
    (x.st = .down ∨ x.st = .training ∨ x.st = .failed →
      Runs (.nylLinkDisable c l) s (untrap c (w.modLink l (fun x => { x with st := .disabled })))) ∧
    (x.st = .discovery ∨ x.st = .mismatch ∨ x.st = .noCommon →
      Runs (.nylLinkDisable c l) s (untrap c (w.modLink l (fun x => { x.control 5 [0, 1] with st := .disabled })))) ∧
    (x.st = .disabled → Runs (.nylLinkEnable c l) s (untrap c (w.modLink l (fun x => { x with st := .training })))) ∧
    (x.st ≠ .disabled → Runs (.nylLinkEnable c l) s (untrap c (refused 2))) ∧
    Runs (.nylLinkReset c l) s (untrap c (w.linkReset l)) ∧
    (let z := (w.modLink l (fun x => if x.listens then x.control 5 [0, 2] else x)).emptyLink l .training
     w.linkReset l = Work.modLink { z with
       chip.remotes := SMap.mapVal z.chip.remotes (fun _ r => if r.link = some l.val then { r with lost := true } else r)
       chip.colls := z.chip.colls.map (fun c => if (z.collLinks c).contains l.val then { c with failed := some 0x101 } else c) }
       l (fun x => { NylLink.zero with st := .training, wire := x.wire }))) ∧
  (∀ (s : State) (l : NylId) (op : BitVec 2), s.chip.boot.lockkeeper = true ∨ s.chip.boot.standbyActive = true →
    ((Work.of s).linkOwner l ≠ none → Runs (.linkControl l op) s ((Work.of s).answer 2 [])) ∧
    ((Work.of s).linkOwner l = none → Runs (.linkControl l op) s (((Work.of s).linkOp l op.toNat).answer 0 []))) ∧
  (∀ (s : State) (l : NylId),
    (((Work.of s).link l).st ≠ .draining → Becomes (.nylDisableTimeout l) s s.chip) ∧
    (((Work.of s).link l).st = .draining → ((Work.of s).link l).queue = [] → ((Work.of s).link l).retryBuf = [] →
      s.chip.remotes = [] → s.chip.colls = [] → Runs (.nylDisableTimeout l) s
        ((Work.of s).modLink l (fun x =>
          { x.control 5 [0, 1] with st := .disabled, queue := [], retryBuf := [], discarding := false, asked := none, unacked := 0
                                    gotIdentity := false, sentSelect := false, gotSelect := false }))) ∧
    (((Work.of s).link l).st = .draining → Runs (.nylDisableTimeout l) s ((Work.of s).disableTimeout l)))

/-- A message on a Nyulle link (R421, R426, R427, R431, R436 to R439): accepted whole or not at all; acted on, forwarded, or answered in
provisioning; the message that is out of order or fails its check. Forwarding keeps the hop limit; routes by a pound's table. -/
def Obligations.FabricMessages : Prop :=
  (∀ (s : State) (l : NylId) (f : NFlit) (d : List NFlit) (i : Instr) (op : Nat) (act : Work → NylMsg → Work), d.length ≤ 64 →
    (i = .nylRead l f d ∧ op = 1 ∧ act = Work.inRead) ∨
      (i = .nylWritePlain l f d ∧ op = 2 ∧ act = (fun w m => w.inWrite m false)) ∨
      (i = .nylWritePublish l f d ∧ op = 3 ∧ act = (fun w m => w.inWrite m true)) ∨
      (i = .nylAdd64 l f d ∧ op = 4 ∧ act = (fun w m => w.inAtomic m (fun old => some ((old + leAt m.operand 0 8) % 2 ^ 64)))) ∨
      (i = .nylSwap64 l f d ∧ op = 5 ∧ act = (fun w m => w.inAtomic m (fun _ => some (leAt m.operand 0 8)))) ∨
      (i = .nylCas64 l f d ∧ op = 6 ∧
        act = (fun w m => w.inAtomic m (fun old => if old = leAt m.operand 0 8 then some (leAt m.operand 8 8) else none))) ∨
      (i = .readData l f d ∧ op = 0x41 ∧ act = Work.readData) ∨
      (i = .writeDone l f d ∧ op = 0x42 ∧ act = (fun w m => w.response m [2, 3] (fun w r => (w.closeRemote m.tag).pump r.who))) ∨
      (i = .atomicDone l f d ∧ op = 0x43 ∧ act = (fun w m => w.response m [4, 5, 6] (fun w r => (w.closeRemote m.tag).pump r.who))) ∨
      (i = .cdata l f d ∧ op = 0x81 ∧ act = Work.cdata) ∨ (i = .cack l f d ∧ op = 0x82 ∧ act = Work.cack) ∨
      (i = .cabort l f d ∧ op = 0x83 ∧ act = Work.cabort) ∨
      (i = .nylError l f d ∧ op = 0x4F ∧ act = (fun w m => w.response m [1, 2, 3, 4, 5, 6] (fun w _ => w.failRemote m.tag m.status))) →
    let w := Work.of s
    let x := w.link l
    let good := msgOk f d = true
    let m := nylMsg l f d
    let v := w.modLink l (fun x =>
      let x := x.header f
      let y := { x with
        rxSeq := (x.rxSeq + (1 + d.length)) % 65536
        unacked := x.unacked + (1 + d.length)
        discarding := false
        consecFail := if x.asked.isSome then 0 else x.consecFail
        asked := none
        st := if x.st = .retrying then .up else x.st
        freed := modAt x.freed f.vc (· + (1 + d.length)) }
      if 191 < y.unacked then y.control 1 [] else y)
    let failed (w : Work) : Work := w.modLink l (fun x => { x with errFlits := min (x.errFlits + 1) 0xFFFF_FFFF })
    (x.carries = false → Becomes i s s.chip) ∧
    (x.carries = true → f.ok = true → f.kind ≠ 1 ∨ f.op ≠ op → Becomes i s s.chip) ∧
    (x.carries = true → good → f.kind = 1 → f.op = op → f.seq = x.rxSeq →
      (m.dst = v.moduleId → v.provisioning = false → Runs i s (act v m)) ∧
      (v.provisioning = true → m.isRequest = true → Runs i s (v.modLink l (fun x => { x with queue := x.queue ++
        [{ vc := 2, body := nylBody m.src v.moduleId 0x4F 0 (m.len - 1) m.offset m.tag 4 [], data := [], poison := [], inbound := none, pound := none }] }))) ∧
      (v.provisioning = true → m.isRequest = false → Runs i s v) ∧
      (m.dst ≠ v.moduleId → v.provisioning = false → Runs i s (v.forward l m))) ∧
    (x.carries = true → (f.ok = true → f.kind = 1 ∧ f.op = op) → ¬ (good ∧ f.seq = x.rxSeq) →
      (x.discarding = false → Runs i s (w.modLink l (fun x => NylLink.ask { x with errFlits := min (x.errFlits + 1) 0xFFFF_FFFF }))) ∧
      (x.discarding = true → good → Runs i s w) ∧
      (x.discarding = true → ¬ good → f.ok = true → x.asked = some f.seq → Runs i s ((failed w).nylRetryFailed l)) ∧
      (x.discarding = true → ¬ good → f.ok = false ∨ x.asked ≠ some f.seq → Runs i s (failed w)))) ∧
  (∀ (w : Work) (l : Nat) (m : NylMsg),
    let p := w.transitPound l
    let n := { m with body := modAt m.body 5 (· + 1) }
    (m.hops = 63 → m.isRequest = true → w.forward l m = w.errorTo m w.transitDefault 0x104) ∧ (m.hops = 63 → m.isRequest = false → w.forward l m = w) ∧
    (m.hops ≠ 63 →
      (∀ v k, w.sendMsg p n = (v, some k) → w.forward l m = v) ∧
      (∀ v, w.sendMsg p n = (v, none) → (m.isRequest = true → w.forward l m = v.errorTo n v.transitDefault 0x102) ∧
        (m.isRequest = false → w.forward l m = v.countLost (some l))))) ∧
  (∀ (w : Work) (p g : Nat) (c : PoundCfg) (r : Routes) (e : Route) (src off : Nat),
    w.cfg? p = some c → c.routes = some r → r.entries.find? (fun e => e.modFirst ≤ g && g ≤ e.modLast) = some e →
    let up := (bitList e.links).filter w.linkUp
    (up = [] → w.route (some p) g src off = none) ∧
    (up ≠ [] → e.ordered = true → w.route (some p) g src off = up.head?) ∧
    (up ≠ [] → e.ordered = false → w.route (some p) g src off = up[routeHash g src off % up.length]?)) ∧
  (∀ (w : Work) (p : Nat) (m : NylMsg), w.cfg? p = none → w.sendMsg (some p) m = (w, none))

/-- Requests of other modules and responses to this one's (R72, R440 to R446): what is refused, with its answer and its record; READ, WRITE and the
atomics where they are admitted; a late response, and one that ends its request. -/
def Obligations.RemoteRequests : Prop :=
  (∀ (w : Work) (m : NylMsg) (k : Nat) (act : Work → Nat → Nat → Work),
    (w.hbmBytes < m.offset + m.len → w.inboundRequest m k act = (w.errorTo m w.transitDefault 4).record
      { cls := 0x0301, kind := 7, id := m.inbound.getD 0, action := 6, addr := m.offset, d0 := 4 }) ∧
    (m.offset + m.len ≤ w.hbmBytes → w.covered m.src m.offset m.len k = none →
      let v := w.errorTo m w.transitDefault 5
      (v.chip.rolls.rateFabric < 1000 → w.inboundRequest m k act = { v with chip.rolls.rateFabric := v.chip.rolls.rateFabric + 1 }.record
        { cls := 0x0702, kind := 7, id := m.inbound.getD 0, action := 6, addr := m.offset, d0 := m.src, d1 := m.op }) ∧
      (1000 ≤ v.chip.rolls.rateFabric → w.inboundRequest m k act =
        { v with chip.rolls.suppressed := min (v.chip.rolls.suppressed + 1) 0xFFFF_FFFF })) ∧
    (m.offset + m.len ≤ w.hbmBytes → ∀ p, w.covered m.src m.offset m.len k = some p →
      w.inboundRequest m k act = act w p (0x100_0000_0000 + m.offset))) ∧
  (∀ (w : Work) (src off n k p : Nat), w.covered src off n k = some p → ∃ c e, w.chip.cht.active = some c ∧ e ∈ c.access ∧ e.pound = p ∧
    e.modFirst ≤ src ∧ src ≤ e.modLast ∧ e.offBase ≤ off ∧ off + n ≤ e.offLast + 1 ∧ bit e.perm k = true ∧ w.cfg? p ≠ none ∧
    (w.pound p).fenced = false ∧ w.scrubbing (0x100_0000_0000 + off) = false) ∧
  (∀ (w : Work) (m : NylMsg) (p : Nat), m.offset + m.len ≤ w.hbmBytes →
    let a := 0x100_0000_0000 + m.offset
    (w.covered m.src m.offset m.len 0 = some p → w.inRead m =
      (w.arcReads a m.len (some p) none).respond m p 0x41 (w.vread a m.len) [] (w.payloadPoison a m.len)) ∧
    (w.covered m.src m.offset m.len 1 = some p →
      (∀ b : Bool,
        let u := w.pwrite a m.data b (some p)
        w.inWrite m b = (if u.dead a then u else u.pokeWords a m.len m.poison).respond m p 0x42 [] [] [] ∧
        ((∀ x ∈ m.poison, x = false) → w.inWrite m b = u.respond m p 0x42 [] [] [])) ∧
      (∀ f : Nat → Option Nat,
        ((w.vpoison a m.len).isSome = true → w.inAtomic m f = w.errorTo m (some p) 7) ∧
        (w.vpoison a m.len = none →
          let old := leNat (w.vread a 8)
          (∀ v, f old = some v → w.inAtomic m f = (w.pwrite a (leBytes 8 v) true (some p)).respond m p 0x43 [] (leBytes 8 old) []) ∧
          (f old = none → w.inAtomic m f = (w.arcReads a 8 (some p) none).respond m p 0x43 [] (leBytes 8 old) []))))) ∧
  (∀ (w : Work) (m : NylMsg) (ops : List Nat) (f : Work → Remote → Work),
    (SMap.look w.chip.remotes m.tag = none → ∀ l, m.inbound = some l →
      w.response m ops f = w.modLink l (fun x => { x with stale := min (x.stale + 1) 0xFFFF })) ∧
    (∀ r, SMap.look w.chip.remotes m.tag = some r → (r.op ∈ ops → w.response m ops f = f w r) ∧ (r.op ∉ ops → w.response m ops f = w))) ∧
  (∀ (w : Work) (m : NylMsg) (r : Remote), SMap.look w.chip.remotes m.tag = some r → r.op = 1 →
    let v := { w with chip.remotes := SMap.erase w.chip.remotes m.tag }
    (∀ k, (m.poison.take ((r.len + 31) / 32)).findIdx? id = some k →
      let n := (r.gaddr.toNat + 32 * k) / 128 * 128 - r.gaddr.toNat
      (r.dst = none ∨ n = 0 → w.readData m = w.failRemote m.tag 7 (32 * k)) ∧
      (∀ d, r.dst = some d → n ≠ 0 →
        w.readData m = (w.engWrite (w.eng r.who) d (m.data.take n) false r.publish r.va).1.failRemote m.tag 7 (32 * k))) ∧
    ((m.poison.take ((r.len + 31) / 32)).findIdx? id = none → ∀ d, r.dst = some d →
      (∀ u, v.engWrite (v.eng r.who) d m.data false r.publish r.va = (u, none) → w.readData m = u.pump r.who) ∧
      (∀ u k, v.engWrite (v.eng r.who) d m.data false r.publish r.va = (u, some k) → w.readData m = (u.failXfer r.who k 0).pump r.who)) ∧
    ((m.poison.take ((r.len + 31) / 32)).findIdx? id = none → r.dst = none →
      (∀ q n, r.who = .command q n → (v.started? q n 4).isSome = true →
        w.readData m = (v.semSeen q n (BitVec.ofNat 64 (leNat m.data))).pump r.who) ∧
      ((∀ q n, r.who = .command q n → v.started? q n 4 = none) →
        w.readData m = ((v.modXfer r.who (fun x => x.addPart r.pos m.data)).groupCome r.who).pump r.who))) ∧
  (∀ (s : State) (t : W32),
    (SMap.look s.chip.remotes t.toNat = none → Becomes (.remoteTimeout t) s s.chip) ∧
    (∀ r, SMap.look s.chip.remotes t.toNat = some r → Runs (.remoteTimeout t) s ((Work.of s).failRemote t.toNat 0x103)))


/-! ## Collectives -/

/-- COLLECTIVE (R448, R449, R453 to R456): its format; the start with a free engine slot of its die, and what refuses it; the plan of
each member; a piece sent; what a received piece, an acknowledgement and an abort do; the ends. -/
def Obligations.Collectives : Prop :=
  (∀ (s : State) (q : SqId) (c : Cmd), (Work.of s).turn? q 6 = some c →
    let w := Work.of s
    let i : Instr := .collective q
    (c.collOk = false → Runs i s (w.beginDone q c 1)) ∧
    (c.collOk = true → 16 ≤ (s.chip.colls.filter (fun d => d.die = q.val % 16 / 4)).length → Becomes i s s.chip) ∧
    (c.collOk = true → (s.chip.colls.filter (fun d => d.die = q.val % 16 / 4)).length < 16 →
      (∀ u k a, w.groupBytes q c = (u, .bad k a) → Runs i s (u.beginDone q c k 0 (BitVec.ofNat 64 a))) ∧
      (∀ u bs, w.groupBytes q c = (u, .ok bs) →
        (parseGroup u.moduleId bs = none → Runs i s (u.beginDone q c 0x108)) ∧
        (∀ ids rank, parseGroup u.moduleId bs = some (ids, rank) →
          (ids.length ≤ c.at_ 0x38 2 → Runs i s (u.beginDone q c 1)) ∧
          (c.at_ 0x38 2 < ids.length →
            let d := u.newColl q c bs ids rank
            let mine (m : NylMsg) : Bool := d.takes m && m.src = d.pred
            let v := u.begin q c
            Runs i s ((u.chip.early.filter mine).foldl (fun (w : Work) m => match w.coll? q c.seq with | some d => w.collPiece d m | none => w)
              { v with chip.colls := v.chip.colls ++ [d], chip.early := v.chip.early.filter (fun m => !mine m) })))))) ∧
  (∀ (w : Work) (c : Coll) (m : NylMsg), (m.hash ≠ c.hash.toNat → w.collPiece c m = w.failColl c 0x105 0) ∧
    (m.hash = c.hash.toNat → w.collPiece c m = w.collCome c m.piece)) ∧
  (∀ (c : Coll) (r : Nat),
    let n := c.members.length
    let at_ (phase : Nat) (d : Bool) (k : Nat) : CollStep := { phase := phase, derived := d, lo := (c.chunk k).1, len := (c.chunk k).2 }
    (c.kind = 1 ∨ c.kind = 3 → ∀ j, j < n - 1 → (c.plan r)[j]? = some (at_ 0 (decide (0 < j)) (r + n - 1 + 2 * n - j))) ∧
    (c.kind = 2 → ∀ j, j < n - 1 → (c.plan r)[j]? = some (at_ 1 (decide (0 < j)) (r + 2 * n - j))) ∧
    (c.kind = 3 → ∀ j, j < n - 1 → (c.plan r)[n - 1 + j]? = some (at_ 1 (decide (0 < j)) (r + 2 * n - j))) ∧
    (c.kind = 1 ∨ c.kind = 2 → (c.plan r).length = n - 1) ∧ (c.kind = 3 → (c.plan r).length = 2 * (n - 1)) ∧
    (c.kind = 4 → c.plan r = if (r + 1) % n = c.root then [] else
      [{ phase := 2, derived := decide (r ≠ c.root), lo := 0, len := c.count }])) ∧
  (∀ (c : Coll) (k : Nat), 0 < c.members.length →
    let n := c.members.length
    let size := ((c.count + n - 1) / n + 31) / 32 * 32
    (c.chunk k).1 = min (k % n * size) c.count ∧ (c.chunk k).1 + (c.chunk k).2 = min ((c.chunk k).1 + size) c.count) ∧
  (∀ (s : State) (q : SqId) (n : W32),
    let w := Work.of s
    let i : Instr := .collectivePieceSend q n
    (w.coll? q n = none → Becomes i s s.chip) ∧
    (∀ c, w.coll? q n = some c →
      (c.pieceOf c.sends c.sent = none → Becomes i s s.chip) ∧
      (∀ p, c.pieceOf c.sends c.sent = some p →
        let may := c.sent - c.acked < 128 ∧ (if p.derived then c.consumed ∈ c.received
          else c.kind ≠ 3 ∨ p.phase = 0 ∨ c.reduceTotal ≤ c.consumed)
        let made := if p.derived then w.nextPiece c p else w.firstPiece c p
        (¬ may → Becomes i s s.chip) ∧
        (may → (∀ u k a, made = (u, .bad k a) → Runs i s (u.failColl c k a)) ∧
          (∀ u b bs, made = (u, .ok (b, bs)) →
            let v := (u.sendColl c c.succ 0x81 (bs.length - 1) (c.stage + c.sent % 128 * 4096) c.sent p.phase b 0 bs).modColl c
              (fun d => { d with sent := d.sent + 1 })
            (p.derived = true → Runs i s (Work.consumeEnds 128 (v.consume c) q n)) ∧
            (p.derived = false → Runs i s (Work.consumeEnds 128 v q n))))))) ∧
  (∀ (s : State) (q : SqId) (n : W32) (c : Coll), (Work.of s).coll? q n = some c →
    let w := Work.of s
    Runs (.collectiveTimeout q n) s (w.failColl c 0x107 0) ∧
    (∀ d, w.cmd? q n = some d →
      let done := c.sent = c.total c.sends ∧ c.acked = c.sent ∧ c.consumed = c.total c.receives ∧ w.xferQuiet (.command q n) = true
      (∀ k a, d.xf.failed = some (k, a) → Runs (.collectiveComplete q n) s (w.failColl c k a)) ∧
      (d.xf.failed = none → ¬ done → Becomes (.collectiveComplete q n) s s.chip) ∧
      (d.xf.failed = none → done →
        let v := { w with chip.colls := s.chip.colls.filter (fun e => !(e.sq = q.val && e.seq = n)) }
        (d.scope ≠ 3 → Runs (.collectiveComplete q n) s (v.complete q d 0)) ∧
        (d.scope = 3 → Runs (.collectiveComplete q n) s ((v.dropLines d.xf.lines).complete q d 0))))) ∧
  (∀ (s : State) (l : NylId) (f : NFlit) (d : List NFlit) (i : Instr) (op : Nat) (act : Work → NylMsg → Work), d.length ≤ 64 →
    (i = .cdata l f d ∧ op = 0x81 ∧ act = Work.cdata) ∨ (i = .cack l f d ∧ op = 0x82 ∧ act = Work.cack) ∨
      (i = .cabort l f d ∧ op = 0x83 ∧ act = Work.cabort) →
    let x := (Work.of s).link l
    let m := nylMsg l f d
    x.carries = true → msgOk f d = true → f.kind = 1 → f.op = op → f.seq = x.rxSeq → (Work.of s).provisioning = false →
    m.dst = (Work.of s).moduleId → Runs i s (act ((Work.of s).modLink l (fun x =>
      let x := x.header f
      let y := { x with
        rxSeq := (x.rxSeq + (1 + d.length)) % 65536
        unacked := x.unacked + (1 + d.length)
        discarding := false
        consecFail := if x.asked.isSome then 0 else x.consecFail
        asked := none
        st := if x.st = .retrying then .up else x.st
        freed := modAt x.freed f.vc (· + (1 + d.length)) }
      if 191 < y.unacked then y.control 1 [] else y)) m)) ∧
  (∀ (w : Work) (m : NylMsg),
    let a := 0x100_0000_0000 + m.offset
    let mine := w.chip.colls.find? (fun c => c.takes m && c.pred = m.src)
    let admitted (p : Nat) := m.offset + m.len ≤ w.hbmBytes ∧ w.covered m.src m.offset m.len 2 = some p
    ((∀ p, ¬ admitted p) → mine = none → w.cdata m = w.recFabric m) ∧
    ((∀ p, ¬ admitted p) → ∀ c, mine = some c → w.cdata m = (w.recFabric m).failColl c 5 a) ∧
    (∀ p, admitted p →
      let u := w.pwrite a m.data true (some p)
      let v := if u.dead a then u else u.pokeWords a m.len m.poison
      (mine = none → w.cdata m = { v with chip.early := v.chip.early ++ [m] }) ∧
      (∀ c, mine = some c → m.hash ≠ c.hash.toNat → w.cdata m = v.failColl c 0x105 0) ∧
      (∀ c, mine = some c → m.hash = c.hash.toNat → w.cdata m = v.collCome c m.piece)) ∧
    (∀ c, w.chip.colls.find? (fun c => c.takes m && c.succ = m.src) = some c →
      w.cack m = w.modColl c (fun d => { d with acked := max d.acked (min m.piece d.sent) })) ∧
    (∀ c, w.chip.colls.find? (fun c => c.takes m && (c.pred = m.src || c.succ = m.src)) = some c →
      w.cabort m = w.failColl c 0x106 0) ∧
    ((∀ c ∈ w.chip.colls, c.takes m = false) → w.cack m = w ∧ w.cabort m = w))


/-! ## Sirent -/

/-- Flits of a Sirent link (R34 to R37): the flit that an end makes passes its own checks and holds what it was made of; a flit whose header check
fails, or of a reserved KIND, does not pass.

Sending, receiving, acknowledgement and retry on a Sirent link (R39 to R46, R372): a flit needs a credit of its VC, room in the retry buffer, and
its turn in the VC's transfer of 128 B (R38); the flit in sequence is accepted, and every 128th acknowledged at once; a bad one, or one out of sequence, starts a retry; the eighth failed retry fails the link. -/
def Obligations.SirentFlow : Prop :=
  (∀ (kind vc seq v n : Nat) (p : BitVec 256), kind ≤ 3 → vc < 8 → seq < 1024 → v < 8 → n < 32 →
     let f := mkFlit kind vc seq v n p
     flitOk f = true ∧ fKind f = kind ∧ fVc f = vc ∧ fSeq f = seq ∧ fCrVc f = v ∧ fCrCnt f = n ∧ fPayload f = p ∧
     (∀ g : BitVec 320, headerOk g = false ∨ 5 ≤ fKind g → flitOk g = false) ∧
     (∀ b : Fin 24, headerOk (f ^^^ (BitVec.ofNat 320 (2 ^ b.val))) = false)) ∧
  ((∀ (s : State) (l : SrtId) (e : Fin 2) (data : Bool) (vc : BitVec 3) (p : BitVec 256),
     let w := Work.of s
     let x := w.end_ l e
     let n := x.transfer.getD vc.toNat 4
     let turn := if data = true then n < 4 else n = 0 ∨ n = 4
     let open_ := x.isUp = true ∧ x.credits.getD vc.toNat 0 ≠ 0 ∧ x.retryBuf.length < 512 ∧ turn
     (¬ open_ → Becomes (.srtFlitSend l e data vc p) s s.chip) ∧
     (open_ → Runs (.srtFlitSend l e data vc p) s (w.modEnd l e (fun x =>
       { x.put (if data then 2 else 1) vc.toNat p with
         credits := modAt x.credits vc.toNat (· - 1)
         transfer := modAt x.transfer vc.toNat (fun n => if data then n + 1 else 0) })))) ∧
   (∀ (x : SrtSide) (k vc : Nat) (p : BitVec 256), 1 ≤ k → k ≤ 3 → (∀ v, v < 8 → x.freed.getD v 0 = 0) →
     let f := mkFlit k vc x.txSeq 0 0 p
     (x.put k vc p).wire = x.wire ++ [f] ∧ (x.put k vc p).txSeq = (x.txSeq + 1) % 1024 ∧
     (x.put k vc p).retryBuf = x.retryBuf ++ [(x.txSeq, f)]) ∧
   (∀ (s : State) (l : SrtId) (e : Fin 2) (vc : BitVec 3),
     let w := Work.of s
     let x := w.end_ l e
     (x.isUp = false ∨ (∀ y ∈ x.inbox, y.2.1 ≠ vc.toNat) → Becomes (.srtCreditReturn l e vc) s s.chip) ∧
     (x.isUp = true → ∀ a y b, x.inbox = a ++ y :: b → y.2.1 = vc.toNat → (∀ z ∈ a, z.2.1 ≠ vc.toNat) →
       Runs (.srtCreditReturn l e vc) s (w.modEnd l e (fun x =>
         { x with inbox := a ++ b, freed := modAt x.freed vc.toNat (· + 1) }.put (if 512 ≤ x.retryBuf.length then 0 else 3) 0 0)))) ∧
   (∀ (s : State) (l : SrtId) (e : Fin 2) (f : BitVec 320) (i : Instr) (k : Nat),
     (i, k) ∈ [(.srtMessageFlit l e f, 1), (.srtDataFlit l e f, 2), (.srtCreditFlit l e f, 3)] →
     let x := (Work.of s).end_ l e
     let w := (Work.of s).took l e
     let bad : Work := w.modEnd l e (fun x => { x with errFlits := min (x.errFlits + 1) 0xFFFF_FFFF })
     let ok := flitOk f = true
     (x.isUp = false → Becomes i s s.chip) ∧
     (x.isUp = true → ok → fKind f = k → fSeq f = x.rxSeq → Runs i s (w.modEnd l e (fun x =>
       let y := { x with
         credits := modAt x.credits (fCrVc f) (· + fCrCnt f)
         rxSeq := (x.rxSeq + 1) % 1024, unacked := x.unacked + 1, discarding := false, asked := none
         consecFail := if x.asked.isSome then 0 else x.consecFail
         st := .up
         inbox := if k = 3 then x.inbox else x.inbox ++ [(decide (k = 2), fVc f, fPayload f)] }
       if 128 ≤ y.unacked then { y.control 1 ((y.rxSeq + 1023) % 1024) 0 0 0 [] with unacked := 0 } else y))) ∧
     (x.isUp = true → headerOk f = true → fKind f ≠ k → fKind f ≤ 4 → Becomes i s s.chip) ∧
     (x.isUp = true → (headerOk f = true → fKind f = k ∨ 4 < fKind f) → ¬ (ok ∧ fSeq f = x.rxSeq) →
       (x.discarding = false → Runs i s (w.modEnd l e (fun x => SrtSide.ask { x with errFlits := min (x.errFlits + 1) 0xFFFF_FFFF }))) ∧
       (x.discarding = true → ok → Runs i s w) ∧
       (x.discarding = true → ¬ ok → headerOk f = true → x.asked = some (fSeq f) → Runs i s (bad.retryFailed l e)) ∧
       (x.discarding = true → ¬ ok → headerOk f = false ∨ x.asked ≠ some (fSeq f) → Runs i s bad))) ∧
   (∀ (w : Work) (l s : Nat),
     let v := w.modEnd l s (fun x => { x with consecFail := x.consecFail + 1 })
     ((v.end_ l s).consecFail < 8 → w.retryFailed l s = v.modEnd l s (fun x => { x.control 2 x.rxSeq 0 0 0 [] with
       discarding := true, asked := some x.rxSeq, retries := min (x.retries + 1) 0xFFFF_FFFF, st := .retrying })) ∧
     (8 ≤ (v.end_ l s).consecFail → w.retryFailed l s = v.failSirent l 1)) ∧
   (∀ (s : State) (l : SrtId) (e : Fin 2),
     let w := Work.of s
     let x := w.end_ l e
     (x.isUp = false ∨ x.unacked = 0 → Becomes (.srtAckTimer l e) s s.chip) ∧
     (x.isUp = true → x.unacked ≠ 0 → Runs (.srtAckTimer l e) s (w.modEnd l e (fun x =>
       { x.control 1 ((x.rxSeq + 1023) % 1024) 0 0 0 [] with unacked := 0 }))) ∧
     (x.isUp = true → x.asked ≠ none → Runs (.srtRetryTimeout l e) s (w.retryFailed l e)) ∧
     (x.isUp = false ∨ x.asked = none → Becomes (.srtRetryTimeout l e) s s.chip) ∧
     ((w.srt l).a.st ≠ .failed → Becomes (.srtLostRequestPoison l) s s.chip) ∧
     ((w.srt l).a.st = .failed →
       let lost (m : Msg) : Bool := (w.dieRoute m.src m.dst m.line 6).contains l.val
       Runs (.srtLostRequestPoison l) s
         ((s.chip.net.filter lost).foldl (fun (w : Work) m =>
           let a := w.opener m.kind m.home m.agent m.line
           if a < 96 then w.modCore a (fun x => { x with hwError := some (BitVec.ofNat 64 (m.line * 128)) })
           else w.sendFrom (agentDie a) (agentDie a) .dataResp m.home a m.line m.req .i 0xF)
           { w with chip.net := s.chip.net.filter (fun m => !lost m) }))) ∧
   (∀ (s : State) (l : SrtId) (e : Fin 2) (f : BitVec 320), flitOk f = true →
     let w := ((Work.of s).took l e).modEnd l e (fun x => { x with credits := modAt x.credits (fCrVc f) (· + fCrCnt f) })
     let n := leAt (fBytes f) 2 2
     (fKind f = 0 → Runs (.srtIdleFlit l e f) s w) ∧
     (fKind f = 4 → leAt (fBytes f) 0 1 = 1 → ∀ a y b, (w.end_ l e).retryBuf = a ++ (n, y) :: b → (∀ z ∈ a, z.1 ≠ n) →
       Runs (.srtAck l e f) s (w.modEnd l e (fun x => { x with retryBuf := b }))) ∧
     (fKind f = 4 → leAt (fBytes f) 0 1 = 1 → (∀ z ∈ (w.end_ l e).retryBuf, z.1 ≠ n) → Runs (.srtAck l e f) s w) ∧
     (∀ k op i, (i, k, op) ∈ [(.srtAck l e f, 4, 1), (.srtRetry l e f, 4, 2), (.srtIdentity l e f, 4, 3), (.srtSelect l e f, 4, 4),
         (.srtIdleFlit l e f, 0, 0)] →
       (fKind f ≠ k → Becomes i s s.chip) ∧
       (fKind f = 4 → k = 4 → leAt (fBytes f) 0 1 ≠ op → Runs i s ((Work.of s).took l e))) ∧
     (fKind f = 4 → leAt (fBytes f) 0 1 = 2 → Runs (.srtRetry l e f) s (w.modEnd l e (fun x =>
       { x with wire := x.wire ++ (x.retryBuf.dropWhile (fun z => z.1 ≠ n)).map (·.2) })))) ∧
   (∀ (s : State) (l : SrtId) (e : Fin 2) (f : BitVec 320), flitOk f = false → headerOk f = false →
     ∀ i ∈ [.srtIdleFlit l e f, .srtAck l e f, .srtRetry l e f, .srtIdentity l e f, .srtSelect l e f],
       Runs i s (((Work.of s).took l e).modEnd l e (fun x => { x with errFlits := min (x.errFlits + 1) 0xFFFF_FFFF }))))

/-- Link-up of a Sirent link (R41, R50, R51, R555): an end whose lanes are deskewed sends IDENTITY, and IDENTITY or SELECT at their times; IDENTITY gives
versions and credits and is answered with SELECT; ends without a common version fail the link; the link is up when both have sent and received SELECT. -/
def Obligations.SirentLinkUp : Prop :=
  (∀ (s : State) (l : SrtId) (e : Fin 2),
    let w := Work.of s
    let x := w.end_ l e
    (x.st ≠ .training → Becomes (.srtLanesDeskewed l e) s s.chip ∧ Becomes (.srtIdentityTimer l e) s s.chip) ∧
    (x.st = .training →
      Runs (.srtLanesDeskewed l e) s ((w.modEnd l e (fun x => { x with deskewed := true })).sendIdentity l e) ∧
      (x.deskewed = true → x.gotIdentity = false → Runs (.srtIdentityTimer l e) s (w.sendIdentity l e)) ∧
      (x.deskewed = true → x.gotIdentity = true → x.gotSelect = false → w.common l e ≠ 0 → Runs (.srtIdentityTimer l e) s (w.sendSelect l e)) ∧
      (x.deskewed = false ∨ (x.gotIdentity = true ∧ (x.gotSelect = true ∨ w.common l e = 0)) →
        Becomes (.srtIdentityTimer l e) s s.chip))) ∧
  (∀ (s : State) (l : SrtId) (e : Fin 2) (f : BitVec 320), flitOk f = true → fKind f = 4 →
    let w := ((Work.of s).took l e).modEnd l e (fun x => x.takeCredits f)
    let st := (w.end_ l e).st
    (leAt (fBytes f) 0 1 = 3 →
      let v := w.modEnd l e (fun x => { x with
        peerVersions := BitVec.ofNat 2 (leAt (fBytes f) 4 1)
        gotIdentity := true
        credits := if x.st = .training then (List.range 8).map (fun v => leAt (fBytes f) (8 + v) 1) else x.credits })
      ((v.end_ l e).st ≠ .training → Runs (.srtIdentity l e f) s v) ∧
      ((v.end_ l e).st = .training → v.common l e = 0 → Runs (.srtIdentity l e f) s (v.failSirent l 3).settle) ∧
      ((v.end_ l e).st = .training → v.common l e ≠ 0 → Runs (.srtIdentity l e f) s ((v.sendSelect l e).srtLinkUp l))) ∧
    (leAt (fBytes f) 0 1 = 4 →
      let v := w.modEnd l e (fun x => { x with gotSelect := true })
      (st ≠ .training → Runs (.srtSelect l e f) s w) ∧
      (st = .training → (v.end_ l e).gotIdentity = false ∨ v.common l e ≠ 0 → Runs (.srtSelect l e f) s (v.srtLinkUp l)) ∧
      (st = .training → (v.end_ l e).gotIdentity = true → v.common l e = 0 → Runs (.srtSelect l e f) s (v.failSirent l 3).settle))) ∧
  (∀ (w : Work) (l : Nat),
    let a := (w.srt l).a
    let b := (w.srt l).b
    let start (x : SrtSide) : SrtSide :=
      { x with st := .up, txSeq := 0, rxSeq := 0, retryBuf := [], transfer := List.replicate 8 4, discarding := false, asked := none,
               unacked := 0 }
    let ready := a.sentSelect = true ∧ a.gotSelect = true ∧ a.gotIdentity = true ∧ b.sentSelect = true ∧ b.gotSelect = true ∧
      b.gotIdentity = true
    (a.st = .training → ready → w.srtLinkUp l = (w.modSrt l (fun x => { x with a := start x.a, b := start x.b })).settle) ∧
    (a.st ≠ .training ∨ ¬ ready → w.srtLinkUp l = w)) ∧
  (∀ (w : Work) (l s : Nat),
    let mine := w.dieVersions (endDie l s)
    let its := (w.end_ l s).peerVersions
    (w.common l s = 2 ↔ mine.getLsbD 1 = true ∧ its.getLsbD 1 = true) ∧
    (w.common l s = 0 ↔ ¬ (mine.getLsbD 1 = true ∧ its.getLsbD 1 = true) ∧ ¬ (mine.getLsbD 0 = true ∧ its.getLsbD 0 = true)))


/-! ## Management -/

/-- PLDM, the vendor commands and the bus addresses (R47, R374, R398, R483, R484, R548, R554, R589): who answers when; discovery, sensors, FRU data; a
firmware image; an exclusion that is cleared, with its record; the persistent summary; what is not supported.

The SPDM responder (R485): its requests in their order, what is refused, certificate slot 0 alone, the measurements and their signature. -/
def Obligations.ManagementUnits : Prop :=
  ((∀ s : State,
     let b := s.chip.boot
     let w := Work.of s
     (b.lockkeeper = false → b.standbyActive = false →
       (∀ i ∈ [.pldmFruRead, .readSummary, .getVersion, .getCapabilities, .getDigests], Becomes i s s.chip) ∧
       (∀ x c k, Becomes (.pldmSensorRead x) s s.chip ∧ Becomes (.clearExclusion c) s s.chip ∧ Becomes (.pldmUnsupported k) s s.chip) ∧
       (b.fwFailed = false → Becomes .pldmDiscovery s s.chip)) ∧
     (b.fwFailed = true ∨ b.lockkeeper = true ∨ b.standbyActive = true →
       Runs .pldmDiscovery s (w.answer 0 (leBytes 8 0x8000_0000_0000_0035))) ∧
     (b.lockkeeper = true ∨ b.standbyActive = true →
       Runs (.pldmSensorRead .inputVoltage) s (w.answer 0 (leBytes 8 s.chip.pwr.voltMv)) ∧
       Runs (.pldmSensorRead .inputCurrent) s (w.answer 0 (leBytes 8 (s.chip.pwr.measW * 1_000_000 / s.chip.pwr.voltMv))) ∧
       Runs (.pldmSensorRead .inputPower) s (w.answer 0 (leBytes 8 s.chip.pwr.measW)) ∧
       Runs (.pldmSensorRead .energy) s (w.answer 0 (leBytes 8 s.chip.pwr.energyMj)) ∧
       (∀ d, Runs (.pldmSensorRead (.dieTemp d)) s (w.answer 0 (leBytes 8 (w.diePow d).tempC))) ∧
       (∀ k, Runs (.pldmSensorRead (.stackTemp k)) s ({ w with chip.free := s.chip.free + 1 }.answer 0
         (leBytes 8 ((Config.freeWord s.chip.free).toNat % 256)))) ∧
       Runs (.pldmSensorRead .lockTimeState) s (w.answer 0 (leBytes 8 (match s.chip.time.st with | .acquiring => 0 | .locked => 1 | .lost => 2))) ∧
       Runs .pldmFruRead s ({ w with chip.free := s.chip.free + 1 }.answer 0
         (leBytes 8 (Config.freeWord s.chip.free).toNat ++ leBytes 8 s.fuse.serial.toNat ++ s.fuse.rev.map (BitVec.ofNat 8))) ∧
       Runs .readSummary s (w.answer 0 s.chip.flash.summary.bytes) ∧
       (∀ k : Byte, (1 ≤ k.toNat → k.toNat ≤ 9 → Becomes (.pldmUnsupported k) s s.chip) ∧
         (k.toNat = 0 ∨ 9 < k.toNat → Runs (.pldmUnsupported k) s (w.answer 5 []))))) ∧
   (∀ (s : State) (k : Fin 4) (v : W32) (img : List Byte) (r t : BitVec 384),
     let b := s.chip.boot
     let w := { Work.of s with chip.free := s.chip.free + 1 }
     let good := SMap.get 0 s.fuse.rollback k.val ≤ v.toNat ∧ Config.freeBool s.chip.free = true
     (b.fwFailed = false → b.lockkeeper = false → b.standbyActive = false → Becomes (.pldmFirmwareUpdate k v img r t) s s.chip) ∧
     (b.fwFailed = true ∨ b.lockkeeper = true ∨ b.standbyActive = true →
       (¬ good → Runs (.pldmFirmwareUpdate k v img r t) s (w.answer 1 [])) ∧
       (good → ∀ old : Firmware, (SMap.look s.chip.flash.firmware k.val = some old ∨
           (SMap.look s.chip.flash.firmware k.val = none ∧ old = { version := 0, pending := none, image := [], verified := false })) →
         let after := SMap.insert (SMap.erase s.chip.flash.firmware k.val) k.val { old with pending := some (v, img) }
         Runs (.pldmFirmwareUpdate k v img r t) s ({ w with chip.flash.firmware := after }.answer 0 [])))) ∧
   (∀ (s : State) (x : Exclusion), s.chip.boot.lockkeeper = true ∨ s.chip.boot.standbyActive = true →
     let w := Work.of s
     let m := s.chip.flash.summary
     let cleared (m : Summary) (r : Rec) : Work := ({ w with chip.flash.summary := m }.record r).answer 0 []
     (w.excluded x = false → Runs (.clearExclusion x) s (w.answer 0 [])) ∧
     (w.excluded x = true →
       (∀ l, x = .sirentLink l → Runs (.clearExclusion x) s (cleared { m with linkExcluded := setBit m.linkExcluded l.val false }
         { cls := 0x0701, kind := 6, id := l.val, summary := true })) ∧
       (∀ i y, x = .archiveWay i y → Runs (.clearExclusion x) s (cleared
         { m with waysDisabled := SMap.set 0 m.waysDisabled i.val (setBit (SMap.get 0 m.waysDisabled i.val) y.val false) }
         { cls := 0x0403, kind := 5, id := i.val, d0 := y.val, summary := true })) ∧
       (∀ c, x = .hbmChannel c → Runs (.clearExclusion x) s (cleared { m with hbmHealth := SMap.set 0 m.hbmHealth c.val 0 }
         { cls := if SMap.get 0 m.hbmHealth c.val = 2 then 0x0306 else 0x0305, kind := 3, id := c.val, summary := true })) ∧
       (∀ c, x = .lpdChannel c → Runs (.clearExclusion x) s (cleared { m with lpdHealth := SMap.set 0 m.lpdHealth c.val 0 }
         { cls := if SMap.get 0 m.lpdHealth c.val = 2 then 0x0306 else 0x0305, kind := 4, id := c.val, summary := true })) ∧
       (∀ d, x = .die d → Runs (.clearExclusion x) s (cleared { m with dieExcluded := setBit m.dieExcluded (min d.val 4) false }
         { cls := 0x0701, kind := 0, id := d.val, summary := true })))) ∧
   (∀ (s : State) (a : BitVec 7) (e : Byte),
     let b := s.chip.boot
     (b.powered = true → Becomes (.dynamicAddressAssignment a) s { s.chip with boot.i3cAddr := a }) ∧
     (b.powered = false → Becomes (.dynamicAddressAssignment a) s s.chip) ∧
     (b.powered = true → e ≠ 0 → e ≠ 0xFF → Becomes (.setEndpointId e) s { s.chip with boot.eid := e }) ∧
     (b.powered = false ∨ e = 0 ∨ e = 0xFF → Becomes (.setEndpointId e) s s.chip))) ∧
  (∀ s : State, s.chip.boot.lockkeeper = true ∨ s.chip.boot.standbyActive = true →
     let w := Work.of s
     let m := s.chip.mgmt
     let chain := s.fuse.chain
     let early := w.answer 0x7F [4]
     let wrong := w.answer 0x7F [1]
     let signed := { w with chip.free := s.chip.free + 2 }
     let sig : List Byte := leBytes 48 (Config.freeDigest s.chip.free).toNat ++ leBytes 48 (Config.freeDigest (s.chip.free + 1)).toNat
     Runs .getVersion s ({ w with chip.mgmt.versionSeen := true, chip.mgmt.capsSeen := false, chip.mgmt.negotiated := false }.answer 4
       (leBytes 2 0x1300)) ∧
     (m.versionSeen = false → Runs .getCapabilities s early) ∧
     (m.versionSeen = true → Runs .getCapabilities s ({ w with chip.mgmt.capsSeen := true }.answer 0x61 (leBytes 4 0x16))) ∧
     (∀ a b : Bool,
       (m.capsSeen = false → Runs (.negotiateAlgorithms a b) s early) ∧
       (m.capsSeen = true → a = false ∨ b = false → Runs (.negotiateAlgorithms a b) s wrong)) ∧
     (m.capsSeen = true → Runs (.negotiateAlgorithms true true) s ({ w with chip.mgmt.negotiated := true }.answer 0x63
       (leBytes 4 0x80 ++ leBytes 4 2))) ∧
     (m.negotiated = false → Runs .getDigests s early ∧
       ∀ k o n c i, Runs (.getCertificate k o n) s early ∧ Runs (.challenge k c) s early ∧ Runs (.getMeasurements i c) s early) ∧
     (m.negotiated = true →
       Runs .getDigests s (w.answer 1 (leBytes 1 1 ++ digestBytes chain)) ∧
       (∀ k o n c, k ≠ 0 → Runs (.getCertificate k o n) s wrong ∧ Runs (.challenge k c) s wrong) ∧
       (∀ o n, chain.length ≤ o.toNat → Runs (.getCertificate 0 o n) s wrong) ∧
       (∀ o n, o.toNat < chain.length →
         let part := (chain.drop o.toNat).take n.toNat
         Runs (.getCertificate 0 o n) s (w.answer 2
           (leBytes 2 part.length ++ leBytes 2 (chain.length - o.toNat - part.length) ++ part))) ∧
       (∀ c, Runs (.challenge 0 c) s (signed.answer 3 (digestBytes chain ++ leBytes 32 c.toNat ++ sig))) ∧
       (∀ (i : Byte) c,
         (i = 0 → Runs (.getMeasurements i c) s (w.answer 0x60 [7])) ∧
         (7 < i.toNat → i ≠ 0xFF → Runs (.getMeasurements i c) s wrong) ∧
         (1 ≤ i.toNat → i.toNat ≤ 7 → Runs (.getMeasurements i c) s (signed.answer 0x60
           (leBytes 1 i.toNat ++ signed.measurement i.toNat ++ leBytes 32 c.toNat ++ sig))) ∧
         (i = 0xFF → Runs (.getMeasurements i c) s (signed.answer 0x60
           ((List.range 7).flatMap (fun k => leBytes 1 (k + 1) ++ signed.measurement (k + 1)) ++ leBytes 32 c.toNat ++ sig))))))


/-! ## Rules stated whole -/

/-- A global address of the module's own ID reaches what the local address 0x00_0100_0000_0000 + OFFSET reaches, with the same checks, and nothing of
the fabric (R27). -/
def Obligations.OwnModuleAddresses : Prop :=
  ∀ (w : Work) (who : Who) (a n : Nat) (isWrite : Bool), 2 ^ 55 ≤ a → a < 2 ^ 56 → a / 2 ^ 40 % 2 ^ 15 = w.moduleId →
    let b := 0x100_0000_0000 + a % 2 ^ 40
    w.local_ a = b ∧ w.place a = w.place b ∧ (∀ m o, w.place a ≠ .glob m o) ∧
    (a % 2 ^ 40 + n ≤ 2 ^ 40 → w.acc who a n isWrite = w.acc who b n isWrite ∧ w.vread a n = w.vread b n ∧ w.vpoison a n = w.vpoison b n)

/-- The HBM window is interleaved over the n mapped channels in ascending number, 4096 bytes at a time; it is vacant beyond them; different offsets reach
different bytes; a global address of the own module reaches what its OFFSET does; n times 4096 bytes touch every mapped channel (R384). -/
def Obligations.ChannelInterleave : Prop :=
  ∀ w : Work,
    let n := w.mapped.length
    w.mapped.Pairwise (· < ·) ∧ (∀ c : Nat, c ∈ w.mapped ↔ c < 256 ∧ bit w.chip.cht.mapNow c = true) ∧
    (∀ o, o < 2 ^ 40 → n * 2_684_354_560 ≤ o → w.place (0x100_0000_0000 + o) = .vacant) ∧
    (∀ o, o < n * 2_684_354_560 →
      (w.chip.boot.hbmWindow = true → w.place (0x100_0000_0000 + o) = .hbm o) ∧
      w.mapped[o / 4096 % n]? = some (w.hbmAt o).1 ∧ (w.hbmAt o).2 = o / 4096 / n * 4096 + o % 4096 ∧
      (w.hbmAt o).2 < 2_684_354_560 ∧ ∀ q, q < n * 2_684_354_560 → w.hbmAt q = w.hbmAt o → q = o) ∧
    (∀ a, 2 ^ 55 ≤ a → a < 2 ^ 56 → a / 2 ^ 40 % 2 ^ 15 = w.moduleId → w.place a = w.place (0x100_0000_0000 + a % 2 ^ 40)) ∧
    (∀ o c, c ∈ w.mapped → o + n * 4096 ≤ n * 2_684_354_560 → ∃ q, o ≤ q ∧ q < o + n * 4096 ∧ (w.hbmAt q).1 = c)

/-- An order must lie at least 2 µs and at most 86,400 s after LT_NOW, or it is refused as too soon or too far and nothing changes (R114). -/
def Obligations.OrderBounds : Prop :=
  ∀ (w : Work) (poster : Poster) (action at_ pound notice arg : Nat), w.locked = true →
    let r := w.post_ poster action at_ pound notice arg
    (at_ < w.now + 2_000 → r.1 = w ∧ r.2.1 = ltTooSoon) ∧
    (w.now + 86_400_000_000_000 < at_ → r.1 = w ∧ r.2.1 = ltTooFar) ∧
    (w.now + 2_000 ≤ at_ → at_ ≤ w.now + 86_400_000_000_000 → r.2.1 ≠ ltTooSoon ∧ r.2.1 ≠ ltTooFar)

/-- A finite nonzero value with 2^e ≤ |v| < 2^(e+1) counts in bin min(63, max(0, floor((e + 64) / 2))); bin 0 holds every e of -63 or below, bins 1 to
62 two exponents each, bin 63 every e of 62 or above (R228). -/
def Obligations.HistogramBins : Prop :=
  (∀ (g : LedgerSlot) (neg keep flushed clipped out : Bool) (mag : Rat) (e : Int) (o : Outcome), pow2 e ≤ mag → mag < pow2 (e + 1) →
    ∀ j, SMap.get 0 (g.count ⟨.fin neg mag, keep, flushed, clipped⟩ o out).bins j =
      if (j : Int) = min 63 (max 0 ((e + 64) / 2)) then satAdd 32 (SMap.get 0 g.bins j) 1 else SMap.get 0 g.bins j) ∧
  (∀ e : Int, (ledgerBin e = 0 ↔ e ≤ -63) ∧ (ledgerBin e = 63 ↔ 62 ≤ e) ∧
    ∀ b : Nat, 1 ≤ b → b ≤ 62 → (ledgerBin e = b ↔ e = 2 * (b : Int) - 64 ∨ e = 2 * (b : Int) - 63))

/-- A module that forwards a message adds one to its HOPS; one that arrives for another module with HOPS 63 is dropped, and a request is answered with an
error response of status 0x0104 (R439). -/
def Obligations.HopLimit : Prop :=
  ∀ (w : Work) (l : Nat) (m : NylMsg), m.body.length = 48 →
    (m.hops < 63 → ∀ k, w.route (w.transitPound l) m.dst m.src m.offset = some k →
      ∃ e : NylMsg, ((w.forward l m).link k).queue = (w.link k).queue ++ [e] ∧ e.hops = m.hops + 1 ∧ e.dst = m.dst ∧ e.src = m.src ∧
        e.op = m.op ∧ e.offset = m.offset ∧ e.tag = m.tag ∧ e.data = m.data) ∧
    (m.hops = 63 → m.isRequest = false → w.forward l m = w) ∧
    (m.hops = 63 → m.isRequest = true → ∀ k, w.route w.transitDefault m.src w.moduleId m.offset = some k →
      ∃ e : NylMsg, ((w.forward l m).link k).queue = (w.link k).queue ++ [e] ∧ e.op = 0x4F ∧ e.status = 0x104 ∧ e.dst = m.src ∧
        e.tag = m.tag ∧ e.data = [] ∧ ∀ j, j ≠ k → (w.forward l m).link j = w.link j)
end

