-- ==== Sys2Proof/Laws/Arms.lean ====
section
/-!
SUPPORT. One equation for each arm of `exec`, so that no proof unfolds the whole match.
-/

namespace Sys2Proof.Machine

@[simp] theorem exec_registerAccessMalformed {core addr size isWrite value} {s : State} :
    exec (.registerAccessMalformed core addr size isWrite value) s = execRegisterAccessMalformed core addr size isWrite value s := rfl
@[simp] theorem exec_registerWrite {core addr size value} {s : State} :
    exec (.registerWrite core addr size value) s = execRegisterWrite core addr size value s := rfl
@[simp] theorem exec_hostLoad {core addr size pbmt} {s : State} :
    exec (.hostLoad core addr size pbmt) s = execHostLoad core addr size pbmt s := rfl
@[simp] theorem exec_hostStore {core addr size value pbmt} {s : State} :
    exec (.hostStore core addr size value pbmt) s = execHostStore core addr size value pbmt s := rfl
@[simp] theorem exec_hostNtStore {core addr size value pbmt} {s : State} :
    exec (.hostNtStore core addr size value pbmt) s = execHostNtStore core addr size value pbmt s := rfl
@[simp] theorem exec_hostAmo {core op addr size value compare pbmt} {s : State} :
    exec (.hostAmo core op addr size value compare pbmt) s = execHostAmo core op addr size value compare pbmt s := rfl
@[simp] theorem exec_hostLr {core addr size pbmt} {s : State} :
    exec (.hostLr core addr size pbmt) s = execHostLr core addr size pbmt s := rfl
@[simp] theorem exec_hostSc {core addr size value pbmt} {s : State} :
    exec (.hostSc core addr size value pbmt) s = execHostSc core addr size value pbmt s := rfl
@[simp] theorem exec_hostFence {core pred succ} {s : State} :
    exec (.hostFence core pred succ) s = execHostFence core pred succ s := rfl
@[simp] theorem exec_fenceI {core} {s : State} :
    exec (.fenceI core) s = execFenceI core s := rfl
@[simp] theorem exec_cboZero {core addr pbmt} {s : State} :
    exec (.cboZero core addr pbmt) s = execCboZero core addr pbmt s := rfl
@[simp] theorem exec_cboClean {core addr pbmt} {s : State} :
    exec (.cboClean core addr pbmt) s = execCboClean core addr pbmt s := rfl
@[simp] theorem exec_cboFlush {core addr pbmt} {s : State} :
    exec (.cboFlush core addr pbmt) s = execCboFlush core addr pbmt s := rfl
@[simp] theorem exec_cboInval {core addr pbmt} {s : State} :
    exec (.cboInval core addr pbmt) s = execCboInval core addr pbmt s := rfl
@[simp] theorem exec_wcEntryTimeout {core line} {s : State} :
    exec (.wcEntryTimeout core line) s = execWcEntryTimeout core line s := rfl
@[simp] theorem exec_storeDropped {core fromWc} {s : State} :
    exec (.storeDropped core fromWc) s = execStoreDropped core fromWc s := rfl
@[simp] theorem exec_referenceLost {s : State} :
    exec (.referenceLost) s = execReferenceLost s := rfl
@[simp] theorem exec_srtLanesDeskewed {link side} {s : State} :
    exec (.srtLanesDeskewed link side) s = execSrtLanesDeskewed link side s := rfl
@[simp] theorem exec_srtIdentityTimer {link side} {s : State} :
    exec (.srtIdentityTimer link side) s = execSrtIdentityTimer link side s := rfl
@[simp] theorem exec_srtIdentity {link side flit} {s : State} :
    exec (.srtIdentity link side flit) s = execSrtIdentity link side flit s := rfl
@[simp] theorem exec_srtSelect {link side flit} {s : State} :
    exec (.srtSelect link side flit) s = execSrtSelect link side flit s := rfl
@[simp] theorem exec_srtFlitSend {link side isData vc payload} {s : State} :
    exec (.srtFlitSend link side isData vc payload) s = execSrtFlitSend link side isData vc payload s := rfl
@[simp] theorem exec_srtMessageFlit {link side flit} {s : State} :
    exec (.srtMessageFlit link side flit) s = execSrtMessageFlit link side flit s := rfl
@[simp] theorem exec_srtDataFlit {link side flit} {s : State} :
    exec (.srtDataFlit link side flit) s = execSrtDataFlit link side flit s := rfl
@[simp] theorem exec_srtCreditFlit {link side flit} {s : State} :
    exec (.srtCreditFlit link side flit) s = execSrtCreditFlit link side flit s := rfl
@[simp] theorem exec_srtIdleFlit {link side flit} {s : State} :
    exec (.srtIdleFlit link side flit) s = execSrtIdleFlit link side flit s := rfl
@[simp] theorem exec_srtCreditReturn {link side vc} {s : State} :
    exec (.srtCreditReturn link side vc) s = execSrtCreditReturn link side vc s := rfl
@[simp] theorem exec_srtAckTimer {link side} {s : State} :
    exec (.srtAckTimer link side) s = execSrtAckTimer link side s := rfl
@[simp] theorem exec_srtAck {link side flit} {s : State} :
    exec (.srtAck link side flit) s = execSrtAck link side flit s := rfl
@[simp] theorem exec_srtRetry {link side flit} {s : State} :
    exec (.srtRetry link side flit) s = execSrtRetry link side flit s := rfl
@[simp] theorem exec_srtRetryTimeout {link side} {s : State} :
    exec (.srtRetryTimeout link side) s = execSrtRetryTimeout link side s := rfl
@[simp] theorem exec_srtLostRequestPoison {link} {s : State} :
    exec (.srtLostRequestPoison link) s = execSrtLostRequestPoison link s := rfl
@[simp] theorem exec_indexExchange {active spare} {s : State} :
    exec (.indexExchange active spare) s = execIndexExchange active spare s := rfl
@[simp] theorem exec_exchangeDone {active spare} {s : State} :
    exec (.exchangeDone active spare) s = execExchangeDone active spare s := rfl
@[simp] theorem exec_chtLoad {core} {s : State} :
    exec (.chtLoad core) s = execChtLoad core s := rfl
@[simp] theorem exec_chtCancel {core} {s : State} :
    exec (.chtCancel core) s = execChtCancel core s := rfl
@[simp] theorem exec_chtBadCommand {core op} {s : State} :
    exec (.chtBadCommand core op) s = execChtBadCommand core op s := rfl
@[simp] theorem exec_chtVerifyDone {s : State} :
    exec (.chtVerifyDone) s = execChtVerifyDone s := rfl
@[simp] theorem exec_charterActivation {s : State} :
    exec (.charterActivation) s = execCharterActivation s := rfl
@[simp] theorem exec_poundDrainTimeout {pound} {s : State} :
    exec (.poundDrainTimeout pound) s = execPoundDrainTimeout pound s := rfl
@[simp] theorem exec_poundDrainEnd {pound} {s : State} :
    exec (.poundDrainEnd pound) s = execPoundDrainEnd pound s := rfl
@[simp] theorem exec_scrubDone {pound} {s : State} :
    exec (.scrubDone pound) s = execScrubDone pound s := rfl
@[simp] theorem exec_poundStartDone {pound} {s : State} :
    exec (.poundStartDone pound) s = execPoundStartDone pound s := rfl
@[simp] theorem exec_lockPpsEdge {s : State} :
    exec (.lockPpsEdge) s = execLockPpsEdge s := rfl
@[simp] theorem exec_timeOfDay {time} {s : State} :
    exec (.timeOfDay time) s = execTimeOfDay time s := rfl
@[simp] theorem exec_ptpSync {port ptpTime} {s : State} :
    exec (.ptpSync port ptpTime) s = execPtpSync port ptpTime s := rfl
@[simp] theorem exec_ptpPortReturn {s : State} :
    exec (.ptpPortReturn) s = execPtpPortReturn s := rfl
@[simp] theorem exec_ltSourceTimeout {source} {s : State} :
    exec (.ltSourceTimeout source) s = execLtSourceTimeout source s := rfl
@[simp] theorem exec_setTimeConfig {ctrl epochOffset} {s : State} :
    exec (.setTimeConfig ctrl epochOffset) s = execSetTimeConfig ctrl epochOffset s := rfl
@[simp] theorem exec_ltOrderPost {core pound} {s : State} :
    exec (.ltOrderPost core pound) s = execLtOrderPost core pound s := rfl
@[simp] theorem exec_ltOrderCancel {core pound index} {s : State} :
    exec (.ltOrderCancel core pound index) s = execLtOrderCancel core pound index s := rfl
@[simp] theorem exec_ltOrderBadOp {core pound op} {s : State} :
    exec (.ltOrderBadOp core pound op) s = execLtOrderBadOp core pound op s := rfl
@[simp] theorem exec_lockOrderNotice {index} {s : State} :
    exec (.lockOrderNotice index) s = execLockOrderNotice index s := rfl
@[simp] theorem exec_operatingPointChange {index} {s : State} :
    exec (.operatingPointChange index) s = execOperatingPointChange index s := rfl
@[simp] theorem exec_powerCapStep {index} {s : State} :
    exec (.powerCapStep index) s = execPowerCapStep index s := rfl
@[simp] theorem exec_postCapStep {at_ noticeUs arg} {s : State} :
    exec (.postCapStep at_ noticeUs arg) s = execPostCapStep at_ noticeUs arg s := rfl
@[simp] theorem exec_immediateCap {arg} {s : State} :
    exec (.immediateCap arg) s = execImmediateCap arg s := rfl
@[simp] theorem exec_hbmRetrainingWindow {index} {s : State} :
    exec (.hbmRetrainingWindow index) s = execHbmRetrainingWindow index s := rfl
@[simp] theorem exec_hbmRetrainTimeout {channel} {s : State} :
    exec (.hbmRetrainTimeout channel) s = execHbmRetrainTimeout channel s := rfl
@[simp] theorem exec_hbmRetrainPost {channel} {s : State} :
    exec (.hbmRetrainPost channel) s = execHbmRetrainPost channel s := rfl
@[simp] theorem exec_auditStart {index} {s : State} :
    exec (.auditStart index) s = execAuditStart index s := rfl
@[simp] theorem exec_collationWindow {index} {s : State} :
    exec (.collationWindow index) s = execCollationWindow index s := rfl
@[simp] theorem exec_collationWindowEnd {pound} {s : State} :
    exec (.collationWindowEnd pound) s = execCollationWindowEnd pound s := rfl
@[simp] theorem exec_checkpointFence {index} {s : State} :
    exec (.checkpointFence index) s = execCheckpointFence index s := rfl
@[simp] theorem exec_checkpointFenceReached {pound} {s : State} :
    exec (.checkpointFenceReached pound) s = execCheckpointFenceReached pound s := rfl
@[simp] theorem exec_frequencyGroupEpoch {index} {s : State} :
    exec (.frequencyGroupEpoch index) s = execFrequencyGroupEpoch index s := rfl
@[simp] theorem exec_fgLeaderCollect {pound} {s : State} :
    exec (.fgLeaderCollect pound) s = execFgLeaderCollect pound s := rfl
@[simp] theorem exec_fgRootCollect {pound} {s : State} :
    exec (.fgRootCollect pound) s = execFgRootCollect pound s := rfl
@[simp] theorem exec_fgLeaderDistribute {pound} {s : State} :
    exec (.fgLeaderDistribute pound) s = execFgLeaderDistribute pound s := rfl
@[simp] theorem exec_fgMemberRead {pound} {s : State} :
    exec (.fgMemberRead pound) s = execFgMemberRead pound s := rfl
@[simp] theorem exec_tileLoad {tile hart dst rs1 imm size} {s : State} :
    exec (.tileLoad tile hart dst rs1 imm size) s = execTileLoad tile hart dst rs1 imm size s := rfl
@[simp] theorem exec_tileStore {tile hart src rs1 imm size} {s : State} :
    exec (.tileStore tile hart src rs1 imm size) s = execTileStore tile hart src rs1 imm size s := rfl
@[simp] theorem exec_tileAmo {tile hart op rd rs1 rs2 size} {s : State} :
    exec (.tileAmo tile hart op rd rs1 rs2 size) s = execTileAmo tile hart op rd rs1 rs2 size s := rfl
@[simp] theorem exec_tileLr {tile hart rd rs1 size} {s : State} :
    exec (.tileLr tile hart rd rs1 size) s = execTileLr tile hart rd rs1 size s := rfl
@[simp] theorem exec_tileSc {tile hart rd rs1 rs2 size} {s : State} :
    exec (.tileSc tile hart rd rs1 rs2 size) s = execTileSc tile hart rd rs1 rs2 size s := rfl
@[simp] theorem exec_semValueStore {tile sem rs2} {s : State} :
    exec (.semValueStore tile sem rs2) s = execSemValueStore tile sem rs2 s := rfl
@[simp] theorem exec_signal {tile hart sem rd rs2} {s : State} :
    exec (.signal tile hart sem rd rs2) s = execSignal tile hart sem rd rs2 s := rfl
@[simp] theorem exec_wait {tile hart sem rd rs2} {s : State} :
    exec (.wait tile hart sem rd rs2) s = execWait tile hart sem rd rs2 s := rfl
@[simp] theorem exec_waitReturn {tile hart} {s : State} :
    exec (.waitReturn tile hart) s = execWaitReturn tile hart s := rfl
@[simp] theorem exec_vectorCoreStart {tile vcore rs2} {s : State} :
    exec (.vectorCoreStart tile vcore rs2) s = execVectorCoreStart tile vcore rs2 s := rfl
@[simp] theorem exec_vectorEcall {tile vcore} {s : State} :
    exec (.vectorEcall tile vcore) s = execVectorEcall tile vcore s := rfl
@[simp] theorem exec_vectorFenceI {tile vcore} {s : State} :
    exec (.vectorFenceI tile vcore) s = execVectorFenceI tile vcore s := rfl
@[simp] theorem exec_vhexp2V {tile vcore vd vs2 vm} {s : State} :
    exec (.vhexp2V tile vcore vd vs2 vm) s = execVhexp2V tile vcore vd vs2 vm s := rfl
@[simp] theorem exec_vhlog2V {tile vcore vd vs2 vm} {s : State} :
    exec (.vhlog2V tile vcore vd vs2 vm) s = execVhlog2V tile vcore vd vs2 vm s := rfl
@[simp] theorem exec_vhrecV {tile vcore vd vs2 vm} {s : State} :
    exec (.vhrecV tile vcore vd vs2 vm) s = execVhrecV tile vcore vd vs2 vm s := rfl
@[simp] theorem exec_vhrsqrtV {tile vcore vd vs2 vm} {s : State} :
    exec (.vhrsqrtV tile vcore vd vs2 vm) s = execVhrsqrtV tile vcore vd vs2 vm s := rfl
@[simp] theorem exec_tvflushWrite {tile vcore value} {s : State} :
    exec (.tvflushWrite tile vcore value) s = execTvflushWrite tile vcore value s := rfl
@[simp] theorem exec_tmcompWrite {tile value} {s : State} :
    exec (.tmcompWrite tile value) s = execTmcompWrite tile value s := rfl
@[simp] theorem exec_ecall {tile} {s : State} :
    exec (.ecall tile) s = execEcall tile s := rfl
@[simp] theorem exec_tileEndWaitDone {tile} {s : State} :
    exec (.tileEndWaitDone tile) s = execTileEndWaitDone tile s := rfl
@[simp] theorem exec_tileTimeLimit {tile} {s : State} :
    exec (.tileTimeLimit tile) s = execTileTimeLimit tile s := rfl
@[simp] theorem exec_moverWordStore {tile mover word rs2} {s : State} :
    exec (.moverWordStore tile mover word rs2) s = execMoverWordStore tile mover word rs2 s := rfl
@[simp] theorem exec_moverSubmit {tile mover rs2} {s : State} :
    exec (.moverSubmit tile mover rs2) s = execMoverSubmit tile mover rs2 s := rfl
@[simp] theorem exec_moverSubmitResume {tile mover} {s : State} :
    exec (.moverSubmitResume tile mover) s = execMoverSubmitResume tile mover s := rfl
@[simp] theorem exec_moverDescriptorStart {tile mover} {s : State} :
    exec (.moverDescriptorStart tile mover) s = execMoverDescriptorStart tile mover s := rfl
@[simp] theorem exec_moverDescriptorComplete {tile mover} {s : State} :
    exec (.moverDescriptorComplete tile mover) s = execMoverDescriptorComplete tile mover s := rfl
@[simp] theorem exec_moverDescriptorFail {tile mover} {s : State} :
    exec (.moverDescriptorFail tile mover) s = execMoverDescriptorFail tile mover s := rfl
@[simp] theorem exec_tlDisable {core tile} {s : State} :
    exec (.tlDisable core tile) s = execTlDisable core tile s := rfl
@[simp] theorem exec_tlEnable {core tile} {s : State} :
    exec (.tlEnable core tile) s = execTlEnable core tile s := rfl
@[simp] theorem exec_tlReset {core tile} {s : State} :
    exec (.tlReset core tile) s = execTlReset core tile s := rfl
@[simp] theorem exec_tileDrainTimeout {tile} {s : State} :
    exec (.tileDrainTimeout tile) s = execTileDrainTimeout tile s := rfl
@[simp] theorem exec_tlSemSignal {core tile sem amount} {s : State} :
    exec (.tlSemSignal core tile sem amount) s = execTlSemSignal core tile sem amount s := rfl
@[simp] theorem exec_tlFaultClear {core tile} {s : State} :
    exec (.tlFaultClear core tile) s = execTlFaultClear core tile s := rfl
@[simp] theorem exec_tlLgClear {core tile slots} {s : State} :
    exec (.tlLgClear core tile slots) s = execTlLgClear core tile slots s := rfl
@[simp] theorem exec_tlOsLastClear {core tile} {s : State} :
    exec (.tlOsLastClear core tile) s = execTlOsLastClear core tile s := rfl
@[simp] theorem exec_hmset {tile index rs1 rd} {s : State} :
    exec (.hmset tile index rs1 rd) s = execHmset tile index rs1 rd s := rfl
@[simp] theorem exec_hmget {tile index rs1 rd} {s : State} :
    exec (.hmget tile index rs1 rd) s = execHmget tile index rs1 rd s := rfl
@[simp] theorem exec_hmma {tile funct7 rs2 rs1 rd} {s : State} :
    exec (.hmma tile funct7 rs2 rs1 rd) s = execHmma tile funct7 rs2 rs1 rd s := rfl
@[simp] theorem exec_hmdrain {tile funct7 rs2 rs1 rd} {s : State} :
    exec (.hmdrain tile funct7 rs2 rs1 rd) s = execHmdrain tile funct7 rs2 rs1 rd s := rfl
@[simp] theorem exec_hmacc {tile funct7 rs2 rs1 rd} {s : State} :
    exec (.hmacc tile funct7 rs2 rs1 rd) s = execHmacc tile funct7 rs2 rs1 rd s := rfl
@[simp] theorem exec_hmsig {tile funct7 rs2 rs1 rd} {s : State} :
    exec (.hmsig tile funct7 rs2 rs1 rd) s = execHmsig tile funct7 rs2 rs1 rd s := rfl
@[simp] theorem exec_hmfence {tile funct7 rs2 rs1 rd} {s : State} :
    exec (.hmfence tile funct7 rs2 rs1 rd) s = execHmfence tile funct7 rs2 rs1 rd s := rfl
@[simp] theorem exec_hmfenceReturn {tile} {s : State} :
    exec (.hmfenceReturn tile) s = execHmfenceReturn tile s := rfl
@[simp] theorem exec_hmmaStart {tile} {s : State} :
    exec (.hmmaStart tile) s = execHmmaStart tile s := rfl
@[simp] theorem exec_hmaccStart {tile} {s : State} :
    exec (.hmaccStart tile) s = execHmaccStart tile s := rfl
@[simp] theorem exec_hmmaComplete {tile} {s : State} :
    exec (.hmmaComplete tile) s = execHmmaComplete tile s := rfl
@[simp] theorem exec_hmaccComplete {tile} {s : State} :
    exec (.hmaccComplete tile) s = execHmaccComplete tile s := rfl
@[simp] theorem exec_drainActive {tile} {s : State} :
    exec (.drainActive tile) s = execDrainActive tile s := rfl
@[simp] theorem exec_drainComplete {tile fault} {s : State} :
    exec (.drainComplete tile fault) s = execDrainComplete tile fault s := rfl
@[simp] theorem exec_replayAttempt2Start {tile} {s : State} :
    exec (.replayAttempt2Start tile) s = execReplayAttempt2Start tile s := rfl
@[simp] theorem exec_replayAttemptDone {tile fault} {s : State} :
    exec (.replayAttemptDone tile fault) s = execReplayAttemptDone tile fault s := rfl
@[simp] theorem exec_hmsigSignal {tile} {s : State} :
    exec (.hmsigSignal tile) s = execHmsigSignal tile s := rfl
@[simp] theorem exec_outPortTake {tile port} {s : State} :
    exec (.outPortTake tile port) s = execOutPortTake tile port s := rfl
@[simp] theorem exec_outPortSlotRead {tile port} {s : State} :
    exec (.outPortSlotRead tile port) s = execOutPortSlotRead tile port s := rfl
@[simp] theorem exec_inPortUnit {tile port errors resentErrors} {s : State} :
    exec (.inPortUnit tile port errors resentErrors) s = execInPortUnit tile port errors resentErrors s := rfl
@[simp] theorem exec_inPortSlotWritten {tile port} {s : State} :
    exec (.inPortSlotWritten tile port) s = execInPortSlotWritten tile port s := rfl
@[simp] theorem exec_inPortReturnTake {tile port} {s : State} :
    exec (.inPortReturnTake tile port) s = execInPortReturnTake tile port s := rfl
@[simp] theorem exec_canalCreditArrive {tile port} {s : State} :
    exec (.canalCreditArrive tile port) s = execCanalCreditArrive tile port s := rfl
@[simp] theorem exec_canalHeldTimeout {tile port} {s : State} :
    exec (.canalHeldTimeout tile port) s = execCanalHeldTimeout tile port s := rfl
@[simp] theorem exec_doorbell {core queue size value} {s : State} :
    exec (.doorbell core queue size value) s = execDoorbell core queue size value s := rfl
@[simp] theorem exec_commandFetch {cp} {s : State} :
    exec (.commandFetch cp) s = execCommandFetch cp s := rfl
@[simp] theorem exec_nop {queue} {s : State} :
    exec (.nop queue) s = execNop queue s := rfl
@[simp] theorem exec_launch {queue} {s : State} :
    exec (.launch queue) s = execLaunch queue s := rfl
@[simp] theorem exec_launchStart {queue} {s : State} :
    exec (.launchStart queue) s = execLaunchStart queue s := rfl
@[simp] theorem exec_loadingEnd {queue seq} {s : State} :
    exec (.loadingEnd queue seq) s = execLoadingEnd queue seq s := rfl
@[simp] theorem exec_launchComplete {queue seq} {s : State} :
    exec (.launchComplete queue seq) s = execLaunchComplete queue seq s := rfl
@[simp] theorem exec_move {queue} {s : State} :
    exec (.move queue) s = execMove queue s := rfl
@[simp] theorem exec_moveComplete {queue seq} {s : State} :
    exec (.moveComplete queue seq) s = execMoveComplete queue seq s := rfl
@[simp] theorem exec_write {queue} {s : State} :
    exec (.write queue) s = execWrite queue s := rfl
@[simp] theorem exec_writeComplete {queue seq} {s : State} :
    exec (.writeComplete queue seq) s = execWriteComplete queue seq s := rfl
@[simp] theorem exec_semWait {queue} {s : State} :
    exec (.semWait queue) s = execSemWait queue s := rfl
@[simp] theorem exec_semWaitPoll {queue seq} {s : State} :
    exec (.semWaitPoll queue seq) s = execSemWaitPoll queue seq s := rfl
@[simp] theorem exec_semWaitTimeout {queue seq} {s : State} :
    exec (.semWaitTimeout queue seq) s = execSemWaitTimeout queue seq s := rfl
@[simp] theorem exec_semSignal {queue} {s : State} :
    exec (.semSignal queue) s = execSemSignal queue s := rfl
@[simp] theorem exec_collective {queue} {s : State} :
    exec (.collective queue) s = execCollective queue s := rfl
@[simp] theorem exec_phase {queue} {s : State} :
    exec (.phase queue) s = execPhase queue s := rfl
@[simp] theorem exec_hint {queue} {s : State} :
    exec (.hint queue) s = execHint queue s := rfl
@[simp] theorem exec_safePoint {queue} {s : State} :
    exec (.safePoint queue) s = execSafePoint queue s := rfl
@[simp] theorem exec_waitTime {queue} {s : State} :
    exec (.waitTime queue) s = execWaitTime queue s := rfl
@[simp] theorem exec_waitTimeReached {queue seq} {s : State} :
    exec (.waitTimeReached queue seq) s = execWaitTimeReached queue seq s := rfl
@[simp] theorem exec_ledgerRead {queue} {s : State} :
    exec (.ledgerRead queue) s = execLedgerRead queue s := rfl
@[simp] theorem exec_opcodeReserved {queue} {s : State} :
    exec (.opcodeReserved queue) s = execOpcodeReserved queue s := rfl
@[simp] theorem exec_completionWrite {cq} {s : State} :
    exec (.completionWrite cq) s = execCompletionWrite cq s := rfl
@[simp] theorem exec_ackRead {cq} {s : State} :
    exec (.ackRead cq) s = execAckRead cq s := rfl
@[simp] theorem exec_msiWrite {cq} {s : State} :
    exec (.msiWrite cq) s = execMsiWrite cq s := rfl
@[simp] theorem exec_cpQselWrite {core cp pound size high value} {s : State} :
    exec (.cpQselWrite core cp pound size high value) s = execCpQselWrite core cp pound size high value s := rfl
@[simp] theorem exec_cpQctxWrite {core cp pound word size high value} {s : State} :
    exec (.cpQctxWrite core cp pound word size high value) s = execCpQctxWrite core cp pound word size high value s := rfl
@[simp] theorem exec_queueEnable {core cp pound} {s : State} :
    exec (.queueEnable core cp pound) s = execQueueEnable core cp pound s := rfl
@[simp] theorem exec_queueDisable {core cp pound} {s : State} :
    exec (.queueDisable core cp pound) s = execQueueDisable core cp pound s := rfl
@[simp] theorem exec_cpQcmdBad {core cp pound op} {s : State} :
    exec (.cpQcmdBad core cp pound op) s = execCpQcmdBad core cp pound op s := rfl
@[simp] theorem exec_queueDrainTimeout {queue} {s : State} :
    exec (.queueDrainTimeout queue) s = execQueueDrainTimeout queue s := rfl
@[simp] theorem exec_queueDrainEnd {queue} {s : State} :
    exec (.queueDrainEnd queue) s = execQueueDrainEnd queue s := rfl
@[simp] theorem exec_cpNoticeWrite {core pound size high value} {s : State} :
    exec (.cpNoticeWrite core pound size high value) s = execCpNoticeWrite core pound size high value s := rfl
@[simp] theorem exec_rdshared {home core line nature} {s : State} :
    exec (.rdshared home core line nature) s = execRdshared home core line nature s := rfl
@[simp] theorem exec_rdunique {home core line nature} {s : State} :
    exec (.rdunique home core line nature) s = execRdunique home core line nature s := rfl
@[simp] theorem exec_upgrade {home core line nature} {s : State} :
    exec (.upgrade home core line nature) s = execUpgrade home core line nature s := rfl
@[simp] theorem exec_zeroline {home core line} {s : State} :
    exec (.zeroline home core line) s = execZeroline home core line s := rfl
@[simp] theorem exec_cleanline {home core line} {s : State} :
    exec (.cleanline home core line) s = execCleanline home core line s := rfl
@[simp] theorem exec_flushline {home core line} {s : State} :
    exec (.flushline home core line) s = execFlushline home core line s := rfl
@[simp] theorem exec_wbreq {home core line} {s : State} :
    exec (.wbreq home core line) s = execWbreq home core line s := rfl
@[simp] theorem exec_rdpref {home core line nature} {s : State} :
    exec (.rdpref home core line nature) s = execRdpref home core line nature s := rfl
@[simp] theorem exec_rdvol {home agent line nature} {s : State} :
    exec (.rdvol home agent line nature) s = execRdvol home agent line nature s := rfl
@[simp] theorem exec_wrplain {home agent line mask data} {s : State} :
    exec (.wrplain home agent line mask data) s = execWrplain home agent line mask data s := rfl
@[simp] theorem exec_wrpublish {home agent line mask data} {s : State} :
    exec (.wrpublish home agent line mask data) s = execWrpublish home agent line mask data s := rfl
@[simp] theorem exec_wrfull {home agent line data} {s : State} :
    exec (.wrfull home agent line data) s = execWrfull home agent line data s := rfl
@[simp] theorem exec_atomic {home agent op addr size value compare} {s : State} :
    exec (.atomic home agent op addr size value compare) s = execAtomic home agent op addr size value compare s := rfl
@[simp] theorem exec_snpshared {home core line requester} {s : State} :
    exec (.snpshared home core line requester) s = execSnpshared home core line requester s := rfl
@[simp] theorem exec_snpunique {home core line requester} {s : State} :
    exec (.snpunique home core line requester) s = execSnpunique home core line requester s := rfl
@[simp] theorem exec_snpinv {home core line} {s : State} :
    exec (.snpinv home core line) s = execSnpinv home core line s := rfl
@[simp] theorem exec_snpflush {home core line} {s : State} :
    exec (.snpflush home core line) s = execSnpflush home core line s := rfl
@[simp] theorem exec_snpclean {home core line} {s : State} :
    exec (.snpclean home core line) s = execSnpclean home core line s := rfl
@[simp] theorem exec_snprecall {home core line} {s : State} :
    exec (.snprecall home core line) s = execSnprecall home core line s := rfl
@[simp] theorem exec_snpcopy {home core line} {s : State} :
    exec (.snpcopy home core line) s = execSnpcopy home core line s := rfl
@[simp] theorem exec_comp {home agent line} {s : State} :
    exec (.comp home agent line) s = execComp home agent line s := rfl
@[simp] theorem exec_retry {home agent line} {s : State} :
    exec (.retry home agent line) s = execRetry home agent line s := rfl
@[simp] theorem exec_grant {home agent line} {s : State} :
    exec (.grant home agent line) s = execGrant home agent line s := rfl
@[simp] theorem exec_grantTimeout {home agent line} {s : State} :
    exec (.grantTimeout home agent line) s = execGrantTimeout home agent line s := rfl
@[simp] theorem exec_wbgo {home core line} {s : State} :
    exec (.wbgo home core line) s = execWbgo home core line s := rfl
@[simp] theorem exec_wbcancel {home core line} {s : State} :
    exec (.wbcancel home core line) s = execWbcancel home core line s := rfl
@[simp] theorem exec_nodata {home core line} {s : State} :
    exec (.nodata home core line) s = execNodata home core line s := rfl
@[simp] theorem exec_snpresp {home core line finalState forwardedDirty} {s : State} :
    exec (.snpresp home core line finalState forwardedDirty) s = execSnpresp home core line finalState forwardedDirty s := rfl
@[simp] theorem exec_compack {home agent line} {s : State} :
    exec (.compack home agent line) s = execCompack home agent line s := rfl
@[simp] theorem exec_dataresp {home agent line granted data poison} {s : State} :
    exec (.dataresp home agent line granted data poison) s = execDataresp home agent line granted data poison s := rfl
@[simp] theorem exec_snpdata {home dest line dirty data poison} {s : State} :
    exec (.snpdata home dest line dirty data poison) s = execSnpdata home dest line dirty data poison s := rfl
@[simp] theorem exec_wbdata {home core line data poison} {s : State} :
    exec (.wbdata home core line data poison) s = execWbdata home core line data poison s := rfl
@[simp] theorem exec_lrHoldExpire {core} {s : State} :
    exec (.lrHoldExpire core) s = execLrHoldExpire core s := rfl
@[simp] theorem exec_l2Prefetch {core detector} {s : State} :
    exec (.l2Prefetch core detector) s = execL2Prefetch core detector s := rfl
@[simp] theorem exec_archivePrefetch {slice detector} {s : State} :
    exec (.archivePrefetch slice detector) s = execArchivePrefetch slice detector s := rfl
@[simp] theorem exec_readaheadExpire {buffer line} {s : State} :
    exec (.readaheadExpire buffer line) s = execReadaheadExpire buffer line s := rfl
@[simp] theorem exec_cacheParityError {core cache tagError line} {s : State} :
    exec (.cacheParityError core cache tagError line) s = execCacheParityError core cache tagError line s := rfl
@[simp] theorem exec_hostCacheLossReset {s : State} :
    exec (.hostCacheLossReset) s = execHostCacheLossReset s := rfl
@[simp] theorem exec_hpfctlWrite {core value} {s : State} :
    exec (.hpfctlWrite core value) s = execHpfctlWrite core value s := rfl
@[simp] theorem exec_arcPfPoundWrite {core slice pound size high value} {s : State} :
    exec (.arcPfPoundWrite core slice pound size high value) s = execArcPfPoundWrite core slice pound size high value s := rfl
@[simp] theorem exec_bucketRefill {s : State} :
    exec (.bucketRefill) s = execBucketRefill s := rfl
@[simp] theorem exec_regulationActive {slice} {s : State} :
    exec (.regulationActive slice) s = execRegulationActive slice s := rfl
@[simp] theorem exec_patrolScrub {addr errors} {s : State} :
    exec (.patrolScrub addr errors) s = execPatrolScrub addr errors s := rfl
@[simp] theorem exec_hbmChannelNoResponse {channel} {s : State} :
    exec (.hbmChannelNoResponse channel) s = execHbmChannelNoResponse channel s := rfl
@[simp] theorem exec_expansionBufferExpire {slice granule} {s : State} :
    exec (.expansionBufferExpire slice granule) s = execExpansionBufferExpire slice granule s := rfl
@[simp] theorem exec_nylTrainDone {link} {s : State} :
    exec (.nylTrainDone link) s = execNylTrainDone link s := rfl
@[simp] theorem exec_nylIdentityTimer {link} {s : State} :
    exec (.nylIdentityTimer link) s = execNylIdentityTimer link s := rfl
@[simp] theorem exec_nylIdentity {link flit} {s : State} :
    exec (.nylIdentity link flit) s = execNylIdentity link flit s := rfl
@[simp] theorem exec_nylSelect {link flit} {s : State} :
    exec (.nylSelect link flit) s = execNylSelect link flit s := rfl
@[simp] theorem exec_nylDown {link flit} {s : State} :
    exec (.nylDown link flit) s = execNylDown link flit s := rfl
@[simp] theorem exec_nylAck {link flit} {s : State} :
    exec (.nylAck link flit) s = execNylAck link flit s := rfl
@[simp] theorem exec_nylRetry {link flit} {s : State} :
    exec (.nylRetry link flit) s = execNylRetry link flit s := rfl
@[simp] theorem exec_nylRetryTimer {link} {s : State} :
    exec (.nylRetryTimer link) s = execNylRetryTimer link s := rfl
@[simp] theorem exec_nylRetryTimeout {link} {s : State} :
    exec (.nylRetryTimeout link) s = execNylRetryTimeout link s := rfl
@[simp] theorem exec_nylAckTimer {link} {s : State} :
    exec (.nylAckTimer link) s = execNylAckTimer link s := rfl
@[simp] theorem exec_nylCreditReturn {link vc} {s : State} :
    exec (.nylCreditReturn link vc) s = execNylCreditReturn link vc s := rfl
@[simp] theorem exec_nylMessageSend {link} {s : State} :
    exec (.nylMessageSend link) s = execNylMessageSend link s := rfl
@[simp] theorem exec_nylIdleFlit {link flit} {s : State} :
    exec (.nylIdleFlit link flit) s = execNylIdleFlit link flit s := rfl
@[simp] theorem exec_nylTimeSend {link} {s : State} :
    exec (.nylTimeSend link) s = execNylTimeSend link s := rfl
@[simp] theorem exec_nylTimeFlit {link flit} {s : State} :
    exec (.nylTimeFlit link flit) s = execNylTimeFlit link flit s := rfl
@[simp] theorem exec_nylSilenceTimeout {link} {s : State} :
    exec (.nylSilenceTimeout link) s = execNylSilenceTimeout link s := rfl
@[simp] theorem exec_nylLaneLockLost {link lane} {s : State} :
    exec (.nylLaneLockLost link lane) s = execNylLaneLockLost link lane s := rfl
@[simp] theorem exec_nylLostComplete {link} {s : State} :
    exec (.nylLostComplete link) s = execNylLostComplete link s := rfl
@[simp] theorem exec_nylRead {link flit data} {s : State} :
    exec (.nylRead link flit data) s = execNylRead link flit data s := rfl
@[simp] theorem exec_nylWritePlain {link flit data} {s : State} :
    exec (.nylWritePlain link flit data) s = execNylWritePlain link flit data s := rfl
@[simp] theorem exec_nylWritePublish {link flit data} {s : State} :
    exec (.nylWritePublish link flit data) s = execNylWritePublish link flit data s := rfl
@[simp] theorem exec_nylAdd64 {link flit data} {s : State} :
    exec (.nylAdd64 link flit data) s = execNylAdd64 link flit data s := rfl
@[simp] theorem exec_nylSwap64 {link flit data} {s : State} :
    exec (.nylSwap64 link flit data) s = execNylSwap64 link flit data s := rfl
@[simp] theorem exec_nylCas64 {link flit data} {s : State} :
    exec (.nylCas64 link flit data) s = execNylCas64 link flit data s := rfl
@[simp] theorem exec_readData {link flit data} {s : State} :
    exec (.readData link flit data) s = execReadData link flit data s := rfl
@[simp] theorem exec_writeDone {link flit data} {s : State} :
    exec (.writeDone link flit data) s = execWriteDone link flit data s := rfl
@[simp] theorem exec_atomicDone {link flit data} {s : State} :
    exec (.atomicDone link flit data) s = execAtomicDone link flit data s := rfl
@[simp] theorem exec_nylError {link flit data} {s : State} :
    exec (.nylError link flit data) s = execNylError link flit data s := rfl
@[simp] theorem exec_remoteTimeout {tag} {s : State} :
    exec (.remoteTimeout tag) s = execRemoteTimeout tag s := rfl
@[simp] theorem exec_transitCreditTimeout {link} {s : State} :
    exec (.transitCreditTimeout link) s = execTransitCreditTimeout link s := rfl
@[simp] theorem exec_cdata {link flit data} {s : State} :
    exec (.cdata link flit data) s = execCdata link flit data s := rfl
@[simp] theorem exec_cack {link flit data} {s : State} :
    exec (.cack link flit data) s = execCack link flit data s := rfl
@[simp] theorem exec_cabort {link flit data} {s : State} :
    exec (.cabort link flit data) s = execCabort link flit data s := rfl
@[simp] theorem exec_collectivePieceSend {queue seq} {s : State} :
    exec (.collectivePieceSend queue seq) s = execCollectivePieceSend queue seq s := rfl
@[simp] theorem exec_collectiveComplete {queue seq} {s : State} :
    exec (.collectiveComplete queue seq) s = execCollectiveComplete queue seq s := rfl
@[simp] theorem exec_collectiveTimeout {queue seq} {s : State} :
    exec (.collectiveTimeout queue seq) s = execCollectiveTimeout queue seq s := rfl
@[simp] theorem exec_nylLinkDisable {core link} {s : State} :
    exec (.nylLinkDisable core link) s = execNylLinkDisable core link s := rfl
@[simp] theorem exec_nylLinkEnable {core link} {s : State} :
    exec (.nylLinkEnable core link) s = execNylLinkEnable core link s := rfl
@[simp] theorem exec_nylLinkReset {core link} {s : State} :
    exec (.nylLinkReset core link) s = execNylLinkReset core link s := rfl
@[simp] theorem exec_nylDisableTimeout {link} {s : State} :
    exec (.nylDisableTimeout link) s = execNylDisableTimeout link s := rfl
@[simp] theorem exec_linkControl {link op} {s : State} :
    exec (.linkControl link op) s = execLinkControl link op s := rfl
@[simp] theorem exec_pcieInboundRequest {port request} {s : State} :
    exec (.pcieInboundRequest port request) s = execPcieInboundRequest port request s := rfl
@[simp] theorem exec_inboundMsi {port requester addr data} {s : State} :
    exec (.inboundMsi port requester addr data) s = execInboundMsi port requester addr data s := rfl
@[simp] theorem exec_pcieCompletion {port tag status poisoned data} {s : State} :
    exec (.pcieCompletion port tag status poisoned data) s = execPcieCompletion port tag status poisoned data s := rfl
@[simp] theorem exec_pcieCompletionTimeout {port tag} {s : State} :
    exec (.pcieCompletionTimeout port tag) s = execPcieCompletionTimeout port tag s := rfl
@[simp] theorem exec_pcieLinkDown {port} {s : State} :
    exec (.pcieLinkDown port) s = execPcieLinkDown port s := rfl
@[simp] theorem exec_portRetrain {core port} {s : State} :
    exec (.portRetrain core port) s = execPortRetrain core port s := rfl
@[simp] theorem exec_portRelease {core port} {s : State} :
    exec (.portRelease core port) s = execPortRelease core port s := rfl
@[simp] theorem exec_iotinvalVma {gscid pscid addr} {s : State} :
    exec (.iotinvalVma gscid pscid addr) s = execIotinvalVma gscid pscid addr s := rfl
@[simp] theorem exec_iotinvalGvma {gscid addr} {s : State} :
    exec (.iotinvalGvma gscid addr) s = execIotinvalGvma gscid addr s := rfl
@[simp] theorem exec_iofenceC {s : State} :
    exec (.iofenceC) s = execIofenceC s := rfl
@[simp] theorem exec_roceDoorbell {core port qp value} {s : State} :
    exec (.roceDoorbell core port qp value) s = execRoceDoorbell core port qp value s := rfl
@[simp] theorem exec_roceFlush {core port qp value} {s : State} :
    exec (.roceFlush core port qp value) s = execRoceFlush core port qp value s := rfl
@[simp] theorem exec_roceSend {port qp} {s : State} :
    exec (.roceSend port qp) s = execRoceSend port qp s := rfl
@[simp] theorem exec_roceSendImm {port qp} {s : State} :
    exec (.roceSendImm port qp) s = execRoceSendImm port qp s := rfl
@[simp] theorem exec_roceWrite {port qp} {s : State} :
    exec (.roceWrite port qp) s = execRoceWrite port qp s := rfl
@[simp] theorem exec_roceWriteImm {port qp} {s : State} :
    exec (.roceWriteImm port qp) s = execRoceWriteImm port qp s := rfl
@[simp] theorem exec_roceRead {port qp} {s : State} :
    exec (.roceRead port qp) s = execRoceRead port qp s := rfl
@[simp] theorem exec_roceFetchAdd {port qp} {s : State} :
    exec (.roceFetchAdd port qp) s = execRoceFetchAdd port qp s := rfl
@[simp] theorem exec_roceCmpSwap {port qp} {s : State} :
    exec (.roceCmpSwap port qp) s = execRoceCmpSwap port qp s := rfl
@[simp] theorem exec_roceRawFrame {port qp} {s : State} :
    exec (.roceRawFrame port qp) s = execRoceRawFrame port qp s := rfl
@[simp] theorem exec_roceInboundRequest {port qp request} {s : State} :
    exec (.roceInboundRequest port qp request) s = execRoceInboundRequest port qp request s := rfl
@[simp] theorem exec_roceAck {port qp count atomicResult} {s : State} :
    exec (.roceAck port qp count atomicResult) s = execRoceAck port qp count atomicResult s := rfl
@[simp] theorem exec_roceRetryTimeout {port qp} {s : State} :
    exec (.roceRetryTimeout port qp) s = execRoceRetryTimeout port qp s := rfl
@[simp] theorem exec_roceRnrRetry {port qp} {s : State} :
    exec (.roceRnrRetry port qp) s = execRoceRnrRetry port qp s := rfl
@[simp] theorem exec_roceCnp {port qp} {s : State} :
    exec (.roceCnp port qp) s = execRoceCnp port qp s := rfl
@[simp] theorem exec_roceRateRecover {port qp} {s : State} :
    exec (.roceRateRecover port qp) s = execRoceRateRecover port qp s := rfl
@[simp] theorem exec_hioEthQptWrite {core port size high value} {s : State} :
    exec (.hioEthQptWrite core port size high value) s = execHioEthQptWrite core port size high value s := rfl
@[simp] theorem exec_pldmDiscovery {s : State} :
    exec (.pldmDiscovery) s = execPldmDiscovery s := rfl
@[simp] theorem exec_pldmSensorRead {sensor} {s : State} :
    exec (.pldmSensorRead sensor) s = execPldmSensorRead sensor s := rfl
@[simp] theorem exec_pldmFruRead {s : State} :
    exec (.pldmFruRead) s = execPldmFruRead s := rfl
@[simp] theorem exec_pldmFirmwareUpdate {component version image sigR sigS} {s : State} :
    exec (.pldmFirmwareUpdate component version image sigR sigS) s = execPldmFirmwareUpdate component version image sigR sigS s := rfl
@[simp] theorem exec_loadCharter {offset part last} {s : State} :
    exec (.loadCharter offset part last) s = execLoadCharter offset part last s := rfl
@[simp] theorem exec_cancelCharter {s : State} :
    exec (.cancelCharter) s = execCancelCharter s := rfl
@[simp] theorem exec_clearExclusion {target} {s : State} :
    exec (.clearExclusion target) s = execClearExclusion target s := rfl
@[simp] theorem exec_readSummary {s : State} :
    exec (.readSummary) s = execReadSummary s := rfl
@[simp] theorem exec_pldmUnsupported {code} {s : State} :
    exec (.pldmUnsupported code) s = execPldmUnsupported code s := rfl
@[simp] theorem exec_getVersion {s : State} :
    exec (.getVersion) s = execGetVersion s := rfl
@[simp] theorem exec_getCapabilities {s : State} :
    exec (.getCapabilities) s = execGetCapabilities s := rfl
@[simp] theorem exec_negotiateAlgorithms {ecdsaP384 sha384} {s : State} :
    exec (.negotiateAlgorithms ecdsaP384 sha384) s = execNegotiateAlgorithms ecdsaP384 sha384 s := rfl
@[simp] theorem exec_getDigests {s : State} :
    exec (.getDigests) s = execGetDigests s := rfl
@[simp] theorem exec_getCertificate {slot offset length} {s : State} :
    exec (.getCertificate slot offset length) s = execGetCertificate slot offset length s := rfl
@[simp] theorem exec_challenge {slot nonce} {s : State} :
    exec (.challenge slot nonce) s = execChallenge slot nonce s := rfl
@[simp] theorem exec_getMeasurements {index nonce} {s : State} :
    exec (.getMeasurements index nonce) s = execGetMeasurements index nonce s := rfl
@[simp] theorem exec_sluiceTick {sample} {s : State} :
    exec (.sluiceTick sample) s = execSluiceTick sample s := rfl
@[simp] theorem exec_ballastChain {tile mismatch} {s : State} :
    exec (.ballastChain tile mismatch) s = execBallastChain tile mismatch s := rfl
@[simp] theorem exec_measureCheck {measuredW} {s : State} :
    exec (.measureCheck measuredW) s = execMeasureCheck measuredW s := rfl
@[simp] theorem exec_opStepEnd {pound} {s : State} :
    exec (.opStepEnd pound) s = execOpStepEnd pound s := rfl
@[simp] theorem exec_hostFreqStep {core allowedMhz} {s : State} :
    exec (.hostFreqStep core allowedMhz) s = execHostFreqStep core allowedMhz s := rfl
@[simp] theorem exec_droopDetect {tile} {s : State} :
    exec (.droopDetect tile) s = execDroopDetect tile s := rfl
@[simp] theorem exec_droopClear {tile} {s : State} :
    exec (.droopClear tile) s = execDroopClear tile s := rfl
@[simp] theorem exec_opStepResume {pound} {s : State} :
    exec (.opStepResume pound) s = execOpStepResume pound s := rfl
@[simp] theorem exec_heavyWindowEnd {pound} {s : State} :
    exec (.heavyWindowEnd pound) s = execHeavyWindowEnd pound s := rfl
@[simp] theorem exec_thermalSample {die tempC} {s : State} :
    exec (.thermalSample die tempC) s = execThermalSample die tempC s := rfl
@[simp] theorem exec_regulatorAlert {regulator} {s : State} :
    exec (.regulatorAlert regulator) s = execRegulatorAlert regulator s := rfl
@[simp] theorem exec_pwrBrakeFall {lowNs} {s : State} :
    exec (.pwrBrakeFall lowNs) s = execPwrBrakeFall lowNs s := rfl
@[simp] theorem exec_pwrBrakeRise {s : State} :
    exec (.pwrBrakeRise) s = execPwrBrakeRise s := rfl
@[simp] theorem exec_alertLowestPoint {s : State} :
    exec (.alertLowestPoint) s = execAlertLowestPoint s := rfl
@[simp] theorem exec_alertRelease {measuredW} {s : State} :
    exec (.alertRelease measuredW) s = execAlertRelease measuredW s := rfl
@[simp] theorem exec_inputVoltageEvent {millivolts heldUs} {s : State} :
    exec (.inputVoltageEvent millivolts heldUs) s = execInputVoltageEvent millivolts heldUs s := rfl
@[simp] theorem exec_pwrFgDescValid {core pound size high value} {s : State} :
    exec (.pwrFgDescValid core pound size high value) s = execPwrFgDescValid core pound size high value s := rfl
@[simp] theorem exec_preemptAttempt {tile reached} {s : State} :
    exec (.preemptAttempt tile reached) s = execPreemptAttempt tile reached s := rfl
@[simp] theorem exec_preemptRetry {tile} {s : State} :
    exec (.preemptRetry tile) s = execPreemptRetry tile s := rfl
@[simp] theorem exec_auditDue {die} {s : State} :
    exec (.auditDue die) s = execAuditDue die s := rfl
@[simp] theorem exec_auditOverdue {tile} {s : State} :
    exec (.auditOverdue tile) s = execAuditOverdue tile s := rfl
@[simp] theorem exec_auditHeatTimeout {tile tempC} {s : State} :
    exec (.auditHeatTimeout tile tempC) s = execAuditHeatTimeout tile tempC s := rfl
@[simp] theorem exec_auditPhaseEnd {tile tempC failPoint failIndex} {s : State} :
    exec (.auditPhaseEnd tile tempC failPoint failIndex) s = execAuditPhaseEnd tile tempC failPoint failIndex s := rfl
@[simp] theorem exec_auditEnd {tile} {s : State} :
    exec (.auditEnd tile) s = execAuditEnd tile s := rfl
@[simp] theorem exec_collationCheckDone {checker matched} {s : State} :
    exec (.collationCheckDone checker matched) s = execCollationCheckDone checker matched s := rfl
@[simp] theorem exec_collationArbiterDone {source result} {s : State} :
    exec (.collationArbiterDone source result) s = execCollationArbiterDone source result s := rfl
@[simp] theorem exec_collationArbiterTimeout {source} {s : State} :
    exec (.collationArbiterTimeout source) s = execCollationArbiterTimeout source s := rfl
@[simp] theorem exec_rateLimitSecond {s : State} :
    exec (.rateLimitSecond) s = execRateLimitSecond s := rfl
@[simp] theorem exec_fltRingEnable {core size high value} {s : State} :
    exec (.fltRingEnable core size high value) s = execFltRingEnable core size high value s := rfl
@[simp] theorem exec_fltRingConsWrite {core size high value} {s : State} :
    exec (.fltRingConsWrite core size high value) s = execFltRingConsWrite core size high value s := rfl
@[simp] theorem exec_resetNFall {lowNs} {s : State} :
    exec (.resetNFall lowNs) s = execResetNFall lowNs s := rfl
@[simp] theorem exec_bringupStart {s : State} :
    exec (.bringupStart) s = execBringupStart s := rfl
@[simp] theorem exec_firmwareVerified {component copy0Ok copy1Ok} {s : State} :
    exec (.firmwareVerified component copy0Ok copy1Ok) s = execFirmwareVerified component copy0Ok copy1Ok s := rfl
@[simp] theorem exec_sirentTrainTimeout {link} {s : State} :
    exec (.sirentTrainTimeout link) s = execSirentTrainTimeout link s := rfl
@[simp] theorem exec_storedCharterVerify {s : State} :
    exec (.storedCharterVerify) s = execStoredCharterVerify s := rfl
@[simp] theorem exec_host0Release {s : State} :
    exec (.host0Release) s = execHost0Release s := rfl
@[simp] theorem exec_functionReady {function} {s : State} :
    exec (.functionReady function) s = execFunctionReady function s := rfl
@[simp] theorem exec_classSettleTimeout {cls} {s : State} :
    exec (.classSettleTimeout cls) s = execClassSettleTimeout cls s := rfl
@[simp] theorem exec_hartStart {core target size value} {s : State} :
    exec (.hartStart core target size value) s = execHartStart core target size value s := rfl
@[simp] theorem exec_hartEntrySet {core target size high value} {s : State} :
    exec (.hartEntrySet core target size high value) s = execHartEntrySet core target size high value s := rfl
@[simp] theorem exec_lockkeeperWatchdog {s : State} :
    exec (.lockkeeperWatchdog) s = execLockkeeperWatchdog s := rfl
@[simp] theorem exec_uncoreWarmReset {core} {s : State} :
    exec (.uncoreWarmReset core) s = execUncoreWarmReset core s := rfl
@[simp] theorem exec_warmResetNFall {lowNs} {s : State} :
    exec (.warmResetNFall lowNs) s = execWarmResetNFall lowNs s := rfl
@[simp] theorem exec_uncoreResetPhase2 {s : State} :
    exec (.uncoreResetPhase2) s = execUncoreResetPhase2 s := rfl
@[simp] theorem exec_hostComplexWarmReset {core} {s : State} :
    exec (.hostComplexWarmReset core) s = execHostComplexWarmReset core s := rfl
@[simp] theorem exec_catHeartbeat {core pound} {s : State} :
    exec (.catHeartbeat core pound) s = execCatHeartbeat core pound s := rfl
@[simp] theorem exec_heartbeatCheck {s : State} :
    exec (.heartbeatCheck) s = execHeartbeatCheck s := rfl
@[simp] theorem exec_selfReset {core pound} {s : State} :
    exec (.selfReset core pound) s = execSelfReset core pound s := rfl
@[simp] theorem exec_selfResetDrainTimeout {pound} {s : State} :
    exec (.selfResetDrainTimeout pound) s = execSelfResetDrainTimeout pound s := rfl
@[simp] theorem exec_resume {core pound} {s : State} :
    exec (.resume core pound) s = execResume core pound s := rfl
@[simp] theorem exec_disarm {core pound} {s : State} :
    exec (.disarm core pound) s = execDisarm core pound s := rfl
@[simp] theorem exec_powerApplied {s : State} :
    exec (.powerApplied) s = execPowerApplied s := rfl
@[simp] theorem exec_tileIllegalInstruction {tile hart word} {s : State} :
    exec (.tileIllegalInstruction tile hart word) s = execTileIllegalInstruction tile hart word s := rfl
@[simp] theorem exec_regulatorAlertClear {regulator} {s : State} :
    exec (.regulatorAlertClear regulator) s = execRegulatorAlertClear regulator s := rfl
@[simp] theorem exec_ethLinkDown {port} {s : State} :
    exec (.ethLinkDown port) s = execEthLinkDown port s := rfl
@[simp] theorem exec_pcieIntx {port pin assert} {s : State} :
    exec (.pcieIntx port pin assert) s = execPcieIntx port pin assert s := rfl
@[simp] theorem exec_pcieLinkRetrain {port} {s : State} :
    exec (.pcieLinkRetrain port) s = execPcieLinkRetrain port s := rfl
@[simp] theorem exec_debugAccess {requester target addr isWrite value} {s : State} :
    exec (.debugAccess requester target addr isWrite value) s = execDebugAccess requester target addr isWrite value s := rfl
@[simp] theorem exec_roceInboundSend {port qp message} {s : State} :
    exec (.roceInboundSend port qp message) s = execRoceInboundSend port qp message s := rfl
@[simp] theorem exec_roceReadResponse {port qp data} {s : State} :
    exec (.roceReadResponse port qp data) s = execRoceReadResponse port qp data s := rfl
@[simp] theorem exec_roceNak {port qp kind} {s : State} :
    exec (.roceNak port qp kind) s = execRoceNak port qp kind s := rfl
@[simp] theorem exec_dynamicAddressAssignment {address} {s : State} :
    exec (.dynamicAddressAssignment address) s = execDynamicAddressAssignment address s := rfl
@[simp] theorem exec_setEndpointId {eid} {s : State} :
    exec (.setEndpointId eid) s = execSetEndpointId eid s := rfl

end Sys2Proof.Machine
end

