-- ==== Sys2Proof/Laws/State.lean ====
section
/-!
SUPPORT. Sparse maps read after they are written, and the field lemmas of the named updates of the workbench: what each update
makes of the chip, of memory, of the fuses and of the list of writes, and what the unit it names reads as afterwards.
-/

namespace Sys2Proof.Machine

namespace SMap
variable {α : Type}

@[simp] theorem get_nil (d : α) (k : Nat) : get d ([] : SMap α) k = d := rfl

theorem get_erase (d : α) (m : SMap α) (k j : Nat) : get d (erase m k) j = if j = k then d else get d m j := by
  induction m with
  | nil => simp [erase, get]
  | cons e m ih =>
    obtain ⟨i, v⟩ := e
    by_cases h : i = k
    · subst h
      by_cases g : i = j
      · subst g; simpa [erase, get] using ih
      · simpa [erase, get, g] using ih
    · by_cases g : i = j
      · subst g; simp [erase, get, h]
      · simpa [erase, get, h, g] using ih

theorem get_insert (d : α) (m : SMap α) (k j : Nat) (v : α) :
    get d (insert m k v) j = if j = k then v else get d m j := by
  induction m with
  | nil =>
    by_cases h : k = j
    · simp [insert, get, h]
    · simp [insert, get, h, Ne.symm h]
  | cons e m ih =>
    obtain ⟨i, u⟩ := e
    by_cases h1 : k < i
    · by_cases h : k = j
      · subst h; simp [insert, get, h1]
      · simp [insert, get, h1, h, Ne.symm h]
    · by_cases h2 : i = k
      · subst h2
        by_cases h : i = j
        · simp [insert, get, h]
        · simp [insert, get, h, Ne.symm h]
      · by_cases h : i = j
        · subst h; simp [insert, get, h1, h2]
        · simpa [insert, get, h1, h2, h] using ih

theorem erase_erase (m : SMap α) (k : Nat) : erase (erase m k) k = erase m k := by
  induction m with
  | nil => rfl
  | cons e m ih => obtain ⟨i, u⟩ := e; by_cases h : i = k <;> simp [erase, h, ih]

theorem erase_insert (m : SMap α) (k : Nat) (v : α) : erase (insert m k v) k = erase m k := by
  induction m with
  | nil => simp [insert, erase]
  | cons e m ih =>
    obtain ⟨i, u⟩ := e
    by_cases h1 : k < i
    · simp [insert, erase, h1]
    · by_cases h2 : i = k
      · simp [insert, erase, h2]
      · simp [insert, erase, h1, h2, ih]

theorem get_mapVal (d : α) (m : SMap α) (f : Nat → α → α) (k : Nat) (h : f k d = d) :
    get d (mapVal m f) k = f k (get d m k) := by
  induction m with
  | nil => exact h.symm
  | cons e m ih =>
    obtain ⟨i, u⟩ := e
    by_cases g : i = k
    · subst g; simp [mapVal, get]
    · have : get d (mapVal ((i, u) :: m) f) k = get d (mapVal m f) k := by simp [mapVal, get, g]
      rw [this, ih]; simp [get, g]

variable [DecidableEq α]

/-- Of two values set at one key the later stays. -/
@[simp] theorem set_set (d : α) (m : SMap α) (k : Nat) (u v : α) : set d (set d m k u) k v = set d m k v := by
  have h : erase (set d m k u) k = erase m k := by
    unfold set; split <;> simp [erase_erase, erase_insert]
  rw [set, h, set]

theorem get_set (d : α) (m : SMap α) (k j : Nat) (v : α) : get d (set d m k v) j = if j = k then v else get d m j := by
  unfold set
  split
  · next h => simp [get_erase, h]
  · by_cases h : j = k <;> simp [get_insert, get_erase, h]

@[simp] theorem get_set_self (d : α) (m : SMap α) (k : Nat) (v : α) : get d (set d m k v) k = v := by simp [get_set]

@[simp] theorem get_modify_self (d : α) (m : SMap α) (k : Nat) (f : α → α) : get d (modify d m k f) k = f (get d m k) := by
  simp [modify]

theorem get_set_ne {j k : Nat} (h : j ≠ k) (d : α) (m : SMap α) (v : α) : get d (set d m k v) j = get d m j := by
  simp [get_set, h]

theorem get_modify_ne {j k : Nat} (h : j ≠ k) (d : α) (m : SMap α) (f : α → α) :
    get d (modify d m k f) j = get d m j := get_set_ne h d m _

theorem get_set_other {j k : Nat} (h : j ≠ k) (d e : α) (m : SMap α) (v : α) : get e (set d m k v) j = get e m j := by
  unfold set
  split
  · simp [get_erase, h]
  · simp [get_insert, get_erase, h]

end SMap

/-! ## The workbench of a state -/

@[simp] theorem Work.of_chip (s : State) : (Work.of s).chip = s.chip := rfl
@[simp] theorem Work.of_base (s : State) : (Work.of s).base = s.mem := rfl
@[simp] theorem Work.of_fuse (s : State) : (Work.of s).fuse = s.fuse := rfl
@[simp] theorem Work.of_wr (s : State) : (Work.of s).wr = [] := rfl
@[simp] theorem Work.of_mem (s : State) : (Work.of s).mem = s.mem := rfl

/-! ## Updates of a unit -/

@[simp] theorem Work.modTile_chip (w : Work) (t : Nat) (f : Tile → Tile) :
    (w.modTile t f).chip = { w.chip with tiles := SMap.set (Tile.reset t) w.chip.tiles t (f (w.tile t)) } := rfl
@[simp] theorem Work.modTile_base (w : Work) (t : Nat) (f : Tile → Tile) : (w.modTile t f).base = w.base := rfl
@[simp] theorem Work.modTile_fuse (w : Work) (t : Nat) (f : Tile → Tile) : (w.modTile t f).fuse = w.fuse := rfl
@[simp] theorem Work.modTile_wr (w : Work) (t : Nat) (f : Tile → Tile) : (w.modTile t f).wr = w.wr := rfl
@[simp] theorem Work.modTile_self (w : Work) (t : Nat) (f : Tile → Tile) : (w.modTile t f).tile t = f (w.tile t) := by
  simp [Work.modTile, Work.setTile, Work.tile]
@[simp] theorem Work.modTile_modTile (w : Work) (t : Nat) (f g : Tile → Tile) :
    (w.modTile t f).modTile t g = w.modTile t (fun x => g (f x)) := by
  simp [Work.modTile, Work.setTile, Work.tile]
theorem Work.modTile_ne {t u : Nat} (h : u ≠ t) (w : Work) (f : Tile → Tile) : (w.modTile t f).tile u = w.tile u := by
  exact SMap.get_set_other h _ _ _ _
@[simp] theorem Tile.modCore_self (x : Tile) (h : Nat) (f : TileCore → TileCore) : (x.modCore h f).core h = f (x.core h) := by
  simp [Tile.modCore, Tile.setCore, Tile.core]
@[simp] theorem Tile.modCore_modCore (x : Tile) (h : Nat) (f g : TileCore → TileCore) :
    (x.modCore h f).modCore h g = x.modCore h (fun c => g (f c)) := by
  simp [Tile.modCore, Tile.setCore, Tile.core]
theorem Tile.modCore_ne {g h : Nat} (n : g ≠ h) (x : Tile) (f : TileCore → TileCore) : (x.modCore h f).core g = x.core g :=
  SMap.get_set_ne n _ _ _
@[simp] theorem Tile.setSem_self (x : Tile) (k n : Nat) : (x.setSem k n).sem k = n := by simp [Tile.setSem, Tile.sem]
theorem Tile.setSem_ne {j k : Nat} (h : j ≠ k) (x : Tile) (n : Nat) : (x.setSem k n).sem j = x.sem j := SMap.get_set_ne h _ _ _
@[simp] theorem TileCore.setReg_zero (c : TileCore) (v : W64) : c.setReg 0 v = c := rfl
@[simp] theorem TileCore.reg_zero (c : TileCore) : c.reg 0 = 0 := rfl
theorem TileCore.setReg_self {n : Nat} (h : n ≠ 0) (c : TileCore) (v : W64) : (c.setReg n v).reg n = v := by
  simp [TileCore.setReg, TileCore.reg, h]
theorem TileCore.setReg_ne {m n : Nat} (h : m ≠ n) (c : TileCore) (v : W64) : (c.setReg n v).reg m = c.reg m := by
  by_cases hn : n = 0
  · simp [TileCore.setReg, hn]
  · simp [TileCore.setReg, TileCore.reg, hn, SMap.get_set_ne h]

@[simp] theorem Work.modCore_chip (w : Work) (k : Nat) (f : HostCore → HostCore) :
    (w.modCore k f).chip = { w.chip with cores := SMap.set HostCore.reset w.chip.cores k (f (w.core k)) } := rfl
@[simp] theorem Work.modCore_base (w : Work) (k : Nat) (f : HostCore → HostCore) : (w.modCore k f).base = w.base := rfl
@[simp] theorem Work.modCore_fuse (w : Work) (k : Nat) (f : HostCore → HostCore) : (w.modCore k f).fuse = w.fuse := rfl
@[simp] theorem Work.modCore_wr (w : Work) (k : Nat) (f : HostCore → HostCore) : (w.modCore k f).wr = w.wr := rfl
@[simp] theorem Work.modCore_self (w : Work) (k : Nat) (f : HostCore → HostCore) : (w.modCore k f).core k = f (w.core k) :=
  SMap.get_set_self _ w.chip.cores k _
@[simp] theorem Work.modCore_modCore (w : Work) (k : Nat) (f g : HostCore → HostCore) :
    (w.modCore k f).modCore k g = w.modCore k (fun x => g (f x)) := by
  show Work.mk _ _ _ _ = Work.mk _ _ _ _
  simp [Work.core]
theorem Work.modCore_ne {j k : Nat} (h : j ≠ k) (w : Work) (f : HostCore → HostCore) : (w.modCore k f).core j = w.core j :=
  SMap.get_set_ne h _ w.chip.cores _

@[simp] theorem Work.modPound_chip (w : Work) (k : Nat) (f : Pound → Pound) :
    (w.modPound k f).chip = { w.chip with pounds := SMap.set Pound.none w.chip.pounds k (f (w.pound k)) } := rfl
@[simp] theorem Work.modPound_base (w : Work) (k : Nat) (f : Pound → Pound) : (w.modPound k f).base = w.base := rfl
@[simp] theorem Work.modPound_fuse (w : Work) (k : Nat) (f : Pound → Pound) : (w.modPound k f).fuse = w.fuse := rfl
@[simp] theorem Work.modPound_wr (w : Work) (k : Nat) (f : Pound → Pound) : (w.modPound k f).wr = w.wr := rfl
@[simp] theorem Work.modPound_self (w : Work) (k : Nat) (f : Pound → Pound) : (w.modPound k f).pound k = f (w.pound k) :=
  SMap.get_set_self _ w.chip.pounds k _
@[simp] theorem Work.modPound_modPound (w : Work) (k : Nat) (f g : Pound → Pound) :
    (w.modPound k f).modPound k g = w.modPound k (fun x => g (f x)) := by
  show Work.mk _ _ _ _ = Work.mk _ _ _ _
  simp [Work.pound, SMap.modify]
theorem Work.modPound_ne {j k : Nat} (h : j ≠ k) (w : Work) (f : Pound → Pound) : (w.modPound k f).pound j = w.pound j :=
  SMap.get_set_ne h _ w.chip.pounds _

@[simp] theorem Work.modHome_chip (w : Work) (k : Nat) (f : Home → Home) :
    (w.modHome k f).chip = { w.chip with homes := SMap.set Home.zero w.chip.homes k (f (w.home k)) } := rfl
@[simp] theorem Work.modHome_base (w : Work) (k : Nat) (f : Home → Home) : (w.modHome k f).base = w.base := rfl
@[simp] theorem Work.modHome_fuse (w : Work) (k : Nat) (f : Home → Home) : (w.modHome k f).fuse = w.fuse := rfl
@[simp] theorem Work.modHome_wr (w : Work) (k : Nat) (f : Home → Home) : (w.modHome k f).wr = w.wr := rfl
@[simp] theorem Work.modHome_self (w : Work) (k : Nat) (f : Home → Home) : (w.modHome k f).home k = f (w.home k) :=
  SMap.get_set_self _ w.chip.homes k _
@[simp] theorem Work.modHome_modHome (w : Work) (k : Nat) (f g : Home → Home) :
    (w.modHome k f).modHome k g = w.modHome k (fun x => g (f x)) := by
  show Work.mk _ _ _ _ = Work.mk _ _ _ _
  simp [Work.home, SMap.modify]
theorem Work.modHome_ne {j k : Nat} (h : j ≠ k) (w : Work) (f : Home → Home) : (w.modHome k f).home j = w.home j :=
  SMap.get_set_ne h _ w.chip.homes _

@[simp] theorem Work.modSlice_chip (w : Work) (k : Nat) (f : Slice → Slice) :
    (w.modSlice k f).chip = { w.chip with slices := SMap.set Slice.zero w.chip.slices k (f (w.slice k)) } := rfl
@[simp] theorem Work.modSlice_base (w : Work) (k : Nat) (f : Slice → Slice) : (w.modSlice k f).base = w.base := rfl
@[simp] theorem Work.modSlice_fuse (w : Work) (k : Nat) (f : Slice → Slice) : (w.modSlice k f).fuse = w.fuse := rfl
@[simp] theorem Work.modSlice_wr (w : Work) (k : Nat) (f : Slice → Slice) : (w.modSlice k f).wr = w.wr := rfl
@[simp] theorem Work.modSlice_self (w : Work) (k : Nat) (f : Slice → Slice) : (w.modSlice k f).slice k = f (w.slice k) :=
  SMap.get_set_self _ w.chip.slices k _
@[simp] theorem Work.modSlice_modSlice (w : Work) (k : Nat) (f g : Slice → Slice) :
    (w.modSlice k f).modSlice k g = w.modSlice k (fun x => g (f x)) := by
  show Work.mk _ _ _ _ = Work.mk _ _ _ _
  simp [Work.slice, SMap.modify]
theorem Work.modSlice_ne {j k : Nat} (h : j ≠ k) (w : Work) (f : Slice → Slice) : (w.modSlice k f).slice j = w.slice j :=
  SMap.get_set_ne h _ w.chip.slices _

@[simp] theorem Work.modHbm_chip (w : Work) (k : Nat) (f : Channel → Channel) :
    (w.modHbm k f).chip = { w.chip with hbm := SMap.set Channel.zero w.chip.hbm k (f (w.hbmCh k)) } := rfl
@[simp] theorem Work.modHbm_base (w : Work) (k : Nat) (f : Channel → Channel) : (w.modHbm k f).base = w.base := rfl
@[simp] theorem Work.modHbm_fuse (w : Work) (k : Nat) (f : Channel → Channel) : (w.modHbm k f).fuse = w.fuse := rfl
@[simp] theorem Work.modHbm_wr (w : Work) (k : Nat) (f : Channel → Channel) : (w.modHbm k f).wr = w.wr := rfl
@[simp] theorem Work.modHbm_self (w : Work) (k : Nat) (f : Channel → Channel) : (w.modHbm k f).hbmCh k = f (w.hbmCh k) :=
  SMap.get_set_self _ w.chip.hbm k _
@[simp] theorem Work.modHbm_modHbm (w : Work) (k : Nat) (f g : Channel → Channel) :
    (w.modHbm k f).modHbm k g = w.modHbm k (fun x => g (f x)) := by
  show Work.mk _ _ _ _ = Work.mk _ _ _ _
  simp [Work.hbmCh, SMap.modify]
theorem Work.modHbm_ne {j k : Nat} (h : j ≠ k) (w : Work) (f : Channel → Channel) : (w.modHbm k f).hbmCh j = w.hbmCh j :=
  SMap.get_set_ne h _ w.chip.hbm _

@[simp] theorem Work.modLpd_chip (w : Work) (k : Nat) (f : Channel → Channel) :
    (w.modLpd k f).chip = { w.chip with lpd := SMap.set Channel.zero w.chip.lpd k (f (w.lpdCh k)) } := rfl
@[simp] theorem Work.modLpd_base (w : Work) (k : Nat) (f : Channel → Channel) : (w.modLpd k f).base = w.base := rfl
@[simp] theorem Work.modLpd_fuse (w : Work) (k : Nat) (f : Channel → Channel) : (w.modLpd k f).fuse = w.fuse := rfl
@[simp] theorem Work.modLpd_wr (w : Work) (k : Nat) (f : Channel → Channel) : (w.modLpd k f).wr = w.wr := rfl
@[simp] theorem Work.modLpd_self (w : Work) (k : Nat) (f : Channel → Channel) : (w.modLpd k f).lpdCh k = f (w.lpdCh k) :=
  SMap.get_set_self _ w.chip.lpd k _
@[simp] theorem Work.modLpd_modLpd (w : Work) (k : Nat) (f g : Channel → Channel) :
    (w.modLpd k f).modLpd k g = w.modLpd k (fun x => g (f x)) := by
  show Work.mk _ _ _ _ = Work.mk _ _ _ _
  simp [Work.lpdCh, SMap.modify]
theorem Work.modLpd_ne {j k : Nat} (h : j ≠ k) (w : Work) (f : Channel → Channel) : (w.modLpd k f).lpdCh j = w.lpdCh j :=
  SMap.get_set_ne h _ w.chip.lpd _

@[simp] theorem Work.modLink_chip (w : Work) (k : Nat) (f : NylLink → NylLink) :
    (w.modLink k f).chip = { w.chip with nyl := SMap.set NylLink.zero w.chip.nyl k (f (w.link k)) } := rfl
@[simp] theorem Work.modLink_base (w : Work) (k : Nat) (f : NylLink → NylLink) : (w.modLink k f).base = w.base := rfl
@[simp] theorem Work.modLink_fuse (w : Work) (k : Nat) (f : NylLink → NylLink) : (w.modLink k f).fuse = w.fuse := rfl
@[simp] theorem Work.modLink_wr (w : Work) (k : Nat) (f : NylLink → NylLink) : (w.modLink k f).wr = w.wr := rfl
@[simp] theorem Work.modLink_self (w : Work) (k : Nat) (f : NylLink → NylLink) : (w.modLink k f).link k = f (w.link k) :=
  SMap.get_set_self _ w.chip.nyl k _
@[simp] theorem Work.modLink_modLink (w : Work) (k : Nat) (f g : NylLink → NylLink) :
    (w.modLink k f).modLink k g = w.modLink k (fun x => g (f x)) := by
  show Work.mk _ _ _ _ = Work.mk _ _ _ _
  simp [Work.link, SMap.modify]
theorem Work.modLink_ne {j k : Nat} (h : j ≠ k) (w : Work) (f : NylLink → NylLink) : (w.modLink k f).link j = w.link j :=
  SMap.get_set_ne h _ w.chip.nyl _

@[simp] theorem Work.modPort_chip (w : Work) (k : Nat) (f : Port → Port) :
    (w.modPort k f).chip = { w.chip with ports := SMap.set Port.zero w.chip.ports k (f (w.port k)) } := rfl
@[simp] theorem Work.modPort_base (w : Work) (k : Nat) (f : Port → Port) : (w.modPort k f).base = w.base := rfl
@[simp] theorem Work.modPort_fuse (w : Work) (k : Nat) (f : Port → Port) : (w.modPort k f).fuse = w.fuse := rfl
@[simp] theorem Work.modPort_wr (w : Work) (k : Nat) (f : Port → Port) : (w.modPort k f).wr = w.wr := rfl
@[simp] theorem Work.modPort_self (w : Work) (k : Nat) (f : Port → Port) : (w.modPort k f).port k = f (w.port k) :=
  SMap.get_set_self _ w.chip.ports k _
@[simp] theorem Work.modPort_modPort (w : Work) (k : Nat) (f g : Port → Port) :
    (w.modPort k f).modPort k g = w.modPort k (fun x => g (f x)) := by
  show Work.mk _ _ _ _ = Work.mk _ _ _ _
  simp [Work.port, SMap.modify]
theorem Work.modPort_ne {j k : Nat} (h : j ≠ k) (w : Work) (f : Port → Port) : (w.modPort k f).port j = w.port j :=
  SMap.get_set_ne h _ w.chip.ports _

@[simp] theorem Work.modEth_chip (w : Work) (k : Nat) (f : Eth → Eth) :
    (w.modEth k f).chip = { w.chip with eths := SMap.set Eth.zero w.chip.eths k (f (w.eth k)) } := rfl
@[simp] theorem Work.modEth_base (w : Work) (k : Nat) (f : Eth → Eth) : (w.modEth k f).base = w.base := rfl
@[simp] theorem Work.modEth_fuse (w : Work) (k : Nat) (f : Eth → Eth) : (w.modEth k f).fuse = w.fuse := rfl
@[simp] theorem Work.modEth_wr (w : Work) (k : Nat) (f : Eth → Eth) : (w.modEth k f).wr = w.wr := rfl
@[simp] theorem Work.modEth_self (w : Work) (k : Nat) (f : Eth → Eth) : (w.modEth k f).eth k = f (w.eth k) :=
  SMap.get_set_self _ w.chip.eths k _
@[simp] theorem Work.modEth_modEth (w : Work) (k : Nat) (f g : Eth → Eth) :
    (w.modEth k f).modEth k g = w.modEth k (fun x => g (f x)) := by
  show Work.mk _ _ _ _ = Work.mk _ _ _ _
  simp [Work.eth, SMap.modify]
theorem Work.modEth_ne {j k : Nat} (h : j ≠ k) (w : Work) (f : Eth → Eth) : (w.modEth k f).eth j = w.eth j :=
  SMap.get_set_ne h _ w.chip.eths _

@[simp] theorem Work.modSq_chip (w : Work) (k : Nat) (f : Sq → Sq) :
    (w.modSq k f).chip = { w.chip with sqs := SMap.set Sq.zero w.chip.sqs k (f (w.sq k)) } := rfl
@[simp] theorem Work.modSq_base (w : Work) (k : Nat) (f : Sq → Sq) : (w.modSq k f).base = w.base := rfl
@[simp] theorem Work.modSq_fuse (w : Work) (k : Nat) (f : Sq → Sq) : (w.modSq k f).fuse = w.fuse := rfl
@[simp] theorem Work.modSq_wr (w : Work) (k : Nat) (f : Sq → Sq) : (w.modSq k f).wr = w.wr := rfl
@[simp] theorem Work.modSq_self (w : Work) (k : Nat) (f : Sq → Sq) : (w.modSq k f).sq k = f (w.sq k) :=
  SMap.get_set_self _ w.chip.sqs k _
@[simp] theorem Work.modSq_modSq (w : Work) (k : Nat) (f g : Sq → Sq) :
    (w.modSq k f).modSq k g = w.modSq k (fun x => g (f x)) := by
  show Work.mk _ _ _ _ = Work.mk _ _ _ _
  simp [Work.sq, SMap.modify]
theorem Work.modSq_ne {j k : Nat} (h : j ≠ k) (w : Work) (f : Sq → Sq) : (w.modSq k f).sq j = w.sq j :=
  SMap.get_set_ne h _ w.chip.sqs _

@[simp] theorem Work.modCq_chip (w : Work) (k : Nat) (f : Cq → Cq) :
    (w.modCq k f).chip = { w.chip with cqs := SMap.set Cq.zero w.chip.cqs k (f (w.cq k)) } := rfl
@[simp] theorem Work.modCq_base (w : Work) (k : Nat) (f : Cq → Cq) : (w.modCq k f).base = w.base := rfl
@[simp] theorem Work.modCq_fuse (w : Work) (k : Nat) (f : Cq → Cq) : (w.modCq k f).fuse = w.fuse := rfl
@[simp] theorem Work.modCq_wr (w : Work) (k : Nat) (f : Cq → Cq) : (w.modCq k f).wr = w.wr := rfl
@[simp] theorem Work.modCq_self (w : Work) (k : Nat) (f : Cq → Cq) : (w.modCq k f).cq k = f (w.cq k) :=
  SMap.get_set_self _ w.chip.cqs k _
@[simp] theorem Work.modCq_modCq (w : Work) (k : Nat) (f g : Cq → Cq) :
    (w.modCq k f).modCq k g = w.modCq k (fun x => g (f x)) := by
  show Work.mk _ _ _ _ = Work.mk _ _ _ _
  simp [Work.cq, SMap.modify]
theorem Work.modCq_ne {j k : Nat} (h : j ≠ k) (w : Work) (f : Cq → Cq) : (w.modCq k f).cq j = w.cq j :=
  SMap.get_set_ne h _ w.chip.cqs _

@[simp] theorem Work.modSrt_chip (w : Work) (k : Nat) (f : SrtLink → SrtLink) :
    (w.modSrt k f).chip = { w.chip with srt := SMap.set SrtLink.reset w.chip.srt k (f (w.srt k)) } := rfl
@[simp] theorem Work.modSrt_base (w : Work) (k : Nat) (f : SrtLink → SrtLink) : (w.modSrt k f).base = w.base := rfl
@[simp] theorem Work.modSrt_fuse (w : Work) (k : Nat) (f : SrtLink → SrtLink) : (w.modSrt k f).fuse = w.fuse := rfl
@[simp] theorem Work.modSrt_wr (w : Work) (k : Nat) (f : SrtLink → SrtLink) : (w.modSrt k f).wr = w.wr := rfl
@[simp] theorem Work.modSrt_self (w : Work) (k : Nat) (f : SrtLink → SrtLink) : (w.modSrt k f).srt k = f (w.srt k) :=
  SMap.get_set_self _ w.chip.srt k _
@[simp] theorem Work.modSrt_modSrt (w : Work) (k : Nat) (f g : SrtLink → SrtLink) :
    (w.modSrt k f).modSrt k g = w.modSrt k (fun x => g (f x)) := by
  show Work.mk _ _ _ _ = Work.mk _ _ _ _
  simp [Work.srt, SMap.modify]
theorem Work.modSrt_ne {j k : Nat} (h : j ≠ k) (w : Work) (f : SrtLink → SrtLink) : (w.modSrt k f).srt j = w.srt j :=
  SMap.get_set_ne h _ w.chip.srt _

@[simp] theorem Work.modPpow_chip (w : Work) (k : Nat) (f : PoundPower → PoundPower) :
    (w.modPpow k f).chip = { w.chip with pwr.pounds := SMap.set PoundPower.reset w.chip.pwr.pounds k (f (w.ppow k)) } := rfl
@[simp] theorem Work.modPpow_base (w : Work) (k : Nat) (f : PoundPower → PoundPower) : (w.modPpow k f).base = w.base := rfl
@[simp] theorem Work.modPpow_fuse (w : Work) (k : Nat) (f : PoundPower → PoundPower) : (w.modPpow k f).fuse = w.fuse := rfl
@[simp] theorem Work.modPpow_wr (w : Work) (k : Nat) (f : PoundPower → PoundPower) : (w.modPpow k f).wr = w.wr := rfl
@[simp] theorem Work.modPpow_self (w : Work) (k : Nat) (f : PoundPower → PoundPower) : (w.modPpow k f).ppow k = f (w.ppow k) :=
  SMap.get_set_self _ w.chip.pwr.pounds k _
@[simp] theorem Work.modPpow_modPpow (w : Work) (k : Nat) (f g : PoundPower → PoundPower) :
    (w.modPpow k f).modPpow k g = w.modPpow k (fun x => g (f x)) := by
  show Work.mk _ _ _ _ = Work.mk _ _ _ _
  simp [Work.ppow, SMap.modify]
theorem Work.modPpow_ne {j k : Nat} (h : j ≠ k) (w : Work) (f : PoundPower → PoundPower) : (w.modPpow k f).ppow j = w.ppow j :=
  SMap.get_set_ne h _ w.chip.pwr.pounds _

@[simp] theorem Work.modDiePow_chip (w : Work) (k : Nat) (f : DiePower → DiePower) :
    (w.modDiePow k f).chip = { w.chip with pwr.dies := SMap.set DiePower.zero w.chip.pwr.dies k (f (w.diePow k)) } := rfl
@[simp] theorem Work.modDiePow_base (w : Work) (k : Nat) (f : DiePower → DiePower) : (w.modDiePow k f).base = w.base := rfl
@[simp] theorem Work.modDiePow_fuse (w : Work) (k : Nat) (f : DiePower → DiePower) : (w.modDiePow k f).fuse = w.fuse := rfl
@[simp] theorem Work.modDiePow_wr (w : Work) (k : Nat) (f : DiePower → DiePower) : (w.modDiePow k f).wr = w.wr := rfl
@[simp] theorem Work.modDiePow_self (w : Work) (k : Nat) (f : DiePower → DiePower) : (w.modDiePow k f).diePow k = f (w.diePow k) :=
  SMap.get_set_self _ w.chip.pwr.dies k _
@[simp] theorem Work.modDiePow_modDiePow (w : Work) (k : Nat) (f g : DiePower → DiePower) :
    (w.modDiePow k f).modDiePow k g = w.modDiePow k (fun x => g (f x)) := by
  show Work.mk _ _ _ _ = Work.mk _ _ _ _
  simp [Work.diePow, SMap.modify]
theorem Work.modDiePow_ne {j k : Nat} (h : j ≠ k) (w : Work) (f : DiePower → DiePower) : (w.modDiePow k f).diePow j = w.diePow j :=
  SMap.get_set_ne h _ w.chip.pwr.dies _

@[simp] theorem Work.modHart_chip (w : Work) (k : Nat) (f : HartCtl → HartCtl) :
    (w.modHart k f).chip = { w.chip with boot.hartCtl := SMap.set ({ st := .inReset, entry := 0 } : HartCtl) w.chip.boot.hartCtl k (f (w.hart k)) } := rfl
@[simp] theorem Work.modHart_base (w : Work) (k : Nat) (f : HartCtl → HartCtl) : (w.modHart k f).base = w.base := rfl
@[simp] theorem Work.modHart_fuse (w : Work) (k : Nat) (f : HartCtl → HartCtl) : (w.modHart k f).fuse = w.fuse := rfl
@[simp] theorem Work.modHart_wr (w : Work) (k : Nat) (f : HartCtl → HartCtl) : (w.modHart k f).wr = w.wr := rfl
@[simp] theorem Work.modHart_self (w : Work) (k : Nat) (f : HartCtl → HartCtl) : (w.modHart k f).hart k = f (w.hart k) :=
  SMap.get_set_self _ w.chip.boot.hartCtl k _
@[simp] theorem Work.modHart_modHart (w : Work) (k : Nat) (f g : HartCtl → HartCtl) :
    (w.modHart k f).modHart k g = w.modHart k (fun x => g (f x)) := by
  show Work.mk _ _ _ _ = Work.mk _ _ _ _
  simp [Work.hart, SMap.modify]
theorem Work.modHart_ne {j k : Nat} (h : j ≠ k) (w : Work) (f : HartCtl → HartCtl) : (w.modHart k f).hart j = w.hart j :=
  SMap.get_set_ne h _ w.chip.boot.hartCtl _

/-! ## Writes and free values -/

@[simp] theorem Work.put_chip (w : Work) (x : Wr) : (w.put x).chip = w.chip := rfl
@[simp] theorem Work.put_base (w : Work) (x : Wr) : (w.put x).base = w.base := rfl
@[simp] theorem Work.put_fuse (w : Work) (x : Wr) : (w.put x).fuse = w.fuse := rfl
@[simp] theorem Work.put_wr (w : Work) (x : Wr) : (w.put x).wr = w.wr ++ [x] := rfl
@[simp] theorem Work.take_fst (w : Work) : w.take.1 = w.chip.free := rfl
@[simp] theorem Work.take_chip (w : Work) : w.take.2.chip = { w.chip with free := w.chip.free + 1 } := rfl
@[simp] theorem Work.take_wr (w : Work) : w.take.2.wr = w.wr := rfl
@[simp] theorem Work.when_true (w : Work) (f : Work → Work) : w.when true f = f w := rfl
@[simp] theorem Work.when_false (w : Work) (f : Work → Work) : w.when false f = w := rfl
@[simp] theorem Work.each_nil {β : Type} (w : Work) (f : Work → β → Work) : w.each [] f = w := rfl
@[simp] theorem Work.each_cons {β : Type} (w : Work) (x : β) (l : List β) (f : Work → β → Work) :
    w.each (x :: l) f = (f w x).each l f := rfl

end Sys2Proof.Machine
end

