-- ==== Sys2Proof/Laws/Memory.lean ====
section
/-!
SUPPORT. Memory: every write keeps the canonical form, a byte reads as it was last written, and bytes outside a write
are unchanged. What a command run on the workbench can do (`lift`, `liftIf`).
-/

namespace Sys2Proof.Machine

/-! ## The canonical form -/

section Canonical
variable {α : Type} [DecidableEq α]

/-- Canonical form said with `List.Pairwise`: the form that induction uses. -/
theorem canonical_iff (d : α) (m : SMap α) :
    canonical d m = true ↔ m.Pairwise (fun x y => x.1 < y.1) ∧ ∀ e ∈ m, e.2 ≠ d := by
  induction m with
  | nil => simp [canonical]
  | cons e m ih =>
    obtain ⟨j, v⟩ := e
    cases m with
    | nil => simp [canonical]
    | cons e m =>
      obtain ⟨k, u⟩ := e
      simp only [canonical, Bool.and_eq_true, decide_eq_true_eq, ih, List.pairwise_cons, List.mem_cons]
      constructor
      · rintro ⟨⟨hv, hjk⟩, ⟨hk, hm⟩, hd⟩
        refine ⟨⟨?_, hk, hm⟩, ?_⟩
        · rintro x (rfl | hx)
          · exact hjk
          · exact lt_trans hjk (hk x hx)
        · rintro x (rfl | hx)
          · simpa using hv
          · exact hd x hx
      · rintro ⟨⟨h1, hk, hm⟩, hd⟩
        exact ⟨⟨by simpa using hd (j, v) (Or.inl rfl), h1 (k, u) (Or.inl rfl)⟩, ⟨hk, hm⟩, fun x hx => hd x (Or.inr hx)⟩

theorem canonical_filter (d : α) {m : SMap α} (h : canonical d m = true) (p : Nat × α → Bool) :
    canonical d (m.filter p) = true := by
  rw [canonical_iff] at *
  exact ⟨h.1.filter _, fun e he => h.2 e (List.mem_filter.mp he).1⟩

omit [DecidableEq α] in
theorem SMap.erase_eq_filter (m : SMap α) (k : Nat) : SMap.erase m k = m.filter (fun e => e.1 ≠ k) := by
  induction m with
  | nil => rfl
  | cons e m ih =>
    obtain ⟨j, v⟩ := e
    by_cases h : j = k <;> simp [SMap.erase, h, ih]

omit [DecidableEq α] in
theorem SMap.mem_insert {m : SMap α} {k : Nat} {v : α} {e : Nat × α} (h : e ∈ SMap.insert m k v) : e = (k, v) ∨ e ∈ m := by
  induction m with
  | nil => simpa [SMap.insert] using h
  | cons x m ih =>
    obtain ⟨j, u⟩ := x
    unfold SMap.insert at h
    split at h
    · simpa using h
    · split at h
      · simp only [List.mem_cons] at h ⊢; tauto
      · simp only [List.mem_cons] at h ⊢
        rcases h with h | h
        · tauto
        · rcases ih h with h | h <;> tauto

omit [DecidableEq α] in
theorem SMap.sorted_insert {m : SMap α} (h : m.Pairwise (fun x y => x.1 < y.1)) (k : Nat) (v : α) :
    (SMap.insert m k v).Pairwise (fun x y => x.1 < y.1) := by
  induction m with
  | nil => simp [SMap.insert]
  | cons x m ih =>
    obtain ⟨j, u⟩ := x
    rw [List.pairwise_cons] at h
    unfold SMap.insert
    split
    · next hk =>
      refine List.pairwise_cons.mpr ⟨?_, List.pairwise_cons.mpr h⟩
      intro e he
      rcases List.mem_cons.mp he with rfl | he
      · exact hk
      · exact lt_trans hk (h.1 e he)
    · split
      · next hj => subst hj; exact List.pairwise_cons.mpr h
      · next hk hj =>
        refine List.pairwise_cons.mpr ⟨?_, ih h.2⟩
        intro e he
        rcases SMap.mem_insert he with rfl | he
        · show j < k; omega
        · exact h.1 e he

theorem canonical_set (d : α) {m : SMap α} (h : canonical d m = true) (k : Nat) (v : α) :
    canonical d (SMap.set d m k v) = true := by
  have he : canonical d (SMap.erase m k) = true := by rw [SMap.erase_eq_filter]; exact canonical_filter d h _
  unfold SMap.set
  split
  · exact he
  · next hv =>
    rw [canonical_iff] at *
    refine ⟨SMap.sorted_insert he.1 k v, fun e h' => ?_⟩
    rcases SMap.mem_insert h' with rfl | h'
    · exact hv
    · exact he.2 e h'

theorem canonical_moveRange (d : α) {m : SMap α} (h : canonical d m = true) (src dst n : Nat) :
    canonical d (moveRange d m src dst n) = true := by
  unfold moveRange
  generalize m.filter (fun e => src ≤ e.1 && e.1 < src + n) = l
  have h0 : canonical d (m.filter (fun e => !(dst ≤ e.1 && e.1 < dst + n))) = true := canonical_filter d h _
  revert h0
  generalize m.filter (fun e => !(dst ≤ e.1 && e.1 < dst + n)) = acc
  induction l generalizing acc with
  | nil => exact id
  | cons e l ih => exact fun h0 => ih _ (canonical_set d h0 _ _)

end Canonical

theorem storeBytes_canonical {m : SMap Byte} (h : canonical 0 m = true) (a : Nat) (bs : List Byte) :
    canonical 0 (storeBytes m a bs) = true := by
  induction bs generalizing m a with
  | nil => exact h
  | cons b bs ih => exact ih (canonical_set 0 h a b) (a + 1)

/-- One write keeps memory in its canonical form. -/
theorem Mem.perform1_wf {m : Mem} (h : m.wf = true) (x : Wr) : (m.perform1 x).wf = true := by
  simp only [Mem.wf, Bool.and_eq_true] at *
  cases x with
  | bytes a bs => exact ⟨storeBytes_canonical h.1 a bs, canonical_filter false h.2 _⟩
  | zero a n => exact ⟨canonical_filter 0 h.1 _, canonical_filter false h.2 _⟩
  | copy s d n => exact ⟨canonical_moveRange 0 h.1 _ _ _, canonical_moveRange false h.2 _ _ _⟩
  | poison cw => exact ⟨h.1, canonical_set false h.2 cw true⟩

/-- Every list of writes keeps memory in its canonical form. -/
theorem Mem.perform_wf {m : Mem} (h : m.wf = true) (ws : List Wr) : (m.perform ws).wf = true := by
  induction ws generalizing m with
  | nil => exact h
  | cons x ws ih => exact ih (Mem.perform1_wf h x)

/-! ## Bytes that are read back -/

@[simp] theorem Mem.perform_nil (m : Mem) : m.perform [] = m := rfl
@[simp] theorem Mem.perform_cons (m : Mem) (x : Wr) (ws : List Wr) : m.perform (x :: ws) = (m.perform1 x).perform ws := rfl
theorem Mem.perform_append (m : Mem) (xs ys : List Wr) : m.perform (xs ++ ys) = (m.perform xs).perform ys := by
  simp [Mem.perform, List.foldl_append]

theorem get_storeBytes (m : SMap Byte) (a j : Nat) (bs : List Byte) :
    SMap.get 0 (storeBytes m a bs) j = if a ≤ j ∧ j < a + bs.length then bs[j - a]?.getD 0 else SMap.get 0 m j := by
  induction bs generalizing m a with
  | nil => simp [storeBytes, show ¬ (a ≤ j ∧ j < a) by omega]
  | cons b bs ih =>
    rw [storeBytes, ih, SMap.get_set]
    by_cases h : j = a
    · subst h
      simp
    · by_cases g : a + 1 ≤ j ∧ j < a + 1 + bs.length
      · have : a ≤ j ∧ j < a + (bs.length + 1) := by omega
        obtain ⟨i, rfl⟩ : ∃ i, j = a + 1 + i := ⟨j - a - 1, by omega⟩
        have e1 : a + 1 + i - (a + 1) = i := by omega
        have e2 : a + 1 + i - a = i + 1 := by omega
        simp [g, this, e1, e2]
      · have : ¬ (a ≤ j ∧ j < a + (bs.length + 1)) := by omega
        rw [if_neg g, if_neg h, List.length_cons, if_neg this]

/-- A byte after a store of bytes. -/
theorem Mem.read1_bytes (m : Mem) (a j : Nat) (bs : List Byte) :
    (m.perform1 (.bytes a bs)).read1 j = if a ≤ j ∧ j < a + bs.length then bs[j - a]?.getD 0 else m.read1 j :=
  get_storeBytes m.cells a j bs

theorem SMap.get_filter {α : Type} (d : α) (m : SMap α) (p : Nat → Bool) (j : Nat) :
    SMap.get d (m.filter (fun e => p e.1)) j = if p j then SMap.get d m j else d := by
  induction m with
  | nil => simp
  | cons e m ih =>
    obtain ⟨i, v⟩ := e
    by_cases hp : p i = true
    · by_cases h : i = j
      · subst h; simp [SMap.get, hp]
      · simp [SMap.get, hp, h, ih]
    · by_cases h : i = j
      · subst h; simp [hp, ih]
      · simp [SMap.get, hp, h, ih]

/-- A byte after a range is zeroed. -/
theorem Mem.read1_zero (m : Mem) (a n j : Nat) :
    (m.perform1 (.zero a n)).read1 j = if a ≤ j ∧ j < a + n then 0 else m.read1 j := by
  have := SMap.get_filter (0 : Byte) m.cells (fun k => !(decide (a ≤ k) && decide (k < a + n))) j
  simp only [Mem.read1, Mem.perform1]
  rw [this]
  by_cases h : a ≤ j ∧ j < a + n <;> simp [h]

/-- Marking poison changes no byte. -/
@[simp] theorem Mem.read1_poison (m : Mem) (cw j : Nat) : (m.perform1 (.poison cw)).read1 j = m.read1 j := rfl

/-- The byte addresses that a write can change. -/
def Wr.covers : Wr → Nat → Prop
  | .bytes a bs, j => a ≤ j ∧ j < a + bs.length
  | .zero a n, j => a ≤ j ∧ j < a + n
  | .copy _ dst n, j => dst ≤ j ∧ j < dst + n
  | .poison _, _ => False

theorem get_moveRange_ne (m : SMap Byte) (src dst n j : Nat) (h : ¬ (dst ≤ j ∧ j < dst + n)) :
    SMap.get 0 (moveRange 0 m src dst n) j = SMap.get 0 m j := by
  unfold moveRange
  have h1 : ∀ e ∈ m.filter (fun e => src ≤ e.1 && e.1 < src + n), e.1 - src + dst ≠ j := by
    intro e he
    have := (List.mem_filter.mp he).2
    simp at this
    omega
  have h0 : SMap.get 0 (m.filter (fun e => !(dst ≤ e.1 && e.1 < dst + n))) j = SMap.get 0 m j := by
    rw [SMap.get_filter (0 : Byte) m (fun k => !(decide (dst ≤ k) && decide (k < dst + n))) j]
    have : (!(decide (dst ≤ j) && decide (j < dst + n))) = true := by
      simp only [Bool.not_eq_true', Bool.and_eq_false_iff, decide_eq_false_iff_not]; omega
    simp [this]
  revert h0
  generalize m.filter (fun e => !(dst ≤ e.1 && e.1 < dst + n)) = acc
  revert h1
  generalize m.filter (fun e => src ≤ e.1 && e.1 < src + n) = l
  intro h1
  induction l generalizing acc with
  | nil => exact id
  | cons e l ih =>
    intro h0
    refine ih _ (fun x hx => h1 x (List.mem_cons_of_mem _ hx)) ?_
    rw [SMap.get_set_ne (Ne.symm (h1 e List.mem_cons_self)) 0 acc]
    exact h0

/-- A byte that no write covers reads as before. -/
theorem Mem.read1_frame (m : Mem) (ws : List Wr) (j : Nat) (h : ∀ x ∈ ws, ¬ x.covers j) :
    (m.perform ws).read1 j = m.read1 j := by
  induction ws generalizing m with
  | nil => rfl
  | cons x ws ih =>
    rw [Mem.perform_cons, ih _ (fun y hy => h y (List.mem_cons_of_mem _ hy))]
    have hx := h x List.mem_cons_self
    cases x with
    | bytes a bs => exact (Mem.read1_bytes m a j bs).trans (if_neg hx)
    | zero a n => exact (Mem.read1_zero m a n j).trans (if_neg hx)
    | copy s d n => exact get_moveRange_ne m.cells s d n j hx
    | poison cw => rfl

/-! ## What a command on the workbench can do -/

/-- A command that is `lift f` always has a next state: the fuses and the waiting commands are as they were, and memory
has changed by the writes that f lists and by nothing else. -/
theorem lift_next (f : Work → Work) (s : State) :
    ∃ t, lift f s = .next t ∧ t.fuse = s.fuse ∧ t.pending = s.pending ∧ t.chip = (f (Work.of s)).chip ∧
      t.mem = s.mem.perform (f (Work.of s)).wr := ⟨_, rfl, rfl, rfl, rfl, rfl⟩

@[simp] theorem liftIf_true (f : Work → Work) (s : State) : liftIf true f s = lift f s := rfl
@[simp] theorem liftIf_false (f : Work → Work) (s : State) : liftIf false f s = .fault .illFormed := rfl

theorem lift_wf {f : Work → Work} {s t : State} (h : lift f s = .next t) (hs : s.mem.wf = true) : t.mem.wf = true := by
  cases h; exact Mem.perform_wf hs _

theorem liftIf_wf {ok : Bool} {f : Work → Work} {s t : State} (h : liftIf ok f s = .next t) (hs : s.mem.wf = true) :
    t.mem.wf = true := by
  cases ok with
  | false => cases h
  | true => exact lift_wf h hs

end Sys2Proof.Machine
end

