-- ==== Sys2Proof/Laws/Gives.lean ====
section
/-!
SUPPORT. From what a command does on the workbench to the state it gives: one lemma for each shape of command.
-/

namespace Sys2Proof

open Sys2Proof.Machine

theorem liftIf_eq {f : Work → Work} {s : State} {ok : Bool} (h : ok = true) : liftIf ok f s = lift f s := by rw [h]; rfl

/-- A command that runs f on the workbench. -/
theorem gives_of_lift {c : Instr} {s : State} {f : Work → Work} {P : State → Prop} (h : exec c s = lift f s)
    (hp : P { s with chip := (f (Work.of s)).chip, mem := s.mem.perform (f (Work.of s)).wr }) : Gives c s P := ⟨_, h, hp⟩

/-- A command that does nothing on the workbench. -/
theorem gives_of_id {c : Instr} {s : State} {f : Work → Work} {P : State → Prop} (h : exec c s = lift f s)
    (hf : f (Work.of s) = Work.of s) (hp : P s) : Gives c s P := by
  refine gives_of_lift h ?_; rw [hf]; exact hp

/-- A command that changes the chip alone. -/
theorem gives_of_chip {c : Instr} {s : State} {f : Work → Work} {P : State → Prop} (h : exec c s = lift f s)
    (hw : (f (Work.of s)).wr = []) (hp : P { s with chip := (f (Work.of s)).chip }) : Gives c s P := by
  refine gives_of_lift h ?_; rw [hw]; exact hp

/-- A command that changes one tile. -/
theorem gives_of_modTile {c : Instr} {s : State} {F : Work → Work} {k : Nat} {g : Tile → Tile} (f : Tile → Tile)
    (h : exec c s = lift F s) (hF : F (Work.of s) = (Work.of s).modTile k f) (hg : f (tileOf s k) = g (tileOf s k)) :
    Gives c s (TileTo k g s) := by
  refine gives_of_chip h (by rw [hF]; rfl) ?_
  rw [hF]
  exact ⟨⟨rfl, rfl, rfl⟩, rfl, (Work.modTile_self (Work.of s) k f).trans hg, fun u hu => Work.modTile_ne hu (Work.of s) f⟩

/-- A command that changes one host core. -/
theorem gives_of_modCore {c : Instr} {s : State} {F : Work → Work} {k : Nat} {g : HostCore → HostCore}
    (f : HostCore → HostCore) (h : exec c s = lift F s) (hF : F (Work.of s) = (Work.of s).modCore k f)
    (hg : f (coreOf s k) = g (coreOf s k)) : Gives c s (CoreTo k g s) := by
  refine gives_of_chip h (by rw [hF]; rfl) ?_
  rw [hF]
  exact ⟨⟨rfl, rfl, rfl⟩, rfl, (Work.modCore_self (Work.of s) k f).trans hg, fun u hu => Work.modCore_ne hu (Work.of s) f⟩

theorem drainStores_nil {s : State} {c : Nat} (h : (coreOf s c).storeBuf = []) : (Work.of s).drainStores c = Work.of s := by
  have h' : ((Work.of s).core c).storeBuf = [] := h
  simp [Work.drainStores, h']

/-- A store of a host core to an I/O region where none of its stores waits. -/
theorem hostIo_free {s : State} {c : Nat} (f : Work → Work) (h : HartFree s c) (hb : (coreOf s c).storeBuf = []) :
    (Work.of s).hostIo c f = f (Work.of s) := by
  have h1 : ((Work.of s).core c).hwError = none := h.1
  simp [Work.hostIo, h1, h.2, drainStores_nil hb]

/-- A register write that takes effect. -/
theorem gives_of_regStore {c : Instr} {s : State} {core off : Nat} {z : Size} {high allowed : Bool} {v : W64}
    {F : Work → Work} {P : State → State → Prop} (h : exec c s = lift (fun w => w.regStore core off z high allowed v F) s)
    (hz : regSize z = true) (ho : RegOpen s core off allowed)
    (hp : P s { s with chip := (F (Work.of s)).chip, mem := s.mem.perform (F (Work.of s)).wr }) :
    Gives c s (ThenCore core P s) := by
  obtain ⟨⟨h5, h6⟩, h7, h1, h2, h3, h4⟩ := ho
  have e : (Work.of s).regStore core off z high allowed v F =
      (F (Work.of s)).modCore core (fun x => { x with trap := none }) := by
    simp [Work.regStore, Work.regDo, hostIo_free _ ⟨h5, h6⟩ h7, hz, h1, h2, h3, h4]
  refine gives_of_lift h ⟨_, hp, ?_⟩
  simp only [e]
  generalize F (Work.of s) = w
  exact ⟨⟨rfl, rfl, rfl⟩, rfl, Work.modCore_self w core (fun x => { x with trap := none }),
    fun u hu => Work.modCore_ne hu w (fun x => { x with trap := none })⟩

/-- One tile changes. -/
theorem tileTo_modTile {s : State} {W : Work} {k : Nat} {g : Tile → Tile} (f : Tile → Tile) (hW : W = (Work.of s).modTile k f)
    (hg : f (tileOf s k) = g (tileOf s k)) : TileTo k g s { s with chip := W.chip, mem := s.mem.perform W.wr } := by
  subst hW
  exact ⟨⟨rfl, rfl, rfl⟩, rfl, (Work.modTile_self (Work.of s) k f).trans hg, fun u hu => Work.modTile_ne hu (Work.of s) f⟩

theorem stored_bytes (s : State) (a : Nat) (bs : List Byte) (ch : Chip) :
    Stored a bs s { s with chip := ch, mem := s.mem.perform [.bytes a bs] } := by
  refine ⟨fun j => by simpa [List.getD_eq_getElem?_getD] using Mem.read1_bytes s.mem a j bs, fun cw => ?_⟩
  have := SMap.get_filter false s.mem.poison (fun c => !(decide (a ≤ c * 32) && decide ((c + 1) * 32 ≤ a + bs.length))) cw
  refine this.trans ?_
  by_cases h : a ≤ cw * 32 ∧ (cw + 1) * 32 ≤ a + bs.length
  · simp [h]
  · rw [if_neg h, if_pos]; · rfl
    simp only [Bool.not_eq_true', Bool.and_eq_false_iff, decide_eq_false_iff_not]
    by_cases h1 : a ≤ cw * 32
    · exact Or.inr fun h2 => h ⟨h1, h2⟩
    · exact Or.inl h1

/-- What tile k reads as where the chip is that of a workbench with one tile changed. -/
theorem tileOf_modTile {s t : State} {k : Nat} {F : Tile → Tile} (h : t.chip = ((Work.of s).modTile k F).chip) :
    tileOf t k = F (tileOf s k) ∧ ∀ u, u ≠ k → tileOf t u = tileOf s u := by
  have e : ∀ u, tileOf t u = ((Work.of s).modTile k F).tile u := by
    intro u; simp only [tileOf, Work.tile, Work.of_chip, h]
  exact ⟨(e k).trans (Work.modTile_self (Work.of s) k F), fun u hu => (e u).trans (Work.modTile_ne hu (Work.of s) F)⟩

/-- Every core of a tile but h loses its reservation on the granules of a range. -/
theorem core_mapVal (x : Tile) (h a n g : Nat) :
    ({ x with cores := SMap.mapVal x.cores (fun j c =>
        if j ≠ h && c.reservedIn a n then { c with reserved := none } else c) } : Tile).core g =
      if g ≠ h ∧ (x.core g).reservedIn a n = true then { x.core g with reserved := none } else x.core g := by
  refine (SMap.get_mapVal TileCore.zero x.cores (fun j c =>
    if j ≠ h && c.reservedIn a n then { c with reserved := none } else c) g ?_).trans ?_
  · simp [TileCore.zero]
  · by_cases h1 : g = h <;> by_cases h2 : (x.core g).reservedIn a n = true <;> simp_all [Tile.core]

/-- A tile core's store to its own tile store. -/
theorem tileStores_coreWrite (s : State) (k h a : Nat) (bs : List Byte) (f : TileCore → TileCore) :
    TileStores k h a bs f s
      { s with
        chip := (((Work.of s).coreWrite k h a bs).modTile k (fun x => (x.modCore h f).advance h)).chip
        mem := s.mem.perform (((Work.of s).coreWrite k h a bs).modTile k (fun x => (x.modCore h f).advance h)).wr } := by
  have e : (((Work.of s).coreWrite k h a bs).modTile k (fun x => (x.modCore h f).advance h)).chip =
      ((Work.of s).modTile k (fun x => (({ x with cores := SMap.mapVal x.cores (fun j c =>
        if j ≠ h && c.reservedIn (tileAddr k a) bs.length then { c with reserved := none } else c) }).modCore h f).advance h)).chip := by
    simp [Work.coreWrite, Work.put, Work.modTile, Work.setTile, Work.tile]
  obtain ⟨h1, h2⟩ := tileOf_modTile (s := s) (t := { s with
        chip := (((Work.of s).coreWrite k h a bs).modTile k (fun x => (x.modCore h f).advance h)).chip
        mem := s.mem.perform (((Work.of s).coreWrite k h a bs).modTile k (fun x => (x.modCore h f).advance h)).wr }) e
  refine ⟨stored_bytes s _ bs _, rfl, rfl, rfl, h2, ?_, ?_, ?_⟩
  · rw [h1]; rfl
  · rw [h1]
    have := core_mapVal (tileOf s k) h (tileAddr k a) bs.length h
    rw [if_neg (by simp)] at this
    simp only [Tile.advance, Tile.modCore_modCore, Tile.modCore_self]
    rw [this]
  · intro g hg
    rw [h1]
    have := core_mapVal (tileOf s k) h (tileAddr k a) bs.length g
    simp only [Tile.advance, Tile.modCore_modCore, Tile.modCore_ne hg]
    rw [this]
    simp only [ne_eq, hg, not_false_eq_true, true_and]

theorem refuseWaiting_none {s : State} {w : Work} {k n : Nat} (hw : w.chip.sqs = s.chip.sqs) (h : NoLaunchWaits s k) :
    w.refuseWaiting k n = w := by
  have ht : ∀ q, w.turn? q 1 = (Work.of s).turn? q 1 := by
    intro q
    have e : w.sq q = (Work.of s).sq q := by simp only [Work.sq, hw, Work.of_chip]
    simp only [Work.turn?, Work.next?, e]
  unfold Work.refuseWaiting
  generalize w.chip.sqs.map (·.1) = l
  induction l with
  | nil => rfl
  | cons q l ih =>
    rw [Work.each_cons]
    rw [ht q]
    cases hc : (Work.of s).turn? q 1 with
    | none => exact ih
    | some c =>
      by_cases h1 : c.count = 1
      · have := h q c hc h1
        simp only [h1, this, decide_true, Bool.and_false, Bool.false_eq_true, if_false]
        exact ih
      · simp only [h1, decide_false, Bool.false_and, Bool.false_eq_true, if_false]
        exact ih

theorem runs_of_lift {c : Instr} {s : State} {f : Work → Work} {w : Work} (h : exec c s = lift f s) (hw : f (Work.of s) = w) :
    Runs c s w := by subst hw; exact h

theorem runs_of_regStore {c : Instr} {s : State} {core off : Nat} {z : Size} {high allowed : Bool} {v : W64}
    {F : Work → Work} {w : Work} (h : exec c s = lift (fun w => w.regStore core off z high allowed v F) s)
    (hz : regSize z = true) (ho : RegOpen s core off allowed) (hw : F (Work.of s) = w) : Runs c s (untrap core w) := by
  obtain ⟨⟨h5, h6⟩, h7, h1, h2, h3, h4⟩ := ho
  refine runs_of_lift h ?_
  subst hw
  simp [Work.regStore, Work.regDo, hostIo_free _ ⟨h5, h6⟩ h7, hz, h1, h2, h3, h4, untrap]

theorem becomes_of_lift {c : Instr} {s : State} {f : Work → Work} {ch : Chip} (h : exec c s = lift f s)
    (hw : f (Work.of s) = { Work.of s with chip := ch }) : Becomes c s ch := by
  refine h.trans ?_
  show Host.Outcome.next { s with chip := (f (Work.of s)).chip, mem := s.mem.perform (f (Work.of s)).wr } = _
  rw [hw]; rfl

end Sys2Proof
end

