-- ==== Sys2Proof/Laws/Engine.lean ====
section
/-!
SUPPORT. The shared write of engines to a tile store: where its address lies, and everything that the write does.
-/

namespace Sys2Proof.Machine

theorem place_tile (w : Work) {k off : Nat} (hk : k < 160) (ho : off < 0x60_0000) (hs : w.tileInService k = true) :
    w.place (tileAddr k off) = .tile k off := by
  have e1 : (0x210_0000_0000 + k * 0x80_0000 + off - 0x210_0000_0000) / 0x80_0000 = k := by omega
  have e2 : (0x210_0000_0000 + k * 0x80_0000 + off - 0x210_0000_0000) % 0x80_0000 = off := by omega
  unfold Work.place tileAddr
  simp only [e1, e2, hs, ho, decide_true, Bool.and_true]
  rw [if_neg (by omega), if_neg (by omega), if_neg (by omega), if_neg (by omega), if_neg (by omega), if_pos (by
    rw [Bool.and_eq_true, decide_eq_true_eq, decide_eq_true_eq]; omega)]
  simp

theorem local_tile (w : Work) {k off : Nat} (hk : k < 160) (ho : off < 0x60_0000) : w.local_ (tileAddr k off) = tileAddr k off := by
  have h : tileAddr k off < 2 ^ 55 := by unfold tileAddr; omega
  unfold Work.local_
  rw [if_neg]
  intro hc
  simp only [Bool.and_eq_true, decide_eq_true_eq] at hc
  exact absurd hc.1.1 (Nat.not_le.mpr h)

theorem dead_of_tile {w : Work} {a k off : Nat} (h : w.place a = .tile k off) : w.dead a = false := by
  simp [Work.dead, h]

theorem dead_tile (w : Work) {k off : Nat} (hk : k < 160) (ho : off < 0x60_0000) (hs : w.tileInService k = true) :
    w.dead (tileAddr k off) = false := dead_of_tile (place_tile w hk ho hs)

/-- What a tile core becomes when its reservation on a range of lines ends. -/
def TileCore.unreserve (lo hi : Nat) (x : TileCore) : TileCore :=
  match x.reserved with
  | some g => if lo ≤ g && g < hi then { x with reserved := none } else x
  | none => x

theorem st_mapVal (m : SMap Tile) (lo hi u : Nat) :
    (SMap.get (Tile.reset u) (SMap.mapVal m (fun _ t => { t with cores := SMap.mapVal t.cores (fun _ c =>
      c.unreserve lo hi) })) u).st = (SMap.get (Tile.reset u) m u).st := by
  rw [SMap.get_mapVal]; rfl

/-- What `clearResv` does to the tiles. -/
theorem clearResv_tiles (w : Work) (lo hi : Nat) (o : Option Nat) :
    (w.clearResv lo hi o).chip.tiles = SMap.mapVal w.chip.tiles (fun _ t => { t with cores := SMap.mapVal t.cores (fun _ c =>
      c.unreserve lo hi) }) := rfl

/-- The write of an engine at an address that lies in a tile store. -/
theorem pwrite_at (w : Work) {a k off : Nat} (hl : w.local_ a = a)
    (hp : ∀ x : Work, (∀ u, (x.tile u).st = (w.tile u).st) → x.place a = .tile k off)
    {bs : List Byte} (hb : bs ≠ []) (hh : (w.tile k).holds off bs.length = false) (he : (w.tile k).st ≠ .exchanging) (hw : (w.tile k).heldWrites = [])
    (hd : w.dirtyIn (lineLo a) (lineHi a bs.length) = []) (publish : Bool) (p : Option Nat) (issuer : Option RemoteWho) :
    w.pwrite a bs publish p issuer =
      ((fun x : Work => if publish then x.dropAhead (lineLo a) (lineHi a bs.length) else x.staleAhead (lineLo a) (lineHi a bs.length))
        ((w.snoopRange (lineLo a) (lineHi a bs.length) (!publish) false).clearResv (lineLo a) (lineHi a bs.length) none)).put
        (.bytes a bs) := by
  have hpw := hp w (fun _ => rfl)
  have hb' : bs.isEmpty = false := by cases bs with | nil => exact absurd rfl hb | cons => rfl
  have hw' : w.tileWaits a bs.length issuer = false := by simp [Work.tileWaits, hpw, hh, he, hw]
  have hq : w.post a bs issuer = w := by simp [Work.post, hpw]
  have hdead : w.dead a = false := by simp [Work.dead, hpw]
  have h2 : ((fun x : Work => if publish then x.dropAhead (lineLo a) (lineHi a bs.length) else x.staleAhead (lineLo a) (lineHi a bs.length))
        ((w.snoopRange (lineLo a) (lineHi a bs.length) (!publish) false).clearResv (lineLo a) (lineHi a bs.length) none)).place a =
      .tile k off := by
    apply hp; intro u
    have := st_mapVal w.chip.tiles (lineLo a) (lineHi a bs.length) u
    cases publish <;> simpa [Work.tile, clearResv_tiles, Work.snoopRange, hd, Work.dropAhead, Work.staleAhead] using this
  simp only at h2
  simp only [Work.pwrite, hl, hb', hdead, hpw, Place.isMmio, hw', hq, Bool.or_self, Bool.false_eq_true, if_false, h2]

/-- An engine's write to a tile store whose bytes are not held: the bytes are stored, the copies and the reservations of its
lines end, and nothing else changes. -/
theorem pwrite_tile (w : Work) {k off : Nat} (hk : k < 160) (ho : off < 0x60_0000) (hs : w.tileInService k = true)
    {bs : List Byte} (hb : bs ≠ []) (hh : (w.tile k).holds off bs.length = false) (he : (w.tile k).st ≠ .exchanging) (hw : (w.tile k).heldWrites = [])
    (hd : w.dirtyIn (lineLo (tileAddr k off)) (lineHi (tileAddr k off) bs.length) = []) (publish : Bool) (p : Option Nat)
    (issuer : Option RemoteWho) :
    (w.pwrite (tileAddr k off) bs publish p issuer).wr = w.wr ++ [.bytes (tileAddr k off) bs] ∧
    (w.pwrite (tileAddr k off) bs publish p issuer).base = w.base ∧
    (w.pwrite (tileAddr k off) bs publish p issuer).chip =
      { w.chip with
        cores := (w.pwrite (tileAddr k off) bs publish p issuer).chip.cores
        homes := (w.pwrite (tileAddr k off) bs publish p issuer).chip.homes
        readAhead := (w.pwrite (tileAddr k off) bs publish p issuer).chip.readAhead
        tiles := SMap.mapVal w.chip.tiles (fun _ t => { t with cores := SMap.mapVal t.cores (fun _ c =>
          c.unreserve (lineLo (tileAddr k off)) (lineHi (tileAddr k off) bs.length)) }) } := by
  have hp : ∀ x : Work, (∀ u, (x.tile u).st = (w.tile u).st) → x.place (tileAddr k off) = .tile k off := by
    intro x hx; exact place_tile x hk ho (by simpa [Work.tileInService, hx] using hs)
  have hl := local_tile w hk ho
  revert hd hp hl
  generalize tileAddr k off = a
  intro hd hp hl
  rw [pwrite_at w hl hp hb hh he hw hd publish p issuer]
  cases publish <;> simp [Work.snoopRange, hd, Work.clearResv, Work.dropAhead, Work.staleAhead, TileCore.unreserve, Work.put] <;> rfl

end Sys2Proof.Machine
end

