-- ==== Sys2Proof/Laws/PerInstr.lean ====
section
/-!
SUPPORT. Statements for all commands, one lemma for each constructor.
-/

namespace Sys2Proof.Laws

/-- No word spells the command: the table gives its row no bits. -/
def Legal.Statement (i : Instr) : Prop := ∀ nbits w : Nat, decodeTableWord nbits w ≠ some i

/-- Decoding never answers a command. -/
theorem no_word (i : Instr) (nbits w : Nat) : decodeTableWord nbits w ≠ some i := by simp [decodeTableWord]

theorem Legal.registerAccessMalformed : ∀ x1 x2 x3 x4 x5, Legal.Statement (.registerAccessMalformed x1 x2 x3 x4 x5) := fun _ _ _ _ _ => no_word _
theorem Legal.registerWrite : ∀ x1 x2 x3 x4, Legal.Statement (.registerWrite x1 x2 x3 x4) := fun _ _ _ _ => no_word _
theorem Legal.hostLoad : ∀ x1 x2 x3 x4, Legal.Statement (.hostLoad x1 x2 x3 x4) := fun _ _ _ _ => no_word _
theorem Legal.hostStore : ∀ x1 x2 x3 x4 x5, Legal.Statement (.hostStore x1 x2 x3 x4 x5) := fun _ _ _ _ _ => no_word _
theorem Legal.hostNtStore : ∀ x1 x2 x3 x4 x5, Legal.Statement (.hostNtStore x1 x2 x3 x4 x5) := fun _ _ _ _ _ => no_word _
theorem Legal.hostAmo : ∀ x1 x2 x3 x4 x5 x6 x7, Legal.Statement (.hostAmo x1 x2 x3 x4 x5 x6 x7) := fun _ _ _ _ _ _ _ => no_word _
theorem Legal.hostLr : ∀ x1 x2 x3 x4, Legal.Statement (.hostLr x1 x2 x3 x4) := fun _ _ _ _ => no_word _
theorem Legal.hostSc : ∀ x1 x2 x3 x4 x5, Legal.Statement (.hostSc x1 x2 x3 x4 x5) := fun _ _ _ _ _ => no_word _
theorem Legal.hostFence : ∀ x1 x2 x3, Legal.Statement (.hostFence x1 x2 x3) := fun _ _ _ => no_word _
theorem Legal.fenceI : ∀ x1, Legal.Statement (.fenceI x1) := fun _ => no_word _
theorem Legal.cboZero : ∀ x1 x2 x3, Legal.Statement (.cboZero x1 x2 x3) := fun _ _ _ => no_word _
theorem Legal.cboClean : ∀ x1 x2 x3, Legal.Statement (.cboClean x1 x2 x3) := fun _ _ _ => no_word _
theorem Legal.cboFlush : ∀ x1 x2 x3, Legal.Statement (.cboFlush x1 x2 x3) := fun _ _ _ => no_word _
theorem Legal.cboInval : ∀ x1 x2 x3, Legal.Statement (.cboInval x1 x2 x3) := fun _ _ _ => no_word _
theorem Legal.wcEntryTimeout : ∀ x1 x2, Legal.Statement (.wcEntryTimeout x1 x2) := fun _ _ => no_word _
theorem Legal.storeDropped : ∀ x1 x2, Legal.Statement (.storeDropped x1 x2) := fun _ _ => no_word _
theorem Legal.referenceLost : Legal.Statement .referenceLost := no_word _
theorem Legal.srtLanesDeskewed : ∀ x1 x2, Legal.Statement (.srtLanesDeskewed x1 x2) := fun _ _ => no_word _
theorem Legal.srtIdentityTimer : ∀ x1 x2, Legal.Statement (.srtIdentityTimer x1 x2) := fun _ _ => no_word _
theorem Legal.srtIdentity : ∀ x1 x2 x3, Legal.Statement (.srtIdentity x1 x2 x3) := fun _ _ _ => no_word _
theorem Legal.srtSelect : ∀ x1 x2 x3, Legal.Statement (.srtSelect x1 x2 x3) := fun _ _ _ => no_word _
theorem Legal.srtFlitSend : ∀ x1 x2 x3 x4 x5, Legal.Statement (.srtFlitSend x1 x2 x3 x4 x5) := fun _ _ _ _ _ => no_word _
theorem Legal.srtMessageFlit : ∀ x1 x2 x3, Legal.Statement (.srtMessageFlit x1 x2 x3) := fun _ _ _ => no_word _
theorem Legal.srtDataFlit : ∀ x1 x2 x3, Legal.Statement (.srtDataFlit x1 x2 x3) := fun _ _ _ => no_word _
theorem Legal.srtCreditFlit : ∀ x1 x2 x3, Legal.Statement (.srtCreditFlit x1 x2 x3) := fun _ _ _ => no_word _
theorem Legal.srtIdleFlit : ∀ x1 x2 x3, Legal.Statement (.srtIdleFlit x1 x2 x3) := fun _ _ _ => no_word _
theorem Legal.srtCreditReturn : ∀ x1 x2 x3, Legal.Statement (.srtCreditReturn x1 x2 x3) := fun _ _ _ => no_word _
theorem Legal.srtAckTimer : ∀ x1 x2, Legal.Statement (.srtAckTimer x1 x2) := fun _ _ => no_word _
theorem Legal.srtAck : ∀ x1 x2 x3, Legal.Statement (.srtAck x1 x2 x3) := fun _ _ _ => no_word _
theorem Legal.srtRetry : ∀ x1 x2 x3, Legal.Statement (.srtRetry x1 x2 x3) := fun _ _ _ => no_word _
theorem Legal.srtRetryTimeout : ∀ x1 x2, Legal.Statement (.srtRetryTimeout x1 x2) := fun _ _ => no_word _
theorem Legal.srtLostRequestPoison : ∀ x1, Legal.Statement (.srtLostRequestPoison x1) := fun _ => no_word _
theorem Legal.indexExchange : ∀ x1 x2, Legal.Statement (.indexExchange x1 x2) := fun _ _ => no_word _
theorem Legal.exchangeDone : ∀ x1 x2, Legal.Statement (.exchangeDone x1 x2) := fun _ _ => no_word _
theorem Legal.chtLoad : ∀ x1, Legal.Statement (.chtLoad x1) := fun _ => no_word _
theorem Legal.chtCancel : ∀ x1, Legal.Statement (.chtCancel x1) := fun _ => no_word _
theorem Legal.chtBadCommand : ∀ x1 x2, Legal.Statement (.chtBadCommand x1 x2) := fun _ _ => no_word _
theorem Legal.chtVerifyDone : Legal.Statement .chtVerifyDone := no_word _
theorem Legal.charterActivation : Legal.Statement .charterActivation := no_word _
theorem Legal.poundDrainTimeout : ∀ x1, Legal.Statement (.poundDrainTimeout x1) := fun _ => no_word _
theorem Legal.poundDrainEnd : ∀ x1, Legal.Statement (.poundDrainEnd x1) := fun _ => no_word _
theorem Legal.scrubDone : ∀ x1, Legal.Statement (.scrubDone x1) := fun _ => no_word _
theorem Legal.poundStartDone : ∀ x1, Legal.Statement (.poundStartDone x1) := fun _ => no_word _
theorem Legal.lockPpsEdge : Legal.Statement .lockPpsEdge := no_word _
theorem Legal.timeOfDay : ∀ x1, Legal.Statement (.timeOfDay x1) := fun _ => no_word _
theorem Legal.ptpSync : ∀ x1 x2, Legal.Statement (.ptpSync x1 x2) := fun _ _ => no_word _
theorem Legal.ptpPortReturn : Legal.Statement .ptpPortReturn := no_word _
theorem Legal.ltSourceTimeout : ∀ x1, Legal.Statement (.ltSourceTimeout x1) := fun _ => no_word _
theorem Legal.setTimeConfig : ∀ x1 x2, Legal.Statement (.setTimeConfig x1 x2) := fun _ _ => no_word _
theorem Legal.ltOrderPost : ∀ x1 x2, Legal.Statement (.ltOrderPost x1 x2) := fun _ _ => no_word _
theorem Legal.ltOrderCancel : ∀ x1 x2 x3, Legal.Statement (.ltOrderCancel x1 x2 x3) := fun _ _ _ => no_word _
theorem Legal.ltOrderBadOp : ∀ x1 x2 x3, Legal.Statement (.ltOrderBadOp x1 x2 x3) := fun _ _ _ => no_word _
theorem Legal.lockOrderNotice : ∀ x1, Legal.Statement (.lockOrderNotice x1) := fun _ => no_word _
theorem Legal.operatingPointChange : ∀ x1, Legal.Statement (.operatingPointChange x1) := fun _ => no_word _
theorem Legal.powerCapStep : ∀ x1, Legal.Statement (.powerCapStep x1) := fun _ => no_word _
theorem Legal.postCapStep : ∀ x1 x2 x3, Legal.Statement (.postCapStep x1 x2 x3) := fun _ _ _ => no_word _
theorem Legal.immediateCap : ∀ x1, Legal.Statement (.immediateCap x1) := fun _ => no_word _
theorem Legal.hbmRetrainingWindow : ∀ x1, Legal.Statement (.hbmRetrainingWindow x1) := fun _ => no_word _
theorem Legal.hbmRetrainTimeout : ∀ x1, Legal.Statement (.hbmRetrainTimeout x1) := fun _ => no_word _
theorem Legal.hbmRetrainPost : ∀ x1, Legal.Statement (.hbmRetrainPost x1) := fun _ => no_word _
theorem Legal.auditStart : ∀ x1, Legal.Statement (.auditStart x1) := fun _ => no_word _
theorem Legal.collationWindow : ∀ x1, Legal.Statement (.collationWindow x1) := fun _ => no_word _
theorem Legal.collationWindowEnd : ∀ x1, Legal.Statement (.collationWindowEnd x1) := fun _ => no_word _
theorem Legal.checkpointFence : ∀ x1, Legal.Statement (.checkpointFence x1) := fun _ => no_word _
theorem Legal.checkpointFenceReached : ∀ x1, Legal.Statement (.checkpointFenceReached x1) := fun _ => no_word _
theorem Legal.frequencyGroupEpoch : ∀ x1, Legal.Statement (.frequencyGroupEpoch x1) := fun _ => no_word _
theorem Legal.fgLeaderCollect : ∀ x1, Legal.Statement (.fgLeaderCollect x1) := fun _ => no_word _
theorem Legal.fgRootCollect : ∀ x1, Legal.Statement (.fgRootCollect x1) := fun _ => no_word _
theorem Legal.fgLeaderDistribute : ∀ x1, Legal.Statement (.fgLeaderDistribute x1) := fun _ => no_word _
theorem Legal.fgMemberRead : ∀ x1, Legal.Statement (.fgMemberRead x1) := fun _ => no_word _
theorem Legal.tileLoad : ∀ x1 x2 x3 x4 x5 x6, Legal.Statement (.tileLoad x1 x2 x3 x4 x5 x6) := fun _ _ _ _ _ _ => no_word _
theorem Legal.tileStore : ∀ x1 x2 x3 x4 x5 x6, Legal.Statement (.tileStore x1 x2 x3 x4 x5 x6) := fun _ _ _ _ _ _ => no_word _
theorem Legal.tileAmo : ∀ x1 x2 x3 x4 x5 x6 x7, Legal.Statement (.tileAmo x1 x2 x3 x4 x5 x6 x7) := fun _ _ _ _ _ _ _ => no_word _
theorem Legal.tileLr : ∀ x1 x2 x3 x4 x5, Legal.Statement (.tileLr x1 x2 x3 x4 x5) := fun _ _ _ _ _ => no_word _
theorem Legal.tileSc : ∀ x1 x2 x3 x4 x5 x6, Legal.Statement (.tileSc x1 x2 x3 x4 x5 x6) := fun _ _ _ _ _ _ => no_word _
theorem Legal.semValueStore : ∀ x1 x2 x3, Legal.Statement (.semValueStore x1 x2 x3) := fun _ _ _ => no_word _
theorem Legal.signal : ∀ x1 x2 x3 x4 x5, Legal.Statement (.signal x1 x2 x3 x4 x5) := fun _ _ _ _ _ => no_word _
theorem Legal.wait : ∀ x1 x2 x3 x4 x5, Legal.Statement (.wait x1 x2 x3 x4 x5) := fun _ _ _ _ _ => no_word _
theorem Legal.waitReturn : ∀ x1 x2, Legal.Statement (.waitReturn x1 x2) := fun _ _ => no_word _
theorem Legal.vectorCoreStart : ∀ x1 x2 x3, Legal.Statement (.vectorCoreStart x1 x2 x3) := fun _ _ _ => no_word _
theorem Legal.vectorEcall : ∀ x1 x2, Legal.Statement (.vectorEcall x1 x2) := fun _ _ => no_word _
theorem Legal.vectorFenceI : ∀ x1 x2, Legal.Statement (.vectorFenceI x1 x2) := fun _ _ => no_word _
theorem Legal.vhexp2V : ∀ x1 x2 x3 x4 x5, Legal.Statement (.vhexp2V x1 x2 x3 x4 x5) := fun _ _ _ _ _ => no_word _
theorem Legal.vhlog2V : ∀ x1 x2 x3 x4 x5, Legal.Statement (.vhlog2V x1 x2 x3 x4 x5) := fun _ _ _ _ _ => no_word _
theorem Legal.vhrecV : ∀ x1 x2 x3 x4 x5, Legal.Statement (.vhrecV x1 x2 x3 x4 x5) := fun _ _ _ _ _ => no_word _
theorem Legal.vhrsqrtV : ∀ x1 x2 x3 x4 x5, Legal.Statement (.vhrsqrtV x1 x2 x3 x4 x5) := fun _ _ _ _ _ => no_word _
theorem Legal.tvflushWrite : ∀ x1 x2 x3, Legal.Statement (.tvflushWrite x1 x2 x3) := fun _ _ _ => no_word _
theorem Legal.tmcompWrite : ∀ x1 x2, Legal.Statement (.tmcompWrite x1 x2) := fun _ _ => no_word _
theorem Legal.ecall : ∀ x1, Legal.Statement (.ecall x1) := fun _ => no_word _
theorem Legal.tileEndWaitDone : ∀ x1, Legal.Statement (.tileEndWaitDone x1) := fun _ => no_word _
theorem Legal.tileTimeLimit : ∀ x1, Legal.Statement (.tileTimeLimit x1) := fun _ => no_word _
theorem Legal.moverWordStore : ∀ x1 x2 x3 x4, Legal.Statement (.moverWordStore x1 x2 x3 x4) := fun _ _ _ _ => no_word _
theorem Legal.moverSubmit : ∀ x1 x2 x3, Legal.Statement (.moverSubmit x1 x2 x3) := fun _ _ _ => no_word _
theorem Legal.moverSubmitResume : ∀ x1 x2, Legal.Statement (.moverSubmitResume x1 x2) := fun _ _ => no_word _
theorem Legal.moverDescriptorStart : ∀ x1 x2, Legal.Statement (.moverDescriptorStart x1 x2) := fun _ _ => no_word _
theorem Legal.moverDescriptorComplete : ∀ x1 x2, Legal.Statement (.moverDescriptorComplete x1 x2) := fun _ _ => no_word _
theorem Legal.moverDescriptorFail : ∀ x1 x2, Legal.Statement (.moverDescriptorFail x1 x2) := fun _ _ => no_word _
theorem Legal.tlDisable : ∀ x1 x2, Legal.Statement (.tlDisable x1 x2) := fun _ _ => no_word _
theorem Legal.tlEnable : ∀ x1 x2, Legal.Statement (.tlEnable x1 x2) := fun _ _ => no_word _
theorem Legal.tlReset : ∀ x1 x2, Legal.Statement (.tlReset x1 x2) := fun _ _ => no_word _
theorem Legal.tileDrainTimeout : ∀ x1, Legal.Statement (.tileDrainTimeout x1) := fun _ => no_word _
theorem Legal.tlSemSignal : ∀ x1 x2 x3 x4, Legal.Statement (.tlSemSignal x1 x2 x3 x4) := fun _ _ _ _ => no_word _
theorem Legal.tlFaultClear : ∀ x1 x2, Legal.Statement (.tlFaultClear x1 x2) := fun _ _ => no_word _
theorem Legal.tlLgClear : ∀ x1 x2 x3, Legal.Statement (.tlLgClear x1 x2 x3) := fun _ _ _ => no_word _
theorem Legal.tlOsLastClear : ∀ x1 x2, Legal.Statement (.tlOsLastClear x1 x2) := fun _ _ => no_word _
theorem Legal.hmset : ∀ x1 x2 x3 x4, Legal.Statement (.hmset x1 x2 x3 x4) := fun _ _ _ _ => no_word _
theorem Legal.hmget : ∀ x1 x2 x3 x4, Legal.Statement (.hmget x1 x2 x3 x4) := fun _ _ _ _ => no_word _
theorem Legal.hmma : ∀ x1 x2 x3 x4 x5, Legal.Statement (.hmma x1 x2 x3 x4 x5) := fun _ _ _ _ _ => no_word _
theorem Legal.hmdrain : ∀ x1 x2 x3 x4 x5, Legal.Statement (.hmdrain x1 x2 x3 x4 x5) := fun _ _ _ _ _ => no_word _
theorem Legal.hmacc : ∀ x1 x2 x3 x4 x5, Legal.Statement (.hmacc x1 x2 x3 x4 x5) := fun _ _ _ _ _ => no_word _
theorem Legal.hmsig : ∀ x1 x2 x3 x4 x5, Legal.Statement (.hmsig x1 x2 x3 x4 x5) := fun _ _ _ _ _ => no_word _
theorem Legal.hmfence : ∀ x1 x2 x3 x4 x5, Legal.Statement (.hmfence x1 x2 x3 x4 x5) := fun _ _ _ _ _ => no_word _
theorem Legal.hmfenceReturn : ∀ x1, Legal.Statement (.hmfenceReturn x1) := fun _ => no_word _
theorem Legal.hmmaStart : ∀ x1, Legal.Statement (.hmmaStart x1) := fun _ => no_word _
theorem Legal.hmaccStart : ∀ x1, Legal.Statement (.hmaccStart x1) := fun _ => no_word _
theorem Legal.hmmaComplete : ∀ x1, Legal.Statement (.hmmaComplete x1) := fun _ => no_word _
theorem Legal.hmaccComplete : ∀ x1, Legal.Statement (.hmaccComplete x1) := fun _ => no_word _
theorem Legal.drainActive : ∀ x1, Legal.Statement (.drainActive x1) := fun _ => no_word _
theorem Legal.drainComplete : ∀ x1 x2, Legal.Statement (.drainComplete x1 x2) := fun _ _ => no_word _
theorem Legal.replayAttempt2Start : ∀ x1, Legal.Statement (.replayAttempt2Start x1) := fun _ => no_word _
theorem Legal.replayAttemptDone : ∀ x1 x2, Legal.Statement (.replayAttemptDone x1 x2) := fun _ _ => no_word _
theorem Legal.hmsigSignal : ∀ x1, Legal.Statement (.hmsigSignal x1) := fun _ => no_word _
theorem Legal.outPortTake : ∀ x1 x2, Legal.Statement (.outPortTake x1 x2) := fun _ _ => no_word _
theorem Legal.outPortSlotRead : ∀ x1 x2, Legal.Statement (.outPortSlotRead x1 x2) := fun _ _ => no_word _
theorem Legal.inPortUnit : ∀ x1 x2 x3 x4, Legal.Statement (.inPortUnit x1 x2 x3 x4) := fun _ _ _ _ => no_word _
theorem Legal.inPortSlotWritten : ∀ x1 x2, Legal.Statement (.inPortSlotWritten x1 x2) := fun _ _ => no_word _
theorem Legal.inPortReturnTake : ∀ x1 x2, Legal.Statement (.inPortReturnTake x1 x2) := fun _ _ => no_word _
theorem Legal.canalCreditArrive : ∀ x1 x2, Legal.Statement (.canalCreditArrive x1 x2) := fun _ _ => no_word _
theorem Legal.canalHeldTimeout : ∀ x1 x2, Legal.Statement (.canalHeldTimeout x1 x2) := fun _ _ => no_word _
theorem Legal.doorbell : ∀ x1 x2 x3 x4, Legal.Statement (.doorbell x1 x2 x3 x4) := fun _ _ _ _ => no_word _
theorem Legal.commandFetch : ∀ x1, Legal.Statement (.commandFetch x1) := fun _ => no_word _
theorem Legal.nop : ∀ x1, Legal.Statement (.nop x1) := fun _ => no_word _
theorem Legal.launch : ∀ x1, Legal.Statement (.launch x1) := fun _ => no_word _
theorem Legal.launchStart : ∀ x1, Legal.Statement (.launchStart x1) := fun _ => no_word _
theorem Legal.loadingEnd : ∀ x1 x2, Legal.Statement (.loadingEnd x1 x2) := fun _ _ => no_word _
theorem Legal.launchComplete : ∀ x1 x2, Legal.Statement (.launchComplete x1 x2) := fun _ _ => no_word _
theorem Legal.move : ∀ x1, Legal.Statement (.move x1) := fun _ => no_word _
theorem Legal.moveComplete : ∀ x1 x2, Legal.Statement (.moveComplete x1 x2) := fun _ _ => no_word _
theorem Legal.write : ∀ x1, Legal.Statement (.write x1) := fun _ => no_word _
theorem Legal.writeComplete : ∀ x1 x2, Legal.Statement (.writeComplete x1 x2) := fun _ _ => no_word _
theorem Legal.semWait : ∀ x1, Legal.Statement (.semWait x1) := fun _ => no_word _
theorem Legal.semWaitPoll : ∀ x1 x2, Legal.Statement (.semWaitPoll x1 x2) := fun _ _ => no_word _
theorem Legal.semWaitTimeout : ∀ x1 x2, Legal.Statement (.semWaitTimeout x1 x2) := fun _ _ => no_word _
theorem Legal.semSignal : ∀ x1, Legal.Statement (.semSignal x1) := fun _ => no_word _
theorem Legal.collective : ∀ x1, Legal.Statement (.collective x1) := fun _ => no_word _
theorem Legal.phase : ∀ x1, Legal.Statement (.phase x1) := fun _ => no_word _
theorem Legal.hint : ∀ x1, Legal.Statement (.hint x1) := fun _ => no_word _
theorem Legal.safePoint : ∀ x1, Legal.Statement (.safePoint x1) := fun _ => no_word _
theorem Legal.waitTime : ∀ x1, Legal.Statement (.waitTime x1) := fun _ => no_word _
theorem Legal.waitTimeReached : ∀ x1 x2, Legal.Statement (.waitTimeReached x1 x2) := fun _ _ => no_word _
theorem Legal.ledgerRead : ∀ x1, Legal.Statement (.ledgerRead x1) := fun _ => no_word _
theorem Legal.opcodeReserved : ∀ x1, Legal.Statement (.opcodeReserved x1) := fun _ => no_word _
theorem Legal.completionWrite : ∀ x1, Legal.Statement (.completionWrite x1) := fun _ => no_word _
theorem Legal.ackRead : ∀ x1, Legal.Statement (.ackRead x1) := fun _ => no_word _
theorem Legal.msiWrite : ∀ x1, Legal.Statement (.msiWrite x1) := fun _ => no_word _
theorem Legal.cpQselWrite : ∀ x1 x2 x3 x4 x5 x6, Legal.Statement (.cpQselWrite x1 x2 x3 x4 x5 x6) := fun _ _ _ _ _ _ => no_word _
theorem Legal.cpQctxWrite : ∀ x1 x2 x3 x4 x5 x6 x7, Legal.Statement (.cpQctxWrite x1 x2 x3 x4 x5 x6 x7) := fun _ _ _ _ _ _ _ => no_word _
theorem Legal.queueEnable : ∀ x1 x2 x3, Legal.Statement (.queueEnable x1 x2 x3) := fun _ _ _ => no_word _
theorem Legal.queueDisable : ∀ x1 x2 x3, Legal.Statement (.queueDisable x1 x2 x3) := fun _ _ _ => no_word _
theorem Legal.cpQcmdBad : ∀ x1 x2 x3 x4, Legal.Statement (.cpQcmdBad x1 x2 x3 x4) := fun _ _ _ _ => no_word _
theorem Legal.queueDrainTimeout : ∀ x1, Legal.Statement (.queueDrainTimeout x1) := fun _ => no_word _
theorem Legal.queueDrainEnd : ∀ x1, Legal.Statement (.queueDrainEnd x1) := fun _ => no_word _
theorem Legal.cpNoticeWrite : ∀ x1 x2 x3 x4 x5, Legal.Statement (.cpNoticeWrite x1 x2 x3 x4 x5) := fun _ _ _ _ _ => no_word _
theorem Legal.rdshared : ∀ x1 x2 x3 x4, Legal.Statement (.rdshared x1 x2 x3 x4) := fun _ _ _ _ => no_word _
theorem Legal.rdunique : ∀ x1 x2 x3 x4, Legal.Statement (.rdunique x1 x2 x3 x4) := fun _ _ _ _ => no_word _
theorem Legal.upgrade : ∀ x1 x2 x3 x4, Legal.Statement (.upgrade x1 x2 x3 x4) := fun _ _ _ _ => no_word _
theorem Legal.zeroline : ∀ x1 x2 x3, Legal.Statement (.zeroline x1 x2 x3) := fun _ _ _ => no_word _
theorem Legal.cleanline : ∀ x1 x2 x3, Legal.Statement (.cleanline x1 x2 x3) := fun _ _ _ => no_word _
theorem Legal.flushline : ∀ x1 x2 x3, Legal.Statement (.flushline x1 x2 x3) := fun _ _ _ => no_word _
theorem Legal.wbreq : ∀ x1 x2 x3, Legal.Statement (.wbreq x1 x2 x3) := fun _ _ _ => no_word _
theorem Legal.rdpref : ∀ x1 x2 x3 x4, Legal.Statement (.rdpref x1 x2 x3 x4) := fun _ _ _ _ => no_word _
theorem Legal.rdvol : ∀ x1 x2 x3 x4, Legal.Statement (.rdvol x1 x2 x3 x4) := fun _ _ _ _ => no_word _
theorem Legal.wrplain : ∀ x1 x2 x3 x4 x5, Legal.Statement (.wrplain x1 x2 x3 x4 x5) := fun _ _ _ _ _ => no_word _
theorem Legal.wrpublish : ∀ x1 x2 x3 x4 x5, Legal.Statement (.wrpublish x1 x2 x3 x4 x5) := fun _ _ _ _ _ => no_word _
theorem Legal.wrfull : ∀ x1 x2 x3 x4, Legal.Statement (.wrfull x1 x2 x3 x4) := fun _ _ _ _ => no_word _
theorem Legal.atomic : ∀ x1 x2 x3 x4 x5 x6 x7, Legal.Statement (.atomic x1 x2 x3 x4 x5 x6 x7) := fun _ _ _ _ _ _ _ => no_word _
theorem Legal.snpshared : ∀ x1 x2 x3 x4, Legal.Statement (.snpshared x1 x2 x3 x4) := fun _ _ _ _ => no_word _
theorem Legal.snpunique : ∀ x1 x2 x3 x4, Legal.Statement (.snpunique x1 x2 x3 x4) := fun _ _ _ _ => no_word _
theorem Legal.snpinv : ∀ x1 x2 x3, Legal.Statement (.snpinv x1 x2 x3) := fun _ _ _ => no_word _
theorem Legal.snpflush : ∀ x1 x2 x3, Legal.Statement (.snpflush x1 x2 x3) := fun _ _ _ => no_word _
theorem Legal.snpclean : ∀ x1 x2 x3, Legal.Statement (.snpclean x1 x2 x3) := fun _ _ _ => no_word _
theorem Legal.snprecall : ∀ x1 x2 x3, Legal.Statement (.snprecall x1 x2 x3) := fun _ _ _ => no_word _
theorem Legal.snpcopy : ∀ x1 x2 x3, Legal.Statement (.snpcopy x1 x2 x3) := fun _ _ _ => no_word _
theorem Legal.comp : ∀ x1 x2 x3, Legal.Statement (.comp x1 x2 x3) := fun _ _ _ => no_word _
theorem Legal.retry : ∀ x1 x2 x3, Legal.Statement (.retry x1 x2 x3) := fun _ _ _ => no_word _
theorem Legal.grant : ∀ x1 x2 x3, Legal.Statement (.grant x1 x2 x3) := fun _ _ _ => no_word _
theorem Legal.grantTimeout : ∀ x1 x2 x3, Legal.Statement (.grantTimeout x1 x2 x3) := fun _ _ _ => no_word _
theorem Legal.wbgo : ∀ x1 x2 x3, Legal.Statement (.wbgo x1 x2 x3) := fun _ _ _ => no_word _
theorem Legal.wbcancel : ∀ x1 x2 x3, Legal.Statement (.wbcancel x1 x2 x3) := fun _ _ _ => no_word _
theorem Legal.nodata : ∀ x1 x2 x3, Legal.Statement (.nodata x1 x2 x3) := fun _ _ _ => no_word _
theorem Legal.snpresp : ∀ x1 x2 x3 x4 x5, Legal.Statement (.snpresp x1 x2 x3 x4 x5) := fun _ _ _ _ _ => no_word _
theorem Legal.compack : ∀ x1 x2 x3, Legal.Statement (.compack x1 x2 x3) := fun _ _ _ => no_word _
theorem Legal.dataresp : ∀ x1 x2 x3 x4 x5 x6, Legal.Statement (.dataresp x1 x2 x3 x4 x5 x6) := fun _ _ _ _ _ _ => no_word _
theorem Legal.snpdata : ∀ x1 x2 x3 x4 x5 x6, Legal.Statement (.snpdata x1 x2 x3 x4 x5 x6) := fun _ _ _ _ _ _ => no_word _
theorem Legal.wbdata : ∀ x1 x2 x3 x4 x5, Legal.Statement (.wbdata x1 x2 x3 x4 x5) := fun _ _ _ _ _ => no_word _
theorem Legal.lrHoldExpire : ∀ x1, Legal.Statement (.lrHoldExpire x1) := fun _ => no_word _
theorem Legal.l2Prefetch : ∀ x1 x2, Legal.Statement (.l2Prefetch x1 x2) := fun _ _ => no_word _
theorem Legal.archivePrefetch : ∀ x1 x2, Legal.Statement (.archivePrefetch x1 x2) := fun _ _ => no_word _
theorem Legal.readaheadExpire : ∀ x1 x2, Legal.Statement (.readaheadExpire x1 x2) := fun _ _ => no_word _
theorem Legal.cacheParityError : ∀ x1 x2 x3 x4, Legal.Statement (.cacheParityError x1 x2 x3 x4) := fun _ _ _ _ => no_word _
theorem Legal.hostCacheLossReset : Legal.Statement .hostCacheLossReset := no_word _
theorem Legal.hpfctlWrite : ∀ x1 x2, Legal.Statement (.hpfctlWrite x1 x2) := fun _ _ => no_word _
theorem Legal.arcPfPoundWrite : ∀ x1 x2 x3 x4 x5 x6, Legal.Statement (.arcPfPoundWrite x1 x2 x3 x4 x5 x6) := fun _ _ _ _ _ _ => no_word _
theorem Legal.bucketRefill : Legal.Statement .bucketRefill := no_word _
theorem Legal.regulationActive : ∀ x1, Legal.Statement (.regulationActive x1) := fun _ => no_word _
theorem Legal.patrolScrub : ∀ x1 x2, Legal.Statement (.patrolScrub x1 x2) := fun _ _ => no_word _
theorem Legal.hbmChannelNoResponse : ∀ x1, Legal.Statement (.hbmChannelNoResponse x1) := fun _ => no_word _
theorem Legal.expansionBufferExpire : ∀ x1 x2, Legal.Statement (.expansionBufferExpire x1 x2) := fun _ _ => no_word _
theorem Legal.nylTrainDone : ∀ x1, Legal.Statement (.nylTrainDone x1) := fun _ => no_word _
theorem Legal.nylIdentityTimer : ∀ x1, Legal.Statement (.nylIdentityTimer x1) := fun _ => no_word _
theorem Legal.nylIdentity : ∀ x1 x2, Legal.Statement (.nylIdentity x1 x2) := fun _ _ => no_word _
theorem Legal.nylSelect : ∀ x1 x2, Legal.Statement (.nylSelect x1 x2) := fun _ _ => no_word _
theorem Legal.nylDown : ∀ x1 x2, Legal.Statement (.nylDown x1 x2) := fun _ _ => no_word _
theorem Legal.nylAck : ∀ x1 x2, Legal.Statement (.nylAck x1 x2) := fun _ _ => no_word _
theorem Legal.nylRetry : ∀ x1 x2, Legal.Statement (.nylRetry x1 x2) := fun _ _ => no_word _
theorem Legal.nylRetryTimer : ∀ x1, Legal.Statement (.nylRetryTimer x1) := fun _ => no_word _
theorem Legal.nylRetryTimeout : ∀ x1, Legal.Statement (.nylRetryTimeout x1) := fun _ => no_word _
theorem Legal.nylAckTimer : ∀ x1, Legal.Statement (.nylAckTimer x1) := fun _ => no_word _
theorem Legal.nylCreditReturn : ∀ x1 x2, Legal.Statement (.nylCreditReturn x1 x2) := fun _ _ => no_word _
theorem Legal.nylMessageSend : ∀ x1, Legal.Statement (.nylMessageSend x1) := fun _ => no_word _
theorem Legal.nylIdleFlit : ∀ x1 x2, Legal.Statement (.nylIdleFlit x1 x2) := fun _ _ => no_word _
theorem Legal.nylTimeSend : ∀ x1, Legal.Statement (.nylTimeSend x1) := fun _ => no_word _
theorem Legal.nylTimeFlit : ∀ x1 x2, Legal.Statement (.nylTimeFlit x1 x2) := fun _ _ => no_word _
theorem Legal.nylSilenceTimeout : ∀ x1, Legal.Statement (.nylSilenceTimeout x1) := fun _ => no_word _
theorem Legal.nylLaneLockLost : ∀ x1 x2, Legal.Statement (.nylLaneLockLost x1 x2) := fun _ _ => no_word _
theorem Legal.nylLostComplete : ∀ x1, Legal.Statement (.nylLostComplete x1) := fun _ => no_word _
theorem Legal.nylRead : ∀ x1 x2 x3, Legal.Statement (.nylRead x1 x2 x3) := fun _ _ _ => no_word _
theorem Legal.nylWritePlain : ∀ x1 x2 x3, Legal.Statement (.nylWritePlain x1 x2 x3) := fun _ _ _ => no_word _
theorem Legal.nylWritePublish : ∀ x1 x2 x3, Legal.Statement (.nylWritePublish x1 x2 x3) := fun _ _ _ => no_word _
theorem Legal.nylAdd64 : ∀ x1 x2 x3, Legal.Statement (.nylAdd64 x1 x2 x3) := fun _ _ _ => no_word _
theorem Legal.nylSwap64 : ∀ x1 x2 x3, Legal.Statement (.nylSwap64 x1 x2 x3) := fun _ _ _ => no_word _
theorem Legal.nylCas64 : ∀ x1 x2 x3, Legal.Statement (.nylCas64 x1 x2 x3) := fun _ _ _ => no_word _
theorem Legal.readData : ∀ x1 x2 x3, Legal.Statement (.readData x1 x2 x3) := fun _ _ _ => no_word _
theorem Legal.writeDone : ∀ x1 x2 x3, Legal.Statement (.writeDone x1 x2 x3) := fun _ _ _ => no_word _
theorem Legal.atomicDone : ∀ x1 x2 x3, Legal.Statement (.atomicDone x1 x2 x3) := fun _ _ _ => no_word _
theorem Legal.nylError : ∀ x1 x2 x3, Legal.Statement (.nylError x1 x2 x3) := fun _ _ _ => no_word _
theorem Legal.remoteTimeout : ∀ x1, Legal.Statement (.remoteTimeout x1) := fun _ => no_word _
theorem Legal.transitCreditTimeout : ∀ x1, Legal.Statement (.transitCreditTimeout x1) := fun _ => no_word _
theorem Legal.cdata : ∀ x1 x2 x3, Legal.Statement (.cdata x1 x2 x3) := fun _ _ _ => no_word _
theorem Legal.cack : ∀ x1 x2 x3, Legal.Statement (.cack x1 x2 x3) := fun _ _ _ => no_word _
theorem Legal.cabort : ∀ x1 x2 x3, Legal.Statement (.cabort x1 x2 x3) := fun _ _ _ => no_word _
theorem Legal.collectivePieceSend : ∀ x1 x2, Legal.Statement (.collectivePieceSend x1 x2) := fun _ _ => no_word _
theorem Legal.collectiveComplete : ∀ x1 x2, Legal.Statement (.collectiveComplete x1 x2) := fun _ _ => no_word _
theorem Legal.collectiveTimeout : ∀ x1 x2, Legal.Statement (.collectiveTimeout x1 x2) := fun _ _ => no_word _
theorem Legal.nylLinkDisable : ∀ x1 x2, Legal.Statement (.nylLinkDisable x1 x2) := fun _ _ => no_word _
theorem Legal.nylLinkEnable : ∀ x1 x2, Legal.Statement (.nylLinkEnable x1 x2) := fun _ _ => no_word _
theorem Legal.nylLinkReset : ∀ x1 x2, Legal.Statement (.nylLinkReset x1 x2) := fun _ _ => no_word _
theorem Legal.nylDisableTimeout : ∀ x1, Legal.Statement (.nylDisableTimeout x1) := fun _ => no_word _
theorem Legal.linkControl : ∀ x1 x2, Legal.Statement (.linkControl x1 x2) := fun _ _ => no_word _
theorem Legal.pcieInboundRequest : ∀ x1 x2, Legal.Statement (.pcieInboundRequest x1 x2) := fun _ _ => no_word _
theorem Legal.inboundMsi : ∀ x1 x2 x3 x4, Legal.Statement (.inboundMsi x1 x2 x3 x4) := fun _ _ _ _ => no_word _
theorem Legal.pcieCompletion : ∀ x1 x2 x3 x4 x5, Legal.Statement (.pcieCompletion x1 x2 x3 x4 x5) := fun _ _ _ _ _ => no_word _
theorem Legal.pcieCompletionTimeout : ∀ x1 x2, Legal.Statement (.pcieCompletionTimeout x1 x2) := fun _ _ => no_word _
theorem Legal.pcieLinkDown : ∀ x1, Legal.Statement (.pcieLinkDown x1) := fun _ => no_word _
theorem Legal.portRetrain : ∀ x1 x2, Legal.Statement (.portRetrain x1 x2) := fun _ _ => no_word _
theorem Legal.portRelease : ∀ x1 x2, Legal.Statement (.portRelease x1 x2) := fun _ _ => no_word _
theorem Legal.iotinvalVma : ∀ x1 x2 x3, Legal.Statement (.iotinvalVma x1 x2 x3) := fun _ _ _ => no_word _
theorem Legal.iotinvalGvma : ∀ x1 x2, Legal.Statement (.iotinvalGvma x1 x2) := fun _ _ => no_word _
theorem Legal.iofenceC : Legal.Statement .iofenceC := no_word _
theorem Legal.roceDoorbell : ∀ x1 x2 x3 x4, Legal.Statement (.roceDoorbell x1 x2 x3 x4) := fun _ _ _ _ => no_word _
theorem Legal.roceFlush : ∀ x1 x2 x3 x4, Legal.Statement (.roceFlush x1 x2 x3 x4) := fun _ _ _ _ => no_word _
theorem Legal.roceSend : ∀ x1 x2, Legal.Statement (.roceSend x1 x2) := fun _ _ => no_word _
theorem Legal.roceSendImm : ∀ x1 x2, Legal.Statement (.roceSendImm x1 x2) := fun _ _ => no_word _
theorem Legal.roceWrite : ∀ x1 x2, Legal.Statement (.roceWrite x1 x2) := fun _ _ => no_word _
theorem Legal.roceWriteImm : ∀ x1 x2, Legal.Statement (.roceWriteImm x1 x2) := fun _ _ => no_word _
theorem Legal.roceRead : ∀ x1 x2, Legal.Statement (.roceRead x1 x2) := fun _ _ => no_word _
theorem Legal.roceFetchAdd : ∀ x1 x2, Legal.Statement (.roceFetchAdd x1 x2) := fun _ _ => no_word _
theorem Legal.roceCmpSwap : ∀ x1 x2, Legal.Statement (.roceCmpSwap x1 x2) := fun _ _ => no_word _
theorem Legal.roceRawFrame : ∀ x1 x2, Legal.Statement (.roceRawFrame x1 x2) := fun _ _ => no_word _
theorem Legal.roceInboundRequest : ∀ x1 x2 x3, Legal.Statement (.roceInboundRequest x1 x2 x3) := fun _ _ _ => no_word _
theorem Legal.roceAck : ∀ x1 x2 x3 x4, Legal.Statement (.roceAck x1 x2 x3 x4) := fun _ _ _ _ => no_word _
theorem Legal.roceRetryTimeout : ∀ x1 x2, Legal.Statement (.roceRetryTimeout x1 x2) := fun _ _ => no_word _
theorem Legal.roceRnrRetry : ∀ x1 x2, Legal.Statement (.roceRnrRetry x1 x2) := fun _ _ => no_word _
theorem Legal.roceCnp : ∀ x1 x2, Legal.Statement (.roceCnp x1 x2) := fun _ _ => no_word _
theorem Legal.roceRateRecover : ∀ x1 x2, Legal.Statement (.roceRateRecover x1 x2) := fun _ _ => no_word _
theorem Legal.hioEthQptWrite : ∀ x1 x2 x3 x4 x5, Legal.Statement (.hioEthQptWrite x1 x2 x3 x4 x5) := fun _ _ _ _ _ => no_word _
theorem Legal.pldmDiscovery : Legal.Statement .pldmDiscovery := no_word _
theorem Legal.pldmSensorRead : ∀ x1, Legal.Statement (.pldmSensorRead x1) := fun _ => no_word _
theorem Legal.pldmFruRead : Legal.Statement .pldmFruRead := no_word _
theorem Legal.pldmFirmwareUpdate : ∀ x1 x2 x3 x4 x5, Legal.Statement (.pldmFirmwareUpdate x1 x2 x3 x4 x5) := fun _ _ _ _ _ => no_word _
theorem Legal.loadCharter : ∀ x1 x2 x3, Legal.Statement (.loadCharter x1 x2 x3) := fun _ _ _ => no_word _
theorem Legal.cancelCharter : Legal.Statement .cancelCharter := no_word _
theorem Legal.clearExclusion : ∀ x1, Legal.Statement (.clearExclusion x1) := fun _ => no_word _
theorem Legal.readSummary : Legal.Statement .readSummary := no_word _
theorem Legal.pldmUnsupported : ∀ x1, Legal.Statement (.pldmUnsupported x1) := fun _ => no_word _
theorem Legal.getVersion : Legal.Statement .getVersion := no_word _
theorem Legal.getCapabilities : Legal.Statement .getCapabilities := no_word _
theorem Legal.negotiateAlgorithms : ∀ x1 x2, Legal.Statement (.negotiateAlgorithms x1 x2) := fun _ _ => no_word _
theorem Legal.getDigests : Legal.Statement .getDigests := no_word _
theorem Legal.getCertificate : ∀ x1 x2 x3, Legal.Statement (.getCertificate x1 x2 x3) := fun _ _ _ => no_word _
theorem Legal.challenge : ∀ x1 x2, Legal.Statement (.challenge x1 x2) := fun _ _ => no_word _
theorem Legal.getMeasurements : ∀ x1 x2, Legal.Statement (.getMeasurements x1 x2) := fun _ _ => no_word _
theorem Legal.sluiceTick : ∀ x1, Legal.Statement (.sluiceTick x1) := fun _ => no_word _
theorem Legal.ballastChain : ∀ x1 x2, Legal.Statement (.ballastChain x1 x2) := fun _ _ => no_word _
theorem Legal.measureCheck : ∀ x1, Legal.Statement (.measureCheck x1) := fun _ => no_word _
theorem Legal.opStepEnd : ∀ x1, Legal.Statement (.opStepEnd x1) := fun _ => no_word _
theorem Legal.hostFreqStep : ∀ x1 x2, Legal.Statement (.hostFreqStep x1 x2) := fun _ _ => no_word _
theorem Legal.droopDetect : ∀ x1, Legal.Statement (.droopDetect x1) := fun _ => no_word _
theorem Legal.droopClear : ∀ x1, Legal.Statement (.droopClear x1) := fun _ => no_word _
theorem Legal.opStepResume : ∀ x1, Legal.Statement (.opStepResume x1) := fun _ => no_word _
theorem Legal.heavyWindowEnd : ∀ x1, Legal.Statement (.heavyWindowEnd x1) := fun _ => no_word _
theorem Legal.thermalSample : ∀ x1 x2, Legal.Statement (.thermalSample x1 x2) := fun _ _ => no_word _
theorem Legal.regulatorAlert : ∀ x1, Legal.Statement (.regulatorAlert x1) := fun _ => no_word _
theorem Legal.pwrBrakeFall : ∀ x1, Legal.Statement (.pwrBrakeFall x1) := fun _ => no_word _
theorem Legal.pwrBrakeRise : Legal.Statement .pwrBrakeRise := no_word _
theorem Legal.alertLowestPoint : Legal.Statement .alertLowestPoint := no_word _
theorem Legal.alertRelease : ∀ x1, Legal.Statement (.alertRelease x1) := fun _ => no_word _
theorem Legal.inputVoltageEvent : ∀ x1 x2, Legal.Statement (.inputVoltageEvent x1 x2) := fun _ _ => no_word _
theorem Legal.pwrFgDescValid : ∀ x1 x2 x3 x4 x5, Legal.Statement (.pwrFgDescValid x1 x2 x3 x4 x5) := fun _ _ _ _ _ => no_word _
theorem Legal.preemptAttempt : ∀ x1 x2, Legal.Statement (.preemptAttempt x1 x2) := fun _ _ => no_word _
theorem Legal.preemptRetry : ∀ x1, Legal.Statement (.preemptRetry x1) := fun _ => no_word _
theorem Legal.auditDue : ∀ x1, Legal.Statement (.auditDue x1) := fun _ => no_word _
theorem Legal.auditOverdue : ∀ x1, Legal.Statement (.auditOverdue x1) := fun _ => no_word _
theorem Legal.auditHeatTimeout : ∀ x1 x2, Legal.Statement (.auditHeatTimeout x1 x2) := fun _ _ => no_word _
theorem Legal.auditPhaseEnd : ∀ x1 x2 x3 x4, Legal.Statement (.auditPhaseEnd x1 x2 x3 x4) := fun _ _ _ _ => no_word _
theorem Legal.auditEnd : ∀ x1, Legal.Statement (.auditEnd x1) := fun _ => no_word _
theorem Legal.collationCheckDone : ∀ x1 x2, Legal.Statement (.collationCheckDone x1 x2) := fun _ _ => no_word _
theorem Legal.collationArbiterDone : ∀ x1 x2, Legal.Statement (.collationArbiterDone x1 x2) := fun _ _ => no_word _
theorem Legal.collationArbiterTimeout : ∀ x1, Legal.Statement (.collationArbiterTimeout x1) := fun _ => no_word _
theorem Legal.rateLimitSecond : Legal.Statement .rateLimitSecond := no_word _
theorem Legal.fltRingEnable : ∀ x1 x2 x3 x4, Legal.Statement (.fltRingEnable x1 x2 x3 x4) := fun _ _ _ _ => no_word _
theorem Legal.fltRingConsWrite : ∀ x1 x2 x3 x4, Legal.Statement (.fltRingConsWrite x1 x2 x3 x4) := fun _ _ _ _ => no_word _
theorem Legal.resetNFall : ∀ x1, Legal.Statement (.resetNFall x1) := fun _ => no_word _
theorem Legal.bringupStart : Legal.Statement .bringupStart := no_word _
theorem Legal.firmwareVerified : ∀ x1 x2 x3, Legal.Statement (.firmwareVerified x1 x2 x3) := fun _ _ _ => no_word _
theorem Legal.sirentTrainTimeout : ∀ x1, Legal.Statement (.sirentTrainTimeout x1) := fun _ => no_word _
theorem Legal.storedCharterVerify : Legal.Statement .storedCharterVerify := no_word _
theorem Legal.host0Release : Legal.Statement .host0Release := no_word _
theorem Legal.functionReady : ∀ x1, Legal.Statement (.functionReady x1) := fun _ => no_word _
theorem Legal.classSettleTimeout : ∀ x1, Legal.Statement (.classSettleTimeout x1) := fun _ => no_word _
theorem Legal.hartStart : ∀ x1 x2 x3 x4, Legal.Statement (.hartStart x1 x2 x3 x4) := fun _ _ _ _ => no_word _
theorem Legal.hartEntrySet : ∀ x1 x2 x3 x4 x5, Legal.Statement (.hartEntrySet x1 x2 x3 x4 x5) := fun _ _ _ _ _ => no_word _
theorem Legal.lockkeeperWatchdog : Legal.Statement .lockkeeperWatchdog := no_word _
theorem Legal.uncoreWarmReset : ∀ x1, Legal.Statement (.uncoreWarmReset x1) := fun _ => no_word _
theorem Legal.warmResetNFall : ∀ x1, Legal.Statement (.warmResetNFall x1) := fun _ => no_word _
theorem Legal.uncoreResetPhase2 : Legal.Statement .uncoreResetPhase2 := no_word _
theorem Legal.hostComplexWarmReset : ∀ x1, Legal.Statement (.hostComplexWarmReset x1) := fun _ => no_word _
theorem Legal.catHeartbeat : ∀ x1 x2, Legal.Statement (.catHeartbeat x1 x2) := fun _ _ => no_word _
theorem Legal.heartbeatCheck : Legal.Statement .heartbeatCheck := no_word _
theorem Legal.selfReset : ∀ x1 x2, Legal.Statement (.selfReset x1 x2) := fun _ _ => no_word _
theorem Legal.selfResetDrainTimeout : ∀ x1, Legal.Statement (.selfResetDrainTimeout x1) := fun _ => no_word _
theorem Legal.resume : ∀ x1 x2, Legal.Statement (.resume x1 x2) := fun _ _ => no_word _
theorem Legal.disarm : ∀ x1 x2, Legal.Statement (.disarm x1 x2) := fun _ _ => no_word _
theorem Legal.powerApplied : Legal.Statement .powerApplied := no_word _
theorem Legal.tileIllegalInstruction : ∀ x1 x2 x3, Legal.Statement (.tileIllegalInstruction x1 x2 x3) := fun _ _ _ => no_word _
theorem Legal.regulatorAlertClear : ∀ x1, Legal.Statement (.regulatorAlertClear x1) := fun _ => no_word _
theorem Legal.ethLinkDown : ∀ x1, Legal.Statement (.ethLinkDown x1) := fun _ => no_word _
theorem Legal.pcieIntx : ∀ x1 x2 x3, Legal.Statement (.pcieIntx x1 x2 x3) := fun _ _ _ => no_word _
theorem Legal.pcieLinkRetrain : ∀ x1, Legal.Statement (.pcieLinkRetrain x1) := fun _ => no_word _
theorem Legal.debugAccess : ∀ x1 x2 x3 x4 x5, Legal.Statement (.debugAccess x1 x2 x3 x4 x5) := fun _ _ _ _ _ => no_word _
theorem Legal.roceInboundSend : ∀ x1 x2 x3, Legal.Statement (.roceInboundSend x1 x2 x3) := fun _ _ _ => no_word _
theorem Legal.roceReadResponse : ∀ x1 x2 x3, Legal.Statement (.roceReadResponse x1 x2 x3) := fun _ _ _ => no_word _
theorem Legal.roceNak : ∀ x1 x2 x3, Legal.Statement (.roceNak x1 x2 x3) := fun _ _ _ => no_word _
theorem Legal.dynamicAddressAssignment : ∀ x1, Legal.Statement (.dynamicAddressAssignment x1) := fun _ => no_word _
theorem Legal.setEndpointId : ∀ x1, Legal.Statement (.setEndpointId x1) := fun _ => no_word _

end Sys2Proof.Laws
end

