-- ==== Sys2Proof/Laws/Record.lean ====
section
/-!
SUPPORT. What a write at the point of coherence and a record of the Fault Rolls can change of the chip, and what they leave
as it was.
-/

namespace Sys2Proof.Machine

/-- Chip c, but for the parts that a write or a record can change, which are those of d. -/
def Chip.keeping (c d : Chip) : Chip :=
  { c with rolls := d.rolls, flash := d.flash, pwr := d.pwr, tiles := d.tiles, cores := d.cores, homes := d.homes, slices := d.slices,
           sizeCodes := d.sizeCodes, units := d.units, free := d.free, ports := d.ports, aia := d.aia, readAhead := d.readAhead }

/-- From w to v only what a write or a record can change has changed. -/
def Near (w v : Work) : Prop := v.chip = w.chip.keeping v.chip

theorem Near.rfl {w : Work} : Near w w := Eq.refl _

theorem Near.trans {u v w : Work} (h : Near u v) (k : Near v w) : Near u w := by
  have hv : v.chip = u.chip.keeping v.chip := h
  have hw : w.chip = v.chip.keeping w.chip := k
  show w.chip = u.chip.keeping w.chip
  generalize w.chip = x at hw ⊢
  rw [hv] at hw
  exact hw

theorem Near.each {β : Type} {f : Work → β → Work} (hf : ∀ w x, Near w (f w x)) (w : Work) (l : List β) : Near w (w.each l f) := by
  induction l generalizing w with
  | nil => exact Near.rfl
  | cons x l ih => exact (hf w x).trans (ih (f w x))

theorem Near.rolls {w v : Work} (h : Near w v) (x : Rolls) : Near w { v with chip := { v.chip with rolls := x } } :=
  Near.trans h (Eq.refl _)

theorem Work.putLine_near (w : Work) (l : Nat × LineData × BitVec 4) : Near w (w.putLine l.1 l.2.1 l.2.2) := Eq.refl _

theorem Work.charge_near (w : Work) (s : Nat) (p : Option Nat) (b : Bool) (n : Nat) : Near w (w.charge s p b n) := by
  cases p <;> exact Eq.refl _

theorem Work.modSlice_near (w : Work) (s : Nat) (f : Slice → Slice) : Near w (w.modSlice s f) := Eq.refl _

theorem Work.bufferSector_near (w : Work) (s l : Nat) (e : Sector) : Near w (w.bufferSector s l e) :=
  Near.trans (Work.charge_near _ _ _ _ _) (Work.modSlice_near _ _ _)

theorem Work.dropSectors_near (w : Work) (s : Nat) (out : Nat × Sector → Bool) : Near w (w.dropSectors s out) := by
  unfold Work.dropSectors
  exact Near.trans (Work.modSlice_near _ _ _) (Near.each (fun w x => Work.bufferSector_near w _ _ _) _ _)

theorem Work.evictWay_near (w : Work) (s set way : Nat) : Near w (w.evictWay s set way) := Work.dropSectors_near _ _ _

theorem Work.expandGranule_near (w : Work) (s g code : Nat) (p : Option Nat) : Near w (w.expandGranule s g code p) := by
  unfold Work.expandGranule
  split
  · exact Work.modSlice_near _ _ _
  · exact Near.trans (Work.charge_near _ _ _ _ _) (Work.modSlice_near _ _ _)

theorem Work.storeRaw_near (w : Work) (s g code : Nat) (p : Option Nat) : Near w (w.storeRaw s g code p) :=
  Near.trans (Near.trans (Work.expandGranule_near _ _ _ _ _) (Work.charge_near _ _ _ _ _)) (Eq.refl _)

theorem Work.clampedAt_near (w : Work) (c : Bool) : Near w (w.clampedAt c) := by cases c <;> exact Eq.refl _

theorem Work.arcUse_near (w : Work) (l : Nat) (p : Option Nat) (d : Bool) (k : Option Nat) : Near w (w.arcUse l p d k) := by
  unfold Work.arcUse
  split
  dsimp only
  split
  · exact (Work.clampedAt_near _ _).trans (Work.modSlice_near _ _ _)
  · split
    · exact Near.rfl
    · have h : ∀ (c : Bool) (s set way : Nat), Near w (if c = true then w else w.evictWay s set way) := by
        intro c s set way; cases c
        · exact Work.evictWay_near _ _ _ _
        · exact Near.rfl
      exact Near.trans (h _ _ _ _) (Work.modSlice_near _ _ _)

theorem Work.arcTrain_near (w : Work) (line stream : Nat) (p : Option Nat) : Near w (w.arcTrain line stream p) := by
  unfold Work.arcTrain
  split
  dsimp only
  split
  · exact Near.rfl
  · exact Eq.refl _
  · exact Work.modSlice_near _ _ _

theorem Work.train_near (w : Work) (line : Nat) (stream p : Option Nat) : Near w (w.train line stream p) := by
  cases stream with
  | none => exact Near.rfl
  | some k => exact Work.arcTrain_near _ _ _ _

theorem Work.arcWrite_near (w : Work) (l : Nat) (p : Option Nat) (n : Nat) : Near w (w.arcWrite l p n) := by
  unfold Work.arcWrite
  split
  dsimp only
  split
  · have h : ∀ (v : Work) (b : Bool), Near w v → Near w (if b = true then v.arcUse l p false none else v) := by
      intro v b k; split
      · exact Near.trans k (Work.arcUse_near _ _ _ _ _)
      · exact k
    exact h _ _ (Work.storeRaw_near _ _ _ _ _)
  split
  · split
    · exact Near.rfl
    · exact Work.charge_near _ _ _ _ _
  · refine Near.trans ?_ (Work.arcUse_near _ _ _ _ _)
    split
    · exact Work.modSlice_near _ _ _
    · exact Near.trans (Work.charge_near _ _ _ _ _) (Work.modSlice_near _ _ _)

theorem Work.post_near (w : Work) (a : Nat) (bs : List Byte) (i : Option RemoteWho) : Near w (w.post a bs i) := by
  unfold Work.post; split <;> exact Eq.refl _

theorem Work.snoopRange_near (w : Work) (lo hi : Nat) (k d : Bool) : Near w (w.snoopRange lo hi k d) := by
  have h : Near w (w.each (w.dirtyIn lo hi) (fun w l => w.putLine l.1 l.2.1 l.2.2)) := Near.each Work.putLine_near _ _
  cases d
  · exact Near.trans h (Eq.refl _)
  · exact Eq.refl _

/-- A write at the point of coherence. -/
theorem Work.pwrite_near (w : Work) (a : Nat) (bs : List Byte) (pub : Bool) (p : Option Nat) (i : Option RemoteWho)
    (stream : Option Nat) : Near w (w.pwrite a bs pub p i stream) := by
  simp only [Work.pwrite]
  split
  · exact Near.rfl
  split
  · exact Work.post_near _ _ _ _
  split
  · split <;> exact Eq.refl _
  have h2 : Near w ((((w.post (w.local_ a) bs i).snoopRange (lineLo (w.local_ a)) (lineHi (w.local_ a) bs.length) (!pub) false)).clearResv
      (lineLo (w.local_ a)) (lineHi (w.local_ a) bs.length) none) :=
    ((Work.post_near _ _ _ _).trans (Work.snoopRange_near _ _ _ _ _)).trans (Eq.refl _)
  have h4 : ∀ (v : Work) (g : Work → Nat → Work) (l : List Nat), (∀ u x, Near u (g u x)) → Near w v →
      Near w (match v.place (w.local_ a) with | .hbm _ => v.each l g | _ => v) := by
    intro v g l hg hv; split
    · exact hv.trans (Near.each hg _ _)
    · exact hv
  refine Near.trans (h4 _ _ _ (fun u x => Near.trans (Work.arcWrite_near u _ _ _) (Work.train_near _ _ _ _)) ?_) (Eq.refl _)
  split <;> exact h2.trans (Eq.refl _)

theorem Work.imsicSet_near (w : Work) (f n : Nat) : Near w (w.imsicSet f n) := by unfold Work.imsicSet; split <;> exact Eq.refl _

theorem Work.aplicRaise_near (w : Work) (n : Nat) : Near w (w.aplicRaise n) := by
  unfold Work.aplicRaise
  split
  · unfold Work.aplicPend
    dsimp only
    split
    · exact Work.imsicSet_near _ _ _
    · exact Eq.refl _
  · exact Near.rfl

theorem Work.bufferRecord_near (w : Work) (r : Record) : Near w (w.bufferRecord r) := by
  unfold Work.bufferRecord; dsimp only; split <;> exact Eq.refl _

theorem Work.ringWrite_near (w : Work) (r : Record) : Near w (w.ringWrite r) := by
  unfold Work.ringWrite
  dsimp only
  split
  · exact Work.bufferRecord_near _ _
  split
  · exact Near.trans (Eq.refl _) (Work.bufferRecord_near _ _)
  · exact Near.trans (Near.rolls (Work.pwrite_near _ _ _ _ _ _ _) _) (Work.aplicRaise_near _ _)

theorem Work.storeRecord_near (w : Work) (r : Record) : Near w (w.storeRecord r) := by
  unfold Work.storeRecord
  dsimp only
  split
  · exact Work.bufferRecord_near _ _
  split
  · split
    · exact Work.ringWrite_near _ _
    · exact Near.rolls Near.rfl _
  · split
    · exact Near.trans (Near.rolls (Work.ringWrite_near _ _) _) (Work.ringWrite_near _ _)
    · exact Near.rolls Near.rfl _

theorem Near.parts (w : Work) (x : Rolls) (y : Flash) : Near w { w with chip := { w.chip with rolls := x, flash := y } } :=
  Eq.refl _

theorem Work.summaryRecord_near (w : Work) (r : Record) : Near w (w.summaryRecord r) := by
  simp only [Work.summaryRecord]
  by_cases h : 64 ≤ w.chip.rolls.rateSummary
  · rw [if_pos h]; exact Near.rolls Near.rfl _
  · rw [if_neg h]
    generalize (w.chip.flash.summary.records ++ [r]).drop _ = l
    exact Near.parts w _ _

theorem Near.summary {w v : Work} (h : Near w v) (s : Bool) (r : Record) : Near w (if s then v.summaryRecord r else v) := by
  by_cases c : s = true
  · rw [if_pos c]; exact h.trans (Work.summaryRecord_near v r)
  · rw [if_neg c]; exact h

/-- A record. -/
theorem Work.record_near (w : Work) (x : Rec) : Near w (w.record x) := by
  unfold Work.record
  exact Near.summary (Near.trans (Near.rolls Near.rfl _) (Work.storeRecord_near _ _)) _ _

theorem Work.record_boot (w : Work) (x : Rec) : (w.record x).chip.boot = w.chip.boot := by rw [Work.record_near w x]; rfl
theorem Work.record_sqs (w : Work) (x : Rec) : (w.record x).chip.sqs = w.chip.sqs := by rw [Work.record_near w x]; rfl
theorem Work.record_cqs (w : Work) (x : Rec) : (w.record x).chip.cqs = w.chip.cqs := by rw [Work.record_near w x]; rfl
theorem Work.record_cht (w : Work) (x : Rec) : (w.record x).chip.cht = w.chip.cht := by rw [Work.record_near w x]; rfl
theorem Work.record_time (w : Work) (x : Rec) : (w.record x).chip.time = w.chip.time := by rw [Work.record_near w x]; rfl
theorem Work.record_pounds (w : Work) (x : Rec) : (w.record x).chip.pounds = w.chip.pounds := by rw [Work.record_near w x]; rfl
theorem Work.record_nyl (w : Work) (x : Rec) : (w.record x).chip.nyl = w.chip.nyl := by rw [Work.record_near w x]; rfl

end Sys2Proof.Machine
end

