-- ==== Sys2Proof/Machine/FloatUnit.lean ====
section
/-!
DEFINITION. IEEE 754 arithmetic of the host cores and the vector cores: FP16, BF16, FP32 and FP64 with subnormals, the five
rounding modes and fflags, and the flushing that tvflush turns on (R137, R216, R217). Values are exact rationals.
-/

namespace Sys2Proof.Machine

def fp64 : FloatFmt := { eb := 11, mb := 52, bias := 1023, top := .ieee }

/-- The five rounding modes. -/
inductive RoundMode where
  | rne | rtz | rdn | rup | rmm
deriving DecidableEq, Repr

/-- The mode that a 3-bit code names; 5 to 7 name none. -/
def roundMode? : Nat → Option RoundMode
  | 0 => some .rne
  | 1 => some .rtz
  | 2 => some .rdn
  | 3 => some .rup
  | 4 => some .rmm
  | _ => none

/-- Exception flags as fflags holds them: NX 1, UF 2, OF 4, DZ 8, NV 16. -/
abbrev FFlags := BitVec 5

def nxFlag : FFlags := 1
def ufFlag : FFlags := 2
def ofFlag : FFlags := 4
def dzFlag : FFlags := 8
def nvFlag : FFlags := 16

/-- A magnitude of the given sign as a whole number of steps, and whether that is inexact. -/
def RoundMode.steps (md : RoundMode) (neg : Bool) (q : Rat) : Nat × Bool :=
  let k := wholePart q
  let r := q - (k : Rat)
  if r = 0 then (k, false)
  else
    let up := match md with
      | .rne => 1 / 2 < r || (r = 1 / 2 && k % 2 = 1)
      | .rtz => false
      | .rdn => neg
      | .rup => !neg
      | .rmm => 1 / 2 ≤ r
    (if up then k + 1 else k, true)

/-- How numbers are handled: the rounding mode, and whether subnormals are flushed (R137). -/
structure FEnv where
  md : RoundMode
  flush : Bool
deriving DecidableEq, Repr

/-- A magnitude above 0 in a format: its code and flags. Tininess is detected after rounding; a subnormal result is flushed where
flushing is on. -/
def FloatFmt.pack (f : FloatFmt) (env : FEnv) (neg : Bool) (a : Rat) : Nat × FFlags :=
  let e := floorLog2 a
  let step := pow2 (max e (1 - f.bias) - f.mb)
  let (k, inexact) := env.md.steps neg (a / step)
  let y := (k : Rat) * step
  let sign := b2n neg * 2 ^ (f.eb + f.mb)
  if f.maxFinite < y then
    let toInf := match env.md with
      | .rne | .rmm => true
      | .rtz => false
      | .rdn => neg
      | .rup => !neg
    (if toInf then f.infCode neg else f.encode neg f.maxFinite, ofFlag ||| nxFlag)
  else
    let tiny := ((env.md.steps neg (a / pow2 (e - f.mb))).1 : Rat) * pow2 (e - f.mb) < f.minNormal
    let flags : FFlags := if inexact then (if tiny then ufFlag ||| nxFlag else nxFlag) else 0
    if env.flush && y < f.minNormal then (sign, flags) else (f.encode neg y, flags)

/-- A value in a format; a NaN gives the canonical NaN. -/
def FloatFmt.put (f : FloatFmt) (env : FEnv) (v : Num) : Nat × FFlags :=
  match v with
  | .nan => (f.nanCode, 0)
  | .inf s => (f.infCode s, 0)
  | .fin s a => if a = 0 then (f.encode s 0, 0) else f.pack env s a

/-- The value of an operand. -/
def FloatFmt.get (f : FloatFmt) (env : FEnv) (code : Nat) : Num := f.decode false (f.flushCode env.flush code)

/-- A signalling NaN: its top mantissa bit is 0. -/
def FloatFmt.signalling (f : FloatFmt) (code : Nat) : Bool := (f.decode false code).isNan && !code.testBit (f.mb - 1)

/-- The invalid flag where an operand is a signalling NaN. -/
def FloatFmt.nv (f : FloatFmt) (l : List Nat) : FFlags := if l.any f.signalling then nvFlag else 0

/-- The sign of a value that is not NaN. -/
def Num.neg : Num → Bool
  | .nan => false
  | .inf s | .fin s _ => s

def Num.negate : Num → Num
  | .nan => .nan
  | .inf s => .inf (!s)
  | .fin s a => .fin (!s) a

/-- A rounded sum of two exact values; a sum of exact zero has their common sign, or else the sign that the mode gives. -/
def FloatFmt.sum (f : FloatFmt) (env : FEnv) (x y : Num) : Nat × FFlags :=
  match x, y with
  | .nan, _ | _, .nan => (f.nanCode, 0)
  | .inf a, .inf b => if a = b then (f.infCode a, 0) else (f.nanCode, nvFlag)
  | .inf a, _ | _, .inf a => (f.infCode a, 0)
  | x, y =>
    let q := x.val + y.val
    if q = 0 then (f.encode (if x.neg = y.neg then x.neg else env.md = .rdn) 0, 0)
    else f.put env (Num.of q)

/-- The arithmetic operations of two and three operands, and the square root. -/
inductive FArith where
  | add | sub | mul | div | sqrt
  /-- The four multiply-adds: the product is negated, the addend is negated. -/
  | fma (negProduct negAddend : Bool)
deriving DecidableEq, Repr

/-- The product invalid: an infinity times zero. -/
def Num.badMul : Num → Num → Bool
  | .inf _, .fin _ m | .fin _ m, .inf _ => m = 0
  | _, _ => false

/-- The square root of a magnitude above 0, right in every bit that rounding looks at: a root that is not exact is put half a
step above the whole number of fine steps below it. -/
def FloatFmt.root (f : FloatFmt) (a : Rat) : Rat :=
  let step := pow2 (floorLog2 a / 2 - f.mb - 2)
  let n := Nat.sqrt (wholePart (a / (step * step)))
  if (n : Rat) * step * ((n : Rat) * step) = a then (n : Rat) * step else ((n : Rat) + 1 / 2) * step

/-- An arithmetic operation on codes of one format: the code of the result, and the flags it sets. -/
def FloatFmt.arith (f : FloatFmt) (env : FEnv) (op : FArith) (a b c : Nat) : Nat × FFlags :=
  let x := f.get env a
  let y := f.get env b
  let z := f.get env c
  let r : Nat × FFlags := match op with
    | .add => f.sum env x y
    | .sub => f.sum env x y.negate
    | .mul => if Num.badMul x y then (f.nanCode, nvFlag) else f.put env (x.mul y)
    | .div =>
      (match x, y with
      | .nan, _ | _, .nan => (f.nanCode, 0)
      | .inf _, .inf _ => (f.nanCode, nvFlag)
      | .inf s, .fin t _ => (f.infCode (s != t), 0)
      | .fin s _, .inf t => (f.encode (s != t) 0, 0)
      | .fin s m, .fin t n =>
        if n = 0 then (if m = 0 then (f.nanCode, nvFlag) else (f.infCode (s != t), dzFlag))
        else f.put env (.fin (s != t) (m / n)))
    | .sqrt =>
      (match x with
      | .nan => (f.nanCode, 0)
      | .inf s => if s then (f.nanCode, nvFlag) else (f.infCode false, 0)
      | .fin s m => if m = 0 then (f.encode s 0, 0) else if s then (f.nanCode, nvFlag) else f.put env (.fin false (f.root m)))
    | .fma np na =>
      if Num.badMul x y then (f.nanCode, nvFlag)
      else
        let p := x.mul y
        f.sum env (if np then p.negate else p) (if na then z.negate else z)
  let nan := match op with
    | .sqrt => f.nv [a]
    | .fma _ _ => f.nv [a, b, c]
    | _ => f.nv [a, b]
  (r.1, r.2 ||| nan)

/-- An order of two values that are not NaN: less, or equal. -/
def Num.below : Num → Num → Bool
  | .nan, _ | _, .nan => false
  | .inf a, .inf b => a && !b
  | .inf a, .fin _ _ => a
  | .fin _ _, .inf b => !b
  | x, y => decide (x.val < y.val)
def Num.same : Num → Num → Bool
  | .nan, _ | _, .nan => false
  | .inf a, .inf b => a = b
  | .fin s m, .fin t n => decide ((Num.fin s m).val = (Num.fin t n).val)
  | _, _ => false

/-- Comparisons. -/
inductive FCmp where
  | eq | lt | le
deriving DecidableEq, Repr

/-- A comparison: eq is quiet, lt and le signal on every NaN. -/
def FloatFmt.compare (f : FloatFmt) (env : FEnv) (op : FCmp) (a b : Nat) : Bool × FFlags :=
  let x := f.get env a
  let y := f.get env b
  match op with
  | .eq => (x.same y, f.nv [a, b])
  | .lt => (x.below y, if x.isNan || y.isNan then nvFlag else 0)
  | .le => (x.below y || x.same y, if x.isNan || y.isNan then nvFlag else 0)

/-- Minimum and maximum: a NaN beside a number gives the number, −0 lies below +0. -/
def FloatFmt.pick (f : FloatFmt) (env : FEnv) (isMax : Bool) (a b : Nat) : Nat × FFlags :=
  let x := f.get env a
  let y := f.get env b
  let first := if x.same y then x.neg != isMax else x.below y != isMax
  let r := if x.isNan then (if y.isNan then f.nanCode else f.flushCode env.flush b)
    else if y.isNan || first then f.flushCode env.flush a else f.flushCode env.flush b
  (r, f.nv [a, b])

/-- Sign injection. -/
inductive FSign where
  | copy | negate | xor
deriving DecidableEq, Repr

def FloatFmt.sign (f : FloatFmt) (env : FEnv) (op : FSign) (a b : Nat) : Nat :=
  let w := f.eb + f.mb
  let a := f.flushCode env.flush a
  let s := match op with
    | .copy => b.testBit w
    | .negate => !b.testBit w
    | .xor => a.testBit w != b.testBit w
  b2n s * 2 ^ w + a % 2 ^ w

/-- The class of a value, one bit of ten. -/
def FloatFmt.classify (f : FloatFmt) (env : FEnv) (a : Nat) : Nat :=
  match f.get env a with
  | .nan => if f.signalling a then 256 else 512
  | .inf s => if s then 1 else 128
  | .fin s m =>
    if m = 0 then (if s then 8 else 16)
    else if m < f.minNormal then (if s then 4 else 32)
    else (if s then 2 else 64)

/-- A value as an integer of n bits: out of range and NaN give the nearest bound, or the upper one, and are invalid. -/
def FloatFmt.toInt (f : FloatFmt) (env : FEnv) (n : Nat) (signed : Bool) (a : Nat) : Int × FFlags :=
  let lo : Int := if signed then -((2 ^ (n - 1) : Nat) : Int) else 0
  let hi : Int := if signed then ((2 ^ (n - 1) - 1 : Nat) : Int) else ((2 ^ n - 1 : Nat) : Int)
  match f.get env a with
  | .nan => (hi, nvFlag)
  | .inf s => (if s then lo else hi, nvFlag)
  | .fin s m =>
    let (k, inexact) := env.md.steps s m
    let v : Int := if s then -(k : Int) else k
    if v < lo then (lo, nvFlag) else if hi < v then (hi, nvFlag) else (v, if inexact then nxFlag else 0)

/-- An integer in a format. -/
def FloatFmt.ofInt (f : FloatFmt) (env : FEnv) (v : Int) : Nat × FFlags := f.put env (Num.of (v : Rat))

/-- A conversion from format g to format f. -/
def FloatFmt.ofFloat (f g : FloatFmt) (env : FEnv) (a : Nat) : Nat × FFlags :=
  let r := f.put env (g.get env a)
  (r.1, r.2 ||| g.nv [a])

/-! ## Values in the 64-bit floating-point registers -/

/-- A narrower value in a register of 64 bits: one that is not NaN-boxed reads as the canonical NaN. -/
def FloatFmt.unbox (f : FloatFmt) (v : W64) : Nat :=
  if f.width = 64 || v.toNat / 2 ^ f.width = 2 ^ (64 - f.width) - 1 then v.toNat % 2 ^ f.width else f.nanCode

/-- A value NaN-boxed in 64 bits. -/
def FloatFmt.box (f : FloatFmt) (code : Nat) : W64 := BitVec.ofNat 64 ((2 ^ (64 - f.width) - 1) * 2 ^ f.width + code)

end Sys2Proof.Machine
end

