-- ==== Sys2Proof/Machine/CoreInstr.lean ====
section
/-!
DEFINITION. The standard instructions of the tile cores and of the host cores as operations on their registers: RV64IM, Zicsr with
the CSRs that the manual gives, F and D with the conversions of Zfhmin, and the element-wise instructions of V, Zvfh, Zvfbfmin and
Zvfbfwma (R16, R133, R135, R137, R216, R217). The table of commands has no row for them; a command that names registers reads
what they leave (log entries 37 and 45).
-/

namespace Sys2Proof.Machine

/-! ## Integer operations -/

/-- The integer operations of two operands. -/
inductive AluOp where
  | add | sub | sll | slt | sltu | xor | srl | sra | or | and
  | mul | mulh | mulhsu | mulhu | div | divu | rem | remu
deriving DecidableEq, Repr

/-- A quotient and a remainder, both toward zero; a divisor of 0 gives −1 and the dividend. -/
def intDiv (a b : Int) : Int := if b = 0 then -1 else a.tdiv b
def intRem (a b : Int) : Int := if b = 0 then a else a.tmod b

/-- An operation on words of n bits; a shift takes log2 n bits of its amount. -/
def AluOp.run {n : Nat} (op : AluOp) (a b : BitVec n) : BitVec n :=
  let s := b.toNat % n
  match op with
  | .add => a + b
  | .sub => a - b
  | .sll => a <<< s
  | .slt => BitVec.ofNat n (b2n (a.slt b))
  | .sltu => BitVec.ofNat n (b2n (a.ult b))
  | .xor => a ^^^ b
  | .srl => a >>> s
  | .sra => a.sshiftRight s
  | .or => a ||| b
  | .and => a &&& b
  | .mul => a * b
  | .mulh => BitVec.ofInt n (a.toInt * b.toInt / ((2 ^ n : Nat) : Int))
  | .mulhsu => BitVec.ofInt n (a.toInt * (b.toNat : Int) / ((2 ^ n : Nat) : Int))
  | .mulhu => BitVec.ofNat n (a.toNat * b.toNat / 2 ^ n)
  | .div => BitVec.ofInt n (intDiv a.toInt b.toInt)
  | .divu => if b.toNat = 0 then BitVec.allOnes n else BitVec.ofNat n (a.toNat / b.toNat)
  | .rem => BitVec.ofInt n (intRem a.toInt b.toInt)
  | .remu => if b.toNat = 0 then a else BitVec.ofNat n (a.toNat % b.toNat)

/-- The forms of 64 bits, and those of 32 bits, whose result is sign-extended. -/
def AluOp.run64 (op : AluOp) (word : Bool) (a b : W64) : W64 :=
  if word then (op.run (a.setWidth 32) (b.setWidth 32)).signExtend 64 else op.run a b

/-- The condition of a branch. -/
inductive BranchOp where
  | beq | bne | blt | bge | bltu | bgeu
deriving DecidableEq, Repr

def BranchOp.taken (op : BranchOp) (a b : W64) : Bool :=
  match op with
  | .beq => a = b
  | .bne => a ≠ b
  | .blt => a.slt b
  | .bge => !a.slt b
  | .bltu => a.ult b
  | .bgeu => !a.ult b

/-! ## The instructions -/

/-- What a CSR instruction does with its source. -/
inductive CsrOp where
  | write | set | clear
deriving DecidableEq, Repr

/-- The source of a CSR instruction: a register, or five bits. -/
inductive CsrSrc where
  | reg (rs1 : Nat)
  | imm (v : Nat)
deriving DecidableEq, Repr

/-- A floating-point format of the scalar registers. -/
inductive FSize where
  | h | b | s | d
deriving DecidableEq, Repr

def FSize.fmt : FSize → FloatFmt
  | .h => fp16
  | .b => bf16
  | .s => fp32
  | .d => fp64

/-- A scalar instruction, its register numbers and immediates taken out of its word; `rm` is the field of the rounding mode. -/
inductive CoreOp where
  | alu (op : AluOp) (word : Bool) (rd rs1 rs2 : Nat)
  | aluImm (op : AluOp) (word : Bool) (rd rs1 : Nat) (imm : W64)
  | upper (pcRelative : Bool) (rd : Nat) (imm : W64)
  | jump (base : Option Nat) (rd : Nat) (offset : W64)
  | branch (op : BranchOp) (rs1 rs2 : Nat) (offset : W64)
  | fence
  | csr (op : CsrOp) (rd number : Nat) (src : CsrSrc)
  | arith (z : FSize) (op : FArith) (rm rd rs1 rs2 rs3 : Nat)
  | compare (z : FSize) (op : FCmp) (rd rs1 rs2 : Nat)
  | pick (z : FSize) (isMax : Bool) (rd rs1 rs2 : Nat)
  | sign (z : FSize) (op : FSign) (rd rs1 rs2 : Nat)
  | classify (z : FSize) (rd rs1 : Nat)
  | toInt (z : FSize) (bits : Nat) (signed : Bool) (rm rd rs1 : Nat)
  | ofInt (z : FSize) (bits : Nat) (signed : Bool) (rm rd rs1 : Nat)
  | convert (dst src : FSize) (rm rd rs1 : Nat)
  | moveToX (z : FSize) (rd rs1 : Nat)
  | moveFromX (z : FSize) (rd rs1 : Nat)
deriving DecidableEq, Repr

/-- The registers of a core that scalar instructions read and write. -/
structure CoreRegs where
  pc : W64
  x : SMap W64
  f : SMap W64
  fcsr : Byte
deriving DecidableEq, Repr

def CoreRegs.reg (c : CoreRegs) (n : Nat) : W64 := if n = 0 then 0 else SMap.get 0 c.x n
def CoreRegs.setReg (c : CoreRegs) (n : Nat) (v : W64) : CoreRegs := if n = 0 then c else { c with x := SMap.set 0 c.x n v }
def CoreRegs.freg (c : CoreRegs) (z : FSize) (n : Nat) : Nat := z.fmt.unbox (SMap.get 0 c.f n)
def CoreRegs.setFreg (c : CoreRegs) (z : FSize) (n v : Nat) : CoreRegs := { c with f := SMap.set 0 c.f n (z.fmt.box v) }
def CoreRegs.raise (c : CoreRegs) (g : FFlags) : CoreRegs := { c with fcsr := c.fcsr ||| g.setWidth 8 }

/-- The rounding mode of an instruction: its own, or frm where its field is 7. -/
def CoreRegs.mode (c : CoreRegs) (rm : Nat) : Option RoundMode := roundMode? (if rm = 7 then bits c.fcsr 7 5 else rm)

/-- The formats in which a core computes, converts, and finds instructions of F and D at all. -/
structure FloatCaps where
  compute : List FSize
  convert : List FSize
deriving DecidableEq, Repr

/-- A result for xn or fn with its flags; the pc goes on by the length of the instruction. -/
def CoreRegs.toX (c : CoreRegs) (len rd : Nat) (v : W64) (g : FFlags := 0) : CoreRegs :=
  let d := (c.setReg rd v).raise g
  { d with pc := c.pc + BitVec.ofNat 64 len }
def CoreRegs.toF (c : CoreRegs) (len : Nat) (z : FSize) (rd : Nat) (r : Nat × FFlags) : CoreRegs :=
  let d := (c.setFreg z rd r.1).raise r.2
  { d with pc := c.pc + BitVec.ofNat 64 len }

/-- A scalar instruction of len bytes, 2 for a compressed one, but for the CSR instructions: none is illegal. -/
def CoreRegs.run (c : CoreRegs) (k : FloatCaps) (flush : Bool) (len : Nat) (op : CoreOp) : Option CoreRegs :=
  let ieee : FEnv := { md := .rne, flush := flush }
  let rounded (rm : Nat) (g : FEnv → CoreRegs) : Option CoreRegs := (c.mode rm).map (fun md => g { md := md, flush := flush })
  let can (z : FSize) (r : Option CoreRegs) : Option CoreRegs := if k.compute.contains z then r else none
  let knows (z : FSize) : Bool := k.compute.contains z || k.convert.contains z
  match op with
  | .alu op word rd rs1 rs2 => some (c.toX len rd (op.run64 word (c.reg rs1) (c.reg rs2)))
  | .aluImm op word rd rs1 imm => some (c.toX len rd (op.run64 word (c.reg rs1) imm))
  | .upper rel rd imm => some (c.toX len rd (if rel then c.pc + imm else imm))
  | .jump base rd off =>
    let target := match base with
      | some rs1 => (c.reg rs1 + off) &&& ~~~1
      | none => c.pc + off
    some { (c.setReg rd (c.pc + BitVec.ofNat 64 len)) with pc := target }
  | .branch op rs1 rs2 off =>
    some { c with pc := if op.taken (c.reg rs1) (c.reg rs2) then c.pc + off else c.pc + BitVec.ofNat 64 len }
  | .fence => some (c.toX len 0 0)
  | .csr _ _ _ _ => none
  | .arith z op rm rd a b d => can z (rounded rm (fun e => c.toF len z rd (z.fmt.arith e op (c.freg z a) (c.freg z b) (c.freg z d))))
  | .compare z op rd a b =>
    let r := z.fmt.compare ieee op (c.freg z a) (c.freg z b)
    can z (some (c.toX len rd (BitVec.ofNat 64 (b2n r.1)) r.2))
  | .pick z m rd a b => can z (some (c.toF len z rd (z.fmt.pick ieee m (c.freg z a) (c.freg z b))))
  | .sign z op rd a b => can z (some (c.toF len z rd (z.fmt.sign ieee op (c.freg z a) (c.freg z b), 0)))
  | .classify z rd a => can z (some (c.toX len rd (BitVec.ofNat 64 (z.fmt.classify ieee (c.freg z a)))))
  | .toInt z n signed rm rd a => can z (rounded rm (fun e =>
      let r := z.fmt.toInt e n signed (c.freg z a)
      c.toX len rd (if n = 32 then (BitVec.ofInt 32 r.1).signExtend 64 else BitVec.ofInt 64 r.1) r.2))
  | .ofInt z n signed rm rd a => can z (rounded rm (fun e =>
      let v := c.reg a
      let v : Int := if n = 32 then (if signed then (v.setWidth 32).toInt else ((v.setWidth 32).toNat : Int))
        else if signed then v.toInt else (v.toNat : Int)
      c.toF len z rd (z.fmt.ofInt e v)))
  | .convert zd zs rm rd a =>
    if knows zd && knows zs then rounded rm (fun e => c.toF len zd rd (zd.fmt.ofFloat zs.fmt e (c.freg zs a))) else none
  | .moveToX z rd a =>
    if knows z then some (c.toX len rd (sext z.fmt.width ((SMap.get 0 c.f a).toNat % 2 ^ z.fmt.width)))
    else none
  | .moveFromX z rd a => if knows z then some (c.toF len z rd ((c.reg a).toNat % 2 ^ z.fmt.width, 0)) else none

/-! ## CSRs -/

/-- A new value of a CSR: none where the instruction only reads it. -/
def CsrOp.value (op : CsrOp) (src : CsrSrc) (c : CoreRegs) (old : W64) : Option W64 :=
  let (v, quiet) : W64 × Bool := match src with
    | .reg n => (c.reg n, decide (n = 0))
    | .imm n => (BitVec.ofNat 64 n, decide (n = 0))
  match op with
  | .write => some v
  | .set => if quiet then none else some (old ||| v)
  | .clear => if quiet then none else some (old &&& ~~~v)

/-- fflags, frm and fcsr. -/
def fcsrRead (v : Byte) (n : Nat) : Option W64 :=
  if n = 1 then some (BitVec.ofNat 64 (bits v 4 0))
  else if n = 2 then some (BitVec.ofNat 64 (bits v 7 5))
  else if n = 3 then some (v.setWidth 64)
  else none
def fcsrWrite (v : Byte) (n : Nat) (x : W64) : Option Byte :=
  if n = 1 then some (setBits v 4 0 x.toNat)
  else if n = 2 then some (setBits v 7 5 x.toNat)
  else if n = 3 then some (x.setWidth 8)
  else none

/-- vtype as software reads it: vill stands alone. -/
def TileCore.vtypeWord (c : TileCore) : W64 := if c.vill then BitVec.ofNat 64 (2 ^ 63) else c.vtype.setWidth 64

/-- A CSR of hart h of tile t (R133, R135, R137, R409); none is illegal. Cycles are not counted: log entry 45. -/
def Work.tileCsr (w : Work) (t h n : Nat) : Option W64 :=
  let c := (w.tile t).core h
  if n = 0xC00 then some (BitVec.ofNat 64 c.cycle + Config.freeWord w.chip.free)
  else if n = 0xC01 then some (BitVec.ofNat 64 w.now)
  else if n = 0xC02 then some (BitVec.ofNat 64 c.instret)
  else if h = 0 then (if n = 0x810 then some c.tmcomp else none)
  else if n = 8 then some (BitVec.ofNat 64 c.vstart)
  else if n = 9 then some (BitVec.ofNat 64 (bits c.vcsr 0 0))
  else if n = 0xA then some (BitVec.ofNat 64 (bits c.vcsr 2 1))
  else if n = 0xF then some (c.vcsr.setWidth 64)
  else if n = 0x800 then some (BitVec.ofNat 64 (b2n c.flush))
  else if n = 0xC20 then some (BitVec.ofNat 64 c.vl)
  else if n = 0xC21 then some c.vtypeWord
  else if n = 0xC22 then some 256
  else fcsrRead c.fcsr n

/-- A write to a CSR of hart h; none is illegal, as it is for the read-only ones. -/
def TileCore.csrWrite (c : TileCore) (h n : Nat) (v : W64) : Option TileCore :=
  if h = 0 then (if n = 0x810 then some { c with tmcomp := v &&& 1 } else none)
  else if n = 8 then some { c with vstart := v.toNat % 2048 }
  else if n = 9 then some { c with vcsr := setBits c.vcsr 0 0 v.toNat }
  else if n = 0xA then some { c with vcsr := setBits c.vcsr 2 1 v.toNat }
  else if n = 0xF then some { c with vcsr := v.setWidth 3 }
  else if n = 0x800 then some { c with flush := bit v 0 }
  else (fcsrWrite c.fcsr n v).map (fun f => { c with fcsr := f })

/-! ## Tile cores -/

def TileCore.regs (c : TileCore) : CoreRegs := { pc := c.pc, x := c.x, f := c.f, fcsr := c.fcsr }
def TileCore.withRegs (c : TileCore) (r : CoreRegs) : TileCore := { c with pc := r.pc, x := r.x, f := r.f, fcsr := r.fcsr }

/-- The control core has no floating point; a vector core computes in FP32 and FP64 and converts to and from FP16 and BF16. -/
def tileCaps (h : Nat) : FloatCaps :=
  if h = 0 then { compute := [], convert := [] } else { compute := [.s, .d], convert := [.h, .b] }

/-- The core after an instruction whose registers are done: it is counted, and its row is in the instruction cache (R139). -/
def TileCore.retire (c : TileCore) (pc : W64) : TileCore :=
  let row := pc.toNat / 64
  let rows := without c.icache row ++ [row]
  { c with instret := c.instret + 1, icache := rows.drop (rows.length - 512) }

/-- A scalar instruction of hart h of tile t: what its registers become; none is illegal. -/
def Work.tileScalar (w : Work) (t h len : Nat) (op : CoreOp) : Option TileCore :=
  let c := (w.tile t).core h
  match op with
  | .csr o rd n src =>
    (w.tileCsr t h n).bind (fun old =>
      let after := match o.value src c.regs old with
        | none => some c
        | some v => c.csrWrite h n v
      after.map (fun d => { d.setReg rd old with pc := c.pc + BitVec.ofNat 64 len }))
  | _ => (c.regs.run (tileCaps h) c.flush len op).map c.withRegs

/-- An instruction of hart h of tile t, of len bytes, at its pc: one outside the tile store or of a poisoned word takes the
instruction access fault (R130, R131); an illegal one ends the program with its word (R133, R135). -/
def Work.tileInstr (w : Work) (t h len : Nat) (word : W64) (f : Work → Option TileCore) : Work :=
  let c := (w.tile t).core h
  if !w.runs t h then w
  else if 0x60_0000 < c.pc.toNat + len || (w.vpoison (tileAddr t c.pc.toNat) len).isSome then w.tileTrap t h 1 c.pc
  else match f w with
    | none => w.tileTrap t h 2 word
    | some d => w.modTile t (fun x => x.setCore h (d.retire c.pc))

/-! ## Vector instructions (R135, R137, R216) -/

/-- The second operand of a vector instruction. -/
inductive VSrc where
  | v (vs1 : Nat)
  | x (rs1 : Nat)
  | f (rs1 : Nat)
  | i (imm : Int)
deriving DecidableEq, Repr

/-- Element operations on integers. -/
inductive VInt where
  | alu (op : AluOp)
  | reverseSub
  | min (signed : Bool)
  | max (signed : Bool)
  | move
deriving DecidableEq, Repr

/-- Comparisons that write a mask. -/
inductive VCmp where
  | eq | ne | lt (signed : Bool) | le (signed : Bool) | gt (signed : Bool)
deriving DecidableEq, Repr

/-- A vector instruction; `vm` false runs it under the mask in v0. -/
inductive VecOp where
  | setVl (rd : Nat) (avl : Option W64) (vtype : W64)
  | int (op : VInt) (vd vs2 : Nat) (src : VSrc) (vm : Bool)
  | compare (op : VCmp) (vd vs2 : Nat) (src : VSrc) (vm : Bool)
  | merge (vd vs2 : Nat) (src : VSrc)
  | reduce (op : VInt) (vd vs1 vs2 : Nat) (vm : Bool)
  | arith (op : FArith) (reversed : Bool) (vd vs2 : Nat) (src : VSrc) (vm : Bool)
  /-- A multiply-add: `overwriteFactor` takes vd as a factor and vs2 as the addend. -/
  | fma (negProduct negAddend overwriteFactor : Bool) (vd vs2 : Nat) (src : VSrc) (vm : Bool)
  | fcompare (op : FCmp) (negated : Bool) (vd vs2 : Nat) (src : VSrc) (vm : Bool)
  | fpick (isMax : Bool) (vd vs2 : Nat) (src : VSrc) (vm : Bool)
  | fsign (op : FSign) (vd vs2 : Nat) (src : VSrc) (vm : Bool)
  | fclassify (vd vs2 : Nat) (vm : Bool)
  | toInt (signed : Bool) (rm : Option Nat) (vd vs2 : Nat) (vm : Bool)
  | ofInt (signed : Bool) (vd vs2 : Nat) (vm : Bool)
  | freduce (op : FArith) (vd vs1 vs2 : Nat) (vm : Bool)
  /-- vfncvtbf16.f.f.w, vfwcvtbf16.f.f.v and vfwmaccbf16. -/
  | narrowBf16 (vd vs2 : Nat) (vm : Bool)
  | widenBf16 (vd vs2 : Nat) (vm : Bool)
  | fmaBf16 (vd vs2 : Nat) (src : VSrc) (vm : Bool)
deriving DecidableEq, Repr

/-- Elements that a register group holds, as vtype gives: VLEN 2,048 bits, LMUL from 1/8 to 8. -/
def vlmax (vtype : Nat) : Nat :=
  let per := 2048 / (8 * 2 ^ (vtype / 8 % 8))
  let l := vtype % 8
  if l < 4 then per * 2 ^ l else per / 2 ^ (8 - l)

/-- A vtype that is supported: SEW 8 to 64, a known LMUL, SEW within LMUL times ELEN, and no other bit but vta and vma. -/
def vtypeOk (v : W64) : Bool := v.toNat < 256 && bits v 5 3 < 4 && bits v 2 0 ≠ 4 && 1 ≤ vlmax v.toNat &&
  (bits v 2 0 < 4 || 2 ^ bits v 5 3 * 2 ^ (8 - bits v 2 0) ≤ 8)

/-- Set vl and vtype: an unsupported vtype sets vill and vl 0. `avl` none keeps vl. -/
def TileCore.setVl (c : TileCore) (rd : Nat) (avl : Option W64) (v : W64) : TileCore :=
  if vtypeOk v then
    let n := min (match avl with | some a => a.toNat | none => c.vl) (vlmax v.toNat)
    ({ c with vl := n, vtype := v.setWidth 8, vill := false, vstart := 0 } : TileCore).setReg rd (BitVec.ofNat 64 n)
  else ({ c with vl := 0, vtype := 0, vill := true, vstart := 0 } : TileCore).setReg rd 0

/-- Element i of the second operand, z bytes wide. -/
def TileCore.vsrc (c : TileCore) (s : VSrc) (i z : Nat) : Nat :=
  match s with
  | .v r => c.velem r i z
  | .x r => (c.reg r).toNat % 2 ^ (8 * z)
  | .f r =>
    let f : FloatFmt := if z = 2 then fp16 else if z = 4 then fp32 else fp64
    f.unbox (SMap.get 0 c.f r)
  | .i v => (BitVec.ofInt (8 * z) v).toNat

/-- The bit of an element in a mask register. -/
def TileCore.vbit (c : TileCore) (v i : Nat) : Bool := bit (SMap.get 0 c.v v) i
def TileCore.setVbit (c : TileCore) (v i : Nat) (b : Bool) : TileCore :=
  { c with v := SMap.modify 0 c.v v (fun r => setBit r i b) }

/-- The elements that run: from vstart to vl − 1, under the mask where there is one. -/
def TileCore.active (c : TileCore) (vm : Bool) : List Nat := idxs c.vl (fun i => c.vstart ≤ i && (vm || c.vbit 0 i))

def VInt.run (op : VInt) (z a b : Nat) : Nat :=
  let n := 8 * z
  let x := BitVec.ofNat n a
  let y := BitVec.ofNat n b
  let less (s : Bool) : Bool := if s then x.slt y else x.ult y
  (match op with
    | .alu o => o.run x y
    | .reverseSub => y - x
    | .min s => if less s then x else y
    | .max s => if less s then y else x
    | .move => y).toNat

def VCmp.run (op : VCmp) (z a b : Nat) : Bool :=
  let x := BitVec.ofNat (8 * z) a
  let y := BitVec.ofNat (8 * z) b
  match op with
  | .eq => x = y
  | .ne => x ≠ y
  | .lt s => if s then x.slt y else x.ult y
  | .le s => if s then x.sle y else x.ule y
  | .gt s => if s then y.slt x else y.ult x

/-- Write an element that a function of the element's number gives, for every element that runs; flags gather in fflags, and
vstart becomes 0. Elements that do not run keep what they hold. -/
def TileCore.vmap (c : TileCore) (vm : Bool) (vd z : Nat) (g : Nat → Nat × FFlags) : TileCore :=
  let r := (c.active vm).foldl (fun (d : TileCore) i =>
    let e := g i
    { (d.setVelem vd i z e.1) with fcsr := d.fcsr ||| e.2.setWidth 8 }) c
  { r with vstart := 0 }

/-- Write a mask bit for every element that runs. -/
def TileCore.vmask (c : TileCore) (vm : Bool) (vd : Nat) (g : Nat → Bool × FFlags) : TileCore :=
  let r := (c.active vm).foldl (fun (d : TileCore) i =>
    let e := g i
    { (d.setVbit vd i e.1) with fcsr := d.fcsr ||| e.2.setWidth 8 }) c
  { r with vstart := 0 }

/-- The registers of a group are aligned, and a masked result does not lie over the mask. -/
def TileCore.valigned (c : TileCore) (l : List Nat) : Bool := l.all (fun v => v % c.group = 0)
def VSrc.regs : VSrc → List Nat
  | .v r => [r]
  | _ => []

/-- The format of the elements, for SEW 16, 32 and 64. -/
def TileCore.vfmt (c : TileCore) : Option FloatFmt :=
  if c.sew = 2 then some fp16 else if c.sew = 4 then some fp32 else if c.sew = 8 then some fp64 else none

/-- The handling of numbers in a vector instruction: the dynamic rounding mode, and FLUSH. -/
def TileCore.venv (c : TileCore) : Option FEnv := (roundMode? (bits c.fcsr 7 5)).map (fun md => { md := md, flush := c.flush })

/-- A vector instruction on a vector core; none is illegal. -/
def TileCore.vec (c : TileCore) (op : VecOp) : Option TileCore :=
  let z := c.sew
  let ok (vm : Bool) (vd : Nat) (l : List Nat) (r : Option TileCore) : Option TileCore :=
    if !c.vill && c.valigned l && (vm || vd ≠ 0) then r else none
  let float (g : FloatFmt → FEnv → TileCore) : Option TileCore :=
    c.vfmt.bind (fun f => c.venv.map (fun e => g f e))
  match op with
  | .setVl rd avl v => some (c.setVl rd avl v)
  | .int o vd vs2 s vm =>
    ok vm vd (vd :: vs2 :: s.regs) (some (c.vmap vm vd z (fun i => (o.run z (c.velem vs2 i z) (c.vsrc s i z), 0))))
  | .compare o vd vs2 s vm => ok true vd (vs2 :: s.regs) (some (c.vmask vm vd (fun i => (o.run z (c.velem vs2 i z) (c.vsrc s i z), 0))))
  | .merge vd vs2 s =>
    ok false vd (vd :: vs2 :: s.regs) (some (c.vmap true vd z (fun i => (if c.vbit 0 i then c.vsrc s i z else c.velem vs2 i z, 0))))
  | .reduce o vd vs1 vs2 vm =>
    ok true vd [vs2] (if c.vstart ≠ 0 then none else some (
      if c.vl = 0 then c
      else c.setVelem vd 0 z ((c.active vm).foldl (fun a i => o.run z a (c.velem vs2 i z)) (c.velem vs1 0 z))))
  | .arith o rev vd vs2 s vm => ok vm vd (vd :: vs2 :: s.regs) (float (fun f e => c.vmap vm vd z (fun i =>
      let a := c.velem vs2 i z
      let b := c.vsrc s i z
      if rev then f.arith e o b a 0 else f.arith e o a b 0)))
  | .fma np na factor vd vs2 s vm => ok vm vd (vd :: vs2 :: s.regs) (float (fun f e => c.vmap vm vd z (fun i =>
      let a := c.vsrc s i z
      if factor then f.arith e (.fma np na) a (c.velem vd i z) (c.velem vs2 i z)
      else f.arith e (.fma np na) a (c.velem vs2 i z) (c.velem vd i z))))
  | .fcompare o neg vd vs2 s vm => ok true vd (vs2 :: s.regs) (float (fun f e => c.vmask vm vd (fun i =>
      let r := f.compare e o (c.velem vs2 i z) (c.vsrc s i z)
      (r.1 != neg, r.2))))
  | .fpick m vd vs2 s vm => ok vm vd (vd :: vs2 :: s.regs) (float (fun f e =>
      c.vmap vm vd z (fun i => f.pick e m (c.velem vs2 i z) (c.vsrc s i z))))
  | .fsign o vd vs2 s vm => ok vm vd (vd :: vs2 :: s.regs) (float (fun f e =>
      c.vmap vm vd z (fun i => (f.sign e o (c.velem vs2 i z) (c.vsrc s i z), 0))))
  | .fclassify vd vs2 vm => ok vm vd [vd, vs2] (float (fun f e => c.vmap vm vd z (fun i => (f.classify e (c.velem vs2 i z), 0))))
  | .toInt signed rm vd vs2 vm => ok vm vd [vd, vs2] (float (fun f e => c.vmap vm vd z (fun i =>
      let e := match rm.bind roundMode? with | some md => { e with md := md } | none => e
      let r := f.toInt e (8 * z) signed (c.velem vs2 i z)
      ((BitVec.ofInt (8 * z) r.1).toNat, r.2))))
  | .ofInt signed vd vs2 vm => ok vm vd [vd, vs2] (float (fun f e => c.vmap vm vd z (fun i =>
      let v := BitVec.ofNat (8 * z) (c.velem vs2 i z)
      f.ofInt e (if signed then v.toInt else (v.toNat : Int)))))
  | .freduce o vd vs1 vs2 vm => ok true vd [vs2] (if c.vstart ≠ 0 then none else float (fun f e =>
      if c.vl = 0 then c
      else
        let r := (c.active vm).foldl (fun (a : Nat × FFlags) i =>
          let b := f.arith e o a.1 (c.velem vs2 i z) 0
          (b.1, a.2 ||| b.2)) (c.velem vs1 0 z, 0)
        { (c.setVelem vd 0 z r.1) with fcsr := c.fcsr ||| r.2.setWidth 8 }))
  | .narrowBf16 vd vs2 vm => ok vm vd [vd] (if z ≠ 2 then none
      else c.venv.map (fun e => c.vmap vm vd 2 (fun i => bf16.ofFloat fp32 e (c.velem vs2 i 4))))
  | .widenBf16 vd vs2 vm => ok vm vd [vs2] (if z ≠ 2 then none
      else c.venv.map (fun e => c.vmap vm vd 4 (fun i => fp32.ofFloat bf16 e (c.velem vs2 i 2))))
  | .fmaBf16 vd vs2 s vm => ok vm vd (vs2 :: s.regs) (if z ≠ 2 then none
      else c.venv.map (fun e => c.vmap vm vd 4 (fun i =>
        let wide (v : Nat) : Nat := (fp32.ofFloat bf16 e v).1
        fp32.arith e (.fma false false) (wide (match s with | .f r => bf16.unbox (SMap.get 0 c.f r) | s => c.vsrc s i 2))
          (wide (c.velem vs2 i 2)) (c.velem vd i 4))))

/-- A vector instruction of hart h of tile t; the control core has none. -/
def Work.tileVector (w : Work) (t h : Nat) (op : VecOp) : Option TileCore :=
  let c := (w.tile t).core h
  if h = 0 then none else (c.vec op).map (fun d => { d with pc := c.pc + 4 })

/-! ## Host cores (R16, R217) -/

/-- xn of a host core: a0 and a1 are x10 and x11. -/
def HostCore.regs (c : HostCore) : CoreRegs :=
  { pc := c.pc, x := SMap.set 0 (SMap.set 0 c.x 10 c.a0) 11 c.a1, f := c.f, fcsr := c.fcsr }
def HostCore.withRegs (c : HostCore) (r : CoreRegs) : HostCore :=
  { c with pc := r.pc, x := SMap.erase (SMap.erase r.x 10) 11, a0 := SMap.get 0 r.x 10, a1 := SMap.get 0 r.x 11, f := r.f, fcsr := r.fcsr }

/-- A host core computes in FP32 and FP64, and converts to and from FP16. -/
def hostCaps : FloatCaps := { compute := [.s, .d], convert := [.h] }

/-- A CSR of host core c that the manual gives: hpfctl and the identity in M-mode, fcsr, and the time (R377, R462). -/
def Work.hostCsr (w : Work) (c n : Nat) : Option W64 :=
  let x := w.core c
  if n = 0x7C0 then (if x.mMode then some (fields [(32, x.clamped), (0, x.depth)]) else none)
  else if n = 0xF14 then (if x.mMode then some (BitVec.ofNat 64 c) else none)
  else if n = 0xF12 then (if x.mMode then some 0x9600 else none)
  else if n = 0xF13 then (if x.mMode then some (BitVec.ofNat 64 (w.fuse.rev.getD (4 + c / 48) 0 % 16)) else none)
  else if n = 0xC01 then some (BitVec.ofNat 64 w.now)
  else fcsrRead x.fcsr n

/-- A scalar instruction of host core c: what its registers become; none is illegal. -/
def Work.hostScalar (w : Work) (c len : Nat) (op : CoreOp) : Option HostCore :=
  let x := w.core c
  match op with
  | .csr o rd n src =>
    (w.hostCsr c n).bind (fun old =>
      let next := { x.regs.setReg rd old with pc := x.pc + BitVec.ofNat 64 len }
      match o.value src x.regs old with
      | none => some (x.withRegs next)
      | some v =>
        if n = 0x7C0 then some { (x.withRegs next) with depth := min 32 (bits v 5 0) }
        else (fcsrWrite x.fcsr n v).map (fun f => { (x.withRegs next) with fcsr := f }))
  | _ => (x.regs.run hostCaps false len op).map x.withRegs

/-- An instruction of host core c; an illegal one takes the illegal-instruction exception, code 2. -/
def Work.hostOp (w : Work) (c len : Nat) (word : W64) (op : CoreOp) : Work :=
  w.hostInstr c (fun w =>
    match w.hostScalar c len op with
    | none => w.hostTrap c 2 word.toNat
    | some x => w.setCore c x)

end Sys2Proof.Machine
end

