-- ==== Sys2Proof/Tests/Slice0.lean ====
section
/-!
SUPPORT. Tests of the model's author: commands whose operands are not well formed, single steps on small states, and, for each
statement, states and operands that meet its hypotheses together (test_meets_ and the statement's name).
-/

open Sys2Proof Sys2Proof.Machine

namespace Sys2Proof.Tests

set_option Elab.async false

/-! ## Small states -/

/-- A pound that has tiles 0 to 3, host cores 0 and 1, every root port and 800GbE port, queues 0 and 1, link 0 and way 0. -/
def cfg : PoundCfg :=
  { sparePolicy := 1, sparesReserved := 0, heartbeatMs := 0, drainUs := 0, tileMask := 0xF, coreMask := 3, cacheWays := 0xFF00,
    scratchWays := 1, scratchClass := 0, tileClass := 0, portMask := 0x3F, sqFirst := 0, sqCount := 2, cqFirst := 0, cqCount := 2,
    linkMask := 1, rdRate := 100, rdBucket := 1000, wrRate := 100, wrBucket := 1000, envelopeW := 1000, freqMax := 2400, freqGroup := 0,
    auditH := 0, auditOverdueH := 0, collationLog2 := 0, canals := [], routes := none }

/-- A charter of module 5 with that pound, which owns the first MiB of HBM. -/
def charter : Charter :=
  { version := 1, baseVersion := 0, serial := 0x9600, activateAt := 0, moduleId := 5, channelMap := BitVec.allOnes 256, custodians := [],
    regions := [⟨0x100_0000_0000, 0x10_0000, 0, 0, 0⟩], access := [], debugBits := [], pounds := [(0, cfg)] }

/-- Pound 0, running under that charter. -/
def pound0 : Pound := { Pound.none with st := .running, cfg := some cfg, regs := charter.regions }

/-- A module after reset whose chip is changed by f. -/
def after (f : Chip → Chip) : State := { State.reset with chip := f State.reset.chip }

/-- The chip of a module that is up under that charter, with Lock Time at 1 ms. -/
def up (c : Chip) : Chip :=
  { c with
    boot := { c.boot with step := 5, lockkeeper := true, power := true, uncoreH0 := true, uncoreH1 := true, iommu := true, scratch := true,
                          hbmWindow := true, fabric := 15, cp := 0xFFFF, hart := BitVec.allOnes 96, arc := BitVec.allOnes 128,
                          hbm := BitVec.allOnes 256, scratchSlices := BitVec.allOnes 128, host0 := true }
    cht := { c.cht with booted := true, active := some charter, mapNow := BitVec.allOnes 256 }
    pounds := [(0, pound0)]
    time := { c.time with st := .locked, nowPs := 1_000_000_000 } }

/-- The module up, further changed by f. -/
def upWith (f : Chip → Chip) : State := after (fun c => f (up c))

/-- Tile 0 runs a program on all its cores. -/
def busyTile : Tile :=
  { Tile.reset 0 with
    st := .running
    cores := [0, 1, 2, 3, 4].map (fun h => (h, { TileCore.zero with running := true, x := [(5, 64), (10, 7)] }))
    launch := some { sq := 0, seq := 1, limitUs := 0, phase := 0, heavy := false, flush := false, entry := 0, argOffset := 0, rank := 0,
                     size := 1 } }
def tileState : State := upWith (fun c => { c with tiles := [(0, busyTile)] })
def tileWith (f : Tile → Tile) : State := upWith (fun c => { c with tiles := [(0, f busyTile)] })

/-! ## Commands that are not well formed -/

theorem test_hostLoad_size : exec (.hostLoad 0 0 .b16 .pma) State.reset = .fault .illFormed := rfl

/-! ## The step -/

theorem test_meets_StepRunsTheFront : ({ State.reset with pending := [.lockPpsEdge, .ecall 0] } : State).pending = .lockPpsEdge :: [.ecall 0] ∧
    State.reset.pending = [] := ⟨rfl, rfl⟩
theorem test_meets_StepKeepsInv : Inv State.reset ∧ ∃ t, step { State.reset with pending := [.lockPpsEdge] } = .next t := ⟨rfl, _, rfl⟩
theorem test_meets_CommandOutcomes : (Instr.ecall 0).wellFormed = true ∧ (Instr.hostLoad 0 0 .b16 .pma).wellFormed = false ∧
    ∃ t, exec (.ecall 0) State.reset = .next t := ⟨rfl, rfl, _, rfl⟩
theorem test_meets_IdleCycle : (State.reset.chip.boot.powered && State.reset.chip.boot.refOk) = true ∧ State.reset.chip.cores = [] ∧
    (∃ t, step State.reset = .next t) ∧
    ((after (fun c => { c with boot := { c.boot with powered := false } })).chip.boot.powered) = false := ⟨rfl, rfl, ⟨_, rfl⟩, rfl⟩

/-! ## Cores of a tile -/

theorem test_meets_TileIssueAndVectorCores :
    (Work.of tileState).runs 0 0 = true ∧ (Work.of tileState).runs 0 4 = true ∧ ((tileOf tileState 0).core 4).running = true ∧
    ((tileOf (tileWith (fun x => x.setCore 4 TileCore.zero)) 0).core 4).running = false ∧
    ((tileOf (tileWith (fun x => x.modCore 1 (fun c => { c with vl := 8, vtype := 0x10 }))) 0).core 1).vhLegal 8 8 true = true := by decide

theorem test_meets_TileSemaphoresAndControl :
    ((Work.of tileState).runs 0 1 = true ∧ (Work.of tileState).portTakes 0 3 = false ∧
     7 ≤ (tileOf (tileWith (fun x => x.setSem 3 7)) 0).sem 3 ∧ (tileOf tileState 0).sem 3 < 7) ∧
    (let x := tileOf (tileWith (fun x => { x.setSem 3 7 with waiters := [⟨3, 1, 7, 4⟩] })) 0
     x.waiters.find? (fun u => u.hart = 1) = some ⟨3, 1, 7, 4⟩ ∧ x.waiters.find? (fun u => u.sem = 3) = some ⟨3, 1, 7, 4⟩ ∧ 7 ≤ x.sem 3) ∧
    (RegOpen tileState 0 (tlOff 0 + 0x10) ((Work.of tileState).ownsTile 0 0) ∧
     RegOpen tileState 1 (tlOff 0 + 0x1008 + 63 * 0x20) ((Work.of (tileWith (fun x => { x with st := .idle }))).ownsTile 1 0) ∧
     (tileOf tileState 0).st = .running ∧ (tileOf (tileWith (fun x => { x with st := .idle })) 0).st = .idle ∧
     (tileOf (tileWith (fun x => { x with st := .disabled })) 0).st = .disabled ∧ (Work.of tileState).canals = []) := by
  unfold RegOpen HartFree; decide

theorem test_no_launch_waits : NoLaunchWaits tileState 0 := by
  intro q c h
  have h0 : (Work.of tileState).turn? q 1 = none := rfl
  rw [h0] at h; cases h

theorem test_meets_TileLoads :
    (let c := (tileOf tileState 0).core 1
     StoreAccess tileState 0 1 (localAddr c 5 0) 8 ∧ tileState.mem.poisonedIn (tileAddr 0 (localAddr c 5 0)) 8 = false ∧
     StoreAccess tileState 0 0 (localAddr ((tileOf tileState 0).core 0) 5 0x7C0) 8 ∧
     StoreAccess tileState 0 1 (c.reg 5).toNat 4) ∧
    (let s := tileWith (fun x => x.modCore 1 (fun c => { c with vl := 2, vstart := 1 }))
     StoreAccess s 0 1 (localAddr ((tileOf s 0).core 1) 5 0 + 1 * 4) 4 ∧ ((tileOf s 0).core 1).vill = false) := by
  unfold StoreAccess; decide

theorem test_meets_TileStoresAndAtomics :
    (let c := (tileOf tileState 0).core 1
     StoreAccess tileState 0 1 (localAddr c 5 0) 8 ∧ (tileOf tileState 0).holds 64 8 = false ∧
     StoreAccess tileState 0 1 (c.reg 5).toNat 8 ∧ tileState.mem.poisonedIn (tileAddr 0 64) 8 = false ∧ c.reserved ≠ some (tileAddr 0 64 / 128)) ∧
    (let s := tileWith (fun x => x.modCore 1 (fun c => { c with reserved := some (tileAddr 0 64 / 128), x := [(5, 64), (6, 0x80_0068), (7, 0x80_0070)] }))
     let c := (tileOf s 0).core 1
     (Work.of s).runs 0 1 = true ∧ c.reserved = some (tileAddr 0 64 / 128) ∧
     (c.reg 6).toNat = 0x80_0008 + 3 * 0x20 ∧ (c.reg 7).toNat = 0x80_0010 + 3 * 0x20) := by
  unfold StoreAccess; decide

theorem test_meets_TileProgramEnds :
    ((Work.of tileState).runs 0 0 = true ∧ (((tileOf tileState 0).core 0).reg 10).toNat < 0x8000_0000 ∧ (tileOf tileState 0).busy = true ∧
     (Work.of tileState).groupOf 0 1 = [0]) ∧
    (let x := tileOf (tileWith (fun x => { x with cores := [], endWait := true })) 0
     x.endWait = true ∧ x.ended = none ∧ x.quiet = true ∧ ∀ h ∈ [1, 2, 3, 4], (x.core h).running = false) ∧
    (let x := tileOf (tileWith (fun x => { x with st := .draining })) 0; x.busy = true ∧ x.endWait = false ∧ x.st = .draining) ∧
    (let x := tileOf (tileWith (fun x => { x with st := .draining, endWait := true })) 0; x.busy = true ∧ x.endWait = true) := by decide

theorem test_works_alone : WorksAlone tileState 0 := by
  refine ⟨rfl, rfl, rfl, rfl, ?_, ?_, ?_⟩
  · intro e h
    simp only [tileState, upWith, after, List.mem_cons, List.not_mem_nil, or_false] at h
    subst h; rfl
  · intro e h; cases h
  · intro l h
    cases h; rfl

theorem test_signal_step : (match exec (.signal 0 0 3 4 10) tileState with
    | .next t => some ((tileOf t 0).sem 3, ((tileOf t 0).core 0).pc) | _ => none) = some (7, 4) := by decide

/-! ## Movers, canals, array -/

/-- A descriptor that copies 64 bytes within the tile store, from 0 to 4096. -/
def copyWords : List W64 := [0, 4096, 63, 0, 0, 0xC, 0, 0, 0]

theorem test_meets_Movers :
    ((Work.of tileState).runs 0 0 = true ∧
     ((tileOf tileState 0).mover 1).queue.length + b2n ((tileOf tileState 0).mover 1).run.isSome < 16) ∧
    (let x := tileOf (tileWith (fun x => { x with mover0 := { Mover.zero with queue := List.replicate 16 copyWords } })) 0
     16 ≤ (x.mover 0).queue.length + b2n (x.mover 0).run.isSome) ∧
    (let x := tileOf (tileWith (fun x => { x with mover0 := { Mover.zero with queue := List.replicate 15 copyWords, waiting := some copyWords } })) 0
     (x.mover 0).waiting = some copyWords ∧ (x.mover 0).queue.length + b2n (x.mover 0).run.isSome < 16) ∧
    (moverFieldsOk [0, 0, 0, 0, 0, 0x200] && (moverDesc [0, 0, 0, 0, 0, 0x200]).ok) = false ∧
    (moverFieldsOk copyWords = true ∧ (moverDesc copyWords).ok = true ∧
     (moverDesc copyWords).pieces = [⟨.copy, 0, true, 4096, true, 64, false⟩]) ∧
    (StoreFree tileState 0 0 64 ∧ StoreFree tileState 0 4096 64 ∧ NotHeld tileState 0 0 64 ∧ NotHeld tileState 0 4096 64 ∧
     tileState.mem.firstPoison (tileAddr 0 0) 64 = none) ∧
    (let s := tileWith (fun x => { x with mover0 := { Mover.zero with queue := [copyWords] } })
     ((tileOf s 0).mover 0).queue = [copyWords] ∧ ((tileOf s 0).mover 0).run = none) ∧
    (let s := upWith (fun c => { c with tiles := [(0, { busyTile with launch := none, mover0 := { Mover.zero with run := some ⟨copyWords, Xfer.none⟩ } })] })
     ((tileOf s 0).mover 0).run = some ⟨copyWords, Xfer.none⟩ ∧ copyWords ≠ [] ∧
     (Work.of s).moverDone 0 0 (bits (wordAt copyWords 5) 6 5) = true) ∧
    (let s := tileWith (fun x => { x with mover0 := { Mover.zero with run := some ⟨copyWords, { Xfer.none with failed := some (5, 0) }⟩ } })
     ((tileOf s 0).mover 0).run = some ⟨copyWords, { Xfer.none with failed := some (5, 0) }⟩ ∧ (tileOf s 0).busy = true) := by
  unfold StoreFree NotHeld; decide +kernel

/-- A canal from port 0 of tile 0 to port 1 of tile 1, of 128-byte slots. -/
def canal : Canal :=
  { prod := 0, outPort := 0, cons := 1, inPort := 1, srcBase := 0, dstBase := 4096, slotLog2 := 7, srcSlots := 2, dstSlots := 2,
    sendSem := 0, freeSem := 1, readySem := 2, returnSem := 3 }
/-- Tiles 0 and 1 with that canal set up. -/
def canalState (f g : Tile → Tile) : State :=
  upWith (fun c => { c with pounds := [(0, { pound0 with canals := [canal] })],
                            tiles := [(0, f busyTile), (1, g { Tile.reset 1 with st := .running })] })
def unit0 : CanalUnit := { data := List.replicate 64 7, poison := [false, false] }

theorem test_meets_Canals :
    (let s := canalState (fun x => (x.setSem 0 1).setOut 0 { OutPort.zero with credits := 1, creditsInFlight := 1 }) (fun x => x.setSem 3 1)
     (Work.of s).canalOut 0 0 = some ⟨0, 0, canal⟩ ∧ (Work.of s).canalIn 1 1 = some ⟨0, 0, canal⟩ ∧ ((tileOf s 0).outPort 0).credits ≠ 0 ∧
     ((tileOf s 0).outPort 0).transfer = false ∧ (tileOf s 0).sem canal.sendSem ≠ 0 ∧ (Work.of s).inPortHeld ⟨0, 0, canal⟩ = false ∧
     (tileOf s 0).st ≠ .exchanging ∧ (tileOf s 1).sem canal.returnSem ≠ 0 ∧
     ((tileOf s 0).outPort 0).creditsInFlight ≠ 0) ∧
    (let s := canalState (fun x => x.setOut 0 { OutPort.zero with transfer := true, flight := [unit0] })
       (fun x => x.setIn 1 { InPort.zero with transfer := true, bytes := 64 })
     ((tileOf s 0).outPort 0).transfer = true ∧ (Work.of s).inPortHeld ⟨0, 0, canal⟩ = false ∧ (Work.of s).nextUnit ⟨0, 0, canal⟩ = some unit0 ∧ unit0.data.length = 64 ∧
     ((tileOf s 1).inPort 1).bytes < canal.size ∧
     StoreFree s 1 (canal.dstBase + ((tileOf s 1).inPort 1).slot * canal.size + ((tileOf s 1).inPort 1).bytes) 64) ∧
    (let s := canalState id (fun x => x.setIn 1 { InPort.zero with transfer := true, bytes := 128 })
     (Work.of s).canalIn 1 1 = some ⟨0, 0, canal⟩ ∧ ((tileOf s 1).inPort 1).transfer = true ∧ canal.size ≤ ((tileOf s 1).inPort 1).bytes) ∧
    (let s := canalState (fun x => x.setOut 0 { OutPort.zero with flight := [unit0] }) (fun x => { x.setIn 1 { InPort.zero with
       transfer := true, waitingHeld := true } with array := { Array_.zero with chains := [⟨0, 0, [], none, 0, false, [(4096, 64)]⟩] } })
     let t := { s with chip := { s.chip with pounds := SMap.mapVal s.chip.pounds (fun _ p => { p with st := .draining }) } }
     (Work.of t).canalIn 1 1 = some ⟨0, 0, canal⟩ ∧ (Work.of t).nextUnit ⟨0, 0, canal⟩ = some unit0 ∧ (tileOf t 1).st ≠ .exchanging ∧
     (tileOf t 1).holds 4096 64 = true ∧ (Work.of t).inPortHeld ⟨0, 0, canal⟩ = true ∧ ((Work.of t).pound 0).st = .draining) := by
  unfold StoreFree; decide

/-- Parameters of an hmma of one BF16 block of k. -/
def params : SMap W64 := [(0, 32), (1, 256), (2, 256)]
def armed (f : Array_ → Array_) : State :=
  tileWith (fun x => (x.modCore 0 (fun c => { c with x := [(6, 8192), (7, 512), (8, 3)] })).setSem 0 0
    |> fun x => { x with array := f { Array_.zero with params := params } })
def hm (k : MKind) (f : BitVec 7) (n c : Nat) : MInstr :=
  { kind := k, funct7 := f, a := 0, b := 0, params := [32, 256, 256, 0, 0, 0, 0, 0], bits := 0, pc := 0, chain := c, num := n, counted := false }
def chain0 : Chain := { id := 0, bank := 0, instrs := [hm .hmma 0x20 1 0], drain := none, completed := 0, poisoned := false, ranges := [] }

theorem test_meets_ArrayIssue :
    (let s := armed id
     let i := (Work.of s).capture 0 .hmma 2 0x20 6 0 9
     (Work.of s).runs 0 0 = true ∧ (tileOf s 0).array.queue.length < 16 ∧ (tileOf s 0).array.chainOk i = true ∧ i.hmmaBad = none ∧
     (tileOf s 0).array.openOf i.bk = none ∧ (Work.of s).sampling 0 = false ∧
     (let i := (Work.of s).capture 0 .hmacc 4 1 7 6 9
      i.b.toNat % 64 = 0 ∧ 512 ≤ i.b.toNat ∧ i.a.toNat % 64 = 0 ∧ beyond i.reads = none ∧ (tileOf s 0).array.openOf i.bk = none) ∧
     (let i := (Work.of s).capture 0 .hmsig 5 0 8 8 9
      i.a.toNat ≤ 63 ∧ i.b.toNat % 2 ^ 32 ≠ 0)) ∧
    (let s := armed (fun a => { a.setOpen 0 (some 0) with chains := [chain0], nextChain := 1 })
     let i := (Work.of s).capture 0 .hmma 2 0 6 0 9
     (tileOf s 0).array.chainOk i = true ∧ i.hmmaBad = none ∧ (tileOf s 0).array.openOf i.bk = some 0 ∧
     (tileOf s 0).array.chain? 0 = some chain0 ∧ chain0.completed ≠ 1 ∧
     (let i := (Work.of s).capture 0 .hmdrain 3 0 0 6 9
      bits i.b 15 3 = 0 ∧ i.a.toNat % 64 = 0 ∧ beyond i.reads = none ∧ (tileOf s 0).array.openOf i.bk = some 0 ∧
      ((tileOf s 0).array.setOpen i.bk none).chain? 0 = some chain0)) ∧
    (let s := armed (fun a => { a with queue := List.replicate 16 (hm .hmma 0x20 1 0) })
     (Work.of s).runs 0 0 = true ∧ 16 ≤ (tileOf s 0).array.queue.length) := by decide

theorem test_no_sampling : NoSampling (armed id) 0 := by
  intro p h
  have h0 : (Work.of (armed id)).tileOwner 0 = some 0 := by decide
  rw [h0] at h; cases h; decide

theorem test_meets_ArrayExecution :
    (tileOf (armed id) 0).array.unfinished = [] ∧
    (let s := armed (fun a => { a with queue := [hm .hmma 0x20 1 0], chains := [chain0], fencing := true })
     (tileOf s 0).array.unfinished ≠ [] ∧ (tileOf s 0).array.restart = [] ∧ (tileOf s 0).array.queue = [hm .hmma 0x20 1 0] ∧
     (Work.of s).bankDrain 0 (hm .hmma 0x20 1 0) ≠ 1 ∧ (Work.of s).firstPoisonIn 0 (hm .hmma 0x20 1 0).reads = none ∧
     (tileOf s 0).array.waiting = none ∧ (tileOf s 0).array.replay = none) ∧
    (let s := armed (fun a => { a with fencing := true })
     (tileOf s 0).array.fencing = true ∧ (tileOf s 0).array.unfinished = []) ∧
    (let s := armed (fun a => { a with feed := some (hm .hmacc 0 1 0), chains := [chain0], signals := [hm .hmsig 0 1 0] })
     (tileOf s 0).array.flying = [] ∧ (Work.of s).bankDrain 0 (hm .hmacc 0 1 0) = 0 ∧ (tileOf s 0).array.chain? 0 = some chain0 ∧
     (tileOf s 0).array.replay = none ∧ (tileOf s 0).array.signals = [hm .hmsig 0 1 0] ∧ (tileOf s 0).array.doneBefore 1 = true ∧
     (tileOf s 0).array.waiting = none) := by decide

/-- A chain whose drain d waits, with nothing to load. -/
def dr : MInstr := { hm .hmdrain 0 1 0 with a := 64 }
def chainD : Chain := { chain0 with instrs := [], drain := some dr }
/-- The descriptor of d asks for INT32 output, a pitch of 512 and, when check is 2, a checksum whose failure replays. -/
def drainState (ctrl : Byte) (f : Array_ → Array_) : State :=
  let s := armed f
  { s with mem := { s.mem with cells := [(tileAddr 0 0x45, 2), (tileAddr 0 0x68, 0x0D)] ++ (if ctrl = 0 then [] else [(tileAddr 0 0x69, ctrl)]) } }

theorem test_meets_OutputStage :
    (let s := drainState 0 (fun a => { a with chains := [chainD], pending := some dr })
     (tileOf s 0).array.chain? 0 = some chainD ∧ (Work.of s).drainInvalid 0 chainD dr = false ∧ bits dr.b 1 0 = 0 ∧
     (Work.of s).firstPoisonIn 0 (dr.reads ++ (Work.of s).columnRanges 0 64) = none ∧ (tileOf s 0).array.waiting = none ∧
     (tileOf s 0).array.active = none) ∧
    (let s := drainState 0 (fun a => { a with chains := [chainD], active := some dr, activeOk := true })
     (tileOf s 0).seqWaiting = [] ∧ chainD.completed = chainD.instrs.length ∧ ((Work.of s).desc 0 64).check = 0 ∧
     ((Work.of s).desc 0 64).winAct = 0 ∧ ((Work.of s).desc 0 64).lgEn = false) ∧
    (let r : Replay := ⟨0, 0, 1, none, none, 0, 0⟩
     let s := drainState 0x80 (fun a => { a with chains := [chainD], active := some dr, replay := some r, laneM := [(0, 1)] })
     let t := { s with chip := { s.chip with tiles := s.chip.tiles ++ [(144, { Tile.reset 144 with st := .spare })] } }
     ((Work.of t).drainResult 0 chainD dr ((Work.of t).recompute 0 chainD)).replays ((Work.of t).desc 0 64) = true ∧
     (Work.of t).attempt2Possible (tileDie 0) = true ∧ (Work.of t).waitsBefore 0 0 = false ∧
     ((Work.of t).sparesOf (tileDie 0)).find? (fun u => !(Work.of t).serves u) = some 144 ∧ chainD.ranges = []) ∧
    (let r : Replay := ⟨0, 0, 1, none, none, 0, 0⟩
     let s := drainState 0 (fun a => { a with chains := [chainD], active := some dr, replay := some r })
     ((Work.of s).drainResult 0 chainD dr ((Work.of s).recompute 0 chainD)).replays ((Work.of s).desc 0 64) = false) ∧
    (RegOpen tileState 0 (tlOff 0 + 0x3800) ((Work.of tileState).ownsTile 0 0) ∧
     RegOpen tileState 1 (tlOff 0 + 0x3818) ((Work.of tileState).ownsTile 1 0)) := by
  unfold RegOpen HartFree; decide +kernel

/-! ## Queues and commands -/

/-- A fetched command of 64 bytes, its bytes 0, 1, … as given and then 0. -/
def cmd (n : W32) (bs : List Byte) : Cmd :=
  { seq := n, bytes := bs ++ List.replicate (64 - bs.length) 0, phase := .fetched, startPs := 0, tiles := [], check := 0, checkTile := 0,
    xf := Xfer.none, count := 0, seen := 0 }
/-- Opcode op at scope DIE, with a byte string from offset 0x0C. -/
def op (o : Byte) (bs : List Byte) : Cmd := cmd 1 ([o, 0x20, 0, 0, 0, 0, 0, 0, 9, 0, 0, 0] ++ bs)
def zs (n : Nat) : List Byte := List.replicate n 0
/-- Queue 0, bound to completion queue 0, holds the commands; the IOMMU is in Bare mode; tile 0 is as given. -/
def queueWith (cs : List Cmd) (f : Sq → Sq) (x : Tile) : State :=
  upWith (fun c => { c with
    sqs := [(0, f { Sq.zero with st := .running, log2 := 6, cmds := cs, fetched := 1 })]
    cqs := [(0, { Cq.zero with st := .enabled, log2 := 6, reserved := 1, bound := 1, base := 0x100_0000_1000 })]
    iommu := { c.iommu with regs := [(0x10, 1)] }
    tiles := [(0, x)] })
def queue (cs : List Cmd) : State := queueWith cs id { Tile.reset 0 with st := .idle }
def started (c : Cmd) : Cmd := { c with phase := .started }
/-- LAUNCH of tile 0: 64 bytes of program at the base of HBM, a limit of 5 µs. -/
def launchCmd : Cmd :=
  op 1 ([1] ++ zs 19 ++ [0, 0, 0, 0, 0, 1, 0, 0] ++ [64, 0, 0, 0] ++ zs 12 ++ [5, 0, 0, 0])

theorem test_meets_CommandStarts :
    (let s := queue [op 0 []]
     (Work.of s).next? 0 = some (op 0 []) ∧ (sqOf s 0).cmds = [] ++ op 0 [] :: [] ∧ (op 0 []).quiet = false ∧
     ((Work.of s).pound 0).selfReset = false ∧ (cmd 1 [0, 0x30]).quiet = true) ∧
    (let s := queue [op 0x80 []]
     (Work.of s).next? 0 = some (op 0x80 []) ∧ 0x0B < (op 0x80 []).op) ∧
    (let c := cmd 1 [8, 0]
     (Work.of (queue [c])).turn? 0 8 = some c ∧ formatOk 8 c = false) := by decide

theorem test_meets_PlainCommandsAndWaits :
    (Turn (queue [op 0 []]) 0 0 (op 0 []) ∧ Turn (queue [op 7 [15]]) 0 7 (op 7 [15]) ∧
     Turn (queue [op 8 [15, 0, 0x10, 0x27]]) 0 8 (op 8 [15, 0, 0x10, 0x27]) ∧ (Work.of (queue [])).sqOwner 0 = some 0) ∧
    (Turn (queue [op 10 (zs 4 ++ [0x40, 0x42, 0x0F])]) 0 10 (op 10 (zs 4 ++ [0x40, 0x42, 0x0F])) ∧
     (op 10 (zs 4 ++ [0x40, 0x42, 0x0F])).at_ 0x10 8 = (Work.of (queue [])).now ∧ (op 10 []).at_ 0x10 8 < (Work.of (queue [])).now ∧
     (Work.of (queue [])).now < (op 10 (zs 4 ++ [0, 0, 0xFF])).at_ 0x10 8 ∧ (Work.of (queue [])).locked = true ∧
     Going (queue [started (op 10 [])]) 0 1 10 (started (op 10 [])) ∧ (op 10 []).at_ 0x10 8 + 200 < (Work.of (queue [])).now) ∧
    (let c := op 9 [1]
     let s := queue [c]
     let t := queueWith [c] id { Tile.reset 0 with st := .idle, exDue := some .audit }
     Turn s 0 9 c ∧ c.safeTiles.any (fun k => (Work.of s).tileOwner k = none || (Work.of s).tileOwner k ≠ (Work.of s).sqOwner 0) = false ∧
     c.safeTiles.all (fun k => ((Work.of s).tile k).exDue = none && ((Work.of s).tile k).st ≠ .exchanging) = true ∧
     c.safeTiles.any (fun k => ((Work.of t).tile k).exDue.isSome || ((Work.of t).tile k).st = .exchanging) = true ∧
     (op 9 [16]).safeTiles.any (fun k => (Work.of s).tileOwner k = none || (Work.of s).tileOwner k ≠ (Work.of s).sqOwner 0) = true) ∧
    (let c := op 4 (zs 4 ++ [8, 0, 0, 0, 0, 1])
     let s := queue [c]
     Turn s 0 4 c ∧ ((Work.of s).begin 0 c).xferQuiet (.command 0 1) = true ∧ c.at_ 0x24 4 = 0 ∧
     (match ((Work.of s).engReach ((Work.of s).eng (.command 0 1)) false (c.at_ 0x10 8) 8 false).2 with
      | .ok a => a == 0x100_0000_0008 | .bad _ _ => false) = true ∧ (Work.of s).vpoison 0x100_0000_0008 8 = none ∧
     (match ((Work.of s).engReach ((Work.of s).eng (.command 0 1)) false 0 8 false).2 with | .ok _ => false | .bad st _ => st != 0) = true) ∧
    (let c := started (op 4 (zs 24 ++ [1]))
     Going (queue [c]) 0 1 4 c ∧ c.at_ 0x24 4 ≠ 0) ∧
    (let c := started (op 4 (zs 4 ++ [8, 0, 0, 0, 0, 1]))
     let s := queue [c]
     let t := { s with chip := { s.chip with remotes := [(0, { Remote.blank with who := .command 0 1 })] } }
     Going t 0 1 4 c ∧ (Work.of t).xferQuiet (.command 0 1) = false) := by
  unfold Turn Going; decide +kernel

theorem test_meets_LaunchTiles :
    (let s := queue [launchCmd]
     Turn s 0 1 launchCmd ∧ launchCmd.count ≠ 1 ∧
     launchCmd.launchTiles.any (fun k => (Work.of s).tileOwner k = none || (Work.of s).tileOwner k ≠ (Work.of s).sqOwner 0) = false ∧
     ((Work.of s).tile 0).st = .idle ∧
     (let t := queueWith [launchCmd] id { Tile.reset 0 with st := .disabled }
      launchCmd.launchTiles.find? (fun k => !(((Work.of t).tile k).st = .idle || ((Work.of t).tile k).st = .loading ||
        ((Work.of t).tile k).st = .running || ((Work.of t).tile k).st = .exchanging)) = some 0)) ∧
    (let c := { launchCmd with count := 1 }
     Turn (queue [c]) 0 1 c ∧ c.count = 1 ∧ (Work.of (queue [c])).canTake c = true ∧
     (Work.of (queueWith [c] id { Tile.reset 0 with st := .running })).canTake c = false) := by
  unfold Turn; decide +kernel

/-- The tile as a launch of queue 0 has it, with a mover run and an end. -/
def launched (st : TileSt) (m : Option MoverRun) (e : Option TileEnd) : Tile :=
  { busyTile with st := st, mover0 := { Mover.zero with run := m }, ended := e }

theorem test_meets_LaunchLoads :
    (let c := { started launchCmd with tiles := [0] }
     let s := queueWith [c] id (launched .loading (some ⟨[], Xfer.none⟩) none)
     Going s 0 1 1 c ∧ c.tiles ≠ [] ∧ c.tiles.all (fun k => ((Work.of s).loadOf k).isSome && (Work.of s).xferDone (.mover k 0)) = true ∧
     (tileOf s 0).launch ≠ none) ∧
    (let c := { started launchCmd with tiles := [0] }
     let s := queueWith [c] id (launched .loading (some ⟨[], { Xfer.none with failed := some (4, 8) }⟩) none)
     Going s 0 1 1 c ∧ s.chip.remotes = [] ∧ c.tiles.all (fun k => ((Work.of s).loadOf k).isSome) = true ∧
     c.tiles.findSome? (fun k => ((Work.of s).loadOf k).bind (fun x => x.failed)) = some (4, 8)) ∧
    (let c := { started launchCmd with tiles := [0] }
     let s := queueWith [c] id (launched .running none (some ⟨1, 2, 0, 0⟩))
     let t := queueWith [c] id (launched .running none none)
     Going s 0 1 1 c ∧ c.scope ≠ 3 ∧ c.tiles.all (fun k => (tileOf s k).ended.isSome) = true ∧
     c.tiles.any (fun k => (tileOf t k).ended.isNone) = true ∧ (tileOf s 0).ended = some ⟨1, 2, 0, 0⟩) := by
  unfold Going; decide +kernel

theorem test_meets_CopyCommands :
    (let c := op 2 (zs 4 ++ [0, 0, 0, 0, 0, 1, 0, 0, 0, 8, 0, 0, 0, 1, 0, 0, 63])
     Turn (queue [c]) 0 2 c ∧ ((Work.of (queue [c])).moveDesc 0 c).ok = true) ∧
    (let c := cmd 1 ([3, 0x21] ++ zs 14 ++ [0, 0, 0, 0, 0, 1, 0, 0, 64])
     Turn (queue [c]) 0 3 c) ∧
    (let c := op 5 ([2] ++ zs 11 ++ [7])
     Turn (queue [c]) 0 5 c ∧ c.at_ 0x0C 1 = 2 ∧ (Work.of (queue [c])).tileOwner (c.at_ 0x20 2) = (Work.of (queue [c])).sqOwner 0 ∧
     (Work.of (queue [c])).tileOwner (c.at_ 0x20 2) ≠ none) ∧
    (let c := op 5 ([2] ++ zs 11 ++ [7] ++ zs 7 ++ [159])
     Turn (queue [c]) 0 5 c ∧ (Work.of (queue [c])).tileOwner (c.at_ 0x20 2) = none) ∧
    (Turn (queue [op 5 [0]]) 0 5 (op 5 [0]) ∧ Turn (queue [op 5 [1]]) 0 5 (op 5 [1])) ∧
    (Turn (queue [op 11 [0, 0, 15, 1]]) 0 11 (op 11 [0, 0, 15, 1]) ∧ Turn (queue [op 11 [4]]) 0 11 (op 11 [4])) ∧
    (let c := { started (op 2 []) with xf := { Xfer.none with failed := some (5, 8) } }
     let d := started (op 2 [])
     let e := { started (op 3 []) with xf := { Xfer.none with todo := [⟨.copy, 0, false, 0, false, 1, false⟩] } }
     Going (queue [c]) 0 1 2 c ∧ c.xf.failed = some (5, 8) ∧ (Work.of (queue [c])).xferQuiet (.command 0 1) = true ∧
     Going (queue [d]) 0 1 2 d ∧ d.xf.failed = none ∧ (Work.of (queue [d])).xferDone (.command 0 1) = true ∧ d.scope ≠ 3 ∧
     Going (queue [e]) 0 1 3 e ∧ (Work.of (queue [e])).xferDone (.command 0 1) = false ∧ (cmd 1 [2, 0x60]).scope = 3) := by
  unfold Turn Going; decide +kernel

theorem test_meets_DoorbellsAndDrains :
    (let s := queue []
     (Work.of s).sqOwner 0 ≠ none ∧ (Work.of s).coreOwner 0 = (Work.of s).sqOwner 0 ∧ (Work.of s).coreOwner 2 ≠ (Work.of s).sqOwner 0 ∧
     (sqOf s 0).st = .running ∧ ((64 : W32) - (sqOf s 0).tail).toNat < 2 ^ 31 ∧ ((64 : W32) - (sqOf s 0).head).toNat ≤ 2 ^ (sqOf s 0).log2 ∧
     2 ^ (sqOf s 0).log2 < ((65 : W32) - (sqOf s 0).head).toNat ∧ (sqOf s 1).st ≠ .running ∧
     HartFree s 0 ∧ HartFree s 2 ∧ (coreOf s 2).storeBuf = []) ∧
    ((sqOf (queueWith [] (fun q => { q with st := .draining }) busyTile) 0).st = .draining ∧
     (∃ c ∈ (sqOf (queueWith [op 0 []] (fun q => { q with st := .draining }) busyTile) 0).cmds, c.isDone = false)) ∧
    (let s := queueWith [] (fun q => { q with st := .draining }) busyTile
     (sqOf s 0).st = .draining ∧ (sqOf s 0).cmds = [] ∧ (cqOf s (sqOf s 0).cqNum).pend = [] ∧ (cqOf s (sqOf s 0).cqNum).st ≠ .faulted) ∧
    (let c := { op 0 [] with phase := .completed 0 0 0 0 }
     let s := queueWith [c] (fun q => { q with st := .draining }) busyTile
     (sqOf s 0).cmds ≠ [] ∧ (cqOf s (sqOf s 0).cqNum).st ≠ .faulted ∧ (∀ d ∈ (sqOf s 0).cmds, d.isDone = true) ∧
     (let t := { s with chip := { s.chip with cqs := SMap.mapVal s.chip.cqs (fun _ x => { x with st := .faulted }) } }
      (cqOf t (sqOf t 0).cqNum).st = .faulted)) := by unfold HartFree; decide +kernel

/-- As `queue`, with four slots to fetch at the base of HBM, whose first holds a NOP of SEQ 2. -/
def fetchState : State :=
  let s := queueWith [] (fun q => { q with base := 0x100_0000_0000, head := 1, tail := 5, log2 := 4 }) busyTile
  { s with mem := { s.mem with cells := [(0x100_0000_0041, 0x20), (0x100_0000_0044, 2)] } }

theorem test_meets_CommandFetches :
    (let w := Work.of fetchState
     w.inflight 0 < 4096 ∧ w.eligible 0 = true ∧ (∀ e ∈ fetchState.chip.sqs, e.1 % 16 = 1 → w.eligible e.1 = false) ∧
     (match (w.readSlot 0 1).2 with
      | .ok b => leAt b 1 1 % 8 = 0 && leAt b 4 4 == 2
      | .bad _ _ => false) = true ∧ (match (w.readSlots 0 2 0).2 with | .ok b => b == [] | .bad _ _ => false) = true) ∧
    (let w := Work.of (queueWith [] (fun q => { q with head := 1, tail := 5, log2 := 4 }) busyTile)
     (match (w.readSlot 0 1).2 with | .ok _ => false | .bad st _ => st != 0) = true) := by decide +kernel

def entry (st : Nat) : Entry := { seq := 1, tag := 9, status := st, flags := 0, sq := 0, d0 := 0, d1 := 0, reserved := true }
def cqWith (f : Cq → Cq) : State :=
  let s := queue [started (op 0 [])]
  { s with chip := { s.chip with cqs := SMap.mapVal s.chip.cqs (fun _ c => f { c with ackAddr := 0x100_0000_0800, lastWritten := 2 }) } }

theorem test_meets_CompletionQueues :
    (let s := cqWith (fun c => { c with pend := [entry 0] })
     (cqOf s 0).st = .enabled ∧ (cqOf s 0).pend = entry 0 :: [] ∧ ((Work.of s).writeEntry 0 (entry 0)).2 = true ∧
     (Work.of s).entryReady (entry 0) = true ∧ (cqOf s 1).st = .disabled ∧ (entry 0).sq ≠ 0xFFFF_FFFF) ∧
    (let s := cqWith (fun c => { c with base := 0, pend := [entry 0x13] })
     ((Work.of s).writeEntry 0 (entry 0x13)).2 = false) ∧
    (let s := cqWith id
     (match ((Work.of s).vaRead (cpCache 0) (poundDev (((Work.of s).cqOwner 0).getD 0)) (some 0) (.ring ((Work.of s).cqOwner 0)) 8 0
        (cqOf s 0).ackAddr.toNat 8).2 with | .ok b => b == zs 8 | .bad _ _ => false) = true ∧
     ((0 : W32) - (cqOf s 0).lastAck).toNat ≤ ((cqOf s 0).lastWritten - (cqOf s 0).lastAck).toNat ∧
     ((cqOf s 0).lastWritten - (cqOf s 0).lastAck).toNat < ((3 : W32) - (cqOf s 0).lastAck).toNat ∧ (cqOf s 0).msiDue = false) ∧
    (cqOf (cqWith (fun c => { c with msiDue := true })) 0).msiDue = true := by decide +kernel

/-- Pound 0's window of command processor 0 selects a queue. -/
def winWith (cq : Bool) (q : Nat) (f : Chip → Chip) : State :=
  let s := queue []
  { s with chip := f { s.chip with cpWins := [(0, { CpWindow.zero with cq := cq, queue := q })] } }
def ringSq : Sq := { Sq.zero with log2 := 4, csv := 1, cq := 0 }

theorem test_meets_QueueRegisters :
    (let s := winWith false 0 id
     RegOpen s 0 (cpOff 0 + 0x1000) ((Work.of s).isPound 0 0) ∧ RegOpen s 1 (cpOff 0 + 0x1008 + 7 * 8) ((Work.of s).isPound 1 0) ∧
     RegOpen s 0 (cpOff 15 + 0x1048) ((Work.of s).isPound 0 0) ∧ RegOpen s 0 (cpOff 0 + 0x8000) ((Work.of s).isPound 0 0) ∧
     (Work.of s).winOwned 0 0 = true ∧ (Work.of s).winOwned 1 0 = false ∧ ((Work.of s).cpWin 0 0).cq = false ∧ (sqOf s 0).st ≠ .disabled ∧
     (∀ f ∈ sqFields, f.1 < 4 ∨ 4 + 4 < f.1 + f.2) ∧ (∀ f ∈ sqFields, f.1 < 0x20 ∨ 0x20 + 8 < f.1 + f.2) ∧ ((Work.of s).sq 0).st = .running ∧ (Work.of s).sqEnableStatus 0 0 = 1 ∧
     (cqOf s 0).st = .enabled ∧ (Work.of s).cqOwner 0 = some 0) ∧
    (let s := winWith false 0 (fun c => { c with sqs := [(0, ringSq)], cqs := [(0, { Cq.zero with st := .enabled, log2 := 4 })] })
     (sqOf s 0).st = .disabled ∧ (Work.of s).sqEnableStatus 0 0 = 0 ∧ (sqOf s 0).log2 < 256 ∧ 1 ≤ (Work.of s).cqFree 0) ∧
    (let s := winWith false 0 (fun c => { c with sqs := [(0, { ringSq with csv := 2 })], cqs := [(0, { Cq.zero with st := .enabled, log2 := 4, reserved := 16 })] })
     (Work.of s).sqEnableStatus 0 0 = 3 ∧ (Work.of s).cqFree 0 < 1) ∧
    (let s := winWith true 0 (fun c => { c with cqs := [(0, { Cq.zero with log2 := 4, ackAddr := 8 })] })
     (∀ f ∈ cqFields, f.1 < 0x10 ∨ 0x10 + 4 < f.1 + f.2) ∧ ((Work.of s).winOwned 0 0 = true) ∧
     ((Work.of s).cpWin 0 0).cq = true ∧ (Work.of s).cqEnableStatus 0 = 0 ∧ (cqOf s 0).pend = [] ∧ (cqOf s 0).bound = 0 ∧
     (cqOf s 0).st = .disabled) ∧
    (let s := winWith true 0 (fun c => { c with cqs := [(0, { Cq.zero with st := .enabled, log2 := 4 })] })
     (cqOf s 0).bound = 0 ∧ (cqOf s 0).st = .enabled ∧ (Work.of s).cqEnableStatus 0 ≠ 0) ∧
    ((cqOf (queue []) 0).bound ≠ 0 ∧ (sqOf (queueWith [] (fun q => { q with st := .draining }) busyTile) 0).st ≠ .stopped) := by
  unfold RegOpen HartFree; decide +kernel

/-! ## Time, orders -/

def order (action at_ notice arg : Nat) (began : Option Nat) : Order :=
  { action := action, at_ := at_, pound := 0, notice := notice, arg := arg, poster := .pound 0, accepted := 0, began := began, deadline := none,
    noticed := false }
def orderWith (o : Order) (spec : W64) : State :=
  upWith (fun c => { c with time := { c.time with orders := [(4095, o)], regs := [(0, ⟨2_000_000, spec, 0, 0⟩)] } })

theorem test_meets_OrdersAndWindows :
    (let w := Work.of (orderWith (order 6 1_003_000 0 5 none) 6)
     w.locked = true ∧ w.now = 1_000_000 ∧ w.outsideOrders < 3840 ∧ w.postStatus .management (w.now + 2000) = 0 ∧
     w.postStatus (.pound 0) (w.now + 86_400_000_000_000) = 0 ∧ w.postStatus (.pound 0) (w.now + 86_400_000_000_001) = 4 ∧
     w.postStatus (.pound 0) (w.now + 1999) = 3 ∧ w.chip.time.orders.length < 4096 ∧ (Work.of State.reset).locked = false) ∧
    (let s := orderWith (order 6 1_003_000 0 5 none) (6 + 5 * 2 ^ 32)
     RegOpen s 0 (ltBase + 0x110) ((Work.of s).isPound 0 0) ∧ bits ((Work.of s).orderRegs 0).spec 7 0 = 6 ∧
     bits ((Work.of s).orderRegs 0).spec 63 32 ≠ 0 ∧ (Work.of s).order? 0 = none ∧
     (Work.of s).order? 4095 = some (order 6 1_003_000 0 5 none)) ∧
    (let s := orderWith (order 6 1_003_000 4 5 none) 8
     bits ((Work.of s).orderRegs 0).spec 7 0 ≠ 6 ∧ bits ((Work.of s).orderRegs 0).spec 7 0 ≠ 7 ∧
     (order 6 1_003_000 4 5 none).at_ ≤ (Work.of s).now + 4 * 1000 ∧ (Work.of s).locked = true) ∧
    ((Work.of (orderWith (order 7 1_000_000 0 0 none) 7)).startable 4095 7 = some (order 7 1_000_000 0 0 none) ∧
     (Work.of (orderWith (order 6 1_000_000 0 5 none) 7)).startable 4095 6 = some (order 6 1_000_000 0 5 none) ∧
     (Work.of (orderWith (order 6 1_000_001 0 5 none) 7)).startable 4095 6 = none) ∧
    (let o := order 6 995_000 0 5 (some 995_000)
     (orderWith o 7).chip.time.orders = [(4095, o)] ∧ o.at_ + o.arg * 1000 ≤ (Work.of (orderWith o 7)).now) ∧
    (let s := upWith (fun c => { c with pounds := [(0, { pound0 with fences := [(7, [(0, 0)])] })] })
     ((Work.of s).pound 0).fences.find? (fun f => f.2.all (fun e => (Work.of s).upTo e.1 e.2)) = some (7, [(0, 0)])) ∧
    (let s := upWith (fun c => { c with pounds := [(0, { pound0 with fences := [(7, [(0, 1)])] })]
                                        sqs := [(0, { Sq.zero with cmds := [started (op 0 [])] })] })
     ∀ f ∈ ((Work.of s).pound 0).fences, ∃ e ∈ f.2, (Work.of s).upTo e.1 e.2 = false) ∧
    (Work.of (orderWith (order 7 1_000_000 0 0 none) 7)).noticeDue (order 7 1_000_000 0 0 none) = false := by
  unfold RegOpen HartFree; decide +kernel

def timeWith (f : TimeUnit → TimeUnit) : State := upWith (fun c => { c with refPs := 700_000_000_000, time := f c.time })

theorem test_meets_LedgerTime :
    (let s := timeWith (fun t => { t with srcEn := 7, ppsValid := true, good := 3 })
     (bit s.chip.time.srcEn 0 && s.chip.time.ppsValid) = true ∧ (Work.of s).refreshSource.chooseSource = some .pps ∧
     (Work.of s).refreshSource.chip.time.st = .locked ∧ ((1_000_025 : Int) - ((Work.of s).refreshSource.now : Int)).natAbs ≤ 25 ∧
     25 < ((1_000_026 : Int) - ((Work.of s).refreshSource.now : Int)).natAbs ∧ (Work.of s).refreshSource.chooseSource ≠ some (.ptp 0)) ∧
    (let s := upWith (fun c => { c with eths := [(1, { Eth.zero with up := true })]
                                        time := { c.time with srcEn := 7, ptpPorts := 2, ptp := [(1, ⟨true, 0⟩)], nyl := [(47, ⟨true, 7, 0⟩)] } })
     (bit s.chip.time.srcEn 0 && s.chip.time.ppsValid) = false ∧ (Work.of s).choosePtp = some 1) ∧
    (let s := timeWith (fun t => { t with nyl := [(47, ⟨true, 7, 0⟩)], st := .acquiring, good := 3 })
     (Work.of s).choosePtp = none ∧ (Work.of s).chooseParent = some 47 ∧ (Work.of s).refreshSource.chooseSource = some (.nyulle 47) ∧
     (Work.of s).refreshSource.chip.time.st = .acquiring ∧ 3 ≤ (Work.of s).refreshSource.chip.time.good) ∧
    ((Work.of (timeWith id)).chooseParent = none ∧ (Work.of (timeWith id)).refreshSource.chooseSource = none ∧
     (timeWith (fun t => { t with st := .lost })).chip.time.st = .lost ∧ (Work.of (timeWith id)).ptpOk 0 = false) ∧
    (let s := timeWith (fun t => { t with ppsEdge := some 200_000_000_000, tod := some 1_000_000 })
     s.chip.time.ppsEdge = some 200_000_000_000 ∧ 500_000_000_000 ≤ s.chip.refPs - 200_000_000_000 ∧
     s.chip.refPs - 200_000_000_000 ≤ 1_500_000_000_000 ∧ s.chip.time.tod = some 1_000_000 ∧ s.chip.boot.lockkeeper = true ∧
     100_000_000_000 ≤ s.chip.refPs - 200_000_000_000 ∧ s.chip.refPs - 200_000_000_000 ≤ 900_000_000_000) ∧
    (let s := timeWith (fun t => { t with ppsEdge := some 200_000_000_001 })
     s.chip.refPs - 200_000_000_001 < 500_000_000_000 ∧ s.chip.time.tod = none) ∧
    ((timeWith id).chip.time.ppsEdge = none ∧ State.reset.chip.boot.lockkeeper = false ∧ State.reset.chip.boot.standbyActive = false) := by
  decide +kernel

/-- An image of version 2 for the module of `charter`, to be active at 2 ms, signed by two custodians; as a number, its first byte lowest. -/
def imageNat : Nat :=
  0x40000050000000000001e8480000000000000960000000000000000010000000000000002000005d8000000015254524148435648 +
  0x100000002000000440000000000000000300000380000000c000000000000000020000004000000080000000000000000100000000 * 2 ^ 480 +
  0xffffffffffffffffffffffffffffffffffffffffffffffffffffffffffffffff00000000000000050000008000000480 * 2 ^ 960 +
  0x14c7c9d370a726ab5383f33019a94d4f986b616a7398c84df197ff688bc3e7f000000000000000770000000000000100000000000000000000000000 * 2 ^ 1440 +
  0xf0275746472540b9fd8a58ff3b4160ada60b25d9331a07e98d2abc0b95574e995f375a01819e5206d9f26ae273dd98ce5d82a164b2260de8eb1882d8 * 2 ^ 1920 +
  0x417c6df9a3f0578bc31bf3a55a704cdc6dab7709d9490dcea5f5aa248ca5f64865d5834ca795296b00000000000000780000000000000101e561fa88 * 2 ^ 2400 +
  0x2234ec3c3ea61f42ce6068a960242b4d3a2fe24517e225a933482831234550eb22b1f266f8063158d7ce26a68f617f130bcf697c3d0c0e8e3 * 2 ^ 2880 +
  0x3000000000000000000000000000000000000000000000000000000000000000000000000000000000000000000000000 * 2 ^ 3840 +
  0x400000000000000000000000000000000000000000000000000000000000000000000000000000000 * 2 ^ 4800 +
  0x50000000000000000000000000000000000000000000000000000000000000000 * 2 ^ 5760 +
  0x6000000000000000000000000000000000000000000000000 * 2 ^ 6720 +
  0x700000000000000000000000000000000 * 2 ^ 7680 +
  0x100000000000020000000000100000000000000000000000000 * 2 ^ 8640 +
  0x300000000000000000000000000000000000000000000000f00000000000000000000000100000001000000000000000000000000 * 2 ^ 9120 +
  0x96003e8000003e800000064000003e800000064000000000000000100000002000000000000000200000000003f01010001ff000000000000000000 * 2 ^ 9600 +
  0x27f281a2ff2e63621ccdaa67705ff15ffe3d28b55d0be441000000000000000000000000000000020000000000000000000000000000000000000000 * 2 ^ 10080 +
  0x5a38a0ba6ad8f963e159549d27f281a2ff2e63621ccdaa67705ff15ffe3d28b55d0be44110774ebc43087cc4c4bafbef5a38a0ba6ad8f963e159549d * 2 ^ 10560 +
  0x625d7df7ad1c505d356c7cb1f0acaa4e77aae79279b2c8a0ba73dc0cdc884c6d7594a11014e886da000000000000000110774ebc43087cc4c4bafbef * 2 ^ 11040 +
  0x883ba75e21843e62625d7df7ad1c505d356c7cb1f0acaa4e77aae79279b2c8a0ba73dc0cdc884c6d7594a11014e886da883ba75e21843e62 * 2 ^ 11520
def imageBytes : List Byte := leBytes 1496 imageNat
/-- The two custodians, as the active charter enrols them. -/
def custodians : List Custodian :=
  [⟨0, 1, 0x92c2635643e968fca2912790a499e79564e5a4cec4ac650f6f91ea081ee172ff6f7f0d552059d68c21c25d14d5c84fa0,
    0x63e43bcdf1349b68a92cdf9b3fdba4a6bd15a639b0c3f5c607f460fcbd13c2b1f31d09080d09d36e5562542ddfa2d62c⟩,
   ⟨1, 2, 0xf4aa46c468eecf4b71ce55874d8f4395ff09f07a528f406e8268bb47aec6b72a9f9ba42301c74c5de05891aef6686c96,
    0x2061f7c8d5bebe8861afa183764517fccdf82236019123078fb7be7a33eabb8767052b2f8630b6b2ae014807d72056d⟩]

/-! ## The charter and bring-up -/

def chtWith (f : ChtUnit → ChtUnit) : State := upWith (fun c => { c with cht := f c.cht })
/-- The module whose active charter enrols them verifies that image. -/
def loading : State :=
  chtWith (fun u => { u with active := some { charter with custodians := custodians }, verifying := some imageBytes })

theorem test_image_accepted : (match (Work.of loading).verify .load imageBytes with
    | .ok c => c.activateAt == 2_000_000 | .error _ => false) = true := by decide +kernel
theorem test_image_rejected : (match (Work.of loading).verify .load (imageBytes.drop 1) with
    | .ok _ => false | .error e => e == 0x10) = true := by decide +kernel

theorem test_meets_Charters :
    (RegOpen State.reset 0 (chtBase + 0x10) true ∧ State.reset.chip.cht.active = none ∧ RegOpen loading 0 (chtBase + 0x10) true) ∧
    (let s := chtWith (fun u => { u with loadAddr := 0x4_0000_0000, loadLen := 64 })
     s.chip.cht.active ≠ none ∧ s.chip.cht.verifying = none ∧ s.chip.cht.staged = none ∧
     (Work.of s).imageReachable 0 (s.chip.cht.loadAddr.toNat * 64) s.chip.cht.loadLen.toNat = true ∧
     (Work.of s).imageReachable 2 (s.chip.cht.loadAddr.toNat * 64) s.chip.cht.loadLen.toNat = false) ∧
    (loading.chip.cht.verifying = some imageBytes ∧ loading.chip.time.orders.length < 4096 ∧
     (chtWith (fun u => { u with staged := some ([], charter) })).chip.cht.staged = some ([], charter)) ∧
    (let s := chtWith (fun u => { u with parts := [1, 2] })
     s.chip.boot.lockkeeper = true ∧ (2 : W32).toNat = s.chip.cht.parts.length ∧ (3 : W32).toNat ≠ s.chip.cht.parts.length) ∧
    (let o := order 3 1_000_000 0 0 none
     let s := upWith (fun c => { c with cht := { c.cht with staged := some ([], charter) }, time := { c.time with orders := [(7, o)] } })
     s.chip.time.orders.find? (fun e => e.2.action = 3 && e.2.began.isNone) = some (7, o) ∧ (Work.of s).startable 7 3 = some o) ∧
    (SMap.look charter.pounds 0 = some cfg ∧ SMap.look charter.pounds 1 = none ∧ sameSet (charter.reached 0) (charter.reached 0) = true ∧
     cfg.structure_ ≠ { cfg with tileMask := 1 }.structure_) := by
  unfold RegOpen HartFree; decide +kernel

def poundWith (f : Pound → Pound) (g : ChtUnit → ChtUnit) : State :=
  upWith (fun c => { c with pounds := [(0, f pound0)], cht := g c.cht, boot := { c.boot with settled := BitVec.allOnes 11 } })

theorem test_meets_PoundRestarts :
    (let s := poundWith (fun x => { x with st := .draining, goal := some (some cfg, []) }) id
     ((Work.of s).pound 0).goal = some (some cfg, []) ∧ ((Work.of s).sqsOf 0).any (Work.of s).sqBusy = false) ∧
    (let s := upWith (fun c => { c with pounds := [(0, { pound0 with goal := some (some cfg, []) })]
                                        sqs := [(0, { Sq.zero with cmds := [started (op 0 [])] })] })
     ((Work.of s).sqsOf 0).any (Work.of s).sqBusy = true) ∧
    (let s := poundWith (fun x => { x with st := .starting }) (fun u => { u with restarting := [0] })
     ((Work.of s).pound 0).cfg = some cfg ∧ ((Work.of s).pound 0).st = .starting ∧ s.chip.cht.restarting.contains 0 = true ∧
     s.chip.cht.deferred.contains 0 = false ∧ ((Work.of s).pound 0).goal = none) ∧
    (let s := poundWith (fun x => { x with st := .scrubbing }) id
     ((Work.of s).pound 0).st = .scrubbing ∧ (∀ u ∈ s.chip.cht.scrubs, u.new ≠ some 0) ∧ (Work.of s).mapPending = false) ∧
    (let s := poundWith (fun x => { x with st := .starting }) id
     (Work.of s).classesSettled cfg ((Work.of s).pound 0).regs = true ∧ (Work.of s).resourceLost cfg ((Work.of s).pound 0).regs = true ∧
     (Work.of (poundWith id id)).classesSettled cfg [] = true ∧ (Work.of (upWith id)).classesSettled cfg [] = false) ∧
    (let s := upWith (fun c => { c with boot := { c.boot with settled := BitVec.allOnes 11 }, pounds := [(0, { pound0 with st := .starting })]
                                        tiles := [0, 1, 2, 3].map (fun k => (k, { Tile.reset k with st := .idle })) })
     (Work.of s).resourceLost cfg ((Work.of s).pound 0).regs = false ∧ ((Work.of s).pound 0).selfResetAfter = none ∧
     ((Work.of s).pound 0).held = false) := by
  decide +kernel

def bootWith (f : Boot → Boot) : State := after (fun c => { c with boot := f c.boot })

theorem test_meets_BringUp :
    (State.reset.chip.boot.step = 0 ∧ State.reset.chip.boot.powered = true ∧ State.reset.chip.boot.host0 = false ∧
     State.reset.chip.boot.uncorePhase1 = false ∧ State.reset.chip.boot.lockkeeper = false ∧ ((Work.of State.reset).srt 0).a.st ≠ .failed) ∧
    (let s := bootWith (fun b => { b with step := 1, fwVerified := 0b0111 })
     s.chip.boot.step = 1 ∧ s.chip.boot.fwFailed = false ∧ bit s.chip.boot.fwVerified 3 = false ∧ setBit s.chip.boot.fwVerified 3 true = 0xF ∧
     setBit (0b0101 : BitVec 4) 3 true ≠ 0xF) ∧
    (let s := bootWith (fun b => { b with step := 2 })
     s.chip.boot.step = 2 ∧ (Work.of s).srtSettled 8 = false ∧ (Work.of s).dieOut 5 = false) ∧
    (let s := bootWith (fun b => { b with step := 3 })
     s.chip.boot.step = 3 ∧ s.chip.cht.booted = false ∧ s.chip.cht.active = none ∧ (Work.of s).lpdSettled 31 = false) ∧
    (let s := bootWith (fun b => { b with step := 5 })
     s.chip.boot.step = 5 ∧ s.chip.boot.host0 = false ∧ bit s.chip.boot.settled 4 = false ∧ (Work.of s).dieOut (4 + 95 / 48) = false ∧
     ((Work.of s).hart 95).st = .inReset) ∧
    (let s := upWith (fun c => { c with boot := { c.boot with hartCtl := [(1, ⟨.ready, 0⟩)] } })
     RegOpen s 0 (hartCtlOff 1) true ∧ (Work.of s).mayStart 0 1 = true ∧ ((Work.of s).hart 1).st = .ready ∧ (Work.of s).mayStart 2 1 = false) := by
  unfold RegOpen HartFree; decide +kernel

/-! ## Resets and power -/

theorem test_meets_SelfResets :
    (let s := poundWith id id
     RegOpen s 0 (poundCtrlOff 0) ((Work.of s).isPound 0 0) ∧ RegOpen s 1 (beatOff 0) ((Work.of s).isPound 1 0) ∧ ((Work.of s).pound 0).held = false ∧
     ((Work.of s).pound 0).selfResetAfter = none ∧ ((Work.of s).pound 0).cfg ≠ none ∧ ((Work.of s).pound 0).st = .running ∧
     ∀ p, p < 16 → ((Work.of s).pound p).armed = false) ∧
    (let s := upWith (fun c => { c with pounds := [(0, { pound0 with st := .waitingOwner, held := true, armed := true })]
                                        sqs := [(0, { Sq.zero with st := .held })] })
     ((Work.of s).pound 0).st = .waitingOwner ∧ (Work.of s).sqsOf 0 = [0] ∧ ((Work.of s).sq 0).st = .held ∧ ((Work.of s).pound 0).armed = true) ∧
    (let s := upWith (fun c => { c with pounds := [(0, { pound0 with st := .waitingOwner })] })
     ∀ q ∈ (Work.of s).sqsOf 0, ((Work.of s).sq q).st ≠ .held) ∧
    (let s := upWith (fun c => { c with pounds := [(0, { pound0 with st := .scrubbing, armed := true })], refPs := 500_000_000_001 })
     (∀ q, q < 16 → q ≠ 0 → ((Work.of s).pound q).cfg = none) ∧ ((Work.of s).pound 0).cfg = some cfg ∧ ((Work.of s).pound 0).armed = true ∧
     ((Work.of s).pound 0).lastBeat + cfg.beatMs * 1_000_000_000 < s.chip.refPs) ∧
    (let x := (Work.of (poundWith (fun x => { x with selfReset := true, st := .draining }) id)).pound 0
     x.selfReset = true ∧ x.st = .draining ∧ x.goal = none) := by
  unfold RegOpen HartFree; decide +kernel

theorem test_meets_ResetsAndPins :
    (let s := upWith id
     RegOpen s 0 0x18 true ∧ (Work.of s).mayReset 0 = true ∧ (Work.of s).mayReset 2 = false ∧ (Work.of s).warmAllowed = true ∧ (Work.of s).up = true ∧
     s.chip.boot.cacheLost = false ∧ s.chip.boot.powered = true ∧ s.chip.boot.resetLow = false ∧ s.chip.boot.uncorePhase1 = false) ∧
    ((upWith (fun c => { c with boot := { c.boot with cacheLost := true, uncorePhase1 := true } })).chip.boot.cacheLost = true ∧
     (upWith (fun c => { c with boot := { c.boot with waits := 1 } })).chip.boot.waits ≠ 0 ∧ (Work.of State.reset).up = false) ∧
    (let s := upWith (fun c => { c with cht := { c.cht with active := some { charter with debugBits := [0xF] } } })
     let d := (Work.of s).debugPath (.hostCore 0)
     d.1 = some 0 ∧ bit (({ charter with debugBits := [0xF] } : Charter).debugBits.getD 0 0) d.2 = true ∧
     ((Work.of (upWith id)).debugPath (.hostCore 5)).1 = none) := by
  unfold RegOpen HartFree; decide +kernel

def powWith (f : PoundPower → PoundPower) (g : Power → Power) : State :=
  upWith (fun c => { c with pwr := g { c.pwr with pounds := [(0, f { PoundPower.reset with freqMhz := 2000 })] } })

theorem test_meets_OperatingPoints :
    (let s := upWith (fun c => { c with pwr := { c.pwr with pounds := [(0, { PoundPower.reset with freqMhz := 2000 })] }
                                        time := { c.time with orders := [(1, order 1 1_000_000 0 1975 none)] } })
     ((Work.of s).ppow 0).seqTo = none ∧ (Work.of s).startable 1 1 = some (order 1 1_000_000 0 1975 none) ∧ (Work.of s).startable 2 1 = none ∧ ((Work.of s).ppow 0).seqOrder = none ∧
     ((Work.of s).ppow 0).freqMhz ≠ 1975 ∧ (Work.of s).pwrNormal = true ∧ (Work.of s).locked = true ∧ (Work.of s).windowBusy 0 = false) ∧
    (let x := (Work.of (powWith (fun x => { x with seqTo := some 1975, seqOrder := some 1, stepMhz := 1975 }) id)).ppow 0
     x.seqTo = some 1975 ∧ x.stepHeld = false ∧ x.stepMhz = 1975 ∧ x.seqOrder = some 1) ∧
    (let x := (Work.of (powWith (fun x => { x with seqTo := some 2400, stepMhz := 2025 }) id)).ppow 0
     x.seqTo ≠ none ∧ x.stepMhz ≠ 2400) ∧
    (let s := upWith (fun c => { c with pwr := { c.pwr with pounds := [(0, { PoundPower.reset with freqMhz := 2000, seqTo := some 2400 })] }
                                        time := { c.time with orders := [(1, order 1 1_000_000 0 1975 none)] } })
     (Work.of s).startable 1 1 = some (order 1 1_000_000 0 1975 none) ∧ ((Work.of s).ppow 0).seqTo ≠ none ∧ (Work.of s).pwrNormal = true) ∧
    ((tileOf tileState 0).phys.stretched = false ∧ (Work.of tileState).tileOwner 0 = some 0 ∧ (Work.of tileState).tileOwner 4 = none) ∧
    (let s := tileWith (fun x => { x with phys := { x.phys with stretched := true } })
     (tileOf s 0).phys.stretched = true ∧ ∃ e ∈ s.chip.tiles, e.2.phys.stretched = true ∧ (Work.of s).tileOwner e.1 = some 0) ∧
    (let w := Work.of (powWith id (fun p => { p with coreMhz := [(0, 3000)] }))
     w.pwrNormal = true ∧ w.coreMhz 0 < max 1200 (min (min 3600 (w.hostMax 0)) 3600 / 100 * 100) ∨
       max 1200 (min (min 3600 (w.hostMax 0)) 1200 / 100 * 100) < w.coreMhz 0) := by
  decide +kernel

def sample : PowerSample :=
  { demandW := 1000, rampW := 0, estimatedW := 900, measuredW := 910, average10W := 900, ballastMj := 0, ballastOk := true, shares := List.replicate 16 0, fits := List.replicate 16 0, railAmps := List.replicate 4 0 }

theorem test_meets_PowerLimits :
    (let w := Work.of (upWith id)
     w.chip.boot.lockkeeper = true ∧ w.locked = true ∧ w.argOk 0x3FF = true ∧ (Work.of State.reset).locked = false ∧
     w.argOk 0 = true ∧ w.argOk 1 = false ∧ State.reset.chip.boot.lockkeeper = false) ∧
    (let s := upWith (fun c => { c with time := { c.time with orders := [(1, order 2 1_000_000 0 0 none)] } })
     (Work.of s).startable 1 2 = some (order 2 1_000_000 0 0 none) ∧ s.chip.pwr.capOrder = none) ∧
    (let w := Work.of (upWith id)
     (w.diePow 0).st = 0 ∧ (w.diePow 0).cool ≠ 9 ∧ w.pwrNormal = true ∧ w.chip.pwr.mode ≠ .refLost ∧ w.chip.boot.refOk = true ∧
     w.chip.boot.resetLow = false ∧ w.chip.pwr.measOnly = false) ∧
    (let p := { Power.reset with mode := .divided, divided := false, dies := [(0, { DiePower.zero with st := 1, cool := 9 })], ballastOn := true,
                                 measOnly := true, onMs := 999 }
     p.mode = .divided ∧ p.divided = false ∧ p.brakeLow = false ∧ p.alerts = [] ∧ 1000 ≤ p.onMs + 1) ∧
    (let s := tileWith (fun x => { x with st := .idle })
     (tileOf s 0).array.feed = none ∧ (tileOf s 0).array.queue = [] ∧ (tileOf s 0).array.chains = [] ∧ (tileOf s 0).st = .idle ∧
     (Work.of s).holdsSample 0 = false) ∧ sample.wellFormed = true := by
  decide +kernel

/-! ## Groups, retraining, exchanges, the ring -/

/-- Pound 0 is the one member of a frequency group of this module, its epoch at 1 ms runs, and its record of that epoch is on its board. -/
def fgState : State :=
  let s := upWith (fun c => { c with
    pwr := { c.pwr with pounds := [(0, { PoundPower.reset with fg := .member, fgValid := true, members := [5], rank := 0, fgDesc := 1 })] }
    time := { c.time with orders := [(1, order 8 1_000_000 0 0 (some 1_000_000)), (2, order 8 1_000_000 0 0 none)] } })
  let a := 0x100_0000_0000 + ((Work.of s).ppow 0).boardOff
  { s with mem := ((s.mem.perform1 (.bytes a (fgRecord 1 2000 0 1))).perform1 (.bytes (a + 0x1000) (fgRecord 1 2000 0 1))).perform1
                    (.bytes (a + 0x1800) (fgRecord 1 2000 0 1)) }

theorem test_meets_FrequencyGroups :
    (let s := fgState
     let w := Work.of s
     RegOpen s 0 (pwrBase + 0x110) (w.isPound 0 0) ∧ w.startable 2 8 = some (order 8 1_000_000 0 0 none) ∧ w.startable 1 8 = none ∧
     w.epochOrder 0 = some (1, order 8 1_000_000 0 0 (some 1_000_000)) ∧ (w.ppow 0).isMember = true ∧ (w.ppow 0).rank % 256 = 0 ∧
     (∀ j, j < 1 → ∃ r ∈ w.current 0 0 1 1, r.1 = j) ∧ leastOf (w.current 0 0 1 1) = some (2000, 1) ∧
     leastOf (w.current 0 0x1000 1 1) = some (2000, 1) ∧ (w.boardRecord 0 0x1800).map (·.1) = some 1 ∧ (w.boardRead 0 0x1800).isSome = true) ∧
    ((Work.of (upWith id)).epochOrder 0 = none ∧ ((Work.of (upWith id)).ppow 0).isMember = false ∧ bit (0 : W64) 0 = false) := by
  unfold RegOpen HartFree; decide +kernel

theorem test_meets_RetrainingAndMemoryErrors :
    (let s := upWith (fun c => { c with
       time := { c.time with orders := [(1, order 4 1_000_000 0 255 none)] }
       hbm := [(255, { Channel.zero with training := some 1, consec := 1 })]
       slices := [(127, { Slice.zero with st := .recovery, recoverAt := some 5 })] })
     let w := Work.of s
     w.mapped.contains 255 = true ∧ (s.chip.time.orders.filter (fun e => e.2.action = 4)).length < 16 ∧
     w.startable 1 4 = some (order 4 1_000_000 0 255 none) ∧ (w.hbmCh 255).health ≠ 2 ∧ (w.hbmCh 255).training = some 1 ∧
     min 2 ((w.hbmCh 255).consec + 1) = 2 ∧ (w.hbmCh 255).health = 0 ∧ (w.hbmCh 0).training = none ∧ (w.slice 127).recoverAt ≠ none ∧
     (w.slice 127).st = .recovery ∧ (w.slice 0).recoverAt = none) ∧
    (Work.of State.reset).mapped.contains 0 = false ∧
    (let w := Work.of (upWith (fun c => { c with lpd := [(0, { Channel.zero with mapped := true })] }))
     w.dead 0x100_0000_0000 = false ∧ w.place 0x100_0000_0000 = .hbm 0 ∧ w.place 0x7_FFFF_FFFF = .lpd 0 0x7_FFFF_FFFF ∧
     w.place 0x200_6000_0000 = .vacant ∧ w.mem.poisoned 0 = false ∧ (rsRead (w.correcting 0) (w.mem.read 0 32) [] false).2 = .good ∧
     w.sectorAt 0x100_0000_0000 = none) ∧
    (Work.of (upWith (fun c => { c with slices := [(0, { Slice.zero with sectors := [(0x2_0000_0000, ⟨0, true, 0, none⟩)] })] }))).sectorAt
      0x100_0000_0000 = some ⟨0, true, 0, none⟩ ∧
    (let w := Work.of (upWith (fun c => { c with slices := [(0, { Slice.zero with sectors := [(0x2_0000_0000, ⟨0, false, 0, none⟩)] })] }))
     let bad := w.readWord (.channel false (w.hbmAt 0).1) (0x100_0000_0000 / 32) [(0, 1), (1, 1), (2, 1)] true
     w.sectorAt 0x100_0000_0000 = some ⟨0, false, 0, none⟩ ∧ w.mem.poisoned (0x100_0000_0000 / 32) = false ∧
     bad.mem.poisoned (0x100_0000_0000 / 32) = true) := by
  decide +kernel

/-- Tile 0 runs and its exchange with spare 144 is due. -/
def exchangeState (f g : Tile → Tile) : State :=
  upWith (fun c => { c with tiles := [(0, f { Tile.reset 0 with st := .idle, exDue := some .quarantine }), (144, g { Tile.reset 144 with st := .spare })] })

theorem test_meets_AuditsAndExchanges :
    ((Work.of (upWith id)).locked = true ∧
     ∀ k ∈ dieIndices 0, (Work.of (upWith id)).auditCandidate k = false ∧ (tileOf (upWith id) k).st ≠ .audit) ∧
    (let s := upWith (fun c => { c with tiles := [(0, { Tile.reset 0 with exDue := some .audit, phys := { PhysTile.reset 0 0 with audDue := 1 } })]
                                        time := { c.time with nowPs := 200 * 3_600_000_000_000_000 } })
     (tileOf s 0).phys.audDue ≠ 0 ∧ (tileOf s 0).phys.audDue.toNat + (Work.of s).overdueAfter 0 ≤ (Work.of s).now ∧
     (tileOf s 0).phys.overdue = false ∧ (Work.of s).locked = true ∧ (tileOf s 0).exDue = some .audit) ∧
    (let s := exchangeState (fun x => { x with exDue := none, phys := { x.phys with audDue := 1, overdue := true, due := true } }) id
     let w := Work.of s
     w.locked = true ∧ (dieIndices 0).filter w.auditCandidate = [0] ∧ w.auditBusy 0 = false ∧ (w.lowestSpare 0).isSome = true ∧
     sortBy (fun k => (w.tile k).phys.audDue.toNat) [0] = [0] ∧ (w.tile 0).phys.overdue = true) ∧
    (let s := upWith (fun c => { c with tiles := [(144, { Tile.reset 144 with st := .spare })]
                                        time := { c.time with orders := [(1, order 5 1_000_000 0 144 none)] } })
     (Work.of s).startable 1 5 = some (order 5 1_000_000 0 144 none) ∧ (Work.of s).serves 144 = false ∧ (tileOf s 144).st = .spare) ∧
    (let x := fun (n f : Nat) => { PhysTile.reset 0 0 with auditPhase := n, failPhase := f }
     (x 1 0).auditPhase = 1 ∧ 2 ≤ (x 4 0).auditPhase ∧ (x 4 0).auditPhase ≤ 4 ∧ (x 5 0).auditPhase = 5 ∧ (x 5 0).auditOrder = none ∧
     (x 5 0).failPhase = 0 ∧ (x 5 2).failPhase ≠ 0) ∧
    (let s := tileWith (fun x => { x with exDue := some .quarantine, phys := { x.phys with attempts := 1 } })
     (tileOf s 0).st = .running ∧ (tileOf s 0).halted = false ∧ (tileOf s 0).phys.attempts ≠ 0) ∧
    (let s := exchangeState id id
     s.chip.samples = [] ∧ (tileOf s 0).st = .idle ∧ (tileOf s 0).exDue = some .quarantine ∧
     ((Work.of s).sparesOf (tileDie 0)).contains 144 = true ∧ (Work.of s).serves 144 = false ∧ (tileOf s 144).heldWrites = [] ∧
     (Work.of s).lowestSpare (tileDie 0) = some 144 ∧
     (Work.of s).mayExchange 0 = true ∧ (tileOf s 0).portsQuiet = true ∧ (tileOf s 144).portsQuiet = true ∧ (tileOf s 0).heldWrites = [] ∧
     (Work.of (upWith id)).mayExchange 0 = false) ∧
    (let s := exchangeState (fun x => { x with st := .exchanging, exWith := some 144, exDue := some .audit }) (fun y => { y with st := .exchanging })
     (tileOf s 0).st = .exchanging ∧ (tileOf s 0).exWith = some 144 ∧ (tileOf s 0).exDue ≠ some .quarantine) ∧
    (let s := exchangeState (fun x => { x with st := .exchanging, exWith := some 144 }) (fun y => { y with st := .exchanging })
     (tileOf s 0).st = .exchanging ∧ (tileOf s 0).exWith = some 144 ∧ (tileOf s 0).exDue = some .quarantine ∧
     (Work.of s).tileOwner 0 = some 0) ∧
    (let s := upWith (fun c => { c with tiles := [(144, { Tile.reset 144 with st := .audit })] })
     let w := Work.of s
     (dieIndices 0).filter w.auditCandidate = [] ∧ (tileOf s 144).phys.auditPhase = 0 ∧
     (dieIndices 0).find? (fun k => (w.tile k).st = .audit && (w.tile k).phys.auditPhase = 0 &&
       !w.chip.time.orders.any (fun e => e.2.action = 5 && e.2.arg = k)) = some 144) ∧
    (let s := tileWith (fun x => { x with halted := true, exDue := some .audit })
     (tileOf s 0).halted = true) := by
  decide +kernel

theorem test_may_exchange_running : (Work.of (exchangeState (fun x => { x with st := .running }) id)).mayExchange 0 = true := by decide +kernel

def smp (a : Option Nat) (d : Bool) : Sample :=
  { source := 0, checker := 144, arbiter := a, chain := chain0, captured := some ⟨[], [], LedgerSlot.zero, [], [], 0, [], []⟩, disputed := d,
    stamp := 0, sq := 0, seq := 1, outBase := 0, pound := 0 }
def ringWith (f : Rolls → Rolls) : State := upWith (fun c => { c with rolls := f { c.rolls with base := 0x1000_0000, log2 := 6 } })

theorem test_meets_CollationAndRing :
    (let s := upWith (fun c => { c with samples := [smp none false] })
     s.chip.samples.find? (fun y => y.checker = 144 && y.captured.isSome && !y.disputed) = some (smp none false) ∧
     (Work.of s).disputed? 0 = none) ∧
    (Work.of (upWith (fun c => { c with samples := [smp (some 145) true] }))).disputed? 0 = some (smp (some 145) true) ∧
    (Work.of (upWith (fun c => { c with samples := [smp none true] }))).disputed? 0 = some (smp none true) ∧
    (let s := ringWith id
     RegOpen s 0 (fltBase + 8) true ∧ RegOpen s 0 (fltBase + 0x18) true ∧ s.chip.rolls.enable = false ∧ (Work.of s).ringRegion 0 = some 0 ∧
     (Work.of s).ringRegion 2 = none ∧ bit (1 : W64) 0 = true) ∧
    (let s := ringWith (fun f => { f with enable := true, owner := 0, head := 3, tail := 1 })
     (Work.of s).coreOwner 0 = some s.chip.rolls.owner ∧ (Work.of s).coreOwner 2 ≠ some s.chip.rolls.owner ∧
     ((3 : W32) - s.chip.rolls.tail).toNat ≤ (s.chip.rolls.head - s.chip.rolls.tail).toNat ∧
     (s.chip.rolls.head - s.chip.rolls.tail).toNat < ((4 : W32) - s.chip.rolls.tail).toNat) := by
  unfold RegOpen HartFree; decide +kernel

/-! ## Homes -/

/-- First line of HBM, whose home is home 0. -/
def hl : Nat := 0x2_0000_0000
def dl : L2Line := { st := .m, data := 0, poison := 0, l1i := none, l1d := none, way := 0, prefetched := none }
def txn0 : Txn :=
  { kind := .rdUnique, agent := 1, op := .read, waiting := [], needAck := false, acked := false, dirty := false, supplied := false
    joined := none, waitWb := false, tokens := none, granted := .i }
def wb0 : Txn := { txn0 with kind := .wbReq, agent := 0, waitWb := true }
/-- A message between home 0 and agent a about that line. -/
def msg (k : MsgKind) (a : Nat) (r : MsgKind) : Msg :=
  { kind := k, home := 0, agent := a, line := hl, req := r, st := .i, src := if k.fromHome then 0 else agentDie a
    dst := if k.fromHome then agentDie a else 0, vc := 0, poison := 0 }
def homeWith (f : Home → Home) (g : Chip → Chip) : State := upWith (fun c => g { c with homes := [(0, f Home.zero)] })
/-- Home 0 with open transactions, and messages on the network. -/
def netWith (ts : List Txn) (ms : List Msg) : State :=
  homeWith (fun x => { x with txns := ts.map (fun t => (hl, t)) }) (fun c => { c with net := ms })
def quiet : Nature := { errors := [], tagFixed := none, dirFixed := false, tagLost := false, dirLost := false }
def req (k : MsgKind) : Req := { home := 0, line := hl, agent := 0, kind := k, op := .read, nature := quiet }
def waiter (a : Nat) (g : Bool) : RetryEntry := { kind := .rdShared, agent := a, line := hl, granted := g }

theorem test_request_arrives : (req .zeroLine).arrives (homeWith id id) ∧ (req .rdVol).arrives (homeWith id id) := by
  unfold Req.arrives; decide +kernel

theorem test_meets_HomeRequests :
    reqOf (.zeroline 0 0 ⟨BitVec.ofNat 49 hl, quiet⟩) = some (req .zeroLine) ∧
    (let w := (req .zeroLine).at_ (homeWith (fun x => { x with retry := [waiter 0 true] }) id)
     (w.home 0).retry.find? (fun e => e.granted && e.agent = 0 && e.line = hl) = some (waiter 0 true)) ∧
    (let w := (req .rdShared).at_ (homeWith id id)
     w.txn? 0 hl = none ∧ (w.home 0).free 0 = true ∧ (w.home 0).retry = [] ∧ w.needsTokens 0 hl 0 .rdShared .read = none ∧
     (snoopsFor .rdUnique (w.dirAt hl) 0 = []) ∧ (w.dirAt hl).st = .i ∧ (w.dirAt hl).present = 0) ∧
    (let w := (req .rdVol).at_ (homeWith id (fun c => { c with slices := [(0, { Slice.zero with st := .active })] }))
     w.txn? 0 hl = none ∧ (w.home 0).retry = [] ∧ (w.home 0).free 0 = true ∧
     w.needsTokens 0 hl 0 .rdVol .read = some (0, false) ∧ w.waitingTokens 0 0 < 16 ∧ MsgKind.rdVol ≠ .rdPref) ∧
    (let w := (req .rdShared).at_ (homeWith (fun x => { x with retry := [waiter 1 false] }) id)
     w.txn? 0 hl = none ∧ (∃ e ∈ (w.home 0).retry, e.granted = false ∨ e.line = hl)) ∧
    (let w := (req .rdShared).at_ (netWith [wb0] [])
     w.txn? 0 hl = some wb0 ∧ wb0.kind = .wbReq ∧ wb0.joined = none ∧ (w.home 0).retry = []) ∧
    (let w := (req .rdShared).at_ (netWith [txn0] [])
     w.txn? 0 hl = some txn0 ∧ txn0.kind ≠ .wbReq) ∧
    (let w := Work.of (homeWith (fun x => { x with dir := [(hl, ⟨.em, 1, 2⟩)] }) id)
     snoopsFor .rdUnique (w.dirAt hl) 0 = [(1, .snpUnique)] ∧ bit (w.dirAt hl).present (w.dirAt hl).owner = true ∧
     (w.dirAt hl).st = .em ∧ txn0.dirty = false ∧ ({ txn0 with dirty := true } : Txn).dirty = true ∧ (w.dirAt hl).owner ≠ 0 ∧
     setBit (w.dirAt hl).present 1 false = 0) ∧
    (let w := Work.of (homeWith (fun x => { x with dir := [(hl, ⟨.o, 1, 6⟩)] }) id)
     (w.dirAt hl).st = .o ∧ setBit (w.dirAt hl).present 1 false ≠ 0) ∧
    (let w := Work.of (homeWith (fun x => { x with dir := [(hl, ⟨.s, 0, 6⟩)] }) id)
     (w.dirAt hl).st = .s ∧ w.chip.net = [] ∧ txn0.supplied = false) ∧
    ((∀ k, k = .rdShared ∨ k = .rdUnique ∨ k = .upgrade ∨ k = .cleanLine ∨ k = .rdVol → ({ txn0 with kind := k } : Txn).kind = k) ∧
     ({ txn0 with kind := .wrPlain, op := .write 1 0 } : Txn).op = .write 1 0 ∧
     ({ txn0 with kind := .atomic, op := .atomic .add 0x100_0000_0000 .b4 0 0 } : Txn).op = .atomic .add 0x100_0000_0000 .b4 0 0) := by
  refine ⟨rfl, by decide +kernel, by decide +kernel, by decide +kernel, by decide +kernel, by decide +kernel, by decide +kernel,
    by decide +kernel, by decide +kernel, by decide +kernel, ?_, rfl, rfl⟩
  intros; rfl

theorem test_meets_SnoopsAndAnswers :
    (let s := homeWith id (fun c => { c with cores := [(0, { HostCore.reset with lrHold := true, resv := some hl })] })
     (coreOf s 0).lrHold = true ∧ (coreOf s 0).resv = some (BitVec.ofNat 49 hl).toNat ∧ (coreOf s 1).lrHold = false) ∧
    (let s := netWith [txn0] [msg .snpUnique 1 .rdUnique]
     (Work.of s).arrived .snpUnique 0 1 hl = true ∧ ((Work.of s).receive .snpUnique 0 1 hl).1 = some (msg .snpUnique 1 .rdUnique) ∧
     (Work.of s).arrived .snpUnique 0 2 hl = false) ∧
    (let t := { txn0 with waiting := [0, 2] }
     let s := netWith [t] [msg .snpResp 0 .rdUnique]
     let w := ((Work.of s).receive .snpResp 0 0 hl).2
     (Work.of s).arrived .snpResp 0 0 hl = true ∧ w.txn? 0 hl = some t ∧ 0 ∈ t.waiting ∧ without t.waiting 0 ≠ [] ∧
     without [0] 0 = [] ∧ w.dataComing 0 hl = false ∧ (netWith [t] [msg .snpData 1000 .rdUnique]).chip.net.any
       (fun m => m.is .snpData 0 (0 + 1000) hl) = true) ∧
    (let t := { txn0 with needAck := true }
     let s := netWith [t] [msg .compAck 1 .compAck]
     (Work.of s).arrived .compAck 0 1 hl = true ∧ ((Work.of s).receive .compAck 0 1 hl).2.txn? 0 hl = some t ∧
     t.agent = (1 : AgentId).val ∧ t.waitWb = false ∧ (wb0.waitWb = true)) ∧
    (let s := netWith [txn0] [msg .dataResp 1 .rdUnique]
     (Work.of s).arrived .dataResp 0 1 hl = true ∧ ((Work.of s).receive .dataResp 0 1 hl).1 = some (msg .dataResp 1 .rdUnique)) ∧
    (let s := netWith [txn0] [msg .snpData 1000 .rdUnique]
     let w := ((Work.of s).receive .snpData 0 1000 hl).2
     (Work.of s).arrived .snpData 0 1000 hl = true ∧ w.txn? 0 hl = some txn0 ∧ txn0.waiting = [] ∧ txn0.needAck = false ∧
     txn0.waitWb = false ∧ txn0.tokens = none ∧ w.dataComing 0 hl = false) ∧
    (let s := netWith [txn0] [msg .snpData 1 .rdUnique]
     (Work.of s).arrived .snpData 0 1 hl = true ∧ ((Work.of s).receive .snpData 0 1 hl).2.txn? 0 hl = some txn0 ∧
     txn0.agent = (1 : CoreId).val) ∧
    (∀ m ∈ [msg .comp 0 .zeroLine, msg .comp 1 .upgrade, msg .comp 96 .wrPlain, msg .retry 0 .rdShared, msg .noData 0 .rdPref],
     (Work.of (netWith [] [m])).arrived m.kind 0 m.agent hl = true ∧ ((Work.of (netWith [] [m])).receive m.kind 0 m.agent hl).1 = some m) ∧
    (let s := homeWith (fun x => { x with retry := [waiter 1 true] }) (fun c => { c with net := [msg .grant 1 .rdShared] })
     (Work.of s).arrived .grant 0 1 hl = true ∧
     (((Work.of s).receive .grant 0 1 hl).2.home 0).retry.find? (fun e => e.granted && e.agent = 1 && e.line = hl) = some (waiter 1 true)) ∧
    (let s := homeWith (fun x => { x with dir := [(hl, ⟨.em, 0, 1⟩)] }) (fun c => { c with net := [msg .wbReq 0 .wbReq] })
     let w := ((Work.of s).receive .wbReq 0 0 hl).2
     (Work.of s).arrived .wbReq 0 0 hl = true ∧ (Work.of s).lineHome hl = 0 ∧ (Work.of s).homeOf (hl * 128) ≠ none ∧ (w.home 0).retry = [] ∧
     w.txn? 0 hl = none ∧ (w.home 0).free 0 = true ∧
     (w.dirAt hl).st = .em ∧ (w.dirAt hl).owner = (0 : CoreId).val ∧ (w.dirAt hl).owner ≠ (1 : CoreId).val ∧
     ((Work.of (netWith [txn0] [])).receive .wbReq 0 0 hl).2.txn? 0 hl ≠ none) ∧
    (let s := homeWith (fun x => { x with retry := [{ waiter 0 true with kind := .wbReq }], dir := [(hl, ⟨.em, 0, 1⟩)] })
       (fun c => { c with net := [msg .wbReq 0 .wbReq] })
     (((Work.of s).receive .wbReq 0 0 hl).2.home 0).retry.find? (fun r => r.granted && r.agent = 0 && r.line = hl) =
       some { waiter 0 true with kind := .wbReq }) ∧
    (let s := homeWith (fun x => { x with txns := [(hl, wb0)] }) (fun c => { c with
       net := [msg .wbGo 0 .wbReq], cores := [(0, { HostCore.reset with evict := [⟨hl, .m, 0, 0⟩] })] })
     (Work.of s).arrived .wbGo 0 0 hl = true ∧ (∃ y ∈ (((Work.of s).receive .wbGo 0 0 hl).2.core 0).evict, y.line = hl) ∧
     (Work.of (netWith [] [msg .wbCancel 0 .wbReq])).arrived .wbCancel 0 0 hl = true) ∧
    (let s := netWith [wb0] [msg .wbData 0 .wbReq]
     (Work.of s).arrived .wbData 0 0 hl = true ∧ ((Work.of s).receive .wbData 0 0 hl).2.txn? 0 hl = some wb0 ∧ wb0.joined = none ∧
     wb0.kind = .wbReq ∧ wb0.waitWb = true ∧
     wb0.agent = (0 : CoreId).val ∧ ({ wb0 with joined := some (.rdShared, 1, .read) } : Txn).joined = some (.rdShared, 1, .read)) := by
  refine ⟨?_, ?_, ?_, ?_, ?_, ?_, ?_, ?_, ?_, ?_, ?_, ?_, ?_⟩ <;> decide +kernel

/-- A trained detector one line ahead of line hl. -/
def det : Detector := { key := 0, pound := 0, last := hl, stride := 1, hits := 3, trained := true, depth := 1, age := 0 }

theorem test_meets_PrefetchAndParity :
    (let s := homeWith id (fun c => { c with cores := [(0, { HostCore.reset with detectors := [(0, det)] })] })
     let w := Work.of s
     let l := ((det.last : Int) + det.stride).toNat
     HartFree s 0 ∧ RegOpen s 0 (0x300_0000 + 127 * 0x1000 + 0x900 + 0 * 8) (w.isPound 0 0) ∧
     SMap.look (coreOf s 0).detectors 0 = some det ∧ det.trained = true ∧ det.depth = 1 ∧ SMap.look (coreOf s 0).detectors 1 = none ∧
     l / 32 = det.last / 32 ∧ w.l2 0 l = none ∧ w.txn? (w.lineHome l) l = none ∧ (w.home (w.lineHome l)).retry = [] ∧
     (w.home (w.lineHome l)).free (w.lineHome l) = true ∧ w.heldBy (some 0) l (l + 1) = false ∧
     w.acc (.core 0) (l * 128) 128 false = .ok ∧ (w.place (l * 128)).mainMemory = true ∧
     (((hl + 31 : Nat) : Int) + 1).toNat / 32 ≠ (hl + 31) / 32) ∧
    (let s := homeWith id (fun c => { c with slices := [(0, { Slice.zero with detectors := [(63, det)] })] })
     let w := Work.of s
     let l := ((det.last : Int) + det.stride).toNat
     SMap.look (w.slice 0).detectors 63 = some det ∧ w.place (l * 128) = .hbm 128 ∧ (w.arcAt l).1 = 0 ∧
     SMap.look (w.slice 0).sectors l = none ∧ (w.slice 0).evict = [] ∧ w.allocWays 0 (some det.pound) ≠ 0 ∧ w.cfg? det.pound = some cfg ∧ (w.slice 0).st ≠ .active ∧
     cfg.rdRate ≠ 0 ∧ SMap.get 0 ({ Slice.zero with st := .active } : Slice).rdTokens 0 ≤ 0) ∧
    ((Work.of (homeWith id id)).refill.chip.homes.all (fun e => e.2.txns.all (fun x => x.2.tokens.isNone)) = true) ∧
    (let s := homeWith id (fun c => { c with cores := [(0, { HostCore.reset with lines := [(hl, dl)] })] })
     let w := Work.of s
     w.l2 1 hl = none ∧ SMap.look (w.core 0).lines hl = some dl ∧
     (w.core 0).lines.filter (fun e => e.1 = hl) = [(hl, dl)]) := by
  unfold RegOpen HartFree; decide +kernel

/-! ## The host cores -/

/-- First byte of HBM; a byte of root port 0's memory window; a byte of its configuration space; a vacant address. -/
def ha : PAddr := 0x100_0000_0000
def ma : PAddr := 0x2000_0400_0000
def va : PAddr := 0x200_6000_0000
def coreWith (f : HostCore → HostCore) (g : Chip → Chip) : State := upWith (fun c => g { c with cores := [(0, f HostCore.reset)] })
def portUp (f : Port → Port) (c : Chip) : Chip := { c with ports := [(0, f { SMap.get Port.zero c.ports 0 with st := .up })] }
def ctlWrite (off : Nat) (z : Size) (v : W64) : RegWrite := { core := 0, reg := off / 8 * 8, off := off, size := z, high := decide (off % 8 = 4), value := v }

theorem test_meets_RegisterAccesses :
    (let s := upWith id
     let w := (untrap 0 (Work.of s)).drainStores 0
     HartFree s 0 ∧ (Work.of s).place 0x3F80_0000_0000 = .control 0 ∧ (Work.of s).place 0x3F80_0FFF_FFFF = .control 0xFFF_FFFF ∧
     w.fileAt (pwrBase + 0x100) = none ∧ aplicAt (pwrBase + 0x100) = none ∧ (w.reg? (pwrBase + 0x100)).isSome = true ∧
     w.blockOut (pwrBase + 0x100) = false ∧ w.cpOut (pwrBase + 0x100) = false ∧ w.tileOut (pwrBase + 0x100) = false ∧
     (w.regAct (ctlWrite (pwrBase + 0x100) .b8 0)).1 = true ∧ (w.regAct (ctlWrite 0x104_0018 .b8 0)).1 = false ∧
     w.mayRead 0 (pwrBase + 0x100) = true ∧ w.mayRead 0 0x104_0018 = false ∧ w.blockOut 0x104_0018 = false ∧
     (w.reg? 0x104_0018).isSome = true ∧ w.reg? 0x40_0000 = none ∧ w.fileAt 0x40_0000 = none ∧ aplicAt 0x40_0000 = none ∧
     (pwrBase + 0x100) % 8 = 0 ∧ ¬ (0x600_0000 ≤ pwrBase + 0x100) ∧ pwrBase + 0x100 < 0x610_0000 ∧
     w.fileAt 0x600_0FF8 = none ∧ aplicAt 0x600_0FF8 = none) ∧
    (let w := (untrap 0 (Work.of (upWith (fun c => { c with tiles := [(0, { Tile.reset 0 with st := .offline })] })))).drainStores 0
     w.tileOut 0x100_0018 = true ∧ w.mayRead 0 0x100_0018 = true ∧ w.cpOut 0x100_0018 = false ∧
     (w.regAct (ctlWrite 0x100_0018 .b8 0)).1 = true) ∧
    (let w := (untrap 0 (Work.of (upWith id))).drainStores 0
     w.fileAt 0x800_1000 = some 1 ∧ (w.coreOwner 0).isSome = true ∧ w.coreOwner 0 = w.coreOwner (imsicHart 1) ∧
     w.fileAt 0x805_0000 = some 80 ∧ w.coreOwner 0 ≠ w.coreOwner (imsicHart 80) ∧
     w.fileAt 0x900_1FDC = none ∧ aplicAt 0x900_1FDC = some (0, 0x1FDC) ∧ aplicDefined 0 0x1FDC = true) ∧
    (coreOf (coreWith (fun x => { x with hwError := some 4 }) id) 0).hwError = some 4 ∧
    (let s := coreWith id (portUp (fun x => { x with reqs := [⟨0, 0x2000_0400_0000, 0x2000_0400_0000, 4, some 0, none, none, false⟩] }))
     (coreOf s 0).hwError = none ∧ (Work.of s).hartBusy 0 = true) := by unfold HartFree; decide +kernel

theorem test_meets_HostLoadsAndStores :
    (let s := coreWith id id
     let w := untrap 0 (Work.of s)
     HartFree s 0 ∧ w.lineHeld 0 ha.toNat 4 false = false ∧ w.exchangingAt ha.toNat = false ∧ w.place 0x3F00_0000_0000 = .doorbell 0 0 ∧ w.place 0x3F00_007F_FFFC = .doorbell 0xF_FFFF 4 ∧
     w.acc (.core 0) va.toNat 4 false ≠ .ok ∧ w.place va.toNat = .vacant ∧ w.acc (.core 0) va.toNat 4 true ≠ .ok ∧
     w.acc (.core 0) ha.toNat 4 false = .ok ∧ w.acc (.core 0) ha.toNat 4 true = .ok ∧ w.local_ ha.toNat = ha.toNat ∧
     w.place ha.toNat = .hbm 0 ∧ (w.place ha.toNat).type .pma = .main ∧ (w.place ha.toNat).type .nc = .uncached ∧
     (w.place ha.toNat).type .io = .io ∧ (coreOf s 0).wc = [] ∧ (w.bring 0 ha.toNat 4).cachedPoison 0 ha.toNat 4 = none ∧
     w.vpoison ha.toNat 4 = none ∧ (¬ ∀ j, j < 4 → buffered (w.core 0).storeBuf (ha.toNat + j) = true) ∧ w.storeOk 0 ha.toNat 4 = true ∧ w.storeOk 0 va.toNat 4 = false ∧ (w.place (w.local_ ha.toNat)).mainMemory = true ∧
     (w.core 0).wc.length < 8) ∧
    (let s := coreWith id (portUp id)
     let w := untrap 0 (Work.of s)
     w.place ma.toNat = .mmio 0 0x400_0000 ∧ w.acc (.core 0) ma.toNat 4 false = .ok ∧ w.acc (.core 0) ma.toNat 4 true = .ok ∧
     ma.toNat % 4 = 0 ∧ (ma.toNat + 1) % 4 ≠ 0 ∧ w.acc (.core 0) (ma.toNat + 1) 4 false = .ok ∧ w.place (ma.toNat + 1) = .mmio 0 0x400_0001) ∧
    (let s := coreWith id (portUp (fun x => { x with reqs := List.replicate 768 ⟨0, 0, 0, 4, none, none, none, false⟩ }))
     let w := untrap 0 (Work.of s)
     HartFree s 0 ∧ w.place ma.toNat = .mmio 0 0x400_0000 ∧ w.acc (.core 0) ma.toNat 4 false = .ok ∧ 768 ≤ (w.port 0).reqs.length) ∧
    (let s := { coreWith (fun x => { x with lines := [(hl, { dl with poison := 2 })] }) id with
       mem := (coreWith id id).mem.perform1 (.poison (ha.toNat + 32)) }
     let w := untrap 0 (Work.of s)
     (w.bring 0 (ha.toNat + 32) 4).cachedPoison 0 (ha.toNat + 32) 4 = some (ha.toNat + 32) ∧ w.vpoison (ha.toNat + 32) 4 = some (ha.toNat + 32) ∧
     buffered (w.core 0).storeBuf (ha.toNat + 32) = false) ∧
    (let s := upWith (fun c => { c with cores := [(1, { HostCore.reset with lrHold := true, resv := some hl })] })
     let w := untrap 0 (Work.of s)
     (w.place (w.local_ ha.toNat)).type .pma = .main ∧ w.lineHeld 0 (w.local_ ha.toNat) 4 true = true) ∧
    (let s := tileWith (fun x => { x with st := .exchanging })
     (untrap 0 (Work.of s)).exchangingAt (tileAddr 0 0) = true) := by unfold HartFree; decide +kernel

theorem test_meets_HostAtomicsAndFences :
    (let s := coreWith (fun x => { x with lines := [(hl, dl)], resv := some hl }) id
     let w := untrap 0 (Work.of s)
     let d := (w.drainStores 0).drainWc 0
     HartFree s 0 ∧ w.lineHeld 0 ha.toNat 4 true = false ∧ w.exchangingAt ha.toNat = false ∧
     w.heldBy (some 0) (ha.toNat / 128) (ha.toNat / 128 + 1) = false ∧ amoSize .add .b4 = true ∧ ha.toNat % 4 = 0 ∧ (ha.toNat + 1) % 4 ≠ 0 ∧ (w.place va.toNat).type .pma = .io ∧
     (w.place ha.toNat).isMmio = false ∧ d.ownsLine 0 hl = true ∧ (d.touch 0 hl).cachedPoison 0 ha.toNat 4 = none ∧
     d.vpoison ha.toNat 4 = none ∧ (d.core 0).resv = some (ha.toNat / 128) ∧ w.acc (.core 0) (ha.toNat / 128 * 128) 128 true = .ok ∧
     w.acc (.core 0) ha.toNat 128 false = .ok ∧ w.acc (.core 0) va.toNat 128 false ≠ .ok ∧ (coreOf s 0).storeBuf = []) ∧
    (let w := untrap 0 (Work.of (coreWith id id))
     let d := (w.drainStores 0).drainWc 0
     let u := ((d.l2Miss 0 hl).fillUnique 0 hl).touch 0 hl
     let b := (w.drainWc 0).bring 0 ha.toNat 4
     d.ownsLine 0 hl = false ∧ u.cachedPoison 0 ha.toNat 4 = none ∧ b.cachedPoison 0 ha.toNat 4 = none ∧ (d.core 0).resv ≠ some hl) ∧
    (let s := coreWith (fun x => { x with wc := [⟨va.toNat / 128, 1, 0⟩, ⟨hl, 1, 0⟩], storeBuf := [⟨va.toNat, [1], false⟩] }) id
     (coreOf s 0).wc.find? (fun e => e.line = hl) = some ⟨hl, 1, 0⟩ ∧ (Work.of s).storeOk 0 (va.toNat / 128 * 128) 128 = false ∧
     (coreOf s 0).storeBuf = ⟨va.toNat, [1], false⟩ :: [] ∧ (Work.of s).storeOk 0 va.toNat 1 = false ∧ (Work.of s).storeOk 0 ha.toNat 1 = true) ∧
    (let s := upWith (fun c => { c with cores := [(1, { HostCore.reset with lrHold := true, resv := some hl })] })
     HartFree s 0 ∧ (untrap 0 (Work.of s)).heldBy (some 0) (ha.toNat / 128) (ha.toNat / 128 + 1) = true) ∧
    (let s := coreWith (fun x => { x with lines := [(hl, { dl with poison := 2 })] }) id
     ((((untrap 0 (Work.of s)).drainWc 0).bring 0 (ha.toNat + 32) 4).cachedPoison 0 (ha.toNat + 32) 4) = some (ha.toNat + 32)) := by
  unfold HartFree; decide +kernel

/-! ## Root ports and translations -/

def rq (a : W64) (k : PcieKind) : PcieRequest := { requester := 8, pasid := none, addr := a, translated := false, kind := k }
def portState (f : Port → Port) (x : List Xlat) : State := upWith (fun c => portUp f { c with iommu := { c.iommu with regs := [(0x10, 1)], cache := [(176, x)] } })
/-- A translation of page 0x10 of device 8, marked as MSI, to interrupt file 1. -/
def xl (pp : Nat) (m : Bool) : Xlat := { dev := 8, pasid := 2 ^ 20, vpage := 0x10, ppage := pp, writes := true, gscid := 1, pscid := 2, msi := m }
def preq (t : Nat) (core : Option Nat) (who : Option RemoteWho) : PortReq :=
  { tag := t, addr := 0x2000_0400_0000, va := 0x2000_0400_0000, len := 4, core := core, who := who, dst := none, publish := false }

theorem test_meets_InboundRequestsAndPorts :
    (let w := Work.of State.reset
     (rq 0 (.read 4)).wellFormed = true ∧ (w.port 0).st ≠ .up) ∧
    (let w := Work.of (portState id [])
     (w.port 0).st = .up ∧ w.place 0x2000_0000_0000 = .mmio 0 0 ∧ w.place 0x2000_0400_0000 = .mmio 0 0x400_0000 ∧ w.portOwner 0 = w.portOwner 0 ∧
     w.place 0x3F00_0000_0000 = .doorbell 0 0 ∧ w.place 0x3F80_0000_0000 = .control 0 ∧ imsicFile 0 = none ∧
     w.place 0x3F80_0800_1000 = .control 0x800_1000 ∧ imsicFile 0x800_1000 = some 1 ∧ w.place ha.toNat = .hbm 0 ∧
     w.acc (.inbound (w.portOwner 0)) ha.toNat 4 true = .ok ∧ w.acc (.inbound (w.portOwner 0)) (ha.toNat + 0x10_0000) 4 true = .denied ∧
     w.atsEnabled 8 = false ∧ ({ rq 0x100_0000_0000 (.read 4) with translated := true } : PcieRequest).wellFormed = true ∧
     (rq 0x100_0000_0001 (.atomic .add .b4 1 0)).wellFormed = true ∧ (0x100_0000_0001 : Nat) % Size.b4.bytes ≠ 0 ∧ pieces 0x100_0000_0000 4 = [(0x100_0000_0000, 4)] ∧ (0x100_0000_0000 : Nat) % 4 = 0 ∧
     (match (w.inboundPiece 0 (rq 0x100_0000_0000 (.write [1, 2, 3, 4])) 0x100_0000_0000 4 true) with | (_, .at_ b) => b == 0x100_0000_0000 | _ => false) = true ∧
     (match (w.inboundPiece 0 (rq 0x2000_0400_0000 (.write [1])) 0x2000_0400_0000 1 true) with | (_, .peer q _) => q == 0 | _ => false) = true ∧
     (match (w.inboundPiece 0 (rq 0x200_6000_0000 (.read 4)) 0x200_6000_0000 4 false) with | (_, .refused) => true | _ => false) = true ∧
     (w.place 0x100_0000_0000).mainMemory = true ∧ w.vpoison 0x100_0000_0000 4 = none) ∧
    (let w := Work.of (portState id [xl 0x3F80_0800_1 true, { xl 0x3F80_0800_1 false with dev := 9 }])
     (match w.translateMsi ownCache 8 none 0x1_0000 true with | (u, some (b, via)) => u.place b == .control 0x800_1000 && via && b % 0x1000 == 0 | _ => false) = true ∧
     (match w.translateMsi ownCache 9 none 0x1_0000 true with | (u, some (b, via)) => u.place b == .control 0x800_1000 && !via | _ => false) = true ∧
     (w.portOwner 0).isSome = true ∧ w.coreOwner (imsicHart 1) = w.portOwner 0) ∧
    (let w := Work.of (upWith (fun c => { c with iommu := { c.iommu with regs := [] } }))
     (match w.translateMsi ownCache 8 none 0x1_0000 true with | (_, none) => true | _ => false) = true) ∧
    (let w := Work.of (portState (fun x => { x with reqs := [preq 7 (some 0) none, preq 8 none (some (.command 0 1))] }) [])
     (w.port 0).reqs.find? (fun r => r.tag % 65536 = 6) = none ∧ (w.port 0).reqs.find? (fun r => r.tag % 65536 = 7) = some (preq 7 (some 0) none) ∧
     (w.port 0).reqs.find? (fun r => r.tag % 65536 = 8) = some (preq 8 none (some (.command 0 1))) ∧ w.started? 0 1 4 = none) ∧
    (let w := Work.of (portState id [])
     (w.port 0).reqs = [] ∧ (w.port 0).posted = [] ∧ RegOpen (portState id []) 0 (0x600_1010 + 3 * 0x100) (w.mayCtrlPort 0 3) ∧
     (w.port 3).st ≠ .up ∧ w.engineBusy = false) ∧
    ((Work.of (portState (fun x => { x with posted := [(0x2000_0400_0000, [1], none)] }) [])).engineBusy = true ∧
     ((Work.of (portState (fun x => { x with st := .contained }) [])).port 0).st = .contained ∧
     ((Work.of (upWith (fun c => { c with eths := [(1, { Eth.zero with up := true })] }))).eth 1).up = true ∧
     ((Work.of (upWith id)).eth 0).up = false ∧ ((portState id [xl 1 false]).chip.iommu.cache.map (·.1)).Nodup) := by
  unfold RegOpen HartFree; decide +kernel

/-- Device 8 under a one-level directory: Sv39, a root entry of 1 GiB that grants a user read with A set. -/
def iommuWork (tc : Nat) : Work :=
  let w := (Work.of (upWith (fun c => { c with iommu := { c.iommu with regs := [(0x10, 2), (0x14, 0x40)] } })))
  let put (w : Work) (a v : Nat) : Work := w.pwrite a (leBytes 8 v) false none
  put (put (put w 0x100_0000_0200 tc) 0x100_0000_0218 (8 * 2 ^ 60 + 0x1000_0001)) 0x100_0000_1000 (0x1000_0000 * 1024 + 0x53)

theorem test_iommu_walk :
    (match (iommuWork 1).walk 8 none 0x12345 false with | (_, .ok r) => r == (0x100_0001_2345, 0, 0, false) | _ => false) = true ∧
    (match (iommuWork 1).walk 8 none 0x12345 true with | (_, .error e) => e == (15, 0) | _ => false) = true ∧
    (match (iommuWork 5).walk 8 none 0x12345 false with | (_, .error e) => e == (259, 0) | _ => false) = true ∧
    (match (iommuWork 1).walk 8 (some 3) 0x12345 false with | (_, .error e) => e == (260, 0) | _ => false) = true ∧
    (match (iommuWork 1).walk 9 none 0x12345 false with | (_, .error e) => e == (258, 0) | _ => false) = true ∧
    (iommuWork 0x11).faultsOff 8 = true := by
  decide +kernel

/-! ## RoCE -/

/-- A context of a queue pair: READY, reliable, PMTU 1024, rings of 16 entries at the pages 1 to 3 of HBM, no interrupt. -/
def qctx : List Byte :=
  [1, 0, 0, 0] ++ zs 28 ++ leBytes 8 0x100_0000_1000 ++ leBytes 8 0x100_0000_2000 ++ [4, 4, 4, 0xFF, 0, 0, 0, 0] ++ leBytes 8 0x100_0000_3000
def qp1 : Qp := { Qp.zero with ctx := qctx, loaded := true, st := 1 }
/-- A signalled SEND, and other entries, of 8 bytes at page 5 of HBM. -/
def se (o f : Byte) : List Byte := [o, f, 0, 0, 7, 0, 0, 0] ++ leBytes 8 0x100_0000_5000 ++ [8, 0, 0, 0] ++ zs 44
/-- Key 0x0103: valid, of tag 3, for reads, writes and atomics of a page. -/
def mrt : List Byte := leBytes 8 0x100_0000_5000 ++ leBytes 8 0x1000 ++ zs 4 ++ [0xF, 3] ++ zs 10
def roceWith (x : Qp) (e : List Byte) : State :=
  let s := upWith (fun c => { c with
    iommu := { c.iommu with regs := [(0x10, 1)] }
    eths := [(0, { Eth.zero with up := true, qptBase := 0x1000_0000, qptLog2 := 4, mrtBase := 0x1000_0004, mrtLog2 := 4, qps := [(0, x)] })] })
  let put (m : Mem) (a : Nat) (bs : List Byte) : Mem := m.perform1 (.bytes a bs)
  { s with mem := put (put (put (put (put s.mem 0x100_0000_0000 qctx) 0x100_0000_0040 ([0xFF] ++ qctx.drop 1)) 0x100_0000_1000 e)
      0x100_0000_2000 (leBytes 8 0x100_0000_5000 ++ [8, 0, 0, 0, 9, 0, 0, 0])) 0x100_0000_4020 mrt }
/-- What a read or a write of a queue pair's addresses answers. -/
def okR (x : Work × Res (List Byte)) : Bool := match x.2 with | .ok _ => true | .bad _ _ => false
def okW (x : Work × Res Unit) : Bool := match x.2 with | .ok _ => true | .bad _ _ => false

theorem test_meets_RoceSends :
    (let s := roceWith qp1 (se 0 1)
     let w := Work.of s
     RegOpen s 0 (0x610_0000 + 0 * 0x8_0000 + 0 * 8) ((w.ethOwner 0).isSome && w.coreOwner 0 = w.ethOwner 0) ∧
     RegOpen s 0 (0x600_2010 + 1 * 0x100) ((w.ethOwner 1).isSome && w.coreOwner 0 = w.ethOwner 1) ∧
     ((w.qpLoad 0 0).qp 0 0).st = 1 ∧ ((w.qpLoad 0 2).qp 0 2).st = 0 ∧ (w.eth 0).qps.any (fun x => x.2.st ≠ 0) = true ∧
     (w.eth 1).qps.any (fun x => x.2.st ≠ 0) = false ∧ qp1.sqSlots < (20 + 65536 - qp1.sCons) % 65536 ∧
     qp1.sqSlots ≥ (1 + 65536 - qp1.sCons) % 65536 ∧ qp1.slotFree = true ∧ (w.qp 0 0).sProd = (w.qp 0 0).sCons) ∧
    (let s := roceWith { Qp.zero with st := 0 } (se 0 1)
     let w := Work.of s
     (w.qp 0 0).st = 0 ∧ w.tableRead 0 (tableAt (w.eth 0).qptBase (w.eth 0).qptLog2 0 64) 64 = some qctx ∧ leAt qctx 0 1 = 1 ∧ qpCtxOk qctx = true ∧
     w.tableRead 0 (tableAt (w.eth 0).qptBase (w.eth 0).qptLog2 1 64) 64 = some ([0xFF] ++ qctx.drop 1) ∧ leAt ([0xFF] ++ qctx.drop 1) 0 1 ≠ 1 ∧
     w.tableRead 0 (tableAt (w.eth 0).qptBase (w.eth 0).qptLog2 16 64) 64 = none ∧ qpCtxOk ([1, 1] ++ qctx.drop 2) = false) ∧
    (let w := Work.of (roceWith { qp1 with sProd := 1 } (se 0 1))
     (w.qp 0 0).st ≠ 0 ∧ (w.qp 0 0).sProd ≠ (w.qp 0 0).sCons ∧ (w.qp 0 0).slotFree = true ∧ okR (w.qpRead 0 0 0x100_0000_1000 64) = true ∧
     okR (w.qpRead 0 0 0x200_6000_0000 64) = false ∧ leAt (se 0 1) 0 1 = 0 ∧ leAt (se 0 1) 1 1 / 2 % 2 = 0 ∧ seCheck qp1 (se 0 1) = 0 ∧
     seCheck qp1 (se 0 8) ≠ 0 ∧ (w.seSend 0 0 (se 0 1)).2 = none ∧ (w.seSend 0 0 ([0, 1, 0, 0, 7, 0, 0, 0] ++ leBytes 8 0x200_6000_0000 ++ [8, 0, 0, 0] ++ zs 44)).2 = some 1 ∧
     qp1.kind ≠ 2 ∧ okR (w.qpRead 0 (w.qp 0 0).pid (leAt (se 0 1) 8 8) (leAt (se 0 1) 0x10 4)) = true ∧ 4 ≤ leAt (se 6 1) 0 1 ∧ leAt (se 6 1) 0 1 ≤ 6 ∧
     leAt (se 0 1) 1 1 % 2 = 1 ∧ okW (w.qpWrite 0 0 0x100_0000_3020 (zs 32)) = true ∧ okW (w.qpWrite 0 0 0x200_6000_0000 (zs 32)) = false ∧
     qp1.at_ 0x33 1 = 0xFF ∧ w.ethOwner 0 ≠ none ∧ w.coreOwner 0 = w.ethOwner 0) := by
  unfold RegOpen HartFree; decide +kernel

/-- A READ's data with an older SEND in front of it, a fenced entry, and an atomic at a misaligned address. -/
theorem test_meets_RoceInFlight :
    (let x := { qp1 with inflight := [se 0 1, se 4 1], sProd := 1 }
     let w := Work.of (roceWith x (se 0 3))
     (w.qp 0 0).inflight = [se 0 1] ++ se 4 1 :: [] ∧ (∀ y ∈ [se 0 1], leAt y 0 1 < 4) ∧ ((Work.qpAcks 1 w 0 0 0).qp 0 0).st = 1 ∧
     ((Work.qpAcks 1 w 0 0 0).qp 0 0).inflight = se 4 1 :: [] ∧ leAt (se 0 3) 1 1 / 2 % 2 = 1 ∧ (∃ y ∈ x.inflight, 4 ≤ leAt y 0 1 ∧ leAt y 0 1 ≤ 6) ∧
     2 ^ 31 < leAt ([0, 0, 0, 0, 7, 0, 0, 0] ++ leBytes 8 0 ++ [1, 0, 0, 0x80] ++ zs 44) 0x10 4 ∧
     min (3 : W16).toNat x.inflight.length = 2) ∧
    (let w := Work.of (roceWith { qp1 with inflight := [se 0 1, se 5 1] } (se 0 1))
     (w.qp 0 0).inflight = [se 0 1] ++ se 5 1 :: [] ∧ 4 < leAt (se 5 1) 0 1 ∧ w.rkeyPid 0 0x103 0x100_0000_5001 8 2 = some 0 ∧
     (0x100_0000_5001 : W64).toNat % 8 ≠ 0 ∧ okR (w.vaRead ownCache (roceDev 0) (some 0) (.engine (w.ethOwner 0)) 0xA 0 0x100_0000_5000 8) = true ∧
     okR (w.vaRead ownCache (roceDev 0) (some 0) (.engine (w.ethOwner 0)) 0xA 0 0x200_6000_0000 8) = false) := by
  decide +kernel

theorem test_meets_RoceReceives :
    (let x := { qp1 with inflight := [se 0 1, se 4 1] }
     let w := Work.of (roceWith x (se 0 1))
     (w.qp 0 0).st = 1 ∧ (w.qp 0 0).inflight = se 0 1 :: [se 4 1] ∧ leAt (se 0 1) 0 1 < 4 ∧ leAt (se 4 1) 0 1 = 4 ∧ 4 < leAt (se 5 1) 0 1 ∧
     okW (w.qpWrite 0 0 (leAt (se 5 1) 8 8) (leBytes 8 9)) = true ∧ okW (w.qpWrite 0 0 0x200_6000_0000 (leBytes 8 9)) = false ∧
     (zs 8).length = leAt (se 4 1) 0x10 4 ∧ x.retry < 7 ∧ x.rnrWait = false ∧ x.lastCnp = none) ∧
    (({ qp1 with retry := 7, rnr := 7, rnrWait := true, lastCnp := some 5 } : Qp).lastCnp = some 5 ∧
     (upWith (fun c => { c with refPs := 60_000_000 })).chip.refPs ≥ 5 + 50_000_000 ∧
     (upWith (fun c => { c with refPs := 40_000_000 })).chip.refPs < 5 + 50_000_000) ∧
    (let w := Work.of (roceWith { qp1 with rProd := 1 } (se 0 1))
     w.tableRead 0 (tableAt (w.eth 0).mrtBase (w.eth 0).mrtLog2 (0x103 / 256) 32) 32 = some mrt ∧ w.rkeyPid 0 0x103 0x100_0000_5000 8 0 = some 0 ∧
     w.rkeyPid 0 0x103 0x100_0000_5000 8 1 = some 0 ∧ w.rkeyPid 0 0x103 0x100_0000_5000 8 2 = some 0 ∧ w.rkeyPid 0 0x104 0x100_0000_5000 8 0 = none ∧
     (w.qp 0 0).kind = 0 ∧ (w.qp 0 0).rProd ≠ (w.qp 0 0).rCons ∧ (w.qp 0 0).slotFree = true ∧
     okW (w.qpWrite 0 0 0x100_0000_5000 (zs 8)) = true ∧ okR (w.qpRead 0 0 0x100_0000_5000 8) = true ∧ okR (w.qpRead 0 0 0x200_6000_0000 8) = false ∧
     (match w.qpRead 0 0 0x100_0000_2000 16 with | (_, .ok b) => decide ((zs 8).length ≤ leAt b 8 4) && decide (leAt b 8 4 < (zs 9).length) | _ => false) = true) := by
  decide +kernel

/-! ## Nyulle links -/

/-- A flit of these bytes, with its check words. -/
def flit (b : List Byte) : NFlit :=
  let b := b ++ zs (64 - b.length)
  { w0 := BitVec.ofNat 256 (leNat (b.take 32)), w1 := BitVec.ofNat 256 (leNat (b.drop 32)), c0 := rsCheck (b.take 32), c1 := rsCheck (b.drop 32) }
def hdr (kind vc seq nd flags : Byte) (more : List Byte) : List Byte := [kind, vc, seq, 0, nd, flags] ++ more ++ zs (10 - more.length)
/-- A message to module 5 from module 6: VC, OP, hops, length - 1, and the number of its data flits. -/
def mflit (vc seq nd o hops len : Byte) : NFlit := flit (hdr 1 vc seq nd 0 [] ++ [5, 0, 6, 0, o, hops, len, 0])
def identity (v : Byte) (m : Byte) : NFlit := flit (hdr 2 0 0 0 0 [] ++ [3] ++ zs 7 ++ zs 8 ++ [m, 0, 9, v, 8, 0])
def linkWith (f : NylLink → NylLink) (g : Chip → Chip) : State := upWith (fun c => g { c with nyl := [(0, f { NylLink.zero with st := .up })] })
def nmsg (vc : Nat) (o : Byte) (inb : Option Nat) : NylMsg :=
  { vc := vc, body := [5, 0, 6, 0, o, 0, 0, 0] ++ zs 40, data := [], poison := [], inbound := inb, pound := none }

theorem test_meets_NyulleLinkUpAndTime :
    (let x := fun st => ({ NylLink.zero with st := st } : NylLink)
     (x .training).st = .training ∧ (x .discovery).gotIdentity = false ∧ (x .discovery).listens = true ∧ (x .down).listens = false ∧
     (x .up).carries = true ∧ (x .discovery).carries = false) ∧
    ((identity 1 6).ok = true ∧ (identity 1 6).kind = 2 ∧ (identity 1 6).op = 3 ∧ (identity 1 6).at_ 0x23 1 % 2 = 1 ∧
     (identity 2 6).ok = true ∧ (identity 2 6).at_ 0x23 1 % 2 = 0 ∧ (identity 1 5).at_ 0x20 2 = (Work.of (linkWith id id)).moduleId ∧
     (identity 1 6).at_ 0x20 2 ≠ (Work.of (linkWith id id)).moduleId ∧ { identity 1 6 with c0 := 0 }.ok = false ∧
     (identity 1 5).ok = true ∧ (Work.of (linkWith id id)).moduleId < 0x8000) ∧
    (let f := flit (hdr 2 0 0 0 0 [] ++ [4, 0, 1])
     f.ok = true ∧ f.kind = 2 ∧ f.op = 4 ∧ f.at_ 0x12 1 = 1) ∧
    (let x := ({ NylLink.zero with st := .discovery, sentSelect := true, gotSelect := true } : NylLink)
     x.st = .discovery ∧ x.sentSelect = true ∧ x.gotSelect = true) ∧
    (let f := flit (hdr 3 0 0 0 0 [])
     f.ok = true ∧ f.kind = 3 ∧ f.at_ 0x18 1 < 8 ∧ (flit (hdr 3 0 0 0 0 [] ++ zs 8 ++ [8])).ok = true ∧
     bit (linkWith id (fun c => { c with time := { c.time with srcEn := 4 } })).chip.time.srcEn 2 = true) := by decide +kernel

theorem test_meets_NyulleRetry :
    (let c := fun b => flit (hdr 2 0 0 0 0 [] ++ [b])
     (c 1).ok = true ∧ (c 1).kind = 2 ∧ (c 1).op = 1 ∧ (c 2).ok = true ∧ (c 2).op = 2 ∧ (flit (hdr 0 0 0 0 0 [])).ok = true ∧
     (flit (hdr 0 0 0 0 0 [])).kind = 0 ∧ (flit (hdr 0 0 0 0 0 [])).at_ 5 1 = 0) ∧
    (let f := flit (hdr 0 0 0 0 2 [5, 0, 9])
     f.at_ 5 1 = 2 ∧ f.at_ 6 1 < 6 ∧ NylLink.zero.credits.length = 6 ∧ f.at_ 8 2 = 9) ∧
    (let f := flit (hdr 0 0 0 0 1 [0, 0, 0, 0, 3])
     let e : Nat × NylMsg := (3, nmsg 0 1 none)
     f.at_ 5 1 = 1 ∧ (e.1 + e.2.ndata) % 65536 = f.at_ 0xA 2 ∧ (2 + (nmsg 0 1 none).ndata) % 65536 ≠ f.at_ 0xA 2) ∧
    (let x := ({ NylLink.zero with st := .up, asked := some 3, unacked := 1, freed := [1], credits := [0, 0, 9, 0, 0, 0],
                                   queue := [nmsg 0 1 (some 1), nmsg 2 0x41 none] } : NylLink)
     x.carries = true ∧ x.asked ≠ none ∧ x.consecFail < 7 ∧ x.unacked ≠ 0 ∧ x.freed.getD 0 0 ≠ 0 ∧
     x.retryBuf.foldl (fun n e => n + e.2.flits) 0 < 2048 ∧ x.queue = [nmsg 0 1 (some 1)] ++ nmsg 2 0x41 none :: [] ∧
     (nmsg 2 0x41 none).flits ≤ x.credits.getD (nmsg 2 0x41 none).vc 0 ∧ (nmsg 0 1 (some 1)).vc ≠ (nmsg 2 0x41 none).vc ∧
     x.credits.getD (nmsg 0 1 (some 1)).vc 0 < (nmsg 0 1 (some 1)).flits ∧
     x.queue.find? (fun m => m.inbound.isSome && decide (x.credits.getD m.vc 0 < m.flits)) = some (nmsg 0 1 (some 1)) ∧ (nmsg 0 1 (some 1)).inbound = some 1) := by decide +kernel

def remote0 (o : Nat) : Remote :=
  { who := .mover 0 0, gaddr := 0, link := some 0, op := o, len := 32, va := 0, lost := false, dst := some 0x100_0000_0000, pos := 0,
    publish := false }

theorem test_meets_NyulleLoss :
    (let f := flit (hdr 2 0 0 0 0 [] ++ [5])
     f.ok = true ∧ f.kind = 2 ∧ f.op = 5) ∧
    (let s := linkWith id id
     let w := Work.of s
     (w.link 0).listens = true ∧ (w.link 0).carries = true ∧ (w.link 0).queue = [] ∧ (w.link 0).retryBuf = [] ∧ s.chip.remotes = [] ∧
     s.chip.colls = [] ∧ RegOpen s 0 (0x400_0000 + 0 * 0x1_0000 + 0x30) ((w.linkOwner 0).isSome && w.coreOwner 0 = w.linkOwner 0) ∧
     s.chip.boot.lockkeeper = true ∧ w.linkOwner 0 ≠ none ∧ w.linkOwner 1 = none ∧ (w.link 1).listens = false ∧ (w.link 1).carries = false) ∧
    (SMap.look (linkWith id (fun c => { c with remotes := [(7, remote0 1)] })).chip.remotes 7 = some (remote0 1) ∧
     (∀ st, st = NylState.draining ∨ st = .disabled ∨ st = .training ∨ st = .discovery → ({ NylLink.zero with st := st } : NylLink).st = st)) := by
  refine ⟨by decide +kernel, by unfold RegOpen HartFree; decide +kernel, by decide +kernel, ?_⟩
  intros; rfl

/-- A request of a command that waits for a value, a request of a mover, and three earlier losses within the hour. -/
theorem test_meets_NyulleFailures :
    (let c := started (op 4 [])
     let w := Work.of (queue [c])
     w.started? 0 1 4 = some c ∧ w.started? 0 2 4 = none ∧
     (match (remote0 1).who with | .command _ _ => false | _ => true) = true) ∧
    (3 ≤ (recent [1, 2, 3] 5 3_600_000_000_000_000).length ∧ (recent ([] : List Nat) 5 3_600_000_000_000_000).length < 3) ∧
    (let r := { remote0 1 with len := 256 }
     let k := 5
     (List.replicate 5 false ++ [true]).findIdx? id = some k ∧ (r.gaddr.toNat + 32 * k) / 128 * 128 - r.gaddr.toNat ≠ 0 ∧
     (r.gaddr.toNat + 32 * 1) / 128 * 128 - r.gaddr.toNat = 0) ∧
    (2048 < [(0, { nmsg 2 0x41 none with data := zs 2048 })].foldl (fun n e => n + e.2.flits) 2047 + (nmsg 2 0x41 none).flits) := by decide +kernel

/-- The same module whose pound 0 has a route over link 0 to every module, a restart of nothing, and an access entry for module 6. -/
def routes0 : Routes := { transitDefault := true, dateline := 0, group := [], entries := [⟨0, 0x7FFF, true, 1⟩, ⟨0x8000, 0xFFFF, false, 1⟩] }
def routed (f : NylLink → NylLink) (g : Chip → Chip) : State :=
  let c0 := { cfg with routes := some routes0 }
  linkWith f (fun c => g { c with
    cht := { c.cht with active := some { charter with pounds := [(0, c0)], access := [⟨6, 6, 0, 3, 0, 0xFFFFF⟩] } }
    pounds := [(0, { pound0 with cfg := some c0 })] })

theorem test_meets_FabricMessages :
    (let f := mflit 0 0 0 1 0 31
     let w := Work.of (routed id id)
     msgOk f [] = true ∧ f.kind = 1 ∧ f.op = 1 ∧ f.seq = (w.link 0).rxSeq ∧ (w.link 0).carries = true ∧ (nylMsg 0 f []).dst = w.moduleId ∧
     w.provisioning = false ∧ (nylMsg 0 f []).isRequest = true ∧ msgOk (mflit 2 0 1 0x41 0 31) [flit []] = true ∧ (mflit 2 0 1 0x41 0 31).op = 0x41 ∧
     msgOk { f with c0 := 5 } [] = false ∧ (nylMsg 0 (mflit 0 0 0 1 63 31) []).hops = 63 ∧ (w.link 0).discarding = false ∧
     (mflit 0 9 0 1 0 31).seq ≠ (w.link 0).rxSeq) ∧
    ((Work.of State.reset).provisioning = true ∧
     (nylMsg 0 (flit (hdr 1 0 0 0 0 [] ++ [9, 0, 6, 0, 1, 0, 31, 0])) []).dst ≠ (Work.of (routed id id)).moduleId) ∧
    (let w := Work.of (routed id id)
     (w.transitPound 0 = some 0) ∧ (w.sendMsg (some 0) (nmsg 0 1 (some 0))).2 = some 0 ∧
     ((Work.of (routed (fun x => { x with st := .down }) id)).sendMsg (some 0) (nmsg 0 1 (some 0))).2 = none ∧
     w.cfg? 0 = some { cfg with routes := some routes0 } ∧ routes0.entries.find? (fun e => e.modFirst ≤ 5 && 5 ≤ e.modLast) = some ⟨0, 0x7FFF, true, 1⟩ ∧
     routes0.entries.find? (fun e => e.modFirst ≤ 0x8001 && 0x8001 ≤ e.modLast) = some ⟨0x8000, 0xFFFF, false, 1⟩ ∧
     (bitList (1 : W64)).filter w.linkUp ≠ [] ∧ w.cfg? 1 = none) := by decide +kernel

theorem test_meets_RemoteRequests :
    (let w := Work.of (routed id id)
     let m := nmsg 0 1 (some 0)
     let far : NylMsg := { m with body := [5, 0, 6, 0, 1, 0, 0, 0] ++ List.replicate 8 0xFF ++ zs 32 }
     w.hbmBytes < far.offset + far.len ∧ m.offset + m.len ≤ w.hbmBytes ∧ w.covered 6 m.offset m.len 0 = some 0 ∧ w.covered 6 m.offset m.len 1 = some 0 ∧
     w.covered 7 m.offset m.len 0 = none ∧ (w.errorTo m w.transitDefault 5).chip.rolls.rateFabric < 1000 ∧ m.src = 6 ∧
     w.vpoison 0x100_0000_0000 m.len = none ∧ m.poison = []) ∧
    (let s := routed id (fun c => { c with remotes := [(0, remote0 1)] })
     let w := Work.of s
     let m := nmsg 2 0x41 (some 0)
     SMap.look w.chip.remotes m.tag = some (remote0 1) ∧ (remote0 1).op = 1 ∧ (remote0 1).op ∈ [1, 2] ∧ (remote0 1).op ∉ [2] ∧
     (m.poison.take 1).findIdx? id = none ∧ (([true] : List Bool).take (((remote0 1).len + 31) / 32)).findIdx? id = some 0 ∧
     (remote0 1).dst = some 0x100_0000_0000 ∧
     (let v := { w with chip.remotes := SMap.erase w.chip.remotes m.tag }
      let u := Work.of (linkWith id id)
      (v.engWrite (v.eng (.mover 0 0)) 0x100_0000_0000 (zs 32) false false 0).2 = none ∧
      (u.engWrite (u.eng (.mover 0 0)) 0x80_0900_0000_0000 (zs 32) false false 0).2.isSome = true)) ∧
    SMap.look (routed id id).chip.remotes 0 = none ∧ (nmsg 2 0x41 (some 0)).inbound = some 0 := by decide +kernel

/-! ## Collectives -/

/-- COLLECTIVE of kind k (3: an all-reduce) over 64 FP32 elements, in group 1, instance 2. -/
def collCmd (k : Byte) (phase : CmdPhase) : Cmd :=
  { cmd 1 [] with
    phase := phase
    bytes := [6, 0x21, 0, 0, 0, 0, 0, 0, 9, 0, 0, 0, k, 0, 0, 0] ++ leBytes 8 0x100_0000_5000 ++ leBytes 8 0x100_0000_6000 ++ leBytes 8 64 ++
      [1, 0, 0, 0, 2, 0, 0, 0] ++ leBytes 8 0x100_0000_2000 ++ [0, 0, 1, 0, 0, 0, 0, 0] ++ leBytes 8 0x7000 ++ zs 56 }
/-- The group of the modules 5 and 6. -/
def group0 : List Byte := [2, 0, 0, 0, 0, 0, 0, 0, 5, 0, 6, 0]
def coll0 : Coll :=
  { sq := 0, seq := 1, die := 0, pound := 0, pasid := 0, kind := 3, bf16 := false, wire := false, clear := false, src := 0x100_0000_5000,
    dst := 0x100_0000_6000, count := 64, groupId := 1, inst := 2, root := 0, stage := 0x7000, residual := 0, members := [5, 6], rank := 0,
    hash := 3, sent := 0, acked := 0, received := [], consumed := 0, failed := none }
def collState (k : Byte) (phase : CmdPhase) (cs : List Coll) : State :=
  let s := queue [collCmd k phase]
  let t := (routed id id).chip
  { s with
    chip := { s.chip with cht := { t.cht with active := t.cht.active.map (fun c => { c with access := [⟨6, 6, 0, 7, 0, 0xFFFFF⟩] }) }, pounds := t.pounds
                          nyl := t.nyl, colls := cs }
    mem := s.mem.perform1 (.bytes 0x100_0000_2000 group0) }
/-- CDATA, CACK or CABORT from module 6 for that group, with its hash. -/
def cmsg (o : Byte) (h : Byte) : NylMsg :=
  { vc := 4, body := [5, 0, 6, 0, o, 0, 127, 0] ++ leBytes 8 0x7000 ++ [1, 0, 0, 0, 2, 0, 0, 0, h] ++ zs 7 ++ zs 16, data := zs 128, poison := [false],
    inbound := some 0, pound := none }

theorem test_meets_Collectives :
    (let w := Work.of (collState 3 .fetched [])
     w.turn? 0 6 = some (collCmd 3 .fetched) ∧ (collCmd 3 .fetched).collOk = true ∧ (collCmd 9 .fetched).collOk = false ∧
     (w.chip.colls.filter (fun d => d.die = 0)).length < 16 ∧ w.chip.early = [] ∧
     (match w.groupBytes 0 (collCmd 3 .fetched) with
      | (u, .ok bs) => bs == group0 && u.chip.early == [] && parseGroup u.moduleId bs == some ([5, 6], 0) | _ => false) = true ∧
     (match w.groupBytes 0 { collCmd 3 .fetched with bytes := zs 128 } with | (_, .bad _ _) => true | _ => false) = true ∧
     parseGroup 7 group0 = none ∧ (collCmd 3 .fetched).at_ 0x38 2 < [5, 6].length ∧
     16 ≤ ((List.replicate 16 coll0).filter (fun d => d.die = 0)).length) ∧
    (let w := Work.of (collState 3 .started [coll0])
     let p : CollPiece := { phase := 0, derived := false, lo := 32, len := 32 }
     w.coll? 0 1 = some coll0 ∧ w.coll? 0 2 = none ∧ coll0.pieceOf coll0.sends 0 = some p ∧ coll0.sent - coll0.acked < 128 ∧
     (match w.firstPiece coll0 p with | (_, .ok _) => true | _ => false) = true ∧
     (match w.firstPiece { coll0 with src := 0 } p with | (_, .bad _ _) => true | _ => false) = true ∧
     w.cmd? 0 1 = some (collCmd 3 .started) ∧ (collCmd 3 .started).xf.failed = none ∧ coll0.sent ≠ coll0.total coll0.sends ∧
     w.xferQuiet (.command 0 1) = true ∧ coll0.total coll0.sends = 2 ∧ (collCmd 3 .started).scope ≠ 3) ∧
    (let f := mflit 4 0 2 0x81 0 127
     let s := collState 3 .started [coll0]
     msgOk f [flit [], flit []] = true ∧ f.kind = 1 ∧ f.op = 0x81 ∧ f.seq = ((Work.of s).link 0).rxSeq ∧ ((Work.of s).link 0).carries = true ∧
     (Work.of s).provisioning = false ∧ (nylMsg 0 f [flit [], flit []]).dst = (Work.of s).moduleId) ∧
    (let w := Work.of (collState 3 .started [coll0])
     let m := cmsg 0x81 3
     m.offset + m.len ≤ w.hbmBytes ∧ w.covered m.src m.offset m.len 2 = some 0 ∧ w.covered 7 m.offset m.len 2 = none ∧
     w.chip.colls.find? (fun c => c.takes m && c.pred = m.src) = some coll0 ∧ m.hash = coll0.hash.toNat ∧ (cmsg 0x81 4).hash ≠ coll0.hash.toNat ∧
     w.chip.colls.find? (fun c => c.takes m && c.succ = m.src) = some coll0 ∧ (Work.of (collState 3 .started [])).chip.colls = []) := by
  decide +kernel

/-! ## Sirent links -/

def srtWith (f : SrtSide → SrtSide) (g : Chip → Chip) : State :=
  upWith (fun c => g { c with srt := SMap.set SrtLink.reset c.srt 0 (let x := SMap.get SrtLink.reset c.srt 0; { a := f { x.a with st := .up }, b := { x.b with st := .up } }) })

theorem test_meets_SirentFlow :
    (headerOk 1 = false ∧ fKind (mkFlit 5 0 0 0 0 0) = 5) ∧
    (let x := (Work.of (srtWith (fun x => { x with credits := [1], unacked := 1, asked := some 3, inbox := [(false, 2, 0), (true, 0, 9)] }) id)).end_ 0 0
     x.isUp = true ∧ x.credits.getD 0 0 ≠ 0 ∧ x.retryBuf.length < 512 ∧ (∀ v, v < 8 → x.freed.getD v 0 = 0) ∧
     x.inbox = [(false, 2, 0)] ++ (true, 0, 9) :: [] ∧ (true, 0, (9 : BitVec 256)).2.1 = 0 ∧ x.unacked ≠ 0 ∧ x.asked ≠ none ∧ x.consecFail + 1 < 8) ∧
    (let x := (Work.of (srtWith id id)).end_ 0 0
     let f := mkFlit 1 0 0 0 0 7
     flitOk f = true ∧ fKind f = 1 ∧ fSeq f = x.rxSeq ∧ headerOk f = true ∧ fSeq (mkFlit 1 0 9 0 0 7) ≠ x.rxSeq ∧ x.discarding = false ∧
     flitOk (f ^^^ 1) = false ∧ flitOk (f ^^^ BitVec.ofNat 320 (2 ^ 300)) = false ∧ headerOk (f ^^^ BitVec.ofNat 320 (2 ^ 300)) = true) ∧
    (let s := srtWith (fun x => { x with st := .failed }) id
     ((Work.of s).srt 0).a.st = .failed ∧ s.chip.net = [] ∧ ((Work.of (srtWith id id)).srt 0).a.st ≠ .failed) ∧
    (let s := upWith (fun c => { c with
       srt := SMap.set SrtLink.reset c.srt 4 { a := { SrtSide.reset with st := .failed }, b := SrtSide.reset }, net := [msg .rdShared 3 .rdShared] })
     ((Work.of s).srt 4).a.st = .failed ∧ s.chip.net = [msg .rdShared 3 .rdShared] ∧
     (let m := { msg .rdShared 3 .rdShared with src := 4, dst := 0 }
      ((Work.of s).dieRoute m.src m.dst m.line 6).contains 4 = true)) ∧
    (let ack := mkFlit 4 0 0 0 0 (controlPayload 1 3 0 0 0 [])
     let retry := mkFlit 4 0 0 0 0 (controlPayload 2 3 0 0 0 [])
     flitOk ack = true ∧ fKind ack = 4 ∧ leAt (fBytes ack) 0 1 = 1 ∧ leAt (fBytes ack) 2 2 = 3 ∧ flitOk retry = true ∧
     leAt (fBytes retry) 0 1 = 2 ∧ fKind (mkFlit 0 0 0 0 0 0) = 0) := by decide +kernel

/-- The turns of a VC's transfer (R38) and the 128th flit that is not acknowledged (R43). -/
theorem test_meets_SirentTransfers :
    (let n := fun (k v : Nat) => ((Work.of (srtWith (fun x => { x with transfer := [k] }) id)).end_ 0 0).transfer.getD v 4
     n 3 0 < 4 ∧ (n 0 0 = 0 ∨ n 0 0 = 4) ∧ n 4 0 = 4 ∧ ¬ (n 1 0 = 0 ∨ n 1 0 = 4) ∧ n 1 7 = 4) ∧
    (let x := (Work.of (srtWith (fun x => { x with unacked := 127 }) id)).end_ 0 0
     128 ≤ x.unacked + 1 ∧ x.isUp = true ∧ x.rxSeq = fSeq (mkFlit 1 0 0 0 0 7)) ∧
    (let f := mkFlit 4 0 0 0 0 (controlPayload 1 3 0 0 0 [])
     let x := (Work.of (srtWith (fun x => { x with retryBuf := [(2, f), (3, f), (4, f)] }) id)).end_ 0 0
     x.retryBuf = [(2, f)] ++ (3, f) :: [(4, f)] ∧ (∀ z ∈ [(2, f)], z.1 ≠ 3)) := by decide +kernel

theorem test_meets_SirentLinkUp :
    (let tr := fun (f : SrtSide → SrtSide) => Work.of (srtWith (fun x => f { x with st := .training, peerVersions := 1 }) id)
     ((tr id).end_ 0 0).st = .training ∧ ((tr id).end_ 0 0).st ≠ .up ∧ (tr id).common 0 0 = 1 ∧
     (tr (fun x => { x with peerVersions := 2 })).common 0 0 = 0 ∧
     ((tr (fun x => { x with deskewed := true, gotIdentity := true })).end_ 0 0).gotSelect = false) ∧
    (let idf := mkFlit 4 0 0 0 0 (controlPayload 3 0 1 4 0 (List.replicate 8 64))
     let sel := mkFlit 4 0 0 0 0 (controlPayload 4 0 1 0 0 [])
     flitOk idf = true ∧ fKind idf = 4 ∧ leAt (fBytes idf) 0 1 = 3 ∧ leAt (fBytes idf) 4 1 = 1 ∧ flitOk sel = true ∧ leAt (fBytes sel) 0 1 = 4) ∧
    (let x : SrtSide := { SrtSide.reset with st := .training, sentSelect := true, gotSelect := true, gotIdentity := true }
     x.st = .training ∧ x.sentSelect = true ∧ x.gotSelect = true ∧ x.gotIdentity = true) := by decide +kernel

/-! ## Management -/

def mgmtWith (f : Boot → Boot) (g : Mgmt → Mgmt) (h : Chip → Chip) : State :=
  after (fun c => h { c with boot := f { c.boot with powered := true, lockkeeper := true }, mgmt := g c.mgmt })

theorem test_meets_ManagementUnits :
    (let b := (after (fun c => { c with boot := { c.boot with lockkeeper := false, standbyActive := false, fwFailed := false } })).chip.boot
     b.lockkeeper = false ∧ b.standbyActive = false ∧ b.fwFailed = false) ∧
    ((mgmtWith id id id).chip.boot.lockkeeper = true ∧ (mgmtWith id id id).chip.boot.powered = true ∧
     (mgmtWith (fun b => { b with fwFailed := true }) id id).chip.boot.fwFailed = true ∧ (after (fun c => { c with boot := { c.boot with powered := false } })).chip.boot.powered = false) ∧
    (let x := fun (s : Summary) => Work.of (mgmtWith id id (fun c => { c with flash := { c.flash with summary := s } }))
     let m := State.reset.chip.flash.summary
     (x m).excluded (.sirentLink 8) = false ∧ (x { m with linkExcluded := 0x100 }).excluded (.sirentLink 8) = true ∧
     (x { m with waysDisabled := [(127, 0x8000)] }).excluded (.archiveWay 127 15) = true ∧
     (x { m with hbmHealth := [(255, 2)] }).excluded (.hbmChannel 255) = true ∧ (x { m with lpdHealth := [(0, 1)] }).excluded (.lpdChannel 0) = true ∧
     (x { m with dieExcluded := 0x10 }).excluded (.die 5) = true) ∧
    (SMap.look (mgmtWith id id (fun c => { c with flash := { c.flash with firmware := [] } })).chip.flash.firmware 0 = none ∧
     SMap.get 0 State.reset.fuse.rollback 0 ≤ (0xFFFF_FFFF : W32).toNat) ∧
    (let m := (mgmtWith id (fun m => { m with versionSeen := true, capsSeen := true, negotiated := true }) id).chip.mgmt
     m.versionSeen = true ∧ m.capsSeen = true ∧ m.negotiated = true ∧ State.reset.chip.mgmt.versionSeen = false ∧
     State.reset.chip.mgmt.capsSeen = false ∧ State.reset.chip.mgmt.negotiated = false ∧
     (0 : W16).toNat < ({ State.reset.fuse with chain := [1] } : Fuse).chain.length) := by decide +kernel

/-! ## Rules stated whole -/

theorem test_meets_OwnModuleAddresses :
    2 ^ 55 ≤ 0x80_0500_0000_0010 ∧ 0x80_0500_0000_0010 < 2 ^ 56 ∧
    0x80_0500_0000_0010 / 2 ^ 40 % 2 ^ 15 = (Work.of (upWith id)).moduleId ∧ 0x80_0500_0000_0010 % 2 ^ 40 + 16 ≤ 2 ^ 40 := by decide +kernel
theorem test_meets_ChannelInterleave :
    (Work.of (upWith id)).mapped.length = 256 ∧ (Work.of (upWith id)).chip.boot.hbmWindow = true ∧ 255 * 4096 + 7 < 256 * 2_684_354_560 ∧
    ((Work.of (upWith id)).hbmAt (255 * 4096 + 7)) = (255, 7) ∧ 256 * 2_684_354_560 ≤ 2 ^ 40 - 1 := by decide +kernel
theorem test_meets_OrderBounds :
    (Work.of (upWith id)).locked = true ∧ (Work.of (upWith id)).now = 1_000_000 ∧ 1_001_999 < (Work.of (upWith id)).now + 2_000 ∧
    (Work.of (upWith id)).now + 2_000 ≤ 1_002_000 ∧ 1_002_000 ≤ (Work.of (upWith id)).now + 86_400_000_000_000 ∧
    (Work.of (upWith id)).now + 86_400_000_000_000 < 86_400_001_000_001 := by decide +kernel
theorem test_meets_HistogramBins : pow2 3 ≤ 9 ∧ (9 : Rat) < pow2 (3 + 1) ∧ ledgerBin 62 = 63 ∧ ledgerBin (-63) = 0 ∧ ledgerBin (-62) = 1 := by
  decide +kernel
theorem test_meets_HopLimit :
    (let w := Work.of (routed id id)
     let m := { nmsg 0 1 (some 0) with body := [9, 0, 6, 0, 1, 5, 0, 0] ++ zs 40 }
     m.body.length = 48 ∧ m.hops < 63 ∧ w.route (w.transitPound 0) m.dst m.src m.offset = some 0) ∧
    (let w := Work.of (routed id id)
     let m := { nmsg 0 1 (some 0) with body := [9, 0, 6, 0, 1, 63, 0, 0] ++ zs 40 }
     m.body.length = 48 ∧ m.hops = 63 ∧ m.isRequest = true ∧ w.route w.transitDefault m.src w.moduleId m.offset = some 0 ∧
     ({ m with body := [9, 0, 6, 0, 0x41, 63, 0, 0] ++ zs 40 } : NylMsg).isRequest = false) := by decide +kernel

/-! ## More commands that are not well formed: one for each check -/

def long : List NFlit := List.replicate 65 (flit [])
def f0 : NFlit := flit []

theorem test_refused_hostStore : exec (.hostStore 0 0 .b16 0 .pma) State.reset = .fault .illFormed := rfl
theorem test_refused_hostNtStore : exec (.hostNtStore 0 0 .b16 0 .pma) State.reset = .fault .illFormed := rfl
theorem test_refused_hostAmo : exec (.hostAmo 0 .add 0 .b16 0 0 .pma) State.reset = .fault .illFormed := rfl
theorem test_refused_hostLr : exec (.hostLr 0 0 .b2 .pma) State.reset = .fault .illFormed := rfl
theorem test_refused_hostSc : exec (.hostSc 0 0 .b1 0 .pma) State.reset = .fault .illFormed := rfl
theorem test_refused_tileLoad : exec (.tileLoad 0 0 (.x 1 true) 0 0 .b16) State.reset = .fault .illFormed ∧
    exec (.tileLoad 0 0 (.f 1) 0 0 .b1) State.reset = .fault .illFormed := ⟨rfl, rfl⟩
theorem test_refused_tileStore : exec (.tileStore 0 0 (.x 1) 0 0 .b16) State.reset = .fault .illFormed := rfl
theorem test_refused_tileAmo : exec (.tileAmo 0 0 .cas 1 2 3 .b4) State.reset = .fault .illFormed ∧
    exec (.tileAmo 0 0 .add 1 2 3 .b2) State.reset = .fault .illFormed := ⟨rfl, rfl⟩
theorem test_refused_tileLr : exec (.tileLr 0 0 1 2 .b1) State.reset = .fault .illFormed := rfl
theorem test_refused_tileSc : exec (.tileSc 0 0 1 2 3 .b2) State.reset = .fault .illFormed := rfl
theorem test_refused_atomic : exec (.atomic 0 0 .swap ⟨0, quiet⟩ .b1 0 0) State.reset = .fault .illFormed := rfl
theorem test_refused_sluiceTick : exec (.sluiceTick { sample with shares := [] }) State.reset = .fault .illFormed ∧
    exec (.sluiceTick { sample with fits := [] }) State.reset = .fault .illFormed ∧
    exec (.sluiceTick { sample with railAmps := [] }) State.reset = .fault .illFormed := ⟨rfl, rfl, rfl⟩
theorem test_refused_pcieInboundRequest : exec (.pcieInboundRequest 0 (rq 0 (.read 0))) State.reset = .fault .illFormed ∧
    exec (.pcieInboundRequest 0 (rq 0 (.read 4097))) State.reset = .fault .illFormed ∧
    exec (.pcieInboundRequest 0 (rq 0 (.write []))) State.reset = .fault .illFormed ∧
    exec (.pcieInboundRequest 0 (rq 0 (.atomic .add .b16 0 0))) State.reset = .fault .illFormed ∧
    exec (.pcieInboundRequest 0 (rq 0 (.atomic .max .b4 0 0))) State.reset = .fault .illFormed := ⟨rfl, rfl, rfl, rfl, rfl⟩
theorem test_refused_loadCharter : (Instr.loadCharter 0 (List.replicate 65537 0) true).wellFormed = false := by
  show decide ((List.replicate 65537 (0 : Byte)).length ≤ 65536) = false
  rw [List.length_replicate]; rfl
theorem test_refused_messages : (∀ i ∈ [Instr.nylRead 0 f0 long, .nylWritePlain 0 f0 long, .nylWritePublish 0 f0 long, .nylAdd64 0 f0 long,
    .nylSwap64 0 f0 long, .nylCas64 0 f0 long, .readData 0 f0 long, .writeDone 0 f0 long, .atomicDone 0 f0 long, .nylError 0 f0 long,
    .cdata 0 f0 long, .cack 0 f0 long, .cabort 0 f0 long], i.wellFormed = false) := by
  intro i h
  simp only [List.mem_cons, List.not_mem_nil, or_false] at h
  rcases h with h | h | h | h | h | h | h | h | h | h | h | h | h <;> subst h <;> simp [Instr.wellFormed, nylData, long]
theorem test_refused_cack : exec (.cack 0 f0 long) State.reset = .fault .illFormed := by
  have h : (Instr.cack 0 f0 long).wellFormed = false := by simp [Instr.wellFormed, nylData, long]
  simp [exec, execCack, liftIf, nylData, long]

/-! ## Worked examples of the manual -/

/-- "Worked quantisation", block 1, of spec/06_number_formats.md, in units of 2^-6. -/
def block1 : List (Option Machine.Num) :=
  ([288, -144, 72, 20, -44, 208, 0, 56, 26, -16, 8, 20, -3, 12, 48, -36, 160, 96, -256, 52, 88, -40, 128, 64, -72, 32, 6, -60, 64, 1, -24,
    42] : List Int).map (fun i => some (.fin (decide (i < 0)) ((i.natAbs : Rat) / 64)))

theorem test_worked_mxfp4 :
    let r := (BlockFmt.mx e2m1).convert (fun _ => .nearest) block1 0
    r.1 = 0x7F ∧ r.2.map (·.1) = [6, 0xC, 2, 1, 9, 5, 0, 2, 1, 0, 0, 1, 0, 0, 2, 9, 4, 3, 0xE, 2, 3, 9, 4, 2, 0xA, 1, 0, 0xA, 2, 0, 9, 1] := by
  decide +kernel
theorem test_worked_ht4 :
    let r := BlockFmt.ht4.convert (fun _ => .nearest) block1 0
    r.1 = 0x0A9E ∧ r.2.map (·.1) = [7, 0xD, 3, 1, 0xA, 6, 0, 2, 4, 0xB, 1, 3, 0, 2, 6, 0xD, 5, 4, 0xF, 2, 4, 0xA, 5, 3, 0xF, 5, 1, 0xE, 7, 0, 0xC, 6] := by
  decide +kernel

/-- "Worked decode" of spec/12_stacks_archive.md: offset 0x12_3456_7880, with all channels and with channel 40 out. -/
theorem test_worked_decode :
    (Work.of (upWith id)).hbmAt 0x12_3456_7880 = (103, 0x1234_5880) ∧
    (let w := Work.of (upWith (fun c => { c with cht := { c.cht with mapNow := setBit c.cht.mapNow 40 false } }))
     w.hbmAt 0x12_3456_7880 = (209, 0x1246_9880) ∧ w.arcAt ((0x100_0000_0000 + 0x12_3456_7880) / 128) = (104, 1180, 613_234_816 / 512)) ∧
    (Work.of (upWith id)).arcAt ((0x100_0000_0000 + 0x12_3456_7880) / 128) = (51, 1116, 610_842_752 / 512) := by decide +kernel

/-- "Error feedback on one block" of spec/13_nyulle_fabric.md: the two calls. -/
theorem test_worked_feedback :
    let f (q : Rat) : W32 := fp32Round q false
    let p := [f (51 / 16), f (3 / 128), f (3 / 2 * pow2 (-17))]
    let r := compressBlock p [0, 0, 0]
    r.1 = 0x78 ∧ r.2.1 = [0x7D, 0x44, 1] ∧ r.2.2.map (fun v => (fp32Num v).val) = [-1 / 16, 0, -pow2 (-18)] ∧
    ((compressBlock p r.2.2).2.1.headD 0 = 0x7C) ∧ ((compressBlock p r.2.2).2.2.map (fun v => (fp32Num v).val)).headD 0 = 1 / 8 := by
  decide +kernel

/-- The same example, within the channel: pseudo-channel, bank, row and byte. -/
theorem test_worked_channel :
    let at_ := fun a => let b := hbmByte a; (b.pseudo, b.bank, b.row, b.byte)
    at_ 0x1234_5880 = (1, 5, 1165, 128) ∧ at_ 0x1246_9880 = (1, 41, 1169, 128) ∧ (hbmByte 0x1246_9880).address = 0x1246_9880 := by decide +kernel

/-- A word of opcode custom-2 by its fields (R173): funct7 0x22, rs2 11, rs1 10, funct3 2. -/
theorem test_hm_word :
    hmDecode 0x44B5_205B = some (.op .hmma 0x22 11 10 0) ∧ hmDecode 0x44B5_705B = some .reserved ∧ hmDecode 0x44B5_2013 = none ∧
    hmBits 0x22 11 10 2 0 = 0x44B5_205B := by decide +kernel

/-- IEEE 754 in FP32 (R217): a tie to even and its direct roundings, a division by zero, a signalling NaN, an overflow, a conversion toward zero, and a
flushed operand. -/
theorem test_float_unit :
    let rne : FEnv := { md := .rne, flush := false }
    fp32.arith rne .add 0x3F80_0000 0x3380_0000 0 = (0x3F80_0000, nxFlag) ∧
    fp32.arith { rne with md := .rup } .add 0x3F80_0000 0x3380_0000 0 = (0x3F80_0001, nxFlag) ∧
    fp32.arith { rne with md := .rmm } .add 0x3F80_0000 0x3380_0000 0 = (0x3F80_0001, nxFlag) ∧
    fp32.arith rne .div 0xBF80_0000 0 0 = (0xFF80_0000, dzFlag) ∧ fp32.arith rne .add 0x7F80_0001 0 0 = (0x7FC0_0000, nvFlag) ∧
    fp32.arith rne .add 0x7F7F_FFFF 0x7F7F_FFFF 0 = (0x7F80_0000, ofFlag ||| nxFlag) ∧ fp64.arith rne .sqrt 0x4010_0000_0000_0000 0 0 = (0x4000_0000_0000_0000, 0) ∧
    fp32.toInt { rne with md := .rtz } 32 true 0xBFC0_0000 = (-1, nxFlag) ∧ fp32.arith rne .add 1 0 0 = (1, 0) ∧
    fp32.arith { rne with flush := true } .add 1 0 0 = (0, 0) ∧ fp16.unbox (fp16.box 0x3C00) = 0x3C00 ∧ fp16.unbox 0x3C00 = 0x7E00 := by decide +kernel

/-- Scalar and vector instructions of a core (R133, R135): a quotient by zero, a 32-bit sum, the counted length of a compressed instruction, an illegal
floating-point instruction of the control core, and vsetvl. -/
theorem test_core_instructions :
    AluOp.div.run64 false 5 0 = -1 ∧ AluOp.add.run64 true 0x7FFF_FFFF 1 = 0xFFFF_FFFF_8000_0000 ∧
    (let c : CoreRegs := { pc := 0x100, x := [(1, 7), (2, 9)], f := [], fcsr := 0 }
     (c.run (tileCaps 0) false 2 (.alu .add false 3 1 2)).map (fun d => (d.pc, d.reg 3)) = some (0x102, 16) ∧
     (c.run (tileCaps 0) false 4 (.arith .s .add 0 1 1 1 1)).isNone = true ∧ (c.run (tileCaps 1) false 4 (.arith .s .add 0 1 1 1 1)).isSome = true ∧
     (c.run hostCaps false 4 (.arith .h .add 0 1 1 1 1)).isNone = true) ∧
    vlmax 0x10 = 64 ∧ vtypeOk 0x10 = true ∧ vtypeOk 0x04 = false := by decide +kernel

end Sys2Proof.Tests
end

section
/-!
Accesses of a host core to the control region (Obligations.RegisterAccesses): what an instruction of a hart does before it acts, one
equation for each outcome of a store and of a load at a control offset, and the commands that make such an access.
-/

namespace Sys2Proof

open Sys2Proof.Machine

/-! ## Before an instruction of a hart acts (R322, R329, R371) -/

theorem hostInstr_of_free {s : State} {c : Nat} (h : HartFree s c) (f : Work → Work) :
    (Work.of s).hostInstr c f = f (untrap c (Work.of s)) := by
  obtain ⟨herr, hbusy⟩ := h
  have herr' : ((Work.of s).core c).hwError = none := herr
  simp [Work.hostInstr, herr', hbusy, untrap]

/-- A hardware error that is due is taken and f does not act. -/
theorem hostInstr_of_hwError {s : State} {c : Nat} {v : W64} (h : (coreOf s c).hwError = some v) (f : Work → Work) :
    (Work.of s).hostInstr c f =
      (Work.of s).modCore c (fun x => { x with hwError := none, trap := some (19, v), resv := none, lrHold := false }) := by
  have h' : ((Work.of s).core c).hwError = some v := h
  simp [Work.hostInstr, h', Work.hostTrap]

theorem hostInstr_of_busy {s : State} {c : Nat} (herr : (coreOf s c).hwError = none) (hbusy : (Work.of s).hartBusy c = true)
    (f : Work → Work) : (Work.of s).hostInstr c f = Work.of s := by
  have herr' : ((Work.of s).core c).hwError = none := herr
  simp [Work.hostInstr, herr', hbusy]

theorem hostIo_of_free {s : State} {c : Nat} (h : HartFree s c) (f : Work → Work) :
    (Work.of s).hostIo c f = f ((Work.of s).drainStores c) := by
  obtain ⟨herr, hbusy⟩ := h
  have herr' : ((Work.of s).core c).hwError = none := herr
  simp [Work.hostIo, herr', hbusy]

/-- The address map does not depend on the host cores' own state. -/
@[simp] theorem place_untrap (c : Nat) (w : Work) (a : Nat) : (untrap c w).place a = w.place a := rfl

/-! ## A store at a control offset (R7, R8, R70, R463, R559, R609, R612, R613) -/

/-- R7: the sizes that reach a register. -/
theorem regSize_iff {z : Size} : regSize z = true ↔ z = .b4 ∨ z = .b8 := by simp [regSize]

/-- The access has no size of a register, or is not aligned to its size: the first check of R8 in `ctlWrite` and `ctlRead`. -/
theorem badShape_iff {z : Size} {o : Nat} :
    (!regSize z || decide (o % z.bytes ≠ 0)) = true ↔ (z ≠ .b4 ∧ z ≠ .b8) ∨ o % z.bytes ≠ 0 := by
  simp [regSize]

theorem not_badShape {z : Size} {o : Nat} (hz : z = .b4 ∨ z = .b8) (ho : o % z.bytes = 0) :
    ¬ (!regSize z || decide (o % z.bytes ≠ 0)) = true := by
  simp [regSize_iff.mpr hz, ho]

/-- An aligned access of a register's size lies where the register starts or, with 4 bytes, at its upper half. -/
theorem register_add_half {z : Size} {o : Nat} (hz : z = .b4 ∨ z = .b8) (ho : o % z.bytes = 0) :
    o / 8 * 8 + halfOff z (decide (o % 8 = 4)) = o := by
  rcases hz with rfl | rfl
  · have ho : o % 4 = 0 := ho
    by_cases h : o % 8 = 4
    · simp only [halfOff, h]; simp; omega
    · simp only [halfOff, h]; simp; omega
  · have ho : o % 8 = 0 := ho
    simp only [halfOff, ho]; simp; omega

/-- The register write that a store of core c at a control offset makes. -/
def regWriteAt (c o : Nat) (z : Size) (v : W64) : RegWrite :=
  { core := c, reg := o / 8 * 8, off := o, size := z, high := decide (o % 8 = 4), value := v }

section Write
variable {w : Work} {c o : Nat} {z : Size} {v : W64}

theorem ctlWrite_of_file {f : Nat} (hf : w.fileAt o = some f) : w.ctlWrite c o z v = w.fileWrite c f o z v := by
  simp [Work.ctlWrite, hf]

theorem fileWrite_malformed {f : Nat} (h : z ≠ .b4 ∨ (o % 4096 ≠ 0 ∧ o % 4096 ≠ 4)) :
    w.fileWrite c f o z v = w.malformed c o true z v := by
  have hc : (decide (z ≠ .b4) || !(decide (o % 4096 = 0) || decide (o % 4096 = 4))) = true := by simpa using h
  simp only [Work.fileWrite, hc, if_true]

/-- A well-formed write to an interrupt file asks who writes, and sets the identity pending only for a core of the hart's pound. -/
theorem fileWrite_wellFormed {f : Nat} (hz : z = .b4) (ho : o % 4096 = 0 ∨ o % 4096 = 4) :
    w.fileWrite c f o z v =
      if (w.coreOwner c).isNone && !w.provisioning || w.coreOwner c ≠ w.coreOwner (imsicHart f) then w.denyStore c (ctlBase + o)
      else untrap c (w.imsicSet f (if o % 4096 = 0 then v.setWidth 32 else swap32 (v.setWidth 32)).toNat) := by
  have hc : (decide (z ≠ .b4) || !(decide (o % 4096 = 0) || decide (o % 4096 = 4))) = false := by simp [hz]; omega
  simp only [Work.fileWrite, hc, Bool.false_eq_true, if_false]; rfl

theorem fileWrite_sets {f : Nat} (hz : z = .b4) (ho : o % 4096 = 0 ∨ o % 4096 = 4)
    (hp : w.provisioning = true ∨ (w.coreOwner c).isSome = true) (hown : w.coreOwner c = w.coreOwner (imsicHart f)) :
    w.fileWrite c f o z v =
      untrap c (w.imsicSet f (if o % 4096 = 0 then v.setWidth 32 else swap32 (v.setWidth 32)).toNat) := by
  rw [fileWrite_wellFormed hz ho, if_neg]
  rcases hp with hp | hp
  · simp [hp, hown]
  · obtain ⟨p, hp⟩ := Option.isSome_iff_exists.mp hp
    simp [hp, ← hown]

theorem fileWrite_denied {f : Nat} (hz : z = .b4) (ho : o % 4096 = 0 ∨ o % 4096 = 4)
    (h : w.coreOwner c ≠ w.coreOwner (imsicHart f) ∨ w.provisioning = false ∧ w.coreOwner c = none) :
    w.fileWrite c f o z v = w.denyStore c (ctlBase + o) := by
  rw [fileWrite_wellFormed hz ho, if_pos]
  rcases h with hne | ⟨hp, hnone⟩
  · simp [hne]
  · simp [hp, hnone]

theorem ctlWrite_aplic {d k : Nat} (hf : w.fileAt o = none) (ha : aplicAt o = some (d, k)) (hz : z = .b4) (hk : k % 4 = 0)
    (hd : aplicDefined d k = true) : w.ctlWrite c o z v = untrap c (w.aplicWrite d k (v.setWidth 32)) := by
  simp [Work.ctlWrite, hf, ha, hz, hk, hd, untrap]

theorem ctlWrite_aplic_malformed {d k : Nat} (hf : w.fileAt o = none) (ha : aplicAt o = some (d, k))
    (h : z ≠ .b4 ∨ k % 4 ≠ 0 ∨ aplicDefined d k = false) : w.ctlWrite c o z v = w.malformed c o true z v := by
  have hc : ¬ (decide (z = .b4) && decide (k % 4 = 0) && aplicDefined d k) = true := by
    rcases h with h | h | h <;> simp [h]
  simp only [Work.ctlWrite, hf, ha, if_neg hc]

theorem ctlWrite_badShape (hf : w.fileAt o = none) (ha : aplicAt o = none) (h : (z ≠ .b4 ∧ z ≠ .b8) ∨ o % z.bytes ≠ 0) :
    w.ctlWrite c o z v = w.malformed c o true z v := by
  simp only [Work.ctlWrite, hf, ha, badShape_iff.mpr h, if_true]

section Shaped
variable (hf : w.fileAt o = none) (ha : aplicAt o = none) (hz : z = .b4 ∨ z = .b8) (ho : o % z.bytes = 0)
include hf ha hz ho

theorem ctlWrite_iommu (hlo : 0x600_0000 ≤ o) (hhi : o < 0x600_1000) :
    w.ctlWrite c o z v = untrap c (w.iommuWrite (o - 0x600_0000) z v) := by
  simp only [Work.ctlWrite, hf, ha, regSize_iff.mpr hz, ho, hlo, hhi]; simp [untrap]

variable (hi : ¬ (0x600_0000 ≤ o ∧ o < 0x600_1000))
include hi

/-- Outside the interrupt pages and the IOMMU: no register there is malformed, else the register's own write. -/
theorem ctlWrite_register :
    w.ctlWrite c o z v =
      if (w.reg? (o / 8 * 8)).isNone then w.malformed c o true z v
      else
        w.regDo c (o / 8 * 8) z (decide (o % 8 = 4)) (w.regAct (regWriteAt c o z v)).1 v (w.regAct (regWriteAt c o z v)).2 := by
  have hi' : ¬ (decide (0x600_0000 ≤ o) && decide (o < 0x600_1000)) = true := by simpa using hi
  simp only [Work.ctlWrite, hf, ha, if_neg hi', if_neg (not_badShape hz ho), regWriteAt]

theorem ctlWrite_noRegister (hr : w.reg? (o / 8 * 8) = none) : w.ctlWrite c o z v = w.malformed c o true z v := by
  rw [ctlWrite_register hf ha hz ho hi, hr]; rfl

/-- The write to a register, by what its unit and its writer are (R70, R559, R612, R613). -/
theorem ctlWrite_checks (hr : w.reg? (o / 8 * 8) ≠ none) :
    w.ctlWrite c o z v =
      if w.blockOut (o / 8 * 8) then w.malformed c o true z v
      else if !(w.regAct (regWriteAt c o z v)).1 then w.denyStore c (ctlBase + o)
      else if w.cpOut (o / 8 * 8) then w.malformed c o true z v
      else if w.tileOut (o / 8 * 8) then untrap c w
      else untrap c ((w.regAct (regWriteAt c o z v)).2 w) := by
  have hn : ¬ (w.reg? (o / 8 * 8)).isNone = true := by simpa using hr
  rw [ctlWrite_register hf ha hz ho hi, if_neg hn]
  simp only [Work.regDo, regSize_iff.mpr hz, Nat.add_assoc, register_add_half hz ho, Bool.not_true, Bool.false_eq_true, if_false]
  rfl

variable (hr : w.reg? (o / 8 * 8) ≠ none)
include hr

theorem ctlWrite_blockOut (hb : w.blockOut (o / 8 * 8) = true) : w.ctlWrite c o z v = w.malformed c o true z v := by
  rw [ctlWrite_checks hf ha hz ho hi hr, if_pos hb]

variable (hb : w.blockOut (o / 8 * 8) = false)
include hb

theorem ctlWrite_refused (hm : (w.regAct (regWriteAt c o z v)).1 = false) :
    w.ctlWrite c o z v = w.denyStore c (ctlBase + o) := by
  simp [ctlWrite_checks hf ha hz ho hi hr, hb, hm]

variable (hm : (w.regAct (regWriteAt c o z v)).1 = true)
include hm

theorem ctlWrite_cpOut (hcp : w.cpOut (o / 8 * 8) = true) : w.ctlWrite c o z v = w.malformed c o true z v := by
  simp [ctlWrite_checks hf ha hz ho hi hr, hb, hm, hcp]

variable (hcp : w.cpOut (o / 8 * 8) = false)
include hcp

theorem ctlWrite_tileOut (ht : w.tileOut (o / 8 * 8) = true) : w.ctlWrite c o z v = untrap c w := by
  simp [ctlWrite_checks hf ha hz ho hi hr, hb, hm, hcp, ht]

theorem ctlWrite_acts (ht : w.tileOut (o / 8 * 8) = false) :
    w.ctlWrite c o z v = untrap c ((w.regAct (regWriteAt c o z v)).2 w) := by
  simp [ctlWrite_checks hf ha hz ho hi hr, hb, hm, hcp, ht]

end Shaped
end Write

/-! ## A load at a control offset (R7, R8, R70, R463, R479, R559, R609, R612, R613) -/

theorem malformed_read (w : Work) (c o : Nat) (z : Size) :
    w.malformed c o false z 0 = (w.recReg c (ctlBase + o) false z.bytes 0).hostRet c 0 := rfl

theorem halfOf_eq (z : Size) (o : Nat) (x : W64) :
    halfOf z o x = if z = .b8 then x.toNat else if o % 8 = 4 then x.toNat / 2 ^ 32 else x.toNat % 2 ^ 32 := by
  have hhigh : bits x 63 32 = x.toNat / 2 ^ 32 :=
    Nat.mod_eq_of_lt (Nat.div_lt_of_lt_mul x.isLt)
  have hlow : bits x 31 0 = x.toNat % 2 ^ 32 := by simp [bits]
  rw [halfOf, hhigh, hlow]

@[simp] theorem halfOf_zero (z : Size) (o : Nat) : halfOf z o 0#64 = 0 := by simp [halfOf_eq]

section Read
variable {w : Work} {c o : Nat} {z : Size}

theorem ctlRead_file {f : Nat} (hf : w.fileAt o = some f) (hz : z = .b4) (ho : o % 4096 = 0 ∨ o % 4096 = 4) :
    w.ctlRead c o z = w.hostRet c 0 := by
  simp [Work.ctlRead, hf, hz, ho]

theorem ctlRead_file_malformed {f : Nat} (hf : w.fileAt o = some f) (h : z ≠ .b4 ∨ (o % 4096 ≠ 0 ∧ o % 4096 ≠ 4)) :
    w.ctlRead c o z = w.malformed c o false z 0 := by
  have hc : ¬ (decide (z = .b4) && (decide (o % 4096 = 0) || decide (o % 4096 = 4))) = true := by
    rcases h with h | ⟨h0, h4⟩
    · simp [h]
    · simp [h0, h4]
  simp only [Work.ctlRead, hf, if_neg hc]

theorem ctlRead_aplic {d k : Nat} (hf : w.fileAt o = none) (ha : aplicAt o = some (d, k)) (hz : z = .b4) (hk : k % 4 = 0)
    (hd : aplicDefined d k = true) : w.ctlRead c o z = w.hostRet c (w.aplicRead d k) := by
  simp [Work.ctlRead, hf, ha, hz, hk, hd]

theorem ctlRead_aplic_malformed {d k : Nat} (hf : w.fileAt o = none) (ha : aplicAt o = some (d, k))
    (h : z ≠ .b4 ∨ k % 4 ≠ 0 ∨ aplicDefined d k = false) : w.ctlRead c o z = w.malformed c o false z 0 := by
  have hc : ¬ (decide (z = .b4) && decide (k % 4 = 0) && aplicDefined d k) = true := by
    rcases h with h | h | h <;> simp [h]
  simp only [Work.ctlRead, hf, ha, if_neg hc]

section Plain
variable (hf : w.fileAt o = none) (ha : aplicAt o = none)
include hf ha

/-- Outside the interrupt pages: the IOMMU's page reads its register file, and the read of a RoCE doorbell is a free value. -/
theorem ctlRead_plain :
    w.ctlRead c o z =
      let y := w.iommuRead (o / 8 * 8 - 0x600_0000)
      if !regSize z || decide (o % z.bytes ≠ 0) then w.malformed c o false z 0
      else if 0x600_0000 ≤ o ∧ o < 0x600_1000 then y.1.hostRet c (halfOf z o y.2)
      else (w.reg? (o / 8 * 8)).elim (w.malformed c o false z 0) (fun x =>
        if 0x610_0000 ≤ o ∧ o < 0x620_0000 then w.take.2.hostRet c (halfOf z o (Config.freeWord w.take.1))
        else w.regRead c o (o / 8 * 8) z x) := by
  unfold Work.ctlRead
  generalize w.iommuRead (o / 8 * 8 - 0x600_0000) = y
  obtain ⟨u, x⟩ := y
  cases w.reg? (o / 8 * 8) <;> simp only [hf, ha, Option.elim, Bool.and_eq_true, decide_eq_true_eq]

theorem ctlRead_badShape (h : (z ≠ .b4 ∧ z ≠ .b8) ∨ o % z.bytes ≠ 0) : w.ctlRead c o z = w.malformed c o false z 0 := by
  rw [ctlRead_plain hf ha]; exact if_pos (badShape_iff.mpr h)

variable (hz : z = .b4 ∨ z = .b8) (ho : o % z.bytes = 0)
include hz ho

theorem ctlRead_iommu (hlo : 0x600_0000 ≤ o) (hhi : o < 0x600_1000) {y : Work × W64}
    (hy : w.iommuRead (o / 8 * 8 - 0x600_0000) = y) : w.ctlRead c o z = y.1.hostRet c (halfOf z o y.2) := by
  rw [ctlRead_plain hf ha, hy]
  exact (if_neg (not_badShape hz ho)).trans (if_pos ⟨hlo, hhi⟩)

variable (hi : ¬ (0x600_0000 ≤ o ∧ o < 0x600_1000))
include hi

theorem ctlRead_noRegister (hr : w.reg? (o / 8 * 8) = none) : w.ctlRead c o z = w.malformed c o false z 0 := by
  rw [ctlRead_plain hf ha, hr]
  exact (if_neg (not_badShape hz ho)).trans (if_neg hi)

theorem ctlRead_doorbell (hr : w.reg? (o / 8 * 8) ≠ none) (hlo : 0x610_0000 ≤ o) (hhi : o < 0x620_0000) :
    w.ctlRead c o z = w.take.2.hostRet c (halfOf z o (Config.freeWord w.take.1)) := by
  obtain ⟨x, hx⟩ := Option.ne_none_iff_exists'.mp hr
  rw [ctlRead_plain hf ha, hx]
  exact (if_neg (not_badShape hz ho)).trans ((if_neg hi).trans (if_pos ⟨hlo, hhi⟩))

theorem ctlRead_regRead {x : W64} (hr : w.reg? (o / 8 * 8) = some x) (hb : o < 0x610_0000 ∨ 0x620_0000 ≤ o) :
    w.ctlRead c o z = w.regRead c o (o / 8 * 8) z x := by
  rw [ctlRead_plain hf ha, hr]
  exact (if_neg (not_badShape hz ho)).trans ((if_neg hi).trans (if_neg (by omega)))

end Plain

/-! What `regRead` answers, in the order of its checks. -/

section Checks
variable {r : Nat} {x : W64}

theorem regRead_blockOut (hb : w.blockOut r = true) :
    w.regRead c o r z x = w.hostRet c (if keptOut r then halfOf z o x else 0) := by
  cases hk : keptOut r with
  | true => simp [Work.regRead, hb, hk]
  | false => simp [Work.regRead, hb, hk]

variable (hb : w.blockOut r = false)
include hb

theorem regRead_denied (hm : w.mayRead c r = false) : w.regRead c o r z x = w.denyLoad c (ctlBase + o) := by
  simp [Work.regRead, hb, hm]

variable (hm : w.mayRead c r = true)
include hm

theorem regRead_cpOut (hcp : w.cpOut r = true) : w.regRead c o r z x = w.malformed c o false z 0 := by
  rw [malformed_read]; simp [Work.regRead, hb, hm, hcp]

variable (hcp : w.cpOut r = false)
include hcp

theorem regRead_tileOut (ht : w.tileOut r = true) : w.regRead c o r z x = w.hostRet c 0 := by
  simp [Work.regRead, hb, hm, hcp, ht]

theorem regRead_value (ht : w.tileOut r = false) : w.regRead c o r z x = w.hostRet c (halfOf z o x) := by
  simp [Work.regRead, hb, hm, hcp, ht]

end Checks
end Read

/-! ## The commands that make these accesses -/

/-- The commands that store to a control offset: earlier stores of the hart become visible first (R329). -/
theorem runs_ctlWrite {s : State} {c : CoreId} {a : PAddr} {z : Size} {v : W64} {p : Pbmt} {o : Nat} (h : HartFree s c)
    (hp : (Work.of s).place a.toNat = .control o) {i : Instr}
    (hi : i = .registerWrite c a z v ∨ i = .registerAccessMalformed c a z true v ∨ (i = .hostStore c a z v p ∧ z ≠ .b16) ∨
      (i = .hostNtStore c a z v p ∧ z ≠ .b16)) :
    Runs i s (((untrap c (Work.of s)).drainStores c).ctlWrite c o z (sized z v)) := by
  have hstore (q : Pbmt) (nt : Bool) : (Work.of s).hostInstr c (fun w => w.hostStore c a.toNat z v q nt) =
      ((untrap c (Work.of s)).drainStores c).ctlWrite c o z (sized z v) := by
    rw [hostInstr_of_free h]; simp only [Work.hostStore, place_untrap, hp]
  rcases hi with rfl | rfl | ⟨rfl, hz⟩ | ⟨rfl, hz⟩
  · exact runs_of_lift exec_registerWrite (hstore .pma false)
  · exact runs_of_lift exec_registerAccessMalformed (hstore .pma false)
  · exact runs_of_lift (exec_hostStore.trans (liftIf_eq (decide_eq_true hz))) (hstore p false)
  · exact runs_of_lift (exec_hostNtStore.trans (liftIf_eq (decide_eq_true hz))) (hstore p true)

/-- The commands that load from a control offset. -/
theorem runs_ctlRead {s : State} {c : CoreId} {a : PAddr} {z : Size} {v : W64} {p : Pbmt} {o : Nat} (h : HartFree s c)
    (hp : (Work.of s).place a.toNat = .control o) {i : Instr}
    (hi : i = .registerAccessMalformed c a z false v ∨ (i = .hostLoad c a z p ∧ z ≠ .b16)) :
    Runs i s ((untrap c (Work.of s)).ctlRead c o z) := by
  have hload (q : Pbmt) : (Work.of s).hostInstr c (fun w => w.hostLoad c a.toNat z q) = (untrap c (Work.of s)).ctlRead c o z := by
    rw [hostInstr_of_free h]; simp only [Work.hostLoad, place_untrap, hp]
  rcases hi with rfl | ⟨rfl, hz⟩
  · exact runs_of_lift exec_registerAccessMalformed (hload .pma)
  · exact runs_of_lift (exec_hostLoad.trans (liftIf_eq (decide_eq_true hz))) (hload p)

/-- A register write, a load and the fences run as an instruction of their hart. -/
theorem exec_hostInstr {s : State} {c : CoreId} {i : Instr}
    (hi : (∃ a z x, i = .registerWrite c a z x) ∨ (∃ a z p, i = .hostLoad c a z p ∧ z ≠ .b16) ∨ (∃ x y, i = .hostFence c x y) ∨
      i = .fenceI c) : ∃ f : Work → Work, exec i s = lift (fun w => w.hostInstr c f) s := by
  rcases hi with ⟨a, z, x, rfl⟩ | ⟨a, z, p, rfl, hz⟩ | ⟨x, y, rfl⟩ | rfl
  · exact ⟨_, exec_registerWrite⟩
  · exact ⟨_, exec_hostLoad.trans (liftIf_eq (decide_eq_true hz))⟩
  · exact ⟨_, exec_hostFence⟩
  · exact ⟨_, exec_fenceI⟩

/-- Settles O41: each clause is the equation of `ctlWrite` or `ctlRead` for its outcome, at a command that makes the access. -/
theorem registerAccesses : Obligations.RegisterAccesses := by
  unfold Obligations.RegisterAccesses
  refine ⟨?store, ?load, ?hwError, ?busy, fun s c f h => hostIo_of_free h f⟩
  case store =>
    intro s c a z v p o h hp i hi w x reg high r bad
    have hrun {u : Work} (hu : w.ctlWrite c o z x = u) : Runs i s u := hu ▸ runs_ctlWrite h hp hi
    refine ⟨fun hf ha => ⟨?badShape, ?register, ?iommu⟩, ?file, ?fileMalformed, ?aplic⟩
    case badShape => exact fun hshape => hrun (ctlWrite_badShape hf ha hshape)
    case register =>
      intro hz ho hio
      refine ⟨fun hr => hrun (ctlWrite_noRegister hf ha hz ho hio hr), fun hr hout => hrun (ctlWrite_blockOut hf ha hz ho hio hr hout),
        fun hr hb => ⟨fun hm => ?_, fun hm hcp => ?_, fun hm hcp ht => ?_, fun hm hcp ht => ?_⟩⟩
      · exact hrun (ctlWrite_refused hf ha hz ho hio hr hb hm)
      · exact hrun (ctlWrite_cpOut hf ha hz ho hio hr hb hm hcp)
      · exact hrun (ctlWrite_acts hf ha hz ho hio hr hb hm hcp ht)
      · exact hrun (ctlWrite_tileOut hf ha hz ho hio hr hb hm hcp ht)
    case iommu => exact fun hz ho hlo hhi => hrun (ctlWrite_iommu hf ha hz ho hlo hhi)
    case file =>
      intro f hf hz ho n
      exact ⟨fun hprov hown => hrun ((ctlWrite_of_file hf).trans (fileWrite_sets hz ho hprov hown)),
        fun hden => hrun ((ctlWrite_of_file hf).trans (fileWrite_denied hz ho hden))⟩
    case fileMalformed => exact fun f hf hshape => hrun ((ctlWrite_of_file hf).trans (fileWrite_malformed hshape))
    case aplic =>
      exact fun d k hf ha => ⟨fun hz hk hd => hrun (ctlWrite_aplic hf ha hz hk hd), fun hbad => hrun (ctlWrite_aplic_malformed hf ha hbad)⟩
  case load =>
    intro s c a z v p o h hp i hi w ret bad part reg
    have hrun {u : Work} (hu : w.ctlRead c o z = u) : Runs i s u := hu ▸ runs_ctlRead h hp hi
    have hpart (y : W64) : halfOf z o y = part y := halfOf_eq z o y
    refine ⟨?file, ?aplic, fun hf ha => ⟨?badShape, fun hz ho => ⟨?iommu, ?noRegister, ?doorbell, ?register⟩⟩⟩
    case file =>
      exact fun f hf => ⟨fun hz ho => hrun (ctlRead_file hf hz ho), fun hshape => hrun (ctlRead_file_malformed hf hshape)⟩
    case aplic =>
      exact fun d k hf ha => ⟨fun hz hk hd => hrun (ctlRead_aplic hf ha hz hk hd), fun hbad => hrun (ctlRead_aplic_malformed hf ha hbad)⟩
    case badShape => exact fun hshape => hrun (ctlRead_badShape hf ha hshape)
    case iommu =>
      intro hlo hhi y
      -- y is made opaque: checking it unfolded would recurse through the difference of the offsets
      have hy : w.iommuRead (o / 8 * 8 - 0x600_0000) = y := rfl
      clear_value y
      rw [← hpart]; exact hrun (ctlRead_iommu hf ha hz ho hlo hhi hy)
    case noRegister => exact fun hio hr => hrun (ctlRead_noRegister hf ha hz ho hio hr)
    case doorbell =>
      intro hio hr hlo hhi
      rw [← hpart]; exact hrun (ctlRead_doorbell hf ha hz ho hio hr hlo hhi)
    case register =>
      intro hio hb y hr
      have hreg {u : Work} (hu : w.regRead c o reg z y = u) : Runs i s u := hrun ((ctlRead_regRead hf ha hz ho hio hr hb).trans hu)
      rw [← hpart]
      exact ⟨fun hout => hreg (regRead_blockOut hout), fun hin hm => hreg (regRead_denied hin hm),
        fun hin hm hcp => hreg (regRead_cpOut hin hm hcp), fun hin hm hcp ht => hreg (regRead_tileOut hin hm hcp ht),
        fun hin hm hcp ht => hreg (regRead_value hin hm hcp ht)⟩
  case hwError =>
    intro s c v hv i hi
    obtain ⟨f, hf⟩ := exec_hostInstr hi
    exact gives_of_modCore _ hf (hostInstr_of_hwError hv f) rfl
  case busy =>
    intro s c herr hbusy i hi
    obtain ⟨f, hf⟩ := exec_hostInstr hi
    exact becomes_of_lift hf (hostInstr_of_busy herr hbusy f)

end Sys2Proof
end

section
/-!
What every command can come to (Obligations.CommandOutcomes): one form for the arms of `exec`, from which the outcomes follow.
-/

namespace Sys2Proof

open Sys2Proof.Machine

/-- The form of every arm of `exec`: it runs some f on the workbench, behind the check of the command's operands and nothing else
(log entries 7 and 37). -/
theorem exec_eq_liftIf (s : State) (c : Instr) : ∃ f : Work → Work, exec c s = liftIf c.wellFormed f s := by
  cases c <;> exact ⟨_, rfl⟩

theorem exec_of_wellFormed (s : State) {c : Instr} (h : c.wellFormed = true) : ∃ f : Work → Work, exec c s = lift f s := by
  obtain ⟨f, hf⟩ := exec_eq_liftIf s c
  exact ⟨f, hf.trans (liftIf_eq h)⟩

theorem exec_of_illFormed (s : State) {c : Instr} (h : c.wellFormed = false) : exec c s = .fault .illFormed := by
  obtain ⟨f, hf⟩ := exec_eq_liftIf s c
  rw [hf, h, liftIf_false]

theorem wellFormed_of_exec {s t : State} {c : Instr} (h : exec c s = .next t) : c.wellFormed = true := by
  cases hw : c.wellFormed with
  | true => rfl
  | false => cases (exec_of_illFormed s hw).symm.trans h

/-- Settles O4: an arm is `lift f` where the command is well formed, and `lift` keeps the fuses and the queue; an arm is the fault
where it is not. -/
theorem commandOutcomes : Obligations.CommandOutcomes := by
  unfold Obligations.CommandOutcomes
  refine ⟨fun s c => ⟨fun hw => ?next, exec_of_illFormed s⟩, fun s t c ht => ?kept⟩
  case next =>
    obtain ⟨f, hf⟩ := exec_of_wellFormed s hw
    obtain ⟨t, ht, -⟩ := lift_next f s
    exact ⟨t, hf.trans ht⟩
  case kept =>
    obtain ⟨f, hf⟩ := exec_of_wellFormed s (wellFormed_of_exec ht)
    obtain ⟨u, hu, hfuse, hpending, -⟩ := lift_next f s
    cases (hf.trans hu).symm.trans ht
    exact ⟨hfuse, hpending⟩

end Sys2Proof
end

section
/-!
The steps of a pound restart (Obligations.PoundRestarts): what the end of a drain, of zeroing and of a start make of the workbench.
-/

namespace Sys2Proof

open Sys2Proof.Machine

section
variable {w : Work} {p : Nat}

/-! ## The drain (R87, R90, R266) -/

/-- Pound p after its drain, scrubbing with its new structure g and rs: its canals, queues and tiles are given up, and what it gave up
is zeroed where no pound gains it. -/
def poundDrained (w : Work) (p : Nat) (g : Option PoundCfg) (rs : List Region) : Work :=
  let torn := (w.canalTearDown p).dropQueues p g
  let gone := idxs 144 (fun k => torn.tileOwner k = some p && !(match g with | some g => bit g.tileMask k | none => false))
  let given := torn.each gone (fun w k => w.modTile k (fun x => { x.handOver .unowned with ledger := [] }))
  ((given.modPound p (fun x => { x with cfg := g, regs := rs, goal := none, st := .scrubbing, fences := [] })).scrubsDrained p).scrubLeft

/-- Pound p is gone: the new charter has none, and only the count of its losses stays. -/
def poundGone (w : Work) (p : Nat) : Work :=
  { w with chip := { w.chip with
      cht := { w.chip.cht with restarting := without w.chip.cht.restarting p }
      pwr := { w.chip.pwr with pounds := SMap.erase w.chip.pwr.pounds p }
      pounds := SMap.modify Pound.none w.chip.pounds p (fun x => { Pound.none with losses := x.losses }) } }

/-- The interleave changes where nothing holds it back any more, and every pound that has nothing to zero starts. -/
def scrubsSettled (w : Work) : Work := w.switchMap.each (List.range 16) (fun w p => w.settleScrub p)

/-- Pound p takes the further charter that has come meanwhile (R90). -/
def takesDeferred (w : Work) (p : Nat) : Work :=
  { w with chip := { w.chip with cht := { w.chip.cht with deferred := without w.chip.cht.deferred p, late := true } } }

theorem drainEnd_of_noGoal (h : (w.pound p).goal = none) : w.drainEnd p = w := by
  simp only [Work.drainEnd, h]

theorem drainEnd_of_busy (h : (w.sqsOf p).any w.sqBusy = true) : w.drainEnd p = w := by
  cases hgoal : (w.pound p).goal with
  | none => exact drainEnd_of_noGoal hgoal
  | some g => simp only [Work.drainEnd, hgoal, h, if_true]

section
variable {rs : List Region} (hidle : (w.sqsOf p).any w.sqBusy = false)
include hidle

theorem drainEnd_kept {g : PoundCfg} (hgoal : (w.pound p).goal = some (some g, rs)) :
    w.drainEnd p = scrubsSettled (poundDrained w p (some g) rs) := by
  simp only [Work.drainEnd, scrubsSettled, poundDrained, hgoal, hidle, Bool.false_eq_true, if_false]

variable (hgoal : (w.pound p).goal = some (none, rs))
include hgoal

theorem drainEnd_gone (hdef : (scrubsSettled (poundGone (poundDrained w p none rs) p)).chip.cht.deferred.contains p = false) :
    w.drainEnd p = scrubsSettled (poundGone (poundDrained w p none rs) p) := by
  simp only [scrubsSettled, poundGone, poundDrained] at hdef ⊢
  simp only [Work.drainEnd, hgoal, hidle, Bool.false_eq_true, if_false, hdef]

theorem drainEnd_gone_deferred {c : Charter}
    (hdef : (scrubsSettled (poundGone (poundDrained w p none rs) p)).chip.cht.deferred.contains p = true)
    (hactive : (scrubsSettled (poundGone (poundDrained w p none rs) p)).chip.cht.active = some c) :
    w.drainEnd p = ((takesDeferred (scrubsSettled (poundGone (poundDrained w p none rs) p)) p).scrubsNow p).startRestart p
      (SMap.look c.pounds p) (c.owned p) := by
  simp only [takesDeferred, scrubsSettled, poundGone, poundDrained] at hdef hactive ⊢
  simp only [Work.drainEnd, hgoal, hidle, Bool.false_eq_true, if_false, hdef, hactive]

end

/-! ## The start (R87, R90) -/

theorem startDone_of_idle (h : (w.pound p).cfg = none ∨ (w.pound p).st ≠ .starting ∨ w.chip.cht.restarting.contains p = false) :
    w.startDone p = w := by
  cases hcfg : (w.pound p).cfg with
  | none => simp only [Work.startDone, hcfg]
  | some g =>
    have hskip : (decide ((w.pound p).st ≠ .starting) || !w.chip.cht.restarting.contains p) = true := by
      rcases h with h | h | h
      · cases hcfg.symm.trans h
      · simp [h]
      · rw [h, Bool.not_false, Bool.or_true]
    simp only [Work.startDone, hcfg, hskip, if_true]

/-- Pound p has started: its tiles are reset and idle, and it no longer restarts. -/
def poundStarted (w : Work) (p : Nat) (g : PoundCfg) : Work :=
  let given := w.each (idxs 144 (fun k => bit g.tileMask k)) (fun w k => w.modTile k (fun x => x.handOver .idle))
  { given with chip := { given.chip with cht := { given.chip.cht with restarting := without given.chip.cht.restarting p } } }

section
variable {g : PoundCfg} (hcfg : (w.pound p).cfg = some g) (hst : (w.pound p).st = .starting)
  (hrest : w.chip.cht.restarting.contains p = true)
include hcfg hst hrest

theorem startDone_settles (hdef : (poundStarted w p g).chip.cht.deferred.contains p = false) :
    w.startDone p = (poundStarted w p g).settlePound p := by
  simp only [poundStarted] at hdef ⊢
  simp only [Work.startDone, hcfg, hst, hrest, hdef, ne_eq, not_true_eq_false, decide_false, Bool.not_true, Bool.or_self,
    Bool.false_eq_true, if_false]

theorem startDone_deferred {c : Charter} (hdef : (poundStarted w p g).chip.cht.deferred.contains p = true)
    (hactive : (poundStarted w p g).chip.cht.active = some c) :
    w.startDone p = (((takesDeferred (poundStarted w p g) p).setUpPound p g).scrubsNow p).startRestart p (SMap.look c.pounds p)
      (c.owned p) := by
  simp only [takesDeferred, poundStarted] at hdef hactive ⊢
  simp only [Work.startDone, hcfg, hst, hrest, hdef, hactive, ne_eq, not_true_eq_false, decide_false, Bool.not_true, Bool.or_self,
    Bool.false_eq_true, if_false, if_true]

end

/-! ## When a pound starts and runs (R87, R90, R100, R563) -/

theorem settleScrub_starts (hst : (w.pound p).st = .scrubbing) (hs : ∀ u ∈ w.chip.cht.scrubs, u.new ≠ some p ∨ u.newLater = true)
    (hmap : (w.mapPending && (w.pound p).regs.any Region.inHbm && !w.chip.cht.deferred.contains p) = false) :
    w.settleScrub p = w.enterStart p (match (w.pound p).cfg with | some g => g.canals | none => []) := by
  have hnone : w.chip.cht.scrubs.any (fun u => decide (u.new = some p) && !u.newLater) = false := by
    simp only [List.any_eq_false, Bool.and_eq_true, decide_eq_true_eq, Bool.not_eq_true', not_and]
    intro u hu hnew
    simp [(hs u hu).resolve_left (not_not_intro hnew)]
  exact if_pos (by rw [hst, hnone, hmap]; rfl)

theorem settleScrub_waits (h : (w.pound p).st ≠ .scrubbing ∨ (∃ u ∈ w.chip.cht.scrubs, u.new = some p ∧ u.newLater = false) ∨
      (w.mapPending && (w.pound p).regs.any Region.inHbm && !w.chip.cht.deferred.contains p) = true) : w.settleScrub p = w := by
  refine if_neg ?_
  rw [Bool.and_eq_true, Bool.and_eq_true, decide_eq_true_eq, Bool.not_eq_true', Bool.not_eq_true']
  rintro ⟨⟨hst, hscrubs⟩, hmap⟩
  rcases h with h | ⟨u, hu, hnew, hlater⟩ | h
  · exact h hst
  · exact List.any_eq_false.mp hscrubs u hu (by simp [hnew, hlater])
  · cases hmap.symm.trans h

section
variable {g : PoundCfg} (hcfg : (w.pound p).cfg = some g)
include hcfg

theorem settlePound_waits (h : (w.pound p).st ≠ .starting ∨ w.chip.cht.restarting.contains p = true ∨
      w.classesSettled g (w.pound p).regs = false) : w.settlePound p = w := by
  have hskip : (decide ((w.pound p).st ≠ .starting) || w.chip.cht.restarting.contains p || !w.classesSettled g (w.pound p).regs) =
      true := by
    rw [Bool.or_eq_true, Bool.or_eq_true, decide_eq_true_eq, Bool.not_eq_true', or_assoc]; exact h
  simp only [Work.settlePound, hcfg, hskip, if_true]

theorem settlePound_acts (hst : (w.pound p).st = .starting) (hrest : w.chip.cht.restarting.contains p = false)
    (hset : w.classesSettled g (w.pound p).regs = true) :
    w.settlePound p = if w.resourceLost g (w.pound p).regs then w.failPound p else (w.setUpPound p g).runPound p := by
  simp only [Work.settlePound, hcfg, hst, hrest, hset, ne_eq, not_true_eq_false, decide_false, Bool.not_true, Bool.or_self,
    Bool.false_eq_true, if_false]

end

theorem runPound_free (hreset : (w.pound p).selfResetAfter = none) (hheld : (w.pound p).held = false) :
    w.runPound p = w.modPound p (fun x => { x with st := .running }) := by
  simp only [Work.runPound, hreset, hheld, Bool.false_eq_true, if_false]

end

/-- Settles O28: each step of a restart by the equation of its outcome. -/
theorem poundRestarts : Obligations.PoundRestarts := by
  unfold Obligations.PoundRestarts
  refine ⟨fun s p => ?steps, fun w p => ⟨settleScrub_starts, settleScrub_waits⟩, fun w p g hcfg => ⟨settlePound_waits hcfg,
    fun hst hrest hset => ⟨fun hlost => ?fails, fun hkept => ?runs⟩⟩, fun w p => runPound_free⟩
  case fails => exact (settlePound_acts hcfg hst hrest hset).trans (if_pos hlost)
  case runs => exact (settlePound_acts hcfg hst hrest hset).trans (if_neg (by simp [hkept]))
  case steps =>
    intro w x
    have hend {u : Work} (hu : w.drainEnd p = u) : Runs (.poundDrainEnd p) s u := runs_of_lift exec_poundDrainEnd hu
    have hstart {u : Work} (hu : w.startDone p = u) : Runs (.poundStartDone p) s u := runs_of_lift exec_poundStartDone hu
    refine ⟨fun hgoal => ⟨?noDrain, ?noTimeout⟩, fun _ hbusy => ?busy, fun hgoal => ?timeout, fun g rs hgoal hidle => ?poundDrained,
      runs_of_lift exec_scrubDone rfl, fun h => ?noStart, fun g hcfg hst hrest => ?poundStarted⟩
    case noDrain => exact becomes_of_lift exec_poundDrainEnd (drainEnd_of_noGoal hgoal)
    case noTimeout => exact becomes_of_lift exec_poundDrainTimeout (if_pos (Option.isNone_iff_eq_none.mpr hgoal))
    case busy => exact becomes_of_lift exec_poundDrainEnd (drainEnd_of_busy hbusy)
    case timeout => exact runs_of_lift exec_poundDrainTimeout (if_neg (fun h => hgoal (Option.isNone_iff_eq_none.mp h)))
    case poundDrained =>
      refine ⟨fun hg => ?_, fun hg => ?_⟩
      · obtain ⟨g, rfl⟩ := Option.ne_none_iff_exists'.mp hg
        simpa only [scrubsSettled, poundDrained] using hend (drainEnd_kept hidle hgoal)
      · subst hg
        refine ⟨fun hdef => ?_, fun c hdef hactive => ?_⟩
        · have h := hend (drainEnd_gone hidle hgoal (by simpa only [scrubsSettled, poundGone, poundDrained] using hdef))
          simpa only [scrubsSettled, poundGone, poundDrained] using h
        · have h := hend (drainEnd_gone_deferred hidle hgoal (by simpa only [scrubsSettled, poundGone, poundDrained] using hdef)
            (by simpa only [scrubsSettled, poundGone, poundDrained] using hactive))
          simpa only [takesDeferred, scrubsSettled, poundGone, poundDrained] using h
    case noStart => exact becomes_of_lift exec_poundStartDone (startDone_of_idle h)
    case poundStarted =>
      exact ⟨fun hdef => hstart (startDone_settles hcfg hst hrest hdef),
        fun c hdef hactive => hstart (startDone_deferred hcfg hst hrest hdef hactive)⟩

end Sys2Proof
end

section
/-!
The charter commands (Obligations.Charters): what a load and a cancel come to, what a verified image becomes, and which pounds a new
charter restarts.
-/

namespace Sys2Proof

open Sys2Proof.Machine

/-! ## ERROR (R95) -/

theorem chtError_zero (w : Work) (v : Nat) :
    w.chtError 0 v = { w with chip := { w.chip with cht := { w.chip.cht with error := 0 } } } := rfl

theorem chtError_record (w : Work) {e : Nat} (v : Nat) (he : e ≠ 0) :
    w.chtError e v = Work.record { w with chip := { w.chip with cht := { w.chip.cht with error := BitVec.ofNat 8 e } } }
      { cls := 0x0103, kind := 0xC, action := 6, d0 := v, d1 := e } := if_neg he

section
variable {w : Work} {c : Nat}

theorem chtBusy_iff : w.chtBusy = true ↔ w.chip.cht.verifying ≠ none ∨ w.chip.cht.staged ≠ none := by
  simp [Work.chtBusy, Option.isSome_iff_ne_none]

theorem chtBusy_eq_false (hv : w.chip.cht.verifying = none) (hs : w.chip.cht.staged = none) : w.chtBusy = false := by
  simp [Work.chtBusy, hv, hs]

/-! ## LOAD (R79, R82, R95) -/

theorem chtLoad_provisioning (h : w.chip.cht.active = none) : w.chtLoad c = w.chtError 0x21 0 := by
  simp [Work.chtLoad, Work.provisioning, h]

section
variable (hactive : w.chip.cht.active ≠ none)
include hactive

theorem not_provisioning : w.provisioning = false := by
  rw [Work.provisioning, Option.isNone_eq_false_iff, Option.isSome_iff_ne_none]; exact hactive

theorem chtLoad_busy (h : w.chip.cht.verifying ≠ none ∨ w.chip.cht.staged ≠ none) : w.chtLoad c = w.chtError 0x1E 0 := by
  simp [Work.chtLoad, not_provisioning hactive, chtBusy_iff.mpr h]

variable (hv : w.chip.cht.verifying = none) (hs : w.chip.cht.staged = none)
include hv hs

theorem chtLoad_unreachable (h : w.imageReachable c (w.chip.cht.loadAddr.toNat * 64) w.chip.cht.loadLen.toNat = false) :
    w.chtLoad c = w.chtError 0x20 0 := by
  simp [Work.chtLoad, not_provisioning hactive, chtBusy_eq_false hv hs, h]

theorem chtLoad_verifies (h : w.imageReachable c (w.chip.cht.loadAddr.toNat * 64) w.chip.cht.loadLen.toNat = true) :
    w.chtLoad c = { w with chip := { w.chip with cht := { w.chip.cht with
      verifying := some (w.vread (w.chip.cht.loadAddr.toNat * 64) w.chip.cht.loadLen.toNat), error := 0 } } } := by
  simp [Work.chtLoad, not_provisioning hactive, chtBusy_eq_false hv hs, h, chtError_zero]

end

/-! ## CANCEL (R82) -/

theorem cancelCharter_verifying {b : List Byte} (h : w.chip.cht.verifying = some b) :
    w.cancelCharter = (Work.chtError { w with chip := { w.chip with cht := { w.chip.cht with verifying := none } } } 0x24
      (imageVersion b), 0) := by
  simp [Work.cancelCharter, h]

theorem cancelCharter_staged {x : List Byte × Charter} (hv : w.chip.cht.verifying = none) (hs : w.chip.cht.staged = some x) :
    w.cancelCharter = ({ w with chip := { w.chip with
      cht := { w.chip.cht with staged := none, error := 0 }
      time := { w.chip.time with orders := w.chip.time.orders.filter (fun e => !(e.2.began.isNone && e.2.action = 3)) } } }, 0) := by
  simp [Work.cancelCharter, hv, hs, chtError_zero, Work.cancelOrders]

theorem cancelCharter_none (hv : w.chip.cht.verifying = none) (hs : w.chip.cht.staged = none) :
    w.cancelCharter = (w.chtError (if w.chip.cht.restarting = [] then 0x23 else 0x1F) 0,
      if w.chip.cht.restarting = [] then 0x23 else 0x1F) := by
  simp [Work.cancelCharter, hv, hs]

/-! ## The other OP values, and LOAD_CHARTER (R77, R79, R94, R484) -/

theorem chtCommand_bad {op : BitVec 2} (h : op = 0 ∨ op = 3) : w.chtCommand c op.toNat = w.chtError 0x22 0 := by
  rcases h with rfl | rfl <;> rfl

section
variable {offset : Nat} {part before : List Byte} {last : Bool}
  (hb : (if offset = 0 then [] else w.chip.cht.parts) = before)
include hb

theorem loadPart_disordered (h : offset ≠ before.length) : w.loadPart offset part last = w.answer 2 [] := by
  simp [Work.loadPart, hb, h]

variable (ho : offset = before.length)
include ho

theorem loadPart_badLength (h : 16 * 2 ^ 20 < (before ++ part).length ∨ last = true ∧ before ++ part = []) :
    w.loadPart offset part last =
      (Work.chtError { w with chip := { w.chip with cht := { w.chip.cht with parts := [] } } } 0x20 0).answer 0x80 [0x20] := by
  have h' : (decide (16 * 2 ^ 20 < (before ++ part).length) || (last && (before ++ part).isEmpty)) = true := by
    rw [Bool.or_eq_true, Bool.and_eq_true, decide_eq_true_eq, List.isEmpty_iff]; exact h
  simp only [Work.loadPart, hb, ← ho, ne_eq, not_true_eq_false, if_false, h', if_true]
  rfl

variable (hlen : (before ++ part).length ≤ 16 * 2 ^ 20)
include hlen

theorem loadPart_more (hl : last = false) :
    w.loadPart offset part last =
      Work.answer { w with chip := { w.chip with cht := { w.chip.cht with parts := before ++ part } } } 0 [] := by
  simp only [Work.loadPart, hb, ← ho, ne_eq, not_true_eq_false, if_false, Nat.not_lt.mpr hlen, hl, decide_false, Bool.false_and,
    Bool.or_self, Bool.false_eq_true, Bool.not_false, if_true]

variable (hl : last = true) (hne : before ++ part ≠ [])
include hl hne

theorem loadPart_last : w.loadPart offset part last =
    if w.chtBusy then
      (Work.chtError { w with chip := { w.chip with cht := { w.chip.cht with parts := [] } } } 0x1E 0).answer 0x80 [0x1E]
    else Work.answer { w with chip := { w.chip with cht := { w.chip.cht with
      parts := [], verifying := some (before ++ part), error := 0 } } } 0 [] := by
  simp only [Work.loadPart, hb, ← ho, ne_eq, not_true_eq_false, if_false, Nat.not_lt.mpr hlen, hl, decide_false,
    List.isEmpty_eq_false_iff.mpr hne, Bool.and_false, Bool.or_self, Bool.false_eq_true, Bool.not_true]
  rfl

end

/-! ## A free entry of the table of orders (R112; log entry 3) -/

theorem mem_keys_of_look {α : Type} {m : SMap α} {k : Nat} (h : SMap.look m k ≠ none) : k ∈ m.map (·.1) := by
  induction m with
  | nil => exact absurd rfl h
  | cons e m ih =>
    obtain ⟨j, v⟩ := e
    by_cases hj : j = k
    · exact List.mem_cons.mpr (.inl hj.symm)
    · simp only [SMap.look, hj, if_false] at h
      exact List.mem_cons_of_mem _ (ih h)

/-- A table of fewer than n orders has no order at one of n indices. -/
theorem exists_index_free {n : Nat} (h : w.chip.time.orders.length < n) : ∃ i, i < n ∧ w.order? i = none := by
  by_contra hnone
  have hsub : List.range n ⊆ w.chip.time.orders.map (·.1) := fun i hi =>
    mem_keys_of_look (fun hi' => hnone ⟨i, List.mem_range.mp hi, hi'⟩)
  have hle := (List.nodup_range.subperm hsub).length_le
  rw [List.length_range, List.length_map] at hle
  exact Nat.not_le.mpr h hle

/-- Counting n indices up from k, modulo n, comes to every index. -/
theorem mem_rotated_range (k : Nat) {n j : Nat} (hj : j < n) : j ∈ (List.range n).map (fun i => (k + i) % n) := by
  refine List.mem_map.mpr ⟨(j + (n - k % n)) % n, List.mem_range.mpr (Nat.mod_lt _ (by omega)), ?_⟩
  have hk : k % n < n := Nat.mod_lt _ (by omega)
  rw [Nat.add_mod_mod, ← Nat.mod_add_mod, show k % n + (j + (n - k % n)) = j + n by omega, Nat.add_mod_right, Nat.mod_eq_of_lt hj]

theorem find_free_index (k : Nat) {n : Nat} (h : w.chip.time.orders.length < n) : ∃ i, i < n ∧ w.order? i = none ∧
    ((List.range n).map (fun i => (k + i) % n)).find? (fun i => (w.order? i).isNone) = some i := by
  cases hf : ((List.range n).map (fun i => (k + i) % n)).find? (fun i => (w.order? i).isNone) with
  | none =>
    obtain ⟨j, hj, hfree⟩ := exists_index_free h
    have hused := List.find?_eq_none.mp hf j (mem_rotated_range k hj)
    exact absurd (Option.isNone_iff_eq_none.mpr hfree) hused
  | some i =>
    obtain ⟨j, -, hj⟩ := List.mem_map.mp (List.mem_of_find?_eq_some hf)
    have hfree := List.find?_some (p := fun i => (w.order? i).isNone) hf
    exact ⟨i, hj ▸ Nat.mod_lt _ (by omega), Option.isNone_iff_eq_none.mp hfree, rfl⟩

theorem freeEntry_of_room (h : w.chip.time.orders.length < 4096) :
    ∃ i, i < 4096 ∧ w.order? i = none ∧ w.freeEntry = (w.take.2, some i) := by
  obtain ⟨i, hi, hfree, hfind⟩ := find_free_index (Config.freeNat w.chip.free) h
  exact ⟨i, hi, hfree, congrArg (Prod.mk w.take.2) hfind⟩

/-! ## A verified image (R80 to R82) -/

theorem verifyDone_none (h : w.chip.cht.verifying = none) : w.verifyDone = w := by
  simp only [Work.verifyDone, h]

/-- The image has left the verifier. -/
def verifierEmptied (w : Work) : Work := { w with chip := { w.chip with cht := { w.chip.cht with verifying := none } } }

section
variable {b : List Byte} (hb : w.chip.cht.verifying = some b)
include hb

theorem verifyDone_rejected {e : Nat} (h : (verifierEmptied w).verify .load b = .error e) :
    w.verifyDone = (verifierEmptied w).chtError e (imageVersion b) := by
  rw [verifierEmptied] at h ⊢
  simp only [Work.verifyDone, hb, h]

variable {x : Charter} (h : (verifierEmptied w).verify .load b = .ok x)
include h

theorem verifyDone_atOnce (ha : x.activateAt = 0) : w.verifyDone = (verifierEmptied w).activate b x := by
  rw [verifierEmptied] at h ⊢
  simp only [Work.verifyDone, hb, h, ha, if_true]

theorem verifyDone_staged (ha : x.activateAt ≠ 0) (hroom : w.chip.time.orders.length < 4096) :
    ∃ i, i < 4096 ∧ w.order? i = none ∧ w.verifyDone = { w with chip := { w.chip with
      free := w.chip.free + 1
      cht := { w.chip.cht with verifying := none, staged := some (b, x) }
      time := { w.chip.time with
        accepted := w.chip.time.accepted + 1
        orders := SMap.insert w.chip.time.orders i
          { action := 3, at_ := x.activateAt, pound := 0xFF, notice := 0, arg := 0, poster := .lockkeeper
            accepted := w.chip.time.accepted, began := none, deadline := none, noticed := false } } } } := by
  obtain ⟨i, hi, hfree, hentry⟩ := freeEntry_of_room (w := { verifierEmptied w with chip := { (verifierEmptied w).chip with
    cht := { (verifierEmptied w).chip.cht with staged := some (b, x) } } }) hroom
  refine ⟨i, hi, hfree, ?_⟩
  rw [verifierEmptied] at h hentry
  simp only [Work.verifyDone, hb, h, ha, if_false, hentry]
  rfl

end

/-! ## The moment of a charter (R83, R84, R89) -/

theorem charterActivation_unstaged (h : w.chip.cht.staged = none) : w.charterActivation = w := by
  unfold Work.charterActivation
  rw [h]
  cases w.chip.time.orders.find? (fun e => e.2.action = 3 && e.2.began.isNone) <;> rfl

section
variable {i : Nat} {e : Order} {b : List Byte} {x : Charter}
  (hf : w.chip.time.orders.find? (fun e => e.2.action = 3 && e.2.began.isNone) = some (i, e)) (hs : w.chip.cht.staged = some (b, x))
include hf hs

theorem charterActivation_waits (h : w.startable i 3 = none) : w.charterActivation = w := by
  simp only [Work.charterActivation, hf, hs, h]

theorem charterActivation_starts {o : Order} (h : w.startable i 3 = some o) :
    w.charterActivation = (Work.activate { w.beginOrder i o none with chip := { (w.beginOrder i o none).chip with
      cht := { (w.beginOrder i o none).chip.cht with
        late := (w.beginOrder i o none).chip.cht.late || (w.beginOrder i o none).startsLate o (w.beginOrder i o none).now } } }
      b x).endOrder i := by
  simp only [Work.charterActivation, hf, hs, h]

end

end

/-- The charter is active and its image in flash, before any pound restarts: R84's first step. -/
def charterActivated (w : Work) (b : List Byte) (c : Charter) : Work :=
  let v := w.moveCores c
  { v with chip := { v.chip with
    flash := { v.chip.flash with
      slot1 := if v.chip.cht.activeImage.isEmpty then v.chip.flash.slot1 else v.chip.cht.activeImage
      slot0 := b }
    cht := { v.chip.cht with active := some c, activeImage := b, staged := none } } }

/-- The pounds restart, what changes owner is marked for zeroing, and the ring and the slices follow (R85 to R91, R390, R547). -/
def poundsFollow (old : Option Charter) (c : Charter) (v : Work) : Work :=
  ((v.each (List.range 16) (fun w p => w.applyPound old c p)).markScrubs old c).checkRing.recoverSlices

theorem activate_eq (w : Work) (b : List Byte) (c : Charter) :
    w.activate b c = if (poundsFollow w.chip.cht.active c (charterActivated w b c)).mapPending
      then (poundsFollow w.chip.cht.active c (charterActivated w b c)).switchMap
      else poundsFollow w.chip.cht.active c (charterActivated w b c) := by
  simp only [Work.activate, poundsFollow, charterActivated]
  rfl

theorem charterActivated_slot1 {w : Work} {b : List Byte} {c : Charter} (h : (w.moveCores c).chip.cht.activeImage ≠ []) :
    (charterActivated w b c).chip.flash.slot1 = (w.moveCores c).chip.cht.activeImage :=
  if_neg (by rw [List.isEmpty_iff]; exact h)

/-! ## Which pounds restart (R85, R86) -/

section
variable {o c : Charter} {p : Nat}

theorem restarts_absent (hc : SMap.look c.pounds p = none) (ho : SMap.look o.pounds p = none) :
    restarts (some o) c p = false ∧ restarts none c p = false := by
  simp [restarts, hc, ho]

variable {g : PoundCfg} (hc : SMap.look c.pounds p = some g)
include hc

theorem restarts_first : restarts none c p = true := by simp [restarts, hc]

theorem restarts_new (ho : SMap.look o.pounds p = none) : restarts (some o) c p = true := by simp [restarts, hc, ho]

theorem restarts_structure {h : PoundCfg} (ho : SMap.look o.pounds p = some h) (hs : h.structure_ ≠ g.structure_) :
    restarts (some o) c p = true := by simp [restarts, hc, ho, hs]

theorem restarts_inPlace {h : PoundCfg} (ho : SMap.look o.pounds p = some h) (hs : h.structure_ = g.structure_)
    (hr : sameSet (o.reached p) (c.reached p) = true) (hd : o.debugBits.getD p 0 = c.debugBits.getD p 0)
    (hm : o.moduleId = c.moduleId) (hi : o.channelMap = c.channelMap) : restarts (some o) c p = false := by
  simp only [restarts, Option.bind_some, hc, ho, Option.isNone_some, Option.map_some, hs, hr, hd, hm, hi, ne_eq, not_true_eq_false,
    decide_false, Bool.not_true, Bool.and_self, Bool.or_self, Bool.false_and, Bool.false_eq_true, if_false]

end

/-! ## The commands -/

/-- The management endpoint answers (R554, R564). -/
theorem manage_of_up {w : Work} (h : w.chip.boot.lockkeeper = true ∨ w.chip.boot.standbyActive = true) (f : Work → Work) :
    w.manage f = f w := if_pos ((Bool.or_eq_true _ _).mpr h)

theorem manage_of_down {w : Work} (hl : w.chip.boot.lockkeeper = false) (hs : w.chip.boot.standbyActive = false) (f : Work → Work) :
    w.manage f = w := if_neg (by simp [hl, hs])

/-- An OP of CHT_CMD acts on the workbench as its row says. -/
theorem runs_chtCmd {s : State} {c : CoreId} {i : Instr} {op : Nat} {f : Work → Work} {w : Work} (ho : RegOpen s c (chtBase + 0x10) true)
    (hi : exec i s = lift (fun w => w.chtCmdStore c op f) s) (hw : f (Work.of s) = w) : Runs i s (untrap c w) :=
  runs_of_regStore hi rfl ho hw

/-- Settles O27: each command by the equation of its outcome; an order of a staged charter takes a free entry of the table, which a
table that is not full has. -/
theorem charters : Obligations.Charters := by
  unfold Obligations.Charters
  refine ⟨⟨fun s c ho => ?commands, fun s offset part last hpart hup => ?parts, fun s => ?management,
      fun w e v he => chtError_record w v he⟩,
    fun s hv => ?nothing, fun s b hb => ?verified, fun s i e b c hf hs => ?moment, fun s hs => ?unstaged, fun w b c => ?active,
    fun o c p => ⟨restarts_absent, fun g hc => ⟨restarts_first hc, restarts_new hc, fun h => restarts_structure hc,
      fun h => restarts_inPlace hc⟩⟩⟩
  case commands =>
    intro w u a n
    have hload {v : Work} (hv : w.chtLoad c = v) : Runs (.chtLoad c) s (untrap c v) := runs_chtCmd ho exec_chtLoad hv
    have hcancel {v : Work} {e : Nat} (hv : w.cancelCharter = (v, e)) : Runs (.chtCancel c) s (untrap c v) :=
      runs_chtCmd ho exec_chtCancel (congrArg Prod.fst hv)
    exact ⟨fun ha => hload (chtLoad_provisioning ha), fun ha hbusy => hload (chtLoad_busy ha hbusy),
      fun ha hv hs hr => hload (chtLoad_unreachable ha hv hs hr), fun ha hv hs hr => hload (chtLoad_verifies ha hv hs hr),
      fun b hb => hcancel (cancelCharter_verifying hb), fun x hv hs => hcancel (cancelCharter_staged hv hs),
      fun hv hs => hcancel (cancelCharter_none hv hs),
      fun op hop => runs_chtCmd ho exec_chtBadCommand (chtCommand_bad hop)⟩
  case parts =>
    intro w u before all dropped
    have hpart {v : Work} (hv : w.loadPart offset.toNat part last = v) : Runs (.loadCharter offset part last) s v :=
      runs_of_lift (exec_loadCharter.trans (liftIf_eq (decide_eq_true hpart))) ((manage_of_up hup _).trans hv)
    have hb : (if offset.toNat = 0 then [] else w.chip.cht.parts) = before :=
      if_congr (BitVec.toNat_inj (y := 0#32)) rfl rfl
    refine ⟨fun h => hpart (loadPart_disordered hb h), fun h hlen => hpart (loadPart_badLength hb h hlen),
      fun h hlen hl => hpart (loadPart_more hb h hlen hl), fun h hlen hl hne => ⟨fun hbusy => ?_, fun hv hs => ?_⟩⟩
    · exact hpart ((loadPart_last hb h hlen hl hne).trans (if_pos (chtBusy_iff.mpr hbusy)))
    · exact hpart ((loadPart_last hb h hlen hl hne).trans (if_neg (Bool.eq_false_iff.mp (chtBusy_eq_false (w := w) hv hs))))
  case management =>
    exact ⟨fun hup => runs_of_lift exec_cancelCharter (manage_of_up hup _), fun hl hs =>
      ⟨becomes_of_lift exec_cancelCharter (manage_of_down hl hs _), fun offset part last hpart =>
        becomes_of_lift (exec_loadCharter.trans (liftIf_eq (decide_eq_true hpart))) (manage_of_down hl hs _)⟩⟩
  case nothing => exact becomes_of_lift exec_chtVerifyDone (verifyDone_none hv)
  case verified =>
    intro w
    refine ⟨fun e he => runs_of_lift exec_chtVerifyDone (verifyDone_rejected hb he), fun c hc =>
      ⟨fun ha => runs_of_lift exec_chtVerifyDone (verifyDone_atOnce hb hc ha), fun ha hroom => ?_⟩⟩
    obtain ⟨i, hi, hfree, hstaged⟩ := verifyDone_staged (w := Work.of s) hb hc ha hroom
    exact ⟨i, hi, hfree, becomes_of_lift exec_chtVerifyDone hstaged⟩
  case moment =>
    exact ⟨fun h => becomes_of_lift exec_charterActivation (charterActivation_waits hf hs h),
      fun o h => runs_of_lift exec_charterActivation (charterActivation_starts hf hs h)⟩
  case unstaged => exact becomes_of_lift exec_charterActivation (charterActivation_unstaged hs)
  case active => exact ⟨charterActivated w b c, rfl, rfl, rfl, rfl, charterActivated_slot1, activate_eq w b c⟩

end Sys2Proof
end

section
/-!
Requests of other modules, and responses to this one's (Obligations.RemoteRequests): admission, READ, WRITE and the atomics at their
home, and the end of a request of this module.
-/

namespace Sys2Proof

open Sys2Proof.Machine

section
variable {w : Work} {m : NylMsg}

/-! ## Admission (R72, R443) -/

theorem inboundRequest_beyond {k : Nat} {act : Work → Nat → Nat → Work} (h : w.hbmBytes < m.offset + m.len) :
    w.inboundRequest m k act = (w.errorTo m w.transitDefault 4).record
      { cls := 0x0301, kind := 7, id := m.inbound.getD 0, action := 6, addr := m.offset, d0 := 4 } := if_pos h

section
variable {k : Nat} {act : Work → Nat → Nat → Work} (h : m.offset + m.len ≤ w.hbmBytes)
include h

theorem inboundRequest_uncovered (hc : w.covered m.src m.offset m.len k = none) :
    w.inboundRequest m k act = (w.errorTo m w.transitDefault 5).recFabric m := by
  simp only [Work.inboundRequest, Nat.not_lt.mpr h, if_false, hc]

theorem inboundRequest_covered {p : Nat} (hc : w.covered m.src m.offset m.len k = some p) :
    w.inboundRequest m k act = act w p (0x100_0000_0000 + m.offset) := by
  simp only [Work.inboundRequest, Nat.not_lt.mpr h, if_false, hc]

end

theorem recFabric_below (h : w.chip.rolls.rateFabric < 1000) :
    w.recFabric m = Work.record { w with chip := { w.chip with rolls := { w.chip.rolls with rateFabric := w.chip.rolls.rateFabric + 1 } } }
      { cls := 0x0702, kind := 7, id := m.inbound.getD 0, action := 6, addr := m.offset, d0 := m.src, d1 := m.op } :=
  if_neg (Nat.not_le.mpr h)

theorem recFabric_suppressed (h : 1000 ≤ w.chip.rolls.rateFabric) :
    w.recFabric m = { w with chip := { w.chip with rolls := { w.chip.rolls with
      suppressed := min (w.chip.rolls.suppressed + 1) 0xFFFF_FFFF } } } := if_pos h

/-- What the entry that admits a request says (R72, R92, R572). -/
theorem covered_entry {src off n k p : Nat} (h : w.covered src off n k = some p) : ∃ c e, w.chip.cht.active = some c ∧
    e ∈ c.access ∧ e.pound = p ∧ e.modFirst ≤ src ∧ src ≤ e.modLast ∧ e.offBase ≤ off ∧ off + n ≤ e.offLast + 1 ∧
    bit e.perm k = true ∧ w.cfg? p ≠ none ∧ (w.pound p).fenced = false ∧ w.scrubbing (0x100_0000_0000 + off) = false := by
  unfold Work.covered at h
  split at h
  · cases h
  · next c hc =>
    obtain ⟨e, he, rfl⟩ := Option.map_eq_some_iff.mp h
    have hmem := List.mem_of_find?_eq_some he
    have hcov := List.find?_some he
    simp only [Bool.and_eq_true, decide_eq_true_eq, Bool.not_eq_true', Option.isSome_iff_ne_none] at hcov
    obtain ⟨⟨⟨⟨⟨⟨⟨hfirst, hlast⟩, hbase⟩, hend⟩, hperm⟩, hcfg⟩, hfence⟩, hscrub⟩ := hcov
    exact ⟨c, e, hc, hmem, rfl, hfirst, hlast, hbase, hend, hperm, hcfg, hfence, hscrub⟩

/-! ## READ, WRITE and the atomics (R441, R443, R445) -/

/-- Words of which none is poisoned leave memory as it is. -/
theorem pokeWords_clean {a n : Nat} {ps : List Bool} (h : ∀ x ∈ ps, x = false) : w.pokeWords a n ps = w := by
  have hnone : ps.zipIdx.filter (fun e => e.1 && 32 * e.2 < n) = [] := by
    refine List.filter_eq_nil_iff.mpr fun e he => ?_
    simp [h e.1 (List.fst_mem_of_mem_zipIdx he)]
  rw [Work.pokeWords, hnone, Work.each_nil]

section
variable {p : Nat} (h : m.offset + m.len ≤ w.hbmBytes)
include h

theorem inRead_covered (hc : w.covered m.src m.offset m.len 0 = some p) :
    w.inRead m = (w.arcReads (0x100_0000_0000 + m.offset) m.len (some p) none).respond m p 0x41
      (w.vread (0x100_0000_0000 + m.offset) m.len) [] (w.payloadPoison (0x100_0000_0000 + m.offset) m.len) :=
  inboundRequest_covered h hc

variable (hc : w.covered m.src m.offset m.len 1 = some p)
include hc

theorem inWrite_covered (b : Bool) :
    w.inWrite m b =
      (if (w.pwrite (0x100_0000_0000 + m.offset) m.data b (some p)).dead (0x100_0000_0000 + m.offset)
        then w.pwrite (0x100_0000_0000 + m.offset) m.data b (some p)
        else (w.pwrite (0x100_0000_0000 + m.offset) m.data b (some p)).pokeWords (0x100_0000_0000 + m.offset) m.len m.poison).respond
          m p 0x42 [] [] [] := inboundRequest_covered h hc

theorem inWrite_clean (b : Bool) (hp : ∀ x ∈ m.poison, x = false) :
    w.inWrite m b = (w.pwrite (0x100_0000_0000 + m.offset) m.data b (some p)).respond m p 0x42 [] [] [] := by
  rw [inWrite_covered h hc, pokeWords_clean hp, ite_self]

variable {f : Nat → Option Nat}

theorem inAtomic_poisoned (hp : (w.vpoison (0x100_0000_0000 + m.offset) m.len).isSome = true) :
    w.inAtomic m f = w.errorTo m (some p) 7 := (inboundRequest_covered h hc).trans (if_pos hp)

variable (hp : w.vpoison (0x100_0000_0000 + m.offset) m.len = none)
include hp

theorem inAtomic_stores {v : Nat} (hf : f (leNat (w.vread (0x100_0000_0000 + m.offset) 8)) = some v) :
    w.inAtomic m f = (w.pwrite (0x100_0000_0000 + m.offset) (leBytes 8 v) true (some p)).respond m p 0x43 []
      (leBytes 8 (leNat (w.vread (0x100_0000_0000 + m.offset) 8))) [] := by
  refine (inboundRequest_covered h hc).trans ?_
  simp only [hp, Option.isSome_none, Bool.false_eq_true, if_false, hf]

theorem inAtomic_keeps (hf : f (leNat (w.vread (0x100_0000_0000 + m.offset) 8)) = none) :
    w.inAtomic m f = (w.arcReads (0x100_0000_0000 + m.offset) 8 (some p) none).respond m p 0x43 []
      (leBytes 8 (leNat (w.vread (0x100_0000_0000 + m.offset) 8))) [] := by
  refine (inboundRequest_covered h hc).trans ?_
  simp only [hp, Option.isSome_none, Bool.false_eq_true, if_false, hf]

end

/-! ## Responses (R444, R445) -/

section
variable {ops : List Nat} {f : Work → Remote → Work}

theorem response_late (h : SMap.look w.chip.remotes m.tag = none) {l : Nat} (hl : m.inbound = some l) :
    w.response m ops f = w.modLink l (fun x => { x with stale := min (x.stale + 1) 0xFFFF }) := by
  simp only [Work.response, h, hl]
  rfl

theorem response_open {r : Remote} (h : SMap.look w.chip.remotes m.tag = some r) :
    w.response m ops f = if ops.contains r.op then f w r else w := by
  simp only [Work.response, h]

theorem response_asked {r : Remote} (h : SMap.look w.chip.remotes m.tag = some r) (hop : r.op ∈ ops) : w.response m ops f = f w r :=
  (response_open h).trans (if_pos (List.contains_iff_mem.mpr hop))

theorem response_other {r : Remote} (h : SMap.look w.chip.remotes m.tag = some r) (hop : r.op ∉ ops) : w.response m ops f = w :=
  (response_open h).trans (if_neg (fun hin => hop (List.contains_iff_mem.mp hin)))

end

section
variable {r : Remote} (h : SMap.look w.chip.remotes m.tag = some r) (hop : r.op = 1)
include h hop

/-! ### READ data with a poisoned word: the lines before it are written (R144, R445) -/

section
variable {k : Nat} (hbad : (m.poison.take ((r.len + 31) / 32)).findIdx? id = some k)
include hbad

theorem readData_poisoned_drops (hn : r.dst = none ∨ (r.gaddr.toNat + 32 * k) / 128 * 128 - r.gaddr.toNat = 0) :
    w.readData m = w.failRemote m.tag 7 (32 * k) := by
  refine (response_asked h (List.mem_singleton.mpr hop)).trans ?_
  simp only [hbad]
  cases hd : r.dst with
  | none => rfl
  | some d => simp only [hn.resolve_left (by simp [hd]), if_true]

theorem readData_poisoned_writes {d : Nat} (hd : r.dst = some d)
    (hn : (r.gaddr.toNat + 32 * k) / 128 * 128 - r.gaddr.toNat ≠ 0) :
    w.readData m = (w.engWrite (w.eng r.who) d (m.data.take ((r.gaddr.toNat + 32 * k) / 128 * 128 - r.gaddr.toNat)) false r.publish
      r.va).1.failRemote m.tag 7 (32 * k) := by
  refine (response_asked h (List.mem_singleton.mpr hop)).trans ?_
  simp only [hbad, hd, hn, if_false]

end

/-! ### READ data that is whole: to a destination, a SEM_WAIT, or a group (R292, R405, R444) -/

section
variable (hgood : (m.poison.take ((r.len + 31) / 32)).findIdx? id = none)
include hgood

theorem readData_writes {d : Nat} (hd : r.dst = some d) {u : Work}
    (hw : (w.closeRemote m.tag).engWrite ((w.closeRemote m.tag).eng r.who) d m.data false r.publish r.va = (u, none)) :
    w.readData m = u.pump r.who := by
  refine (response_asked h (List.mem_singleton.mpr hop)).trans ?_
  simp only [hgood, hd, hw]

theorem readData_write_fails {d : Nat} (hd : r.dst = some d) {u : Work} {k : Nat}
    (hw : (w.closeRemote m.tag).engWrite ((w.closeRemote m.tag).eng r.who) d m.data false r.publish r.va = (u, some k)) :
    w.readData m = (u.failXfer r.who k 0).pump r.who := by
  refine (response_asked h (List.mem_singleton.mpr hop)).trans ?_
  simp only [hgood, hd, hw]

variable (hd : r.dst = none)
include hd

theorem readData_seen {q : Nat} {n : W32} (hwho : r.who = .command q n)
    (hs : ((w.closeRemote m.tag).started? q n 4).isSome = true) :
    w.readData m = ((w.closeRemote m.tag).semSeen q n (BitVec.ofNat 64 (leNat m.data))).pump r.who := by
  refine (response_asked h (List.mem_singleton.mpr hop)).trans ?_
  simp only [hgood, hd, hwho, hs, if_true]

theorem readData_grouped (hs : ∀ q n, r.who = .command q n → (w.closeRemote m.tag).started? q n 4 = none) :
    w.readData m = (((w.closeRemote m.tag).modXfer r.who (fun x => x.addPart r.pos m.data)).groupCome r.who).pump r.who := by
  refine (response_asked h (List.mem_singleton.mpr hop)).trans ?_
  simp only [hgood, hd]
  cases hwho : r.who with
  | command q n => simp only [hs q n hwho, Option.isSome_none, Bool.false_eq_true, if_false]
  | _ => rfl

end

end

theorem failRemote_unknown {tag status off : Nat} (h : SMap.look w.chip.remotes tag = none) : w.failRemote tag status off = w := by
  simp only [Work.failRemote, h]

end

/-- Settles O51: admission, then READ, WRITE and the atomics as admitted, then the responses, each by the equation of its outcome. -/
theorem remoteRequests : Obligations.RemoteRequests := by
  unfold Obligations.RemoteRequests
  refine ⟨fun w m k act => ⟨inboundRequest_beyond, fun h hc => ?uncovered, fun h p hc => inboundRequest_covered h hc⟩,
    fun w src off n k p hc => covered_entry hc, fun w m p h => ⟨inRead_covered h, fun hc => ⟨fun b => ⟨inWrite_covered h hc b,
      inWrite_clean h hc b⟩, fun f => ⟨inAtomic_poisoned h hc, fun hclean => ⟨fun v => inAtomic_stores h hc hclean,
        inAtomic_keeps h hc hclean⟩⟩⟩⟩,
    fun w m ops f => ⟨fun h l hl => response_late h hl, fun r h => ⟨response_asked h, response_other h⟩⟩, fun w m r h hop => ?read,
    fun s t => ⟨fun h => becomes_of_lift exec_remoteTimeout (failRemote_unknown h), fun r _ => runs_of_lift exec_remoteTimeout rfl⟩⟩
  case uncovered =>
    exact ⟨fun hrate => (inboundRequest_uncovered h hc).trans (recFabric_below hrate),
      fun hrate => (inboundRequest_uncovered h hc).trans (recFabric_suppressed hrate)⟩
  case read =>
    exact ⟨fun k hbad => ⟨readData_poisoned_drops h hop hbad, fun d hd hn => readData_poisoned_writes h hop hbad hd hn⟩,
      fun hgood d hd => ⟨fun u hw => readData_writes h hop hgood hd hw, fun u k hw => readData_write_fails h hop hgood hd hw⟩,
      fun hgood hd => ⟨fun q n hwho hs => readData_seen h hop hgood hd hwho hs, readData_grouped h hop hgood hd⟩⟩

end Sys2Proof
end

section
/-!
Root ports, inbound requests and MSIs, wires and invalidations (Obligations.InboundRequestsAndPorts): where a piece of an inbound
request goes and what it does there, how an outstanding request ends, and what the link commands make of a port.
-/

namespace Sys2Proof

open Sys2Proof.Machine

/-! ## Where a piece goes (R70, R465, R468, R471, R472) -/

section
variable {w : Work} {p a n : Nat} {wr viaMsi : Bool}

theorem inboundPlace_configuration {q k : Nat} (hp : w.place a = .mmio q k) (h : k < 0x400_0000 ∨ w.portOwner q ≠ w.portOwner p) :
    w.inboundPlace p a n wr viaMsi = (w.recOwner 9 p (w.portOwner p) a 0, .refused) := by
  by_cases hk : k < 0x400_0000
  · simp only [Work.inboundPlace, hp, hk, if_true]
  · simp only [Work.inboundPlace, hp, hk, h.resolve_left hk, if_false]

theorem inboundPlace_peer {q k : Nat} (hp : w.place a = .mmio q k) (hk : 0x400_0000 ≤ k) (ho : w.portOwner q = w.portOwner p) :
    w.inboundPlace p a n wr viaMsi = (w, .peer q a) := by
  simp only [Work.inboundPlace, hp, Nat.not_lt.mpr hk, ho, if_false, if_true]

theorem inboundPlace_nowhere (h : (∃ q k, w.place a = .doorbell q k) ∨ (∃ m k, w.place a = .glob m k) ∨ w.place a = .vacant) :
    w.inboundPlace p a n wr viaMsi = (w.recAddr 9 p (w.portOwner p) a 0, .refused) := by
  rcases h with ⟨q, k, hp⟩ | ⟨m, k, hp⟩ | hp <;> simp only [Work.inboundPlace, hp]

theorem inboundPlace_control {k : Nat} (hp : w.place a = .control k) (h : imsicFile k = none ∨ viaMsi = false ∨ wr = false) :
    w.inboundPlace p a n wr viaMsi = (w.recAddr 9 p (w.portOwner p) a 0, .refused) := by
  cases hf : imsicFile k with
  | none => simp only [Work.inboundPlace, hp, hf]
  | some f =>
    have hno : (viaMsi && wr) = false := Bool.and_eq_false_iff.mpr (h.resolve_left (by simp [hf]))
    simp only [Work.inboundPlace, hp, hf, hno, Bool.false_eq_true, if_false]

theorem inboundPlace_msi {k f : Nat} (hp : w.place a = .control k) (hf : imsicFile k = some f) :
    w.inboundPlace p a n true true = (w, .msi f) := by
  simp only [Work.inboundPlace, hp, hf, Bool.and_self, if_true]

/-- What the checks of memory make of a piece. -/
def inboundChecked (w : Work) (p a : Nat) : Acc → Work × Inbound
  | .ok => (w, .at_ (w.local_ a))
  | .notMapped => (w.recAddr 9 p (w.portOwner p) a 0, .refused)
  | .denied => (w.recOwner 9 p (w.portOwner p) a 0, .refused)

theorem inboundPlace_memory (hp : (∃ h k, w.place a = .lpd h k) ∨ (∃ k, w.place a = .hbm k) ∨ (∃ q, w.place a = .cxl q) ∨
      (∃ y k, w.place a = .scratch y k) ∨ (∃ t k, w.place a = .tile t k)) :
    w.inboundPlace p a n wr viaMsi = inboundChecked w p a (w.acc (.inbound (w.portOwner p)) a n wr) := by
  cases ha : w.acc (.inbound (w.portOwner p)) a n wr <;>
    rcases hp with ⟨h, k, hp⟩ | ⟨k, hp⟩ | ⟨q, hp⟩ | ⟨y, k, hp⟩ | ⟨t, k, hp⟩ <;>
    simp only [Work.inboundPlace, hp, ha, inboundChecked]

end

/-! ## Inbound writes and reads (R336, R341, R463, R465, R471) -/

section
variable {w : Work} {p : Nat} {r : PcieRequest}

theorem inboundPiece_noAts (ht : r.translated = true) (ha : w.atsEnabled r.requester.toNat = false) (x n : Nat) (wr : Bool) :
    w.inboundPiece p r x n wr = (w, .refused) := by
  simp only [Work.inboundPiece, ht, ha, if_true, Bool.false_eq_true, if_false]

/-- One piece x of an inbound write of bytes bs. -/
def writePiece (p : Nat) (r : PcieRequest) (bs : List Byte) (u : Work) (x : Nat × Nat) : Work :=
  let part := (bs.drop (x.1 - r.addr.toNat)).take x.2
  match u.inboundPiece p r x.1 x.2 true with
  | (y, .at_ b) => y.pwrite b part true (y.portOwner p)
  | (y, .peer q b) => y.modPort q (fun z => { z with posted := z.posted ++ [(b, part, none)] })
  | (y, .msi f) =>
    if (y.portOwner p).isSome = true ∧ y.coreOwner (imsicHart f) = y.portOwner p ∧ x.1 % 4096 = 0 ∧ part.length = 4 then
      y.imsicSet f (leNat part)
    else y.record { cls := 0x0801, kind := 9, id := p, pound := optPound (y.portOwner p), action := 6, addr := x.1
                    d0 := leNat part, d1 := r.requester.toNat }
  | (y, .refused) => y.modPort p (fun z => { z with reply := some (.ur, [], false) })

theorem inboundWrite_eq (bs : List Byte) : w.inboundWrite p r bs =
    (pieces r.addr.toNat bs.length).foldl (writePiece p r bs) (w.modPort p (fun y => { y with reply := none })) := by
  refine congrArg (fun f => List.foldl f _ _) (funext₂ fun u x => ?_)
  unfold writePiece
  obtain ⟨y, g⟩ := u.inboundPiece p r x.1 x.2 true
  cases g with
  | msi f => simp only [Bool.and_eq_true, decide_eq_true_eq, and_assoc]
  | _ => rfl

/-- One piece x of an inbound read: what has been read so far, none once a piece is refused, and whether a peer port answers. -/
def readPiece (p : Nat) (r : PcieRequest) (g : Work × Option (List Byte × Bool) × Bool) (x : Nat × Nat) :
    Work × Option (List Byte × Bool) × Bool :=
  match g with
  | (u, none, far) => (u, none, far)
  | (u, some (bs, bad), far) =>
    match u.inboundPiece p r x.1 x.2 false with
    | (y, .at_ b) =>
      let z := y.bufferRead p (.inbound (y.portOwner p)) b x.2
      (z.1, some (bs ++ z.2.1, bad || z.2.2.isSome), far)
    | (y, .peer q b) => (y.modPort q (fun z => { z with forwarded := z.forwarded ++ [b] }), some (bs, bad), true)
    | (y, _) => (y, none, far)

/-- An inbound read after all its pieces. -/
def readPieces (w : Work) (p : Nat) (r : PcieRequest) (n : Nat) : Work × Option (List Byte × Bool) × Bool :=
  (pieces r.addr.toNat n).foldl (readPiece p r) (w, some ([], false), false)

/-- The completion that an inbound read gives its requester. -/
def readReply (p : Nat) : Work × Option (List Byte × Bool) × Bool → Work
  | (w, some (bs, bad), far) => if far then w.modPort p (fun y => { y with reply := none }) else w.reply p .sc bs bad
  | (w, none, _) => w.reply p .ur [] false

theorem inboundRead_eq (n : Nat) : w.inboundRead p r n = readReply p (readPieces w p r n) := by
  rfl

theorem readReply_refused {g : Work × Option (List Byte × Bool) × Bool} (h : g.2.1 = none) :
    readReply p g = g.1.modPort p (fun y => { y with reply := some (.ur, [], false) }) := by
  obtain ⟨u, d, far⟩ := g
  obtain rfl : d = none := h
  rfl

theorem readReply_read {g : Work × Option (List Byte × Bool) × Bool} {bs : List Byte} {bad : Bool} (h : g.2.1 = some (bs, bad)) :
    readReply p g = if g.2.2 then g.1.modPort p (fun y => { y with reply := none }) else g.1.reply p .sc bs bad := by
  obtain ⟨u, d, far⟩ := g
  obtain rfl : d = some (bs, bad) := h
  rfl

/-! ## Inbound atomics (R465, R472) -/

section
variable {op : AmoOp} {z v k : Nat}

theorem inboundAtomic_misaligned (h : r.addr.toNat % z ≠ 0) : w.inboundAtomic p r op z v k = w.reply p .ur [] false := if_pos h

variable (h : r.addr.toNat % z = 0)
include h

theorem inboundAtomic_elsewhere {u : Work} {x : Inbound} (hx : w.inboundPiece p r r.addr.toNat z true = (u, x))
    (hno : ∀ b, x ≠ .at_ b) : w.inboundAtomic p r op z v k = u.reply p .ur [] false := by
  refine (if_neg (not_not_intro h)).trans ?_
  rw [hx]
  cases x with
  | at_ b => exact absurd rfl (hno b)
  | _ => rfl

variable {u : Work} {b : Nat} (hx : w.inboundPiece p r r.addr.toNat z true = (u, .at_ b))
include hx

theorem inboundAtomic_notMain (hm : (u.place b).mainMemory = false) :
    w.inboundAtomic p r op z v k = u.reply p .ur [] false := by
  refine (if_neg (not_not_intro h)).trans ?_
  simp only [hx, hm, Bool.not_false, if_true]

variable (hm : (u.place b).mainMemory = true)
include hm

theorem inboundAtomic_poisoned (hp : (u.vpoison b z).isSome = true) :
    w.inboundAtomic p r op z v k = u.reply p .sc (u.vread b z) true := by
  refine (if_neg (not_not_intro h)).trans ?_
  simp only [hx, hm, hp, Bool.not_true, Bool.false_eq_true, if_false, if_true]

theorem inboundAtomic_acts (hp : u.vpoison b z = none) :
    w.inboundAtomic p r op z v k =
      (u.pwrite b (leBytes z (amoValue op z (leNat (u.vread b z)) v k)) true (u.portOwner p)).reply p .sc (u.vread b z) false := by
  refine (if_neg (not_not_intro h)).trans ?_
  simp only [hx, hm, hp, Option.isSome_none, Bool.not_true, Bool.false_eq_true, if_false]

end

section
variable (h : (w.port p).st = .up)
include h

theorem pcieInbound_write {bs : List Byte} (hk : r.kind = .write bs) : w.pcieInbound p r = w.inboundWrite p r bs := by
  simp only [Work.pcieInbound, h, hk, ne_eq, not_true_eq_false, if_false]

theorem pcieInbound_read {n : BitVec 13} (hk : r.kind = .read n) : w.pcieInbound p r = w.inboundRead p r n.toNat := by
  simp only [Work.pcieInbound, h, hk, ne_eq, not_true_eq_false, if_false]

theorem pcieInbound_atomic {op : AmoOp} {z : Size} {v k : BitVec 128} (hk : r.kind = .atomic op z v k) :
    w.pcieInbound p r = w.inboundAtomic p r op z.bytes v.toNat k.toNat := by
  simp only [Work.pcieInbound, h, hk, ne_eq, not_true_eq_false, if_false]

end

theorem pcieInbound_down (h : (w.port p).st ≠ .up) : w.pcieInbound p r = w := if_pos h

end

/-! ## MSIs (R463, R468) -/

section
variable {w u : Work} {dev id a : Nat} {o : Option Nat} {d : W32}

/-- The record of an MSI that is dropped. -/
def msiLost (u : Work) (dev id : Nat) (o : Option Nat) (d : W32) (x : Nat) : Work :=
  u.record { cls := 0x0801, kind := 9, id := id, pound := optPound o, action := 6, addr := x, d0 := d.toNat, d1 := dev }

theorem msi_untranslated (h : w.translateMsi ownCache dev none a true = (u, none)) :
    w.msi ownCache dev none o 9 id a d = msiLost u dev id o d a := by
  simp only [Work.msi, h, msiLost]

variable {b : Nat} {via : Bool} (h : w.translateMsi ownCache dev none a true = (u, some (b, via)))
include h

theorem msi_glob {m k : Nat} (hp : u.place b = .glob m k) : w.msi ownCache dev none o 9 id a d = msiLost u dev id o d b := by
  simp only [Work.msi, h, hp, msiLost]

theorem msi_file {k f : Nat} (hp : u.place b = .control k) (hf : imsicFile k = some f) :
    w.msi ownCache dev none o 9 id a d =
      if via = true ∧ b % 0x1000 = 0 ∧ o.isSome = true ∧ u.coreOwner (imsicHart f) = o then u.imsicSet f d.toNat
      else msiLost u dev id o d b := by
  simp only [Work.msi, h, hp, hf, msiLost, Bool.and_eq_true, decide_eq_true_eq, and_assoc]

end

/-! ## The end of a request of a port (R372, R395, R465, R473) -/

section
variable {v : Work} {r : PortReq}

theorem endRequest_core {c : Nat} (hc : r.core = some c) (bs : List Byte) :
    v.endRequest r (some bs) = v.modCore c (fun x => { x with rd := BitVec.ofNat 128 (leNat bs), trap := none }) ∧
      v.endRequest r none = v.hostTrap c 19 r.va := by
  simp only [Work.endRequest, hc, Work.hostRetBytes, and_self]

variable (hc : r.core = none)
include hc

theorem endRequest_nobody (hw : r.who = none) (data : Option (List Byte)) : v.endRequest r data = v := by
  simp only [Work.endRequest, hc, hw]

theorem endRequest_command {q : Nat} {n : W32} {k : Cmd} (hw : r.who = some (.command q n)) (hk : v.started? q n 4 = some k)
    (bs : List Byte) :
    v.endRequest r (some bs) = (v.semSeen q k.seq (BitVec.ofNat 64 (leNat bs))).pump (.command q n) ∧
      v.endRequest r none = (v.complete q k 7 0 (BitVec.ofNat 64 r.va)).pump (.command q n) := by
  simp only [Work.endRequest, hc, hw, hk, Option.map_some, and_self]

/-! An engine that no SEM_WAIT started: its data goes to its destination, and what is lost or cannot be written ends its transfer. -/

section
variable {who : RemoteWho} (hw : r.who = some who) (hn : ∀ q n, who = .command q n → v.started? q n 4 = none)
include hw hn

theorem endRequest_lost : v.endRequest r none = (v.failXfer who 7 r.va).pump who := by
  cases who with
  | command q n => simp only [Work.endRequest, hc, hw, hn q n rfl, Option.map_none]
  | _ => simp only [Work.endRequest, hc, hw]

theorem endRequest_taken (hd : r.dst = none) (bs : List Byte) : v.endRequest r (some bs) = v.pump who := by
  cases who with
  | command q n => simp only [Work.endRequest, hc, hw, hd, hn q n rfl, Option.map_none]
  | _ => simp only [Work.endRequest, hc, hw, hd]

variable {d : Nat} (hd : r.dst = some d) {bs : List Byte} {u : Work}
include hd

theorem endRequest_written (he : v.engWrite (v.eng who) d bs false r.publish r.va = (u, none)) :
    v.endRequest r (some bs) = u.pump who := by
  cases who with
  | command q n => simp only [Work.endRequest, hc, hw, hd, he, hn q n rfl, Option.map_none]
  | _ => simp only [Work.endRequest, hc, hw, hd, he]

theorem endRequest_unwritten {e : Nat} (he : v.engWrite (v.eng who) d bs false r.publish r.va = (u, some e)) :
    v.endRequest r (some bs) = (u.failXfer who e 0).pump who := by
  cases who with
  | command q n => simp only [Work.endRequest, hc, hw, hd, he, hn q n rfl, Option.map_none]
  | _ => simp only [Work.endRequest, hc, hw, hd, he]

end

end

section
variable {w : Work} {p tag : Nat} {data : Nat → Option (List Byte)}

/-- The port without the request of a tag. -/
def withoutRequest (w : Work) (p : Nat) (r : PortReq) : Work :=
  w.modPort p (fun x => { x with reqs := x.reqs.filter (fun y => y.tag ≠ r.tag) })

/-- Engines that waited for a full port go on. -/
def portResumes (w : Work) (p : Nat) (u : Work) : Work := if (w.port p).full = true then u.pumpAll else u

theorem portResumes_eq (w : Work) (p : Nat) (u : Work) : portResumes w p u = if 768 ≤ (w.port p).reqs.length then u.pumpAll else u :=
  if_congr decide_eq_true_iff rfl rfl

theorem pcieCompletion_unknown (h : (w.port p).reqs.find? (fun r => r.tag % 65536 = tag) = none) : w.pcieCompletion p tag data = w := by
  simp only [Work.pcieCompletion, h]

theorem pcieCompletion_ends {r : PortReq} (h : (w.port p).reqs.find? (fun r => r.tag % 65536 = tag) = some r) :
    w.pcieCompletion p tag data = portResumes w p ((withoutRequest w p r).endRequest r (data r.len)) := by
  simp only [Work.pcieCompletion, h, portResumes, withoutRequest]

end

/-! ## The commands of a completion, where the request with its tag is r -/

section
variable {s : State} {p : PortId} {t : W16} {r : PortReq}
  (hr : ((Work.of s).port p).reqs.find? (fun r => r.tag % 65536 = t.toNat) = some r)
include hr

theorem runs_completion_good {st : PcieStatus} {bad : Bool} {d : List Byte} (hgood : st = .sc ∧ bad = false ∧ d.length = r.len)
    {u : Work} (hu : (withoutRequest (Work.of s) p r).endRequest r (some d) = u) :
    Runs (.pcieCompletion p t st bad d) s (portResumes (Work.of s) p u) := by
  obtain ⟨hst, hbad, hlen⟩ := hgood
  refine runs_of_lift exec_pcieCompletion ((pcieCompletion_ends hr).trans ?_)
  rw [if_pos (by simp [hst, hbad, hlen]), hu]

theorem runs_completion_bad {st : PcieStatus} {bad : Bool} {d : List Byte} (hgood : ¬ (st = .sc ∧ bad = false ∧ d.length = r.len))
    {u : Work} (hu : (withoutRequest (Work.of s) p r).endRequest r none = u) :
    Runs (.pcieCompletion p t st bad d) s (portResumes (Work.of s) p u) := by
  refine runs_of_lift exec_pcieCompletion ((pcieCompletion_ends hr).trans ?_)
  rw [if_neg (by simpa [and_assoc] using hgood), hu]

theorem runs_completionTimeout {u : Work} (hu : (withoutRequest (Work.of s) p r).endRequest r none = u) :
    Runs (.pcieCompletionTimeout p t) s (portResumes (Work.of s) p u) :=
  runs_of_lift exec_pcieCompletionTimeout ((pcieCompletion_ends hr).trans (congrArg _ hu))

end

/-! ## Link down (R333, R480, R482, R591) -/

section
variable {w : Work} {p : Nat}

theorem pcieDown_idle (hu : (w.port p).st ≠ .up) (hr : (w.port p).st ≠ .retraining) : w.pcieDown p = w :=
  if_pos (by simp [hu, hr])

/-- Port p contained, its link down: what it held, n posted writes among it, is lost, and PERST is asserted. -/
def portContained (w : Work) (p n : Nat) : Work :=
  (w.losePosted p).modPort p (fun y => { y with
    st := .contained, speed := 0, width := 0, cxl := false, reqs := [], perstLow := true, refclk := false
    dropped := min (y.dropped + n) 0xFFFF_FFFF, linkDowns := min (y.linkDowns + 1) 0xFFFF })

/-- The record of a link that went down with n posted writes lost. -/
def linkDownRecord (w : Work) (p n : Nat) : Work :=
  w.record { cls := 0x0802, kind := 9, id := p, pound := optPound (w.portOwner p), action := 6, count := n }

/-- Issuers of the posted writes, and requesters, learn of the loss. -/
def lossesTold (w : Work) (x : Port) : Work :=
  (w.each x.posted (fun w e => w.postedLost e.2.2 e.1)).each x.reqs (fun w r => w.endRequest r none)

theorem pcieDown_active (h : (w.port p).st = .up ∨ (w.port p).st = .retraining) :
    w.pcieDown p = portResumes w p (linkDownRecord (lossesTold (portContained w p (w.port p).posted.length) (w.port p)) p
      (w.port p).posted.length) :=
  if_neg (by rcases h with h | h <;> simp [h])

theorem pcieDown_empty (h : (w.port p).st = .up ∨ (w.port p).st = .retraining) (hr : (w.port p).reqs = [])
    (hp : (w.port p).posted = []) : w.pcieDown p = linkDownRecord (portContained w p 0) p 0 := by
  rw [pcieDown_active h, lossesTold, hr, hp, portResumes, Port.full, hr]
  rfl

theorem postedLost_engine (a : Nat) {who : RemoteWho} (h : ∀ k, who ≠ .core k) : w.postedLost (some who) a = w.failXfer who 4 a := by
  cases who with
  | core k => exact absurd rfl (h k)
  | _ => rfl

end

/-! ## HIO_PORT_CTRL (R480, R486) -/

/-- A register write that takes effect: what it does, and then the end of the hart's trap. -/
theorem regStore_open {s : State} {c off : Nat} {z : Size} {high allowed : Bool} {v : W64} (F : Work → Work) (hz : regSize z = true)
    (ho : RegOpen s c off allowed) : (Work.of s).regStore c off z high allowed v F = untrap c (F (Work.of s)) := by
  obtain ⟨hfree, hbuf, hblock, hallowed, hcp, htile⟩ := ho
  simp [Work.regStore, Work.regDo, hostIo_free _ hfree hbuf, hz, hblock, hallowed, hcp, htile, untrap]

section
variable {w : Work} {p : Nat}

theorem portOp_retrain (h : (w.port p).st = .up) : w.portOp p 1 = w.modPort p (fun x =>
    { x with st := .retraining, retrains := min (x.retrains + 1) 0xFFFF }) := if_pos h

theorem portOp_release (h : (w.port p).st = .contained) : w.portOp p 2 = w.modPort p (fun x =>
    { x with st := .training, perstLow := false, refclk := true }) := if_pos h

/-- An OP of HIO_PORT_CTRL without effect. -/
def portRefused (w : Work) (p op : Nat) : Work :=
  w.record { cls := 0x0803, kind := 9, id := p, pound := optPound (w.portOwner p), action := 6, d0 := op, d1 := (w.port p).st.code }

theorem portOp_retrain_refused (h : (w.port p).st ≠ .up) : w.portOp p 1 = portRefused w p 1 := if_neg h

theorem portOp_release_refused (h : (w.port p).st ≠ .contained) : w.portOp p 2 = portRefused w p 2 := if_neg h

end

/-! ## Cached translations (R470) -/

theorem covers_iff {n : Nat} {x : Option (BitVec n)} {v : Nat} : covers x v = true ↔ ∀ b, x = some b → v = b.toNat := by
  cases x with
  | none => simp [covers]
  | some b => simp [covers, eq_comm]

/-- In a map of distinct keys, what is found at a key is what is listed with it. -/
theorem look_eq_some_iff_mem {α : Type} {m : SMap α} (h : (m.map (·.1)).Nodup) {k : Nat} {v : α} :
    SMap.look m k = some v ↔ (k, v) ∈ m := by
  induction m with
  | nil => simp [SMap.look]
  | cons e m ih =>
    obtain ⟨j, u⟩ := e
    obtain ⟨hj, hm⟩ := List.nodup_cons.mp h
    by_cases hk : j = k
    · subst hk
      have hno : (j, v) ∉ m := fun hin => hj (List.mem_map_of_mem (f := (·.1)) hin)
      simp [SMap.look, hno, eq_comm]
    · simp [SMap.look, hk, ih hm, Ne.symm hk]

/-- An invalidation takes the translations that it hits from every cache, and no others. -/
theorem inval_keeps {w : Work} (hit : Xlat → Bool) (h : (w.chip.iommu.cache.map (·.1)).Nodup) (c : Nat) (x : Xlat) :
    (∃ l, SMap.look (w.inval hit).chip.iommu.cache c = some l ∧ x ∈ l) ↔
      ∃ l, SMap.look w.chip.iommu.cache c = some l ∧ x ∈ l ∧ hit x = false := by
  have hkeys : ((w.inval hit).chip.iommu.cache.map (·.1)).Nodup := by
    refine List.Nodup.sublist (List.filter_sublist.map (Prod.fst (α := Nat) (β := List Xlat))) ?_
    rw [SMap.mapVal, List.map_map]
    exact h
  simp only [look_eq_some_iff_mem h, look_eq_some_iff_mem hkeys]
  simp only [Work.inval, SMap.mapVal, List.mem_filter, List.mem_map, decide_eq_true_eq]
  constructor
  · rintro ⟨_, ⟨⟨⟨k, l⟩, hm, he⟩, -⟩, hx⟩
    obtain ⟨rfl, rfl⟩ := Prod.mk.inj he
    obtain ⟨hxl, hno⟩ := List.mem_filter.mp hx
    exact ⟨l, hm, hxl, by simpa using hno⟩
  · rintro ⟨l, hm, hx, hno⟩
    have hkept : x ∈ l.filter (fun e => !hit e) := List.mem_filter.mpr ⟨hx, by simp [hno]⟩
    exact ⟨_, ⟨⟨(c, l), hm, rfl⟩, List.ne_nil_of_mem hkept⟩, hkept⟩

/-- Settles O44: each clause is the equation of its outcome, at the command that has it. -/
theorem inboundRequestsAndPorts : Obligations.InboundRequestsAndPorts := by
  unfold Obligations.InboundRequestsAndPorts
  refine ⟨⟨fun s p r q a d hwf hst => ?down, fun w p a n wr via => ?place, fun s p r hwf hst => ?request, fun s p q a d hst => ?msi⟩,
    fun s p t st bad d => ?completion, fun s p => ?linkDown, fun w a c => ?posted, fun s c p ho => ?control, fun s p k on => ?intx,
    fun s e => ?eth, fun s g p a => ?iommu⟩
  case down =>
    exact ⟨becomes_of_lift (exec_pcieInboundRequest.trans (liftIf_eq hwf)) (pcieInbound_down hst),
      becomes_of_lift exec_inboundMsi (if_pos hst)⟩
  case place =>
    intro o go gone denied
    refine ⟨fun q k hp => ⟨inboundPlace_configuration hp, inboundPlace_peer hp⟩, inboundPlace_nowhere,
      fun k hp => ⟨inboundPlace_control hp, fun f hf hvia hwr => ?_⟩, fun hp => ⟨fun ha => ?_, fun ha => ?_, fun ha => ?_⟩⟩
    · subst hvia hwr; exact inboundPlace_msi hp hf
    all_goals exact (inboundPlace_memory hp).trans (congrArg (inboundChecked w p a) ha)
  case request =>
    intro w i a
    have hrun {u : Work} (hu : w.pcieInbound p r = u) : Runs i s u :=
      runs_of_lift (exec_pcieInboundRequest.trans (liftIf_eq hwf)) hu
    refine ⟨fun ht ha n wr => inboundPiece_noAts ht ha a n wr, fun bs hk => ?write, fun n hk => ?read, fun op z v k hk => ?atomic⟩
    case write => exact hrun ((pcieInbound_write hst hk).trans (inboundWrite_eq bs))
    case read =>
      have hread := (pcieInbound_read hst hk).trans (inboundRead_eq n.toNat)
      exact ⟨fun hg => hrun (hread.trans (readReply_refused hg)),
        fun bs bad hg hfar => hrun (hread.trans ((readReply_read hg).trans (if_neg (Bool.eq_false_iff.mp hfar)))),
        fun bs bad hg hfar => hrun (hread.trans ((readReply_read hg).trans (if_pos hfar)))⟩
    case atomic =>
      have hat := pcieInbound_atomic hst hk
      refine ⟨fun h => hrun (hat.trans (inboundAtomic_misaligned h)),
        fun h u b hx => ⟨fun hm => ?_, fun hm hp => ?_, fun hm hp => ?_⟩,
        fun h u x hx hno => hrun (hat.trans (inboundAtomic_elsewhere h hx hno))⟩
      · exact hrun (hat.trans (inboundAtomic_notMain h hx hm))
      · exact hrun (hat.trans (inboundAtomic_acts h hx hm hp))
      · exact hrun (hat.trans (inboundAtomic_poisoned h hx hm hp))
  case msi =>
    intro o lost
    have hrun {u : Work} (hu : (Work.of s).msi ownCache q.toNat none o 9 p a.toNat d = u) : Runs (.inboundMsi p q a d) s u :=
      runs_of_lift exec_inboundMsi ((if_neg (not_not_intro hst)).trans hu)
    refine ⟨fun u h => hrun (msi_untranslated h), fun u b via h => ⟨fun k f hp hf => ⟨fun hv hb ho hc => ?_, fun hno => ?_⟩,
      fun m k hp => hrun (msi_glob h hp)⟩⟩
    · exact hrun ((msi_file h hp hf).trans (if_pos ⟨hv, hb, ho, hc⟩))
    · refine hrun ((msi_file h hp hf).trans (if_neg ?_))
      rintro ⟨hv, hb, ho, hc⟩
      rcases hno with hno | hno | hno | hno
      · cases hv.symm.trans hno
      · exact hno hb
      · rw [hno] at ho; cases ho
      · exact hno hc
  case completion =>
    intro w
    refine ⟨fun hr => ⟨becomes_of_lift exec_pcieCompletion (pcieCompletion_unknown hr),
      becomes_of_lift exec_pcieCompletionTimeout (pcieCompletion_unknown hr)⟩, fun r hr => ?_⟩
    intro v ends good
    refine ⟨fun c hc => ?core, fun q n k hc hw hk => ?command, fun who hc hw hn => ?engine, fun hc hw => ?nobody⟩
    case core =>
      obtain ⟨hdata, hlost⟩ := endRequest_core (v := v) hc d
      exact ⟨fun hg => runs_completion_good hr hg hdata, fun hg => runs_completion_bad hr hg hlost, runs_completionTimeout hr hlost⟩
    case command =>
      obtain ⟨hdata, hlost⟩ := endRequest_command (v := v) hc hw hk d
      exact ⟨fun hg => runs_completion_good hr hg hdata, fun hg => runs_completion_bad hr hg hlost, runs_completionTimeout hr hlost⟩
    case engine =>
      have hlost := endRequest_lost (v := v) hc hw hn
      exact ⟨fun hd hg => runs_completion_good hr hg (endRequest_taken hc hw hn hd d), fun x u hd hg =>
        ⟨fun he => runs_completion_good hr hg (endRequest_written hc hw hn hd he),
          fun e he => runs_completion_good hr hg (endRequest_unwritten hc hw hn hd he)⟩,
        fun hg => runs_completion_bad hr hg hlost, runs_completionTimeout hr hlost⟩
    case nobody =>
      have hnone := endRequest_nobody (v := v) hc hw
      by_cases hg : good
      · exact ⟨runs_completion_good hr hg (hnone _), runs_completionTimeout hr (hnone _)⟩
      · exact ⟨runs_completion_bad hr hg (hnone _), runs_completionTimeout hr (hnone _)⟩
  case linkDown =>
    intro w x
    refine ⟨fun hu hr => becomes_of_lift exec_pcieLinkDown (pcieDown_idle hu hr),
      fun h hr hp => runs_of_lift exec_pcieLinkDown (pcieDown_empty h hr hp), fun h => ?_,
      fun h => runs_of_lift exec_pcieLinkRetrain (if_pos h), fun h => becomes_of_lift exec_pcieLinkRetrain (if_neg h)⟩
    exact runs_of_lift exec_pcieLinkDown ((pcieDown_active h).trans (portResumes_eq _ _ _))
  case posted => exact ⟨rfl, fun who => postedLost_engine a, rfl⟩
  case control =>
    intro w st refused
    have hretrain {u : Work} (hu : w.portOp p 1 = u) : Runs (.portRetrain c p) s (untrap c u) :=
      runs_of_lift exec_portRetrain ((regStore_open _ rfl ho).trans (congrArg (untrap c) hu))
    have hrelease {u : Work} (hu : w.portOp p 2 = u) : Runs (.portRelease c p) s (untrap c u) :=
      runs_of_lift exec_portRelease ((regStore_open _ rfl ho).trans (congrArg (untrap c) hu))
    exact ⟨fun h => hretrain (portOp_retrain h), fun h => hretrain (portOp_retrain_refused h),
      fun h => hrelease (portOp_release h), fun h => hrelease (portOp_release_refused h)⟩
  case intx => exact ⟨fun h => runs_of_lift exec_pcieIntx (if_pos h), fun h => becomes_of_lift exec_pcieIntx (if_neg h)⟩
  case eth =>
    exact ⟨fun h => runs_of_lift exec_ethLinkDown (if_neg (by simp [h])),
      fun h => becomes_of_lift exec_ethLinkDown (if_pos (by simp [h]))⟩
  case iommu =>
    intro keeps drop
    refine ⟨runs_of_lift exec_iotinvalVma rfl, runs_of_lift exec_iotinvalGvma rfl, fun hkeys =>
      ⟨⟨(Work.of s).inval _, fun c x => ?vma, rfl, rfl, rfl, runs_of_lift exec_iotinvalVma rfl⟩,
        ⟨(Work.of s).inval _, fun c x => ?gvma, rfl, rfl, rfl, runs_of_lift exec_iotinvalGvma rfl⟩⟩,
      fun h => becomes_of_lift exec_iofenceC (if_pos h),
      fun h => runs_of_lift exec_iofenceC (if_neg (Bool.eq_false_iff.mp h))⟩
    case vma =>
      rw [inval_keeps _ hkeys]
      simp only [← Bool.not_eq_true, Bool.and_eq_true, covers_iff, and_assoc]
      rfl
    case gvma =>
      rw [inval_keeps _ hkeys]
      simp only [← Bool.not_eq_true, covers_iff]
      rfl

end Sys2Proof
end

section
/-!
One step of the module (Obligations.StepRunsTheFront).
-/

namespace Sys2Proof

open Sys2Proof.Machine

theorem step_of_cons {s : State} {c : Instr} {rest : List Instr} (h : s.pending = c :: rest) :
    step s = exec c { s with pending := rest } := by
  simp only [step, h]

theorem step_of_nil {s : State} (h : s.pending = []) : step s = lift Work.tick s := by
  simp only [step, h]

/-- Settles O1, by whether a command waits. -/
theorem stepRunsTheFront : Obligations.StepRunsTheFront := fun _ _ _ => ⟨step_of_cons, step_of_nil⟩

end Sys2Proof
end

section
/-!
Posting an order (Obligations.OrderBounds): the status with which the table refuses or accepts it, and what a post makes of the
workbench (R110, R112, R114, R118).
-/

namespace Sys2Proof

open Sys2Proof.Machine

/-! ## The status (R110, R112, R114) -/

section
variable {w : Work} {who : Poster} {at_ : Nat}

theorem postStatus_unlocked (h : w.locked = false) : w.postStatus who at_ = ltUnavailable := by
  simp [Work.postStatus, h]

variable (hl : w.locked = true)
include hl

theorem postStatus_tooSoon (h : at_ < w.now + 2000) : w.postStatus who at_ = ltTooSoon := by
  simp [Work.postStatus, hl, h]

theorem postStatus_tooFar (h : w.now + 86_400_000_000_000 < at_) : w.postStatus who at_ = ltTooFar := by
  have hsoon : ¬ at_ < w.now + 2000 := by omega
  simp [Work.postStatus, hl, h, hsoon]

variable (hlo : w.now + 2000 ≤ at_) (hhi : at_ ≤ w.now + 86_400_000_000_000)
include hlo hhi

theorem postStatus_full (hwho : who = .management ∨ ∃ p, who = .pound p) (h : 3840 ≤ w.outsideOrders) :
    w.postStatus who at_ = ltFull := by
  have hsoon := Nat.not_lt.mpr hlo
  have hfar := Nat.not_lt.mpr hhi
  rcases hwho with rfl | ⟨p, rfl⟩ <;> simp [Work.postStatus, hl, hsoon, hfar, h]

theorem postStatus_room (h : w.outsideOrders < 3840) : w.postStatus who at_ = 0 := by
  simp [Work.postStatus, hl, Nat.not_lt.mpr hlo, Nat.not_lt.mpr hhi, Nat.not_le.mpr h]

/-- Within the bounds of R114 only a full table refuses. -/
theorem postStatus_inBounds : w.postStatus who at_ = 0 ∨ w.postStatus who at_ = ltFull := by
  simp only [Work.postStatus, hl, Nat.not_lt.mpr hlo, Nat.not_lt.mpr hhi, Bool.not_true, Bool.false_eq_true, if_false]
  exact (ite_eq_or_eq _ _ _).symm

end

/-! ## The post (R112, R114, R118) -/

section
variable {w : Work} {who : Poster} {action at_ pound notice arg : Nat}

theorem post_refused (h : w.postStatus who at_ ≠ 0) :
    w.post_ who action at_ pound notice arg = (w, w.postStatus who at_, 0) := by
  unfold Work.post_
  split
  · exact absurd ‹_› h
  · rfl

/-- An order that the checks pass is refused for want of a free entry alone. -/
theorem post_passed (h : w.postStatus who at_ = 0) :
    (w.post_ who action at_ pound notice arg).2.1 = 0 ∨ (w.post_ who action at_ pound notice arg).2.1 = ltFull := by
  simp only [Work.post_, h]
  split
  · exact .inr rfl
  · exact .inl rfl

/-- The entry of an order as it is accepted into the table. -/
def acceptedOrder (w : Work) (who : Poster) (action at_ pound notice arg : Nat) : Order :=
  { action := action, at_ := at_, pound := pound, notice := notice, arg := arg, poster := who
    accepted := w.chip.time.accepted, began := none, deadline := none, noticed := false }

/-- A post without a notice, where an entry is free. -/
theorem post_accepted (h : w.postStatus who at_ = 0) (hroom : w.chip.time.orders.length < 4096) :
    ∃ i, i < 4096 ∧ w.order? i = none ∧ w.post_ who action at_ pound 0 arg =
      ({ w with chip := { w.chip with
          free := w.chip.free + 1
          time := { w.chip.time with
            orders := SMap.insert w.chip.time.orders i (acceptedOrder w who action at_ pound 0 arg)
            accepted := w.chip.time.accepted + 1 } } }, 0, i) := by
  obtain ⟨i, hi, hfree, hentry⟩ := freeEntry_of_room hroom
  refine ⟨i, hi, hfree, ?_⟩
  simp only [Work.post_, h, hentry, Work.noticeDue]
  rfl

end

/-- Settles O58: beyond a bound the status refuses the post; within both only a full table does. -/
theorem orderBounds : Obligations.OrderBounds := by
  intro w who action at_ pound notice arg hl r
  refine ⟨fun h => ?soon, fun h => ?far, fun hlo hhi => ?within⟩
  case soon =>
    have hs : w.postStatus who at_ = ltTooSoon := postStatus_tooSoon hl h
    have hr : r = (w, ltTooSoon, 0) := (post_refused (by rw [hs]; decide)).trans (by rw [hs])
    rw [hr]; exact ⟨rfl, rfl⟩
  case far =>
    have hs : w.postStatus who at_ = ltTooFar := postStatus_tooFar hl h
    have hr : r = (w, ltTooFar, 0) := (post_refused (by rw [hs]; decide)).trans (by rw [hs])
    rw [hr]; exact ⟨rfl, rfl⟩
  case within =>
    have hr : r.2.1 = 0 ∨ r.2.1 = ltFull := by
      rcases postStatus_inBounds (who := who) hl hlo hhi with hs | hs
      · exact post_passed hs
      · exact .inr ((congrArg (·.2.1) (post_refused (by rw [hs]; decide))).trans hs)
    rcases hr with hr | hr <;> rw [hr] <;> decide

end Sys2Proof
end

section
/-!
Lock orders (Obligations.OrdersAndWindows): the order registers of a pound, the moment of a notice, the start of an order's action,
checkpoint fences and Collation windows.
-/

namespace Sys2Proof

open Sys2Proof.Machine

/-! ## The table -/

theorem look_insert_self {α : Type} (m : SMap α) (k : Nat) (v : α) (h : SMap.look m k = none) :
    SMap.look (SMap.insert m k v) k = some v := by
  induction m with
  | nil => simp [SMap.insert, SMap.look]
  | cons e m ih =>
    obtain ⟨j, u⟩ := e
    have hj : j ≠ k := fun hj => by simp [SMap.look, hj] at h
    have hm : SMap.look m k = none := by simpa [SMap.look, hj] using h
    by_cases hlt : k < j
    · simp [SMap.insert, SMap.look, hlt]
    · simp [SMap.insert, SMap.look, hlt, hj, ih hm]

/-! ## LT_ORDER_CMD (R113, R119, R123, R124) -/

section
variable {w : Work} {p : Nat}

section Post
variable {r : OrderRegs} (hr : w.orderRegs p = r)
include hr

theorem orderPost_badArgument (h : bits r.spec 7 0 = 6 ∧ bits r.spec 63 32 = 0 ∨ bits r.spec 7 0 = 7 ∧ bits r.spec 63 32 ≠ 0) :
    w.orderPost p = w.orderResult p ltBadArgument 0 := by
  have hc : (decide (bits r.spec 7 0 = 6) && decide (bits r.spec 63 32 = 0) ||
      decide (bits r.spec 7 0 = 7) && decide (bits r.spec 63 32 ≠ 0)) = true := by simpa using h
  simp only [Work.orderPost, hr, hc, if_true]

theorem orderPost_notPermitted (h6 : bits r.spec 7 0 ≠ 6) (h7 : bits r.spec 7 0 ≠ 7) :
    w.orderPost p = w.orderResult p ltNotPermitted 0 := by
  simp [Work.orderPost, hr, h6, h7]

theorem orderPost_posts (h : bits r.spec 7 0 = 6 ∧ bits r.spec 63 32 ≠ 0 ∨ bits r.spec 7 0 = 7 ∧ bits r.spec 63 32 = 0) :
    w.orderPost p =
      let t := w.post_ (.pound p) (bits r.spec 7 0) r.at_.toNat p (bits r.spec 31 16) (bits r.spec 63 32)
      t.1.orderResult p t.2.1 t.2.2 := by
  rcases h with ⟨ha, harg⟩ | ⟨ha, harg⟩ <;> simp [Work.orderPost, hr, ha, harg]

end Post

section Cancel
variable {i : Nat}

theorem orderCancel_unknown (h : w.order? i = none) : w.orderCancel p i = w.orderResult p ltNotFound i := by
  simp only [Work.orderCancel, h]

variable {o : Order} (ho : w.order? i = some o)
include ho

theorem orderCancel_charter (h : o.action = 3) : w.orderCancel p i = w.orderResult p ltNotPermitted i := by
  simp only [Work.orderCancel, ho, h, if_true]

variable (ha : o.action ≠ 3)
include ha

theorem orderCancel_foreign (h : o.poster ≠ .pound p) : w.orderCancel p i = w.orderResult p ltNotFound i := by
  simp [Work.orderCancel, ho, ha, h]

variable (hp : o.poster = .pound p)
include hp

theorem orderCancel_begun (h : o.began ≠ none) : w.orderCancel p i = w.orderResult p ltTooLate i := by
  simp [Work.orderCancel, ho, ha, hp, Option.isSome_iff_ne_none, h]

theorem orderCancel_cancels (h : o.began = none) : w.orderCancel p i = (w.freeOrder i).orderResult p 0 i := by
  simp [Work.orderCancel, ho, ha, hp, h]

end Cancel

end

/-- A store to LT_ORDER_CMD of the hart's pound acts as its OP says. -/
theorem runs_orderStore {s : State} {c : CoreId} {p : PoundId} {i : Instr} {op k : Nat} {w : Work}
    (ho : RegOpen s c (ltBase + 0x110 + p.val * 0x40) ((Work.of s).isPound c p))
    (hi : exec i s = lift (fun w => w.orderStore c p op k) s) (hw : (Work.of s).orderCmd p op k = w) : Runs i s (untrap c w) :=
  runs_of_lift hi ((regStore_open _ rfl ho).trans (congrArg (untrap c) hw))

/-! ## A notice, and the start of an action (R110, R116, R118) -/

theorem noticeMoment_iff {w : Work} {o : Order} :
    (w.noticeDue o && o.began.isNone && w.locked) = true ↔
      o.notice ≠ 0 ∧ o.noticed = false ∧ o.at_ ≤ w.now + o.notice * 1000 ∧ o.began = none ∧ w.locked = true := by
  simp [Work.noticeDue, and_assoc]

theorem beginOrder_noNotice {w : Work} {i : Nat} {o : Order} (d : Option Nat) (h : w.noticeDue o = false) :
    w.beginOrder i o d = { w with chip := { w.chip with time := { w.chip.time with
      orders := SMap.insert (SMap.erase w.chip.time.orders i) i { o with began := some w.now, deadline := d, noticed := true }
      late := w.chip.time.late || decide (o.at_ + 1000 < w.now ∨ o.at_ < w.chip.time.lockedAt ∧ w.chip.time.lockedAt ≤ w.now) } } } := by
  simp [Work.beginOrder, h, Work.startsLate]

/-! ## Checkpoint fences and Collation windows (R304, R531) -/

section
variable {w : Work} {i : Nat}

theorem fenceStart_waits (h : w.startable i 7 = none) : w.fenceStart i = w := by simp only [Work.fenceStart, h]

theorem fenceStart_starts {o : Order} (h : w.startable i 7 = some o) :
    w.fenceStart i =
      let u := w.beginOrder i o (some 1_000_000)
      let qs := u.sqsOf o.pound
      let v := u.each qs (fun w q => w.modSq q (fun x => { x with fenceSeq := x.started }))
      (v.modPound o.pound (fun x =>
        { x with fences := x.fences ++ [(o.at_, qs.map (fun q => (q, (v.sq q).fenceSeq)))] })).endOrder i := by
  simp only [Work.fenceStart, h]

theorem windowStart_waits (h : w.startable i 6 = none) : w.windowStart i = w := by simp only [Work.windowStart, h]

theorem windowStart_starts {o : Order} (h : w.startable i 6 = some o) :
    w.windowStart i = (w.beginOrder i o none).modPound o.pound (fun x =>
      { x with collWindowEnd := max x.collWindowEnd (o.at_ + o.arg * 1000) }) := by
  simp only [Work.windowStart, h]

end

section
variable {w : Work} {p i : Nat} {o : Order} (h : w.chip.time.orders = [(i, o)])
include h

theorem windowEnd_ends (ha : o.action = 6) (hp : o.pound = p) (hb : ∃ b, o.began = some b) (ht : o.at_ + o.arg * 1000 ≤ w.now) :
    w.windowEnd p = w.endOrder i := by
  obtain ⟨b, hb⟩ := hb
  simp [Work.windowEnd, h, ha, hp, hb, ht]

theorem windowEnd_goesOn (hn : o.action ≠ 6 ∨ o.pound ≠ p ∨ o.began = none ∨ w.now < o.at_ + o.arg * 1000) :
    w.windowEnd p = w := by
  have hc : (decide (o.action = 6) && decide (o.pound = p) && o.began.isSome && decide (o.at_ + o.arg * 1000 ≤ w.now)) = false := by
    rcases hn with hn | hn | hn | hn <;> simp [hn]
  simp [Work.windowEnd, h, hc]

end

section
variable {w : Work} {p : Nat}

theorem fenceReached_notifies {f : Nat × List (Nat × W32)}
    (h : (w.pound p).fences.find? (fun f => f.2.all (fun e => w.upTo e.1 e.2)) = some f) :
    w.fenceReached p = (w.modPound p (fun x => { x with fences := x.fences.erase f })).notice p 0x15 f.1 0 0 f.1 := by
  simp only [Work.fenceReached, h]

theorem fenceReached_waits (h : ∀ f ∈ (w.pound p).fences, ∃ e ∈ f.2, w.upTo e.1 e.2 = false) : w.fenceReached p = w := by
  have hnone : (w.pound p).fences.find? (fun f => f.2.all (fun e => w.upTo e.1 e.2)) = none := by
    rw [List.find?_eq_none]
    intro f hf hall
    obtain ⟨e, he, hopen⟩ := h f hf
    have hdone : w.upTo e.1 e.2 = true := List.all_eq_true.mp hall e he
    rw [hopen] at hdone; cases hdone
  simp only [Work.fenceReached, hnone]

end

/-- Settles O25: each command by the equation of its outcome; an accepted order takes a free entry, which a table that is not full
has. -/
theorem ordersAndWindows : Obligations.OrdersAndWindows := by
  unfold Obligations.OrdersAndWindows
  refine ⟨⟨fun w who at_ => ⟨postStatus_unlocked, postStatus_tooSoon, fun hl _ => postStatus_tooFar hl, postStatus_full,
      postStatus_room⟩, fun w who action at_ pound arg hs hroom => ?accepted⟩,
    ⟨fun s c p ho => ?registers, fun s i => ?noticeMoment⟩,
    fun s i o h => runs_of_lift exec_checkpointFence (fenceStart_starts h),
    fun s i o h => runs_of_lift exec_collationWindow (windowStart_starts h),
    fun s i => ⟨fun h => becomes_of_lift exec_collationWindow (windowStart_waits h),
      fun h => becomes_of_lift exec_checkpointFence (fenceStart_waits h)⟩,
    fun s p => runs_of_lift exec_collationWindowEnd rfl,
    fun s p i o h => ⟨fun ha hp hb ht => runs_of_lift exec_collationWindowEnd (windowEnd_ends h ha hp hb ht),
      fun hn => becomes_of_lift exec_collationWindowEnd (windowEnd_goesOn h hn)⟩,
    fun s p f h => runs_of_lift exec_checkpointFenceReached (fenceReached_notifies h),
    fun s p h => becomes_of_lift exec_checkpointFenceReached (fenceReached_waits h),
    fun w i o d h _ => beginOrder_noNotice d h⟩
  case accepted =>
    obtain ⟨i, hi, hfree, hpost⟩ := post_accepted (action := action) (pound := pound) (arg := arg) hs hroom
    rw [hpost]
    exact ⟨rfl, hi, hfree, look_insert_self _ _ _ hfree, rfl⟩
  case registers =>
    intro r action arg w result
    refine ⟨fun h => runs_orderStore ho exec_ltOrderPost (orderPost_badArgument rfl h),
      fun h6 h7 => runs_orderStore ho exec_ltOrderPost (orderPost_notPermitted rfl h6 h7),
      fun h => runs_orderStore ho exec_ltOrderPost (orderPost_posts rfl h), fun i => ?cancel, fun op hop => ?badOp⟩
    case cancel =>
      have hrun {v : Work} (hv : w.orderCancel p i = v) : Runs (.ltOrderCancel c p i) s (untrap c v) :=
        runs_orderStore ho exec_ltOrderCancel hv
      exact ⟨fun h => hrun (orderCancel_unknown h), fun o h => ⟨fun ha => hrun (orderCancel_charter h ha),
        fun ha hp => hrun (orderCancel_foreign h ha hp), fun ha hp hb => hrun (orderCancel_begun h ha hp hb),
        fun ha hp hb => hrun (orderCancel_cancels h ha hp hb)⟩⟩
    case badOp => rcases hop with rfl | rfl <;> exact runs_orderStore ho exec_ltOrderBadOp rfl
  case noticeMoment =>
    refine ⟨fun h => becomes_of_lift exec_lockOrderNotice ?_, fun o h => ⟨fun hdue => runs_of_lift exec_lockOrderNotice ?_,
      fun hnot => becomes_of_lift exec_lockOrderNotice ?_⟩⟩
    · simp only [h]; rfl
    · simp only [h, noticeMoment_iff.mpr hdue, if_true]
    · have hc : ¬ ((Work.of s).noticeDue o && o.began.isNone && (Work.of s).locked) = true := by
        rw [noticeMoment_iff]
        rintro ⟨hn, hd, ht, hb, hl⟩
        rcases hnot with h0 | h1 | h2 | h3 | h4
        · exact hn h0
        · rw [hd] at h1; cases h1
        · exact Nat.not_le.mpr h2 ht
        · exact h3 hb
        · rw [hl] at h4; cases h4
      simp only [h, if_neg hc]; rfl

end Sys2Proof
end

section
/-!
Lock Time (Obligations.LedgerTime): the source in use, what a sample of it does, and the events of the sources.
-/

namespace Sys2Proof

open Sys2Proof.Machine

/-! ## The source in use (R103, R106) -/

section
variable {w : Work}

theorem chooseSource_pps (h : (bit w.chip.time.srcEn 0 && w.chip.time.ppsValid) = true) : w.chooseSource = some .pps := if_pos h

variable (hpps : (bit w.chip.time.srcEn 0 && w.chip.time.ppsValid) = false)
include hpps

theorem chooseSource_ptp {e : EthId} (h : w.choosePtp = some e.val) : w.chooseSource = some (.ptp e) := by
  have he : (if e.val = 1 then 1 else 0 : EthId) = e := by
    match e with
    | 0 => rfl
    | 1 => rfl
  simp only [Work.chooseSource, hpps, h, he, Bool.false_eq_true, if_false]

variable (hptp : w.choosePtp = none)
include hptp

theorem chooseSource_noSite : w.chooseSource = w.chooseNyulle.map (fun l => .nyulle (Fin.ofNat 48 l)) := by
  simp only [Work.chooseSource, hpps, hptp, Bool.false_eq_true, if_false]

theorem chooseSource_parent {l : NylId} (h : w.chooseParent = some l.val) : w.chooseSource = some (.nyulle l) := by
  have hl : w.chooseNyulle = some l.val := by simp only [Work.chooseNyulle, h]
  rw [chooseSource_noSite hpps hptp, hl, Option.map_some, Fin.ofNat_val_eq_self]

theorem chooseSource_none (h : w.chooseNyulle = none) : w.chooseSource = none := by
  rw [chooseSource_noSite hpps hptp, h]; rfl

end

/-! ## A sample (R103, R108, R109) -/

theorem setLtState_of_ne {w : Work} {st : LtState} (h : w.chip.time.st ≠ st) :
    w.setLtState st = Work.aplicRaise { w with chip := { w.chip with time := { w.chip.time with st := st, good := 0 } } } 20 :=
  if_neg h

section
variable {w : Work} {src : TimeSource} {ns : Nat}

theorem timeSample_other (h : w.refreshSource.chooseSource ≠ some src) : w.timeSample src ns = w.refreshSource := if_pos h

variable {v : Work} (hv : w.refreshSource = v) (hsrc : v.chooseSource = some src)
include hv hsrc

theorem timeSample_locked_near (hst : v.chip.time.st = .locked) (hd : ((ns : Int) - (v.now : Int)).natAbs ≤ 25) :
    w.timeSample src ns = v := by
  simp only [Work.timeSample, hv, hsrc, ne_eq, not_true_eq_false, if_false, hst, hd, decide_true, if_true]

theorem timeSample_locked_far (hst : v.chip.time.st = .locked) (hd : 25 < ((ns : Int) - (v.now : Int)).natAbs) :
    w.timeSample src ns = v.loseTime 2 (sourceCode src) ((ns : Int) - (v.now : Int)) := by
  simp only [Work.timeSample, hv, hsrc, ne_eq, not_true_eq_false, if_false, hst, Nat.not_le.mpr hd, decide_false,
    Bool.false_eq_true, if_false]

theorem timeSample_lost (hst : v.chip.time.st = .lost) : w.timeSample src ns = (v.stepTime ns).setLtState .acquiring := by
  simp only [Work.timeSample, hv, hsrc, ne_eq, not_true_eq_false, if_false, hst]

theorem timeSample_acquiring_far (hst : v.chip.time.st = .acquiring) (hd : 25 < ((ns : Int) - (v.now : Int)).natAbs) :
    w.timeSample src ns = v.stepTime ns := by
  simp only [Work.timeSample, hv, hsrc, ne_eq, not_true_eq_false, if_false, hst, Nat.not_le.mpr hd, decide_false,
    Bool.not_false, if_true]

theorem timeSample_acquiring_near (hst : v.chip.time.st = .acquiring) (hd : ((ns : Int) - (v.now : Int)).natAbs ≤ 25) :
    w.timeSample src ns =
      if 3 ≤ v.chip.time.good then v.lockTime
      else { v with chip := { v.chip with time := { v.chip.time with good := v.chip.time.good + 1 } } } := by
  simp only [Work.timeSample, hv, hsrc, ne_eq, not_true_eq_false, if_false, hst, hd, decide_true, Bool.not_true,
    Bool.false_eq_true, if_false]

end

/-! ## No valid source (R109) -/

section
variable {w : Work}

theorem expireSource_valid (h : w.refreshSource.chooseSource.isSome = true) : w.expireSource = w.refreshSource := if_pos h

variable (h : w.refreshSource.chooseSource = none)
include h

theorem expireSource_locked (hst : w.chip.time.st = .locked) : w.expireSource = w.refreshSource.loseTime 1 w.chip.time.source 0 := by
  have hst' : w.refreshSource.chip.time.st = .locked := hst
  simp only [Work.expireSource, h, Option.isSome_none, Bool.false_eq_true, if_false, hst']

theorem expireSource_acquiring (hst : w.chip.time.st = .acquiring) : w.expireSource = w.refreshSource.setLtState .lost := by
  have hst' : w.refreshSource.chip.time.st = .acquiring := hst
  simp only [Work.expireSource, h, Option.isSome_none, Bool.false_eq_true, if_false, hst']

theorem expireSource_lost (hst : w.chip.time.st = .lost) : w.expireSource = w.refreshSource := by
  have hst' : w.refreshSource.chip.time.st = .lost := hst
  simp only [Work.expireSource, h, Option.isSome_none, Bool.false_eq_true, if_false, hst']

end

/-! ## LOCK_PPS (R103, R592, R593) -/

/-- The edge of now is the last one, its message is taken, and ok says whether LOCK_PPS is valid. -/
def edgeTaken (v : Work) (now : Nat) (ok : Bool) : Work :=
  { v with chip := { v.chip with time := { v.chip.time with ppsEdge := some now, tod := none, ppsValid := ok } } }

/-- LOCK_PPS after a gap from its last edge: one of more than 1.5 s has ended its validity. -/
def afterGap (w : Work) (gap : Nat) : Work :=
  if 1_500_000_000_000 < gap then Work.expireSource { w with chip := { w.chip with time := { w.chip.time with ppsValid := false } } }
  else w

theorem afterGap_short {gap : Nat} (w : Work) (h : gap ≤ 1_500_000_000_000) : afterGap w gap = w := if_neg (Nat.not_lt.mpr h)

/-- The edge of now, where its gap has been judged: a sample where its message has come. -/
def edgeActs (v : Work) (now : Nat) : Work :=
  match v.chip.time.tod with
  | some t => (edgeTaken v now v.chip.time.tod.isSome).timeSample .pps t.toNat
  | none => (edgeTaken v now v.chip.time.tod.isSome).expireSource

theorem edgeActs_told {v : Work} {now : Nat} {t : W64} (h : v.chip.time.tod = some t) :
    edgeActs v now = (edgeTaken v now true).timeSample .pps t.toNat := by
  simp only [edgeActs, h, Option.isSome_some]

theorem edgeActs_untold {v : Work} {now : Nat} (h : v.chip.time.tod = none) :
    edgeActs v now = (edgeTaken v now false).expireSource := by
  simp only [edgeActs, h, Option.isSome_none]

section
variable {w : Work}

theorem ppsEdge_first (he : w.chip.time.ppsEdge = none) : w.ppsEdge = edgeActs w w.chip.refPs := by
  simp only [Work.ppsEdge, he, Option.map_none, Bool.false_eq_true, if_false]
  rfl

theorem ppsEdge_early {e : Nat} (he : w.chip.time.ppsEdge = some e) (h : w.chip.refPs - e < 500_000_000_000) : w.ppsEdge = w := by
  simp [Work.ppsEdge, he, h]

theorem ppsEdge_later {e : Nat} (he : w.chip.time.ppsEdge = some e) (h : 500_000_000_000 ≤ w.chip.refPs - e) :
    w.ppsEdge = edgeActs (afterGap w (w.chip.refPs - e)) w.chip.refPs := by
  by_cases hlong : 1_500_000_000_000 < w.chip.refPs - e
  · simp only [Work.ppsEdge, he, Option.map_some, Nat.not_lt.mpr h, hlong, decide_false, decide_true, Bool.false_eq_true, if_false,
      if_true, afterGap]
    rfl
  · simp only [Work.ppsEdge, he, Option.map_some, Nat.not_lt.mpr h, hlong, decide_false, Bool.false_eq_true, if_false, afterGap]
    rfl

end

/-! ## TIME_OF_DAY (R103) -/

section
variable {s : State} (time : W64) (hup : s.chip.boot.lockkeeper = true ∨ s.chip.boot.standbyActive = true)
include hup

theorem timeOfDay_taken {e : Nat} (he : s.chip.time.ppsEdge = some e) (hlo : 100_000_000_000 ≤ s.chip.refPs - e)
    (hhi : s.chip.refPs - e ≤ 900_000_000_000) :
    Becomes (.timeOfDay time) s { s.chip with
      time := { s.chip.time with tod := some time }, mgmt := { s.chip.mgmt with code := 0, data := [] } } := by
  refine becomes_of_lift exec_timeOfDay ((manage_of_up hup _).trans ?_)
  simp [he, hlo, hhi, Work.answer]

/-- A message that no edge precedes by 100 to 900 ms is answered and not taken. -/
theorem timeOfDay_ignored (h : ∀ e, s.chip.time.ppsEdge = some e →
    s.chip.refPs - e < 100_000_000_000 ∨ 900_000_000_000 < s.chip.refPs - e) :
    Becomes (.timeOfDay time) s { s.chip with mgmt := { s.chip.mgmt with code := 0, data := [] } } := by
  refine becomes_of_lift exec_timeOfDay ((manage_of_up hup _).trans ?_)
  cases he : (Work.of s).chip.time.ppsEdge with
  | none => rfl
  | some e =>
    have hout : (decide (100_000_000_000 ≤ (Work.of s).chip.refPs - e) &&
        decide ((Work.of s).chip.refPs - e ≤ 900_000_000_000)) = false := by
      rw [Bool.and_eq_false_iff, decide_eq_false_iff_not, decide_eq_false_iff_not, Nat.not_le, Nat.not_le]
      exact h e he
    simp only [hout]
    rfl

end

/-! ## SET_TIME_CONFIG (R103, R122) -/

@[simp] theorem ptpPort_modPtp_self (w : Work) (e : Nat) (f : PtpPort → PtpPort) : (w.modPtp e f).ptpPort e = f (w.ptpPort e) :=
  SMap.get_modify_self _ w.chip.time.ptp e f

theorem ptpPort_modPtp_ne {j e : Nat} (h : j ≠ e) (w : Work) (f : PtpPort → PtpPort) : (w.modPtp e f).ptpPort j = w.ptpPort j :=
  SMap.get_modify_ne h _ w.chip.time.ptp f

/-- PTP on a port is no longer valid where it is not enabled. -/
def ptpLimited (w : Work) (enabled : Bool) (e : Nat) : Work :=
  if enabled then w else w.modPtp e (fun x => { x with valid := false })

/-- No Nyulle link is usable where Nyulle is not enabled. -/
def nylLimited (w : Work) (enabled : Bool) : Work :=
  if enabled then w
  else { w with chip := { w.chip with time := { w.chip.time with
    nyl := SMap.mapVal w.chip.time.nyl (fun _ x => { x with usable := false }) } } }

section
variable (w : Work) (enabled : Bool)

theorem ptpLimited_frame (e : Nat) :
    ∃ ptp, ptpLimited w enabled e = { w with chip := { w.chip with time := { w.chip.time with ptp := ptp } } } := by
  cases enabled <;> exact ⟨_, rfl⟩

theorem ptpLimited_self (e : Nat) : ((ptpLimited w enabled e).ptpPort e).valid = ((w.ptpPort e).valid && enabled) := by
  cases enabled <;> simp [ptpLimited]

theorem ptpLimited_ne {j e : Nat} (h : j ≠ e) : (ptpLimited w enabled e).ptpPort j = w.ptpPort j := by
  cases enabled
  · exact ptpPort_modPtp_ne h w _
  · rfl

theorem nylLimited_frame :
    ∃ nyl, nylLimited w enabled = { w with chip := { w.chip with time := { w.chip.time with nyl := nyl } } } := by
  cases enabled <;> exact ⟨_, rfl⟩

theorem nylLimited_usable (l : Nat) : ((nylLimited w enabled).nylTime l).usable = ((w.nylTime l).usable && enabled) := by
  cases enabled
  · have hget : (nylLimited w false).nylTime l = { w.nylTime l with usable := false } :=
      SMap.get_mapVal _ w.chip.time.nyl (fun _ x => { x with usable := false }) l rfl
    rw [hget, Bool.and_false]
  · rw [Bool.and_true]; rfl

end

/-- LT_CTRL and LT_EPOCH_OFFSET are written. -/
def configWritten (w : Work) (ctrl epoch : W64) : Work :=
  { w with chip := { w.chip with time := { w.chip.time with
    srcEn := ctrl.setWidth 3
    ptpPorts := BitVec.ofNat 2 (bits ctrl 9 8)
    ptpDomain := BitVec.ofNat 8 (bits ctrl 23 16)
    epochOffset := epoch
    ppsValid := w.chip.time.ppsValid && bit ctrl 0 } } }

/-- What they disable is no longer valid. -/
def configured (w : Work) (ctrl epoch : W64) : Work :=
  nylLimited (ptpLimited (ptpLimited (configWritten w ctrl epoch) (bit ctrl 1 && bit ctrl 8) 0) (bit ctrl 1 && bit ctrl 9) 1)
    (bit ctrl 2)

section
variable (w : Work) (ctrl epoch : W64)

theorem timeConfig_eq :
    w.timeConfig ctrl epoch =
      (if w.chooseSource.isSome then (configured w ctrl epoch).expireSource else (configured w ctrl epoch).refreshSource).answer 0 [] :=
  rfl

theorem configured_frame : ∃ ptp nyl, configured w ctrl epoch =
    { configWritten w ctrl epoch with chip := { (configWritten w ctrl epoch).chip with
      time := { (configWritten w ctrl epoch).chip.time with ptp := ptp, nyl := nyl } } } := by
  obtain ⟨ptp0, h0⟩ := ptpLimited_frame (configWritten w ctrl epoch) (bit ctrl 1 && bit ctrl 8) 0
  obtain ⟨ptp1, h1⟩ := ptpLimited_frame (ptpLimited (configWritten w ctrl epoch) (bit ctrl 1 && bit ctrl 8) 0)
    (bit ctrl 1 && bit ctrl 9) 1
  obtain ⟨nyl, h2⟩ := nylLimited_frame (ptpLimited (ptpLimited (configWritten w ctrl epoch) (bit ctrl 1 && bit ctrl 8) 0)
    (bit ctrl 1 && bit ctrl 9) 1) (bit ctrl 2)
  exact ⟨ptp1, nyl, h2.trans (by rw [h1, h0])⟩

theorem configured_ptp {e : Nat} (h : e < 2) :
    ((configured w ctrl epoch).ptpPort e).valid = ((w.ptpPort e).valid && bit ctrl 1 && bit ctrl (8 + e)) := by
  have hnyl (v : Work) : ((nylLimited v (bit ctrl 2)).ptpPort e) = v.ptpPort e := by
    obtain ⟨nyl, hv⟩ := nylLimited_frame v (bit ctrl 2)
    rw [hv]; rfl
  rw [configured, hnyl, Bool.and_assoc]
  match e, h with
  | 0, _ => rw [ptpLimited_ne _ _ (by decide), ptpLimited_self]; rfl
  | 1, _ => rw [ptpLimited_self, ptpLimited_ne _ _ (by decide)]; rfl

theorem configured_nyl (l : Nat) : ((configured w ctrl epoch).nylTime l).usable = ((w.nylTime l).usable && bit ctrl 2) := by
  have hptp (v : Work) (b : Bool) (e : Nat) : (ptpLimited v b e).nylTime l = v.nylTime l := by
    obtain ⟨ptp, hv⟩ := ptpLimited_frame v b e
    rw [hv]; rfl
  rw [configured, nylLimited_usable, hptp, hptp]; rfl

end

/-- Settles O26: each clause by the equation of its event or outcome. -/
theorem ledgerTime : Obligations.LedgerTime := by
  unfold Obligations.LedgerTime
  refine ⟨⟨fun w => ⟨chooseSource_pps, fun h e he => chooseSource_ptp h he, fun h hn l hl => chooseSource_parent h hn hl,
      chooseSource_none⟩, fun w src ns => timeSample_other, fun w src ns hsrc => ?sample, fun w st => setLtState_of_ne⟩,
    fun s => ?edge, fun s time => ?timeOfDay, fun s e t => ?sync, fun s => ?portReturn,
    fun s => ⟨runs_of_lift exec_ltSourceTimeout rfl, fun e => runs_of_lift exec_ltSourceTimeout rfl,
      fun l => runs_of_lift exec_ltSourceTimeout rfl⟩,
    fun w => expireSource_valid, fun w h => ⟨expireSource_locked h, expireSource_acquiring h, expireSource_lost h⟩,
    fun s ctrl epoch => ?config⟩
  case sample =>
    intro v diff stepped
    refine ⟨timeSample_locked_near rfl hsrc, timeSample_locked_far rfl hsrc, fun hst => ?_,
      timeSample_acquiring_far rfl hsrc, fun hst hd hg => ?_, fun hst hd hg => ?_⟩
    · have hne : (v.stepTime ns).chip.time.st ≠ .acquiring := by
        rw [show (v.stepTime ns).chip.time.st = .lost from hst]; decide
      exact (timeSample_lost rfl hsrc hst).trans (setLtState_of_ne hne)
    · rw [timeSample_acquiring_near rfl hsrc hst hd, if_neg (Nat.not_le.mpr hg)]
    · rw [timeSample_acquiring_near rfl hsrc hst hd, if_pos hg]
  case edge =>
    intro w x
    have hrun {v : Work} (hv : w.ppsEdge = v) : Runs .lockPpsEdge s v := runs_of_lift exec_lockPpsEdge hv
    refine ⟨fun e he h => becomes_of_lift exec_lockPpsEdge (ppsEdge_early (w := w) he h), fun e he h => ?_, fun e n he h hle ht => ?_,
      fun n he ht => hrun ((ppsEdge_first he).trans (edgeActs_told ht)),
      fun he ht => hrun ((ppsEdge_first he).trans (edgeActs_untold ht))⟩
    · exact ⟨fun n ht => hrun ((ppsEdge_later he h).trans (edgeActs_told ht)),
        fun ht => hrun ((ppsEdge_later he h).trans (edgeActs_untold ht))⟩
    · exact hrun ((ppsEdge_later he h).trans ((congrArg (edgeActs · _) (afterGap_short w hle)).trans (edgeActs_told ht)))
  case timeOfDay =>
    intro on told
    refine ⟨fun hoff => becomes_of_lift exec_timeOfDay (manage_of_down ?_ ?_ _), fun e hup he => timeOfDay_taken time hup he,
      timeOfDay_ignored time⟩
    · exact Bool.eq_false_iff.mpr fun h => hoff (.inl h)
    · exact Bool.eq_false_iff.mpr fun h => hoff (.inr h)
  case sync =>
    refine ⟨fun h => runs_of_lift exec_ptpSync ?_, fun h => becomes_of_lift exec_ptpSync (if_pos h)⟩
    exact if_neg (not_not.mpr h)
  case portReturn =>
    exact ⟨fun h => runs_of_lift exec_ptpPortReturn (by rw [if_pos h]; rfl),
      fun h => runs_of_lift exec_ptpPortReturn (by rw [if_neg (by rw [h]; decide)])⟩
  case config =>
    refine ⟨fun hl hs => becomes_of_lift exec_setTimeConfig (manage_of_down hl hs _), fun hup => ?_⟩
    have hrun {v : Work} (hv : (Work.of s).timeConfig ctrl epoch = v) : Runs (.setTimeConfig ctrl epoch) s v :=
      runs_of_lift exec_setTimeConfig ((manage_of_up hup _).trans hv)
    obtain ⟨ptp, nyl, hframe⟩ := configured_frame (Work.of s) ctrl epoch
    refine ⟨configured (Work.of s) ctrl epoch, by rw [hframe]; rfl, by rw [hframe]; rfl, by rw [hframe]; rfl, by rw [hframe]; rfl,
      by rw [hframe]; rfl, fun e he => configured_ptp _ _ _ he, fun l => configured_nyl _ _ _ l, fun h => hrun ?_, fun h => hrun ?_⟩
    · rw [timeConfig_eq, if_pos h]
    · rw [timeConfig_eq, h]; rfl

end Sys2Proof
end

section
/-!
Nyulle link-up and time flits (Obligations.NyulleLinkUpAndTime): what becomes of a flit that is not a message, what an IDENTITY, a
SELECT and a time flit do, and the link that comes into service.
-/

namespace Sys2Proof

open Sys2Proof.Machine

/-! ## A flit that is not a message (R421, R426) -/

@[simp] theorem header_st (x : NylLink) (f : NFlit) : (x.header f).st = x.st := by
  simp only [NylLink.header, apply_ite NylLink.st, ite_self]

theorem header_carries (x : NylLink) (f : NFlit) : (x.header f).carries = x.carries := by
  simp only [NylLink.carries, header_st]

section
variable {w : Work} {l kind op : Nat} {f : NFlit} {act : Work → Work}

theorem plainFlit_deaf (h : (w.link l).listens = false) : w.plainFlit l kind op f act = w := by simp [Work.plainFlit, h]

variable (hl : (w.link l).listens = true)
include hl

theorem plainFlit_failed (h : f.ok = false) :
    w.plainFlit l kind op f act = w.modLink l (fun x => { x with errFlits := min (x.errFlits + 1) 0xFFFF_FFFF }) := by
  simp only [Work.plainFlit, hl, h, Bool.not_true, Bool.not_false, Bool.false_eq_true, if_false, if_true]
  rfl

variable (hok : f.ok = true)
include hok

theorem plainFlit_ofRow (h : f.kind = kind ∧ (kind = 2 → f.op = op)) :
    w.plainFlit l kind op f act = act (w.modLink l (fun x => x.header f)) := by
  have hc : (decide (f.kind ≠ kind) || decide (kind = 2) && decide (f.op ≠ op)) = false := by
    obtain ⟨hk, ho⟩ := h
    by_cases h2 : kind = 2 <;> simp [hk, h2, ho]
  simp only [Work.plainFlit, hl, hok, hc, Bool.not_true, Bool.false_eq_true, if_false]

theorem plainFlit_ofAnother (h : f.kind ≠ kind ∨ kind = 2 ∧ f.op ≠ op) : w.plainFlit l kind op f act = w := by
  have hc : (decide (f.kind ≠ kind) || decide (kind = 2) && decide (f.op ≠ op)) = true := by simpa using h
  simp only [Work.plainFlit, hl, hok, hc, Bool.not_true, Bool.false_eq_true, if_false, if_true]

end

/-! ## Link-up (R430, R431) -/

section
variable {w : Work} {l : Nat}

theorem nylUp_waits (h : (w.link l).st ≠ .discovery ∨ (w.link l).sentSelect = false ∨ (w.link l).gotSelect = false) :
    w.nylUp l = w := by
  have hc : (decide ((w.link l).st = .discovery) && (w.link l).sentSelect && (w.link l).gotSelect) = false := by
    rcases h with h | h | h <;> simp [h]
  simp only [Work.nylUp, hc, Bool.false_eq_true, if_false]

theorem nylUp_joins (hst : (w.link l).st = .discovery) (hs : (w.link l).sentSelect = true) (hg : (w.link l).gotSelect = true) :
    w.nylUp l =
      let v := w.modLink l (fun x => { x with
        st := .up, version := 1, txSeq := 0, rxSeq := 0, discarding := false, asked := none, unacked := 0, consecFail := 0 })
      (v.record { cls := 0x0703, kind := 7, id := l, pound := optPound (v.linkOwner l), d0 := (w.link l).partnerSerial.toNat
                  d1 := (w.link l).partnerModule, d2 := (w.link l).partnerLink }).settle := by
  simp [Work.nylUp, hst, hs, hg]

end

/-- The link sends IDENTITY by its timer (R430). -/
theorem identityDue_iff {x : NylLink} :
    (decide (x.st = .discovery) && !x.gotIdentity || decide (x.st = .noCommon)) = true ↔
      x.st = .discovery ∧ x.gotIdentity = false ∨ x.st = .noCommon := by
  simp

/-- What an IDENTITY says of the partner is noted. -/
def partnerNoted (w : Work) (l : Nat) (f : NFlit) : Work :=
  w.modLink l (fun x => { x with
    partnerSerial := BitVec.ofNat 64 (f.at_ 0x18 8)
    partnerModule := f.at_ 0x20 2
    partnerLink := f.at_ 0x22 1 % 64
    peerVersions := f.at_ 0x23 1 })

section Identity
variable {w : Work} {l : Nat} {f : NFlit} (hl : (w.link l).listens = true) (hok : f.ok = true) (hk : f.kind = 2) (hop : f.op = 3)
  {v : Work} (hv : partnerNoted (w.modLink l (fun x => x.header f)) l f = v)
include hl hok hk hop hv

/-- An IDENTITY, by the state of the link and by what it says. -/
theorem nylIdentity_eq :
    w.nylIdentity l f =
      if (w.link l).carries then v
      else if w.moduleId < 0x8000 ∧ f.at_ 0x20 2 = w.moduleId then v.modLink l (fun x => { x with st := .mismatch, gotIdentity := true })
      else if f.at_ 0x23 1 % 2 = 0 then v.modLink l (fun x => { x with st := .noCommon, gotIdentity := true })
      else (v.modLink l (fun x => { ({ x with st := .discovery } : NylLink).control 4 [0, 1] with
        gotIdentity := true
        sentSelect := true
        credits := [f.at_ 0x24 2, f.at_ 0x26 2, f.at_ 0x28 2, f.at_ 0x2A 2, f.at_ 0x2C 2, f.at_ 0x2E 2] })).nylUp l := by
  have hcarries : (v.link l).carries = (w.link l).carries := by
    subst hv
    rw [partnerNoted, Work.modLink_modLink, Work.modLink_self]
    exact header_carries _ f
  have hid : (w.modLink l (fun x => x.header f)).moduleId = w.moduleId := rfl
  rw [Work.nylIdentity, plainFlit_ofRow hl hok ⟨hk, fun _ => hop⟩]
  rw [partnerNoted] at hv
  simp only [hv, hcarries, hid, Bool.and_eq_true, decide_eq_true_eq]
  rfl

theorem nylIdentity_carrying (hc : (w.link l).carries = true) : w.nylIdentity l f = v := by
  rw [nylIdentity_eq hl hok hk hop hv, if_pos hc]

variable (hc : (w.link l).carries = false)
include hc

theorem nylIdentity_own (hs : w.moduleId < 0x8000 ∧ f.at_ 0x20 2 = w.moduleId) :
    w.nylIdentity l f = v.modLink l (fun x => { x with st := .mismatch, gotIdentity := true }) := by
  rw [nylIdentity_eq hl hok hk hop hv, hc, if_neg Bool.false_ne_true, if_pos hs]

variable (hs : ¬ (w.moduleId < 0x8000 ∧ f.at_ 0x20 2 = w.moduleId))
include hs

theorem nylIdentity_noCommon (hver : f.at_ 0x23 1 % 2 = 0) :
    w.nylIdentity l f = v.modLink l (fun x => { x with st := .noCommon, gotIdentity := true }) := by
  rw [nylIdentity_eq hl hok hk hop hv, hc, if_neg Bool.false_ne_true, if_neg hs, if_pos hver]

theorem nylIdentity_answered (hver : f.at_ 0x23 1 % 2 = 1) :
    w.nylIdentity l f = (v.modLink l (fun x => { ({ x with st := .discovery } : NylLink).control 4 [0, 1] with
        gotIdentity := true
        sentSelect := true
        credits := [f.at_ 0x24 2, f.at_ 0x26 2, f.at_ 0x28 2, f.at_ 0x2A 2, f.at_ 0x2C 2, f.at_ 0x2E 2] })).nylUp l := by
  rw [nylIdentity_eq hl hok hk hop hv, hc, if_neg Bool.false_ne_true, if_neg hs, if_neg (by omega)]

end Identity

/-! ## Time flits (R105, R106, R423) -/

section
variable {w : Work} {l : Nat}

theorem timeSend_closed (h : ¬ ((w.link l).carries = true ∨ (w.link l).st = .mismatch ∨ (w.link l).st = .noCommon)) :
    w.timeSend l = w := by
  simp only [not_or] at h
  obtain ⟨hc, hm, hn⟩ := h
  simp [Work.timeSend, hc, hm, hn]

theorem timeSend_open (h : (w.link l).carries = true ∨ (w.link l).st = .mismatch ∨ (w.link l).st = .noCommon) :
    w.timeSend l = w.modLink l (fun y => y.put 3 0 y.txSeq 0
      (leBytes 8 w.now ++ leBytes 1 (if w.locked then w.chip.time.hops else 15) ++ leBytes 7 0 ++
        leBytes 8 (w.link l).lastTSend.toNat ++
        leBytes 8 (if (w.link l).lastTSend = 0 then 0 else (w.chip.refPs - (w.link l).lastTRecv) / 1000) ++ leBytes 16 0) [] []) := by
  have hc : (!((w.link l).carries || decide ((w.link l).st = .mismatch) || decide ((w.link l).st = .noCommon))) = false := by
    rcases h with h | h | h <;> simp [h]
  simp only [Work.timeSend, hc, Bool.false_eq_true, if_false]

end

/-- The delay of a link as a time flit measures it: unchanged where the flit echoes none. -/
def measuredDelay (w : Work) (l : Nat) (f : NFlit) : Nat :=
  if f.at_ 0x20 8 = 0 then (w.link l).delayNs
  else min 65535 ((((w.now : Int) - (f.at_ 0x20 8 : Int) - (f.at_ 0x28 8 : Int)) / 2).toNat)

/-- A time flit has been measured. -/
def timeMeasured (w : Work) (l : Nat) (f : NFlit) : Work :=
  w.modLink l (fun x => { x with delayNs := measuredDelay w l f, lastTSend := BitVec.ofNat 64 (f.at_ 0x10 8), lastTRecv := w.chip.refPs })

section TimeFlit
variable {w : Work} {l : NylId} {f : NFlit} (hl : (w.link l).listens = true) (hok : f.ok = true) (hk : f.kind = 3)
  {u : Work} (hu : w.modLink l (fun x => x.header f) = u) {v : Work} (hv : timeMeasured u l f = v)
include hl hok hk hu hv

theorem timeFlit_eq :
    w.timeFlit l f =
      if f.at_ 0x18 1 < 15 && bit w.chip.time.srcEn 2 then
        if f.at_ 0x18 1 < 8 then
          (v.modNylTime l (fun _ => { usable := true, hops := f.at_ 0x18 1, last := w.chip.refPs })).timeSample (.nyulle l)
            (f.at_ 0x10 8 + measuredDelay u l f)
        else (v.modNylTime l (fun _ => { usable := true, hops := f.at_ 0x18 1, last := w.chip.refPs })).refreshSource
      else (v.modNylTime l (fun x => { x with hops := f.at_ 0x18 1 })).refreshSource := by
  subst hu hv
  rw [Work.timeFlit, plainFlit_ofRow hl hok ⟨hk, fun h => absurd h (by decide)⟩]
  simp only [Fin.ofNat_val_eq_self]
  rfl

theorem timeFlit_sample (hh : f.at_ 0x18 1 < 8) (hen : bit w.chip.time.srcEn 2 = true) :
    w.timeFlit l f = (v.modNylTime l (fun _ => { usable := true, hops := f.at_ 0x18 1, last := w.chip.refPs })).timeSample (.nyulle l)
      (f.at_ 0x10 8 + measuredDelay u l f) := by
  have hc : (decide (f.at_ 0x18 1 < 15) && bit w.chip.time.srcEn 2) = true := by simp only [hen, Bool.and_true, decide_eq_true_eq]; omega
  rw [timeFlit_eq hl hok hk hu hv, if_pos hc, if_pos hh]

theorem timeFlit_heard (hlo : 8 ≤ f.at_ 0x18 1) (hhi : f.at_ 0x18 1 < 15) (hen : bit w.chip.time.srcEn 2 = true) :
    w.timeFlit l f = (v.modNylTime l (fun _ => { usable := true, hops := f.at_ 0x18 1, last := w.chip.refPs })).refreshSource := by
  have hc : (decide (f.at_ 0x18 1 < 15) && bit w.chip.time.srcEn 2) = true := by simp only [hen, hhi, decide_true, Bool.and_true]
  rw [timeFlit_eq hl hok hk hu hv, if_pos hc, if_neg (Nat.not_lt.mpr hlo)]

theorem timeFlit_unusable (h : 15 ≤ f.at_ 0x18 1 ∨ bit w.chip.time.srcEn 2 = false) :
    w.timeFlit l f = (v.modNylTime l (fun x => { x with hops := f.at_ 0x18 1 })).refreshSource := by
  have hc : ¬ (decide (f.at_ 0x18 1 < 15) && bit w.chip.time.srcEn 2) = true := by
    rcases h with h | h
    · simp [Nat.not_lt.mpr h]
    · simp only [h, Bool.and_false, Bool.false_eq_true, not_false_iff]
  rw [timeFlit_eq hl hok hk hu hv, if_neg hc]

end TimeFlit

/-- Settles O47: each command by the equation of its outcome. -/
theorem nyulleLinkUpAndTime : Obligations.NyulleLinkUpAndTime := by
  unfold Obligations.NyulleLinkUpAndTime
  refine ⟨⟨fun s l => ?training, fun s l f => ?identity, fun s l f hl hok h => ?otherSelect, fun s l f hl hok hk hop => ?select,
      fun w l => ⟨nylUp_waits, nylUp_joins⟩⟩,
    fun s l => ⟨fun h => becomes_of_lift exec_nylTimeSend (timeSend_closed h), fun h => ?timeSend⟩,
    fun s l f hl hok hk => ?timeFlit,
    fun s l f hl hok hk => becomes_of_lift exec_nylTimeFlit (plainFlit_ofAnother hl hok (.inl hk))⟩
  case training =>
    intro w x
    refine ⟨fun h => runs_of_lift exec_nylTrainDone (if_neg (not_not.mpr h)), fun h => becomes_of_lift exec_nylTrainDone (if_pos h),
      fun h => runs_of_lift exec_nylIdentityTimer (if_pos (identityDue_iff.mpr h)),
      fun hn h => becomes_of_lift exec_nylIdentityTimer (if_neg ?_)⟩
    rw [identityDue_iff]
    rintro (⟨hd, hg⟩ | hc)
    · rcases h with h | h
      · exact h hd
      · rw [hg] at h; cases h
    · exact hn hc
  case identity =>
    intro x i
    refine ⟨fun h => becomes_of_lift exec_nylIdentity (plainFlit_deaf h),
      fun hl h => runs_of_lift exec_nylIdentity (plainFlit_failed hl h), fun hl hok hk hop => ?_,
      fun hl hok h => becomes_of_lift exec_nylIdentity (plainFlit_ofAnother hl hok (by simpa using h))⟩
    exact ⟨fun hc => runs_of_lift exec_nylIdentity (nylIdentity_carrying hl hok hk hop rfl hc),
      fun hc hs => runs_of_lift exec_nylIdentity (nylIdentity_own hl hok hk hop rfl hc hs),
      fun hc hs hver => runs_of_lift exec_nylIdentity (nylIdentity_noCommon hl hok hk hop rfl hc hs hver),
      fun hc hs hver => runs_of_lift exec_nylIdentity (nylIdentity_answered hl hok hk hop rfl hc hs hver)⟩
  case otherSelect => exact becomes_of_lift exec_nylSelect (plainFlit_ofAnother hl hok (by simpa using h))
  case select =>
    intro w
    have hst : (w.link l).st = ((Work.of s).link l).st := by rw [Work.modLink_self, header_st]
    have hrow := fun act => plainFlit_ofRow (act := act) hl hok ⟨hk, fun _ => hop⟩
    refine ⟨fun hd hver => runs_of_lift exec_nylSelect ((hrow _).trans (if_neg ?_)),
      fun h => runs_of_lift exec_nylSelect ((hrow _).trans (if_pos ?_))⟩
    · simp [hd, hver]
    · simpa [hst] using h
  case timeSend =>
    refine runs_of_lift exec_nylTimeSend ((timeSend_open h).trans ?_)
    simp only [Work.now, Work.locked, decide_eq_true_eq]
    rfl
  case timeFlit =>
    exact ⟨fun hh hen => runs_of_lift exec_nylTimeFlit (timeFlit_sample hl hok hk rfl rfl hh hen),
      fun hlo hhi hen => runs_of_lift exec_nylTimeFlit (timeFlit_heard hl hok hk rfl rfl hlo hhi hen),
      fun h => runs_of_lift exec_nylTimeFlit (timeFlit_unusable hl hok hk rfl rfl h)⟩

end Sys2Proof
end

section
/-!
What the power controller holds of the pounds is left as it is by a write at the point of coherence, by a record of the Fault
Rolls, by an engine's write to a virtual address, and so by a notice, and by the start and the end of an order.
-/

namespace Sys2Proof

open Sys2Proof.Machine

/-- What the power controller holds of the pounds. -/
def poundPower (w : Work) : SMap PoundPower := w.chip.pwr.pounds

theorem ppow_of_poundPower {w v : Work} (h : poundPower v = poundPower w) (p : Nat) : v.ppow p = w.ppow p :=
  congrArg (SMap.get PoundPower.reset · p) h

@[simp] theorem poundPower_ite {c : Prop} [Decidable c] (u v : Work) :
    poundPower (if c then u else v) = if c then poundPower u else poundPower v := apply_ite _ _ _ _

theorem poundPower_ite_eq {c : Prop} [Decidable c] {u v : Work} {m : SMap PoundPower} (hu : poundPower u = m)
    (hv : poundPower v = m) : poundPower (if c then u else v) = m := by
  split
  · exact hu
  · exact hv

theorem poundPower_of_eq {α : Type} {r : Work × α} {u : Work} {x : α} {m : SMap PoundPower} (h : r = (u, x))
    (hr : poundPower r.1 = m) : poundPower u = m := by
  rw [h] at hr; exact hr

theorem poundPower_fst_ite {α : Type} {c : Prop} [Decidable c] {a b : Work × α} {x : SMap PoundPower} (ha : poundPower a.1 = x)
    (hb : poundPower b.1 = x) : poundPower (if c then a else b).1 = x := by
  split
  · exact ha
  · exact hb

theorem poundPower_each {β : Type} {f : Work → β → Work} (hf : ∀ w x, poundPower (f w x) = poundPower w) (w : Work) (l : List β) :
    poundPower (w.each l f) = poundPower w := by
  induction l generalizing w with
  | nil => rfl
  | cons x l ih => exact (ih (f w x)).trans (hf w x)

section
variable (w : Work)

/-! ## The Archive slices (R347 to R351, R387) -/

@[simp] theorem poundPower_modSlice (s : Nat) (f : Slice → Slice) : poundPower (w.modSlice s f) = poundPower w := rfl

@[simp] theorem poundPower_charge (s : Nat) (p : Option Nat) (b : Bool) (n : Nat) : poundPower (w.charge s p b n) = poundPower w := by
  cases p <;> rfl

@[simp] theorem poundPower_bufferSector (s l : Nat) (e : Sector) : poundPower (w.bufferSector s l e) = poundPower w := by
  rw [Work.bufferSector, poundPower_modSlice, poundPower_charge]

@[simp] theorem poundPower_evictWay (s set way : Nat) : poundPower (w.evictWay s set way) = poundPower w := by
  have hbuffer (v : Work) (l : List (Nat × Sector)) : poundPower (v.each l (fun w e => w.bufferSector s e.1 e.2)) = poundPower v :=
    poundPower_each (f := fun w (e : Nat × Sector) => w.bufferSector s e.1 e.2) (fun w e => poundPower_bufferSector w s _ e.2) v l
  simp only [Work.evictWay, Work.dropSectors, hbuffer, poundPower_modSlice]

@[simp] theorem poundPower_clampedAt (c : Bool) : poundPower (w.clampedAt c) = poundPower w := by cases c <;> rfl

@[simp] theorem poundPower_arcUse (l : Nat) (p : Option Nat) (d : Bool) (k : Option Nat) :
    poundPower (w.arcUse l p d k) = poundPower w := by
  simp only [Work.arcUse]
  split <;> simp

@[simp] theorem poundPower_train (line : Nat) (stream p : Option Nat) : poundPower (w.train line stream p) = poundPower w := by
  simp only [Work.train, Work.arcTrain]
  split
  · split <;> rfl
  · rfl

@[simp] theorem poundPower_expandGranule (s g code : Nat) (p : Option Nat) :
    poundPower (w.expandGranule s g code p) = poundPower w := by
  simp [Work.expandGranule]

@[simp] theorem poundPower_storeRaw (s g code : Nat) (p : Option Nat) : poundPower (w.storeRaw s g code p) = poundPower w :=
  (poundPower_charge _ _ _ _ _).trans (poundPower_expandGranule _ _ _ _ _)

@[simp] theorem poundPower_arcWrite (l : Nat) (p : Option Nat) (n : Nat) : poundPower (w.arcWrite l p n) = poundPower w := by
  simp [Work.arcWrite]

/-! ## A write at the point of coherence (R335) -/

@[simp] theorem poundPower_post (a : Nat) (bs : List Byte) (i : Option RemoteWho) : poundPower (w.post a bs i) = poundPower w := by
  unfold Work.post
  split <;> rfl

@[simp] theorem poundPower_snoopRange (lo hi : Nat) (k d : Bool) : poundPower (w.snoopRange lo hi k d) = poundPower w := by
  cases d
  · exact poundPower_each (fun w (l : Nat × LineData × BitVec 4) => show poundPower (w.putLine l.1 l.2.1 l.2.2) = _ from rfl) w
      (w.dirtyIn lo hi)
  · rfl

@[simp] theorem poundPower_clearResv (lo hi : Nat) (e : Option Nat) : poundPower (w.clearResv lo hi e) = poundPower w := rfl
@[simp] theorem poundPower_dropAhead (lo hi : Nat) : poundPower (w.dropAhead lo hi) = poundPower w := rfl
@[simp] theorem poundPower_staleAhead (lo hi : Nat) : poundPower (w.staleAhead lo hi) = poundPower w := rfl
@[simp] theorem poundPower_put (x : Wr) : poundPower (w.put x) = poundPower w := rfl

@[simp] theorem poundPower_pwrite (a : Nat) (bs : List Byte) (pub : Bool) (p : Option Nat) (i : Option RemoteWho)
    (stream : Option Nat) : poundPower (w.pwrite a bs pub p i stream) = poundPower w := by
  have hlines (v : Work) (l : List Nat) (g : Nat → Nat) :
      poundPower (v.each l (fun w l => (w.arcWrite l p (g l)).train l stream p)) = poundPower v :=
    poundPower_each (fun w l => (poundPower_train _ _ _ _).trans (poundPower_arcWrite _ _ _ _)) v l
  simp only [Work.pwrite, poundPower_ite, poundPower_post, poundPower_put]
  split
  · rfl
  · split
    · rfl
    · split
      · split <;> rfl
      · split <;> simp [hlines]

/-! ## A record of the Fault Rolls (R543 to R548) -/

@[simp] theorem poundPower_imsicSet (f n : Nat) : poundPower (w.imsicSet f n) = poundPower w := by
  unfold Work.imsicSet
  split <;> rfl

@[simp] theorem poundPower_aplicRaise (n : Nat) : poundPower (w.aplicRaise n) = poundPower w := by
  simp only [Work.aplicRaise, Work.aplicPend, poundPower_ite, poundPower_imsicSet]
  split
  · split <;> rfl
  · rfl

@[simp] theorem poundPower_bufferRecord (r : Record) : poundPower (w.bufferRecord r) = poundPower w := by
  unfold Work.bufferRecord
  dsimp only
  split <;> rfl

@[simp] theorem poundPower_rolls (x : Rolls) : poundPower { w with chip := { w.chip with rolls := x } } = poundPower w := rfl

@[simp] theorem poundPower_ringWrite (r : Record) : poundPower (w.ringWrite r) = poundPower w := by
  simp [Work.ringWrite]

@[simp] theorem poundPower_storeRecord (r : Record) : poundPower (w.storeRecord r) = poundPower w := by
  simp [Work.storeRecord]

@[simp] theorem poundPower_summaryRecord (r : Record) : poundPower (w.summaryRecord r) = poundPower w := by
  simp only [Work.summaryRecord, poundPower, apply_ite Work.chip, apply_ite Chip.pwr, ite_self]

@[simp] theorem poundPower_record (x : Rec) : poundPower (w.record x) = poundPower w := by
  simp [Work.record]

/-! ## The IOMMU: faults and walks (R467 to R470) -/

@[simp] theorem poundPower_setIommu32 (off v : Nat) : poundPower (w.setIommu32 off v) = poundPower w := rfl

@[simp] theorem poundPower_iommuIrq (i : Nat) : poundPower (w.iommuIrq i) = poundPower w := by
  simp only [Work.iommuIrq, Work.iommuMsi, poundPower_ite]
  split
  · rfl
  · split
    · split <;> simp
    · simp
    · simp
    · rfl

@[simp] theorem poundPower_iommuFault (cause ttyp dev : Nat) (pasid : Option Nat) (va va2 : Nat) :
    poundPower (w.iommuFault cause ttyp dev pasid va va2) = poundPower w := by
  unfold Work.iommuFault
  dsimp only
  split
  · rfl
  · split
    · rw [poundPower_ite, poundPower_iommuIrq, poundPower_setIommu32, ite_self]
    · rw [poundPower_ite, poundPower_iommuIrq, poundPower_setIommu32, poundPower_pwrite, ite_self]

theorem poundPower_ptWalk {s2 : Work → Bool → Nat → Walk} (hs2 : ∀ w b a, poundPower (s2 w b a).1 = poundPower w) (wide : Bool)
    (pf : Nat × Nat) (af : Nat) (ade isWrite : Bool) (va n table : Nat) :
    poundPower (w.ptWalk s2 wide pf af ade isWrite va n table).1 = poundPower w := by
  induction n generalizing w wide table with
  | zero => rfl
  | succ n ih =>
    rw [Work.ptWalk]
    dsimp only
    have hentry := hs2 w false (table * 4096 + va / 2 ^ (12 + 9 * n) % (if wide then 2048 else 512) * 8)
    split
    next u e h => exact poundPower_of_eq h hentry
    next u a h =>
      replace hentry := poundPower_of_eq h hentry
      have hupdate := hs2 u true (table * 4096 + va / 2 ^ (12 + 9 * n) % (if wide then 2048 else 512) * 8)
      split
      · exact hentry
      · refine poundPower_fst_ite hentry (poundPower_fst_ite (poundPower_fst_ite hentry (poundPower_fst_ite hentry
          (poundPower_fst_ite hentry (poundPower_fst_ite hentry ?update)))) (poundPower_fst_ite hentry ((ih u _ _).trans hentry)))
        split
        next v e k => exact (poundPower_of_eq k hupdate).trans hentry
        next v b k => exact (poundPower_pwrite _ _ _ _ _ _ _).trans ((poundPower_of_eq k hupdate).trans hentry)

theorem poundPower_gStage (gatp : W64) (gade causeWrite implicit isWrite : Bool) (gpa : Nat) :
    poundPower (w.gStage gatp gade causeWrite implicit isWrite gpa).1 = poundPower w := by
  unfold Work.gStage
  exact poundPower_fst_ite rfl (poundPower_fst_ite rfl (poundPower_ptWalk w (fun _ _ _ => rfl) _ _ _ _ _ _ _ _))

theorem poundPower_fStage (satp gatp : W64) (sade gade isWrite : Bool) (va : Nat) :
    poundPower (w.fStage satp gatp sade gade isWrite va).1 = poundPower w := by
  unfold Work.fStage
  exact poundPower_fst_ite rfl (poundPower_fst_ite rfl
    (poundPower_ptWalk w (fun w _ _ => poundPower_gStage w _ _ _ _ _ _) _ _ _ _ _ _ _ _))

theorem poundPower_pdtWalk (c : DevCtx) (isWrite : Bool) (pid n table : Nat) :
    poundPower (w.pdtWalk c isWrite pid n table).1 = poundPower w := by
  induction n generalizing w table with
  | zero => rfl
  | succ n ih =>
    rw [Work.pdtWalk]
    have hentry := poundPower_gStage w c.gatp (bit c.tc 7) isWrite true false
      (table * 4096 + (if n = 0 then pid % 256 else if n = 1 then pid / 256 % 512 else pid / 2 ^ 17) * (if n = 0 then 16 else 8))
    split
    next u e h => exact poundPower_of_eq h hentry
    next u a h =>
      replace hentry := poundPower_of_eq h hentry
      split
      · exact hentry
      · refine poundPower_fst_ite hentry (poundPower_fst_ite ?_ (poundPower_fst_ite hentry ((ih u _).trans hentry)))
        split
        · exact hentry
        · exact poundPower_fst_ite hentry hentry

end

/-! The kernel must not evaluate what a walk and a translation match on, the device context and the walk: in the next two proofs the
function is a variable F, and its result a variable R, while its body is taken. -/

theorem poundPower_walk (w : Work) (dev : Nat) (pasid : Option Nat) (va : Nat) (isWrite : Bool) :
    poundPower (w.walk dev pasid va isWrite).1 = poundPower w := by
  suffices h : ∀ F, F = Work.walk → ∀ R, F w dev pasid va isWrite = R → poundPower R.1 = poundPower w from h _ rfl _ rfl
  intro F hF R hR
  delta Work.walk at hF
  subst hF
  beta_reduce at hR
  generalize w.devCtx dev = r at hR
  subst hR
  rcases r with e | _ | c
  · rfl
  · rfl
  dsimp -zeta only
  extract_lets gscid stage2 first pid mode
  have hstage2 (r : Walk) (pscid : Nat) : poundPower (stage2 r pscid).1 = poundPower r.1 := by
    obtain ⟨u, e | gpa⟩ := r
    · rfl
    · have hwalk := poundPower_gStage u c.gatp (bit c.tc 7) isWrite false isWrite gpa
      dsimp only [stage2]
      split
      · rfl
      · split
        next v e h => exact poundPower_of_eq h hwalk
        next v a h => exact poundPower_of_eq h hwalk
  have hfirst (satp : W64) (pscid : Nat) : poundPower (first satp pscid).1 = poundPower w :=
    (hstage2 _ _).trans (poundPower_fStage w _ _ _ _ _ _)
  have hdefault : poundPower (stage2 (w, .ok va) 0).1 = poundPower w := hstage2 (w, .ok va) 0
  refine poundPower_fst_ite ?noProcess ?process
  case noProcess =>
    cases pasid with
    | none => exact hfirst _ _
    | some p => rfl
  case process =>
    generalize pid = x
    cases x with
    | none => exact hdefault
    | some x =>
      refine poundPower_fst_ite hdefault (poundPower_fst_ite rfl ?_)
      have hpdt := poundPower_pdtWalk w c isWrite x mode (bits c.fsc 43 0)
      split
      next u e h => exact poundPower_of_eq h hpdt
      next u ta fsc h => exact (hstage2 _ _).trans ((poundPower_fStage u _ _ _ _ _ _).trans (poundPower_of_eq h hpdt))

theorem poundPower_translateMsi (w : Work) (cache dev : Nat) (pasid : Option Nat) (va : Nat) (isWrite : Bool) :
    poundPower (w.translateMsi cache dev pasid va isWrite).1 = poundPower w := by
  suffices h : ∀ F, F = Work.translateMsi → ∀ R, F w cache dev pasid va isWrite = R → poundPower R.1 = poundPower w from
    h _ rfl _ rfl
  intro F hF R hR
  delta Work.translateMsi at hF
  subst hF
  beta_reduce at hR
  have hwalk := poundPower_walk w dev pasid va isWrite
  generalize w.walk dev pasid va isWrite = r at hR hwalk
  extract_lets id entries at hR
  generalize List.find? _ _ = x at hR
  obtain ⟨u, ⟨cause, va2⟩ | ⟨a, g, p, msi⟩⟩ := r
  · cases x with
    | some e => subst hR; rfl
    | none =>
      subst hR
      exact poundPower_ite_eq hwalk ((poundPower_iommuFault u _ _ _ _ _ _).trans hwalk)
  · cases x with
    | some e => subst hR; rfl
    | none => subst hR; exact hwalk

theorem poundPower_translate (w : Work) (cache dev : Nat) (pasid : Option Nat) (va : Nat) (isWrite : Bool) :
    poundPower (w.translate cache dev pasid va isWrite).1 = poundPower w := by
  unfold Work.translate
  exact poundPower_translateMsi _ _ _ _ _ _

theorem poundPower_recAddr (w : Work) (kind id : Nat) (p : Option Nat) (a status : Nat) :
    poundPower (w.recAddr kind id p a status) = poundPower w := poundPower_record _ _

theorem poundPower_recOwner (w : Work) (kind id : Nat) (p : Option Nat) (a status : Nat) :
    poundPower (w.recOwner kind id p a status) = poundPower w := by
  unfold Work.recOwner
  dsimp only
  split
  · split <;> rfl
  · exact (poundPower_record _ _).trans rfl

theorem poundPower_reach (w : Work) (cache dev : Nat) (pasid : Option Nat) (who : Who) (kind id va n : Nat) (isWrite : Bool) :
    poundPower (w.reach cache dev pasid who kind id va n isWrite).1 = poundPower w := by
  have htr := poundPower_translate w cache dev pasid va isWrite
  unfold Work.reach
  split
  next u h => exact poundPower_of_eq h htr
  next u a h =>
    replace htr := poundPower_of_eq h htr
    split
    · exact htr
    · split
      · exact htr
      · exact poundPower_ite_eq htr ((poundPower_recAddr u _ _ _ _ _).trans htr)
      · exact poundPower_ite_eq htr ((poundPower_recOwner u _ _ _ _ _).trans htr)

theorem poundPower_vaWrite (w : Work) (cache dev : Nat) (pasid : Option Nat) (who : Who) (kind id va : Nat) (bs : List Byte)
    (publish : Bool) (issuer : Option RemoteWho) :
    poundPower (w.vaWrite cache dev pasid who kind id va bs publish issuer).1 = poundPower w := by
  unfold Work.vaWrite
  refine List.foldlRecOn (motive := fun (r : Work × Res Unit) => poundPower r.1 = poundPower w) _ _ rfl ?_
  intro r hr p _
  obtain ⟨u, _ | ⟨status, addr⟩⟩ := r
  · have hreach := poundPower_reach u cache dev pasid who kind id p.1 p.2 true
    dsimp only
    split
    next v s a h => exact (poundPower_of_eq h hreach).trans hr
    next v a h =>
      replace hreach := poundPower_of_eq h hreach
      split
      · exact hreach.trans hr
      · exact (poundPower_pwrite _ _ _ _ _ _ _).trans (hreach.trans hr)
  · exact hr

/-! ## Notices, and the start and the end of an order (R116, R118, R303) -/

theorem poundPower_faultCq (w : Work) (c status addr : Nat) : poundPower (w.faultCq c status addr) = poundPower w :=
  (poundPower_record _ _).trans rfl

theorem poundPower_writeEntry (w : Work) (c : Nat) (e : Entry) : poundPower (w.writeEntry c e).1 = poundPower w := by
  unfold Work.writeEntry
  dsimp only
  split
  next u status addr h =>
    exact (poundPower_faultCq u _ _ _).trans (poundPower_of_eq h (poundPower_vaWrite _ _ _ _ _ _ _ _ _ _ _))
  next u x h =>
    have hu : poundPower u = poundPower w := poundPower_of_eq h (poundPower_vaWrite _ _ _ _ _ _ _ _ _ _ _)
    exact hu

theorem poundPower_dropNotice (w : Work) (p d0 at_ reason : Nat) : poundPower (w.dropNotice p d0 at_ reason) = poundPower w :=
  (poundPower_record _ _).trans rfl

theorem poundPower_notice (w : Work) (p status e0 e1 d0 at_ : Nat) : poundPower (w.notice p status e0 e1 d0 at_) = poundPower w := by
  have hdrop (v : Work) (reason : Nat) (hv : poundPower v = poundPower w) :
      poundPower (v.dropNotice p d0 at_ reason) = poundPower w := (poundPower_dropNotice v _ _ _ _).trans hv
  unfold Work.notice
  dsimp only
  split
  · exact hdrop w 1 rfl
  · split
    · exact hdrop w 3 rfl
    · split
      · exact hdrop w 2 rfl
      · split
        next u h => exact poundPower_of_eq h (poundPower_writeEntry _ _ _)
        next u h => exact hdrop u 3 (poundPower_of_eq h (poundPower_writeEntry _ _ _))

theorem poundPower_beginOrder (w : Work) (i : Nat) (o : Order) (d : Option Nat) :
    poundPower (w.beginOrder i o d) = poundPower w := by
  have hsend (v : Work) (l : List Nat) (e : Nat) : poundPower (v.each l (fun w p => w.notice p 0x14 e o.at_ e o.at_)) = poundPower v :=
    poundPower_each (f := fun w p => w.notice p 0x14 e o.at_ e o.at_) (fun w p => poundPower_notice w p 0x14 e o.at_ e o.at_) v l
  have hnotice : poundPower (if w.noticeDue o then w.sendNotice i o else w) = poundPower w := by
    rw [poundPower_ite, Work.sendNotice, hsend]
    exact ite_self _
  exact hnotice

theorem poundPower_endOrder (w : Work) (i : Nat) (unfinished : Bool) : poundPower (w.endOrder i unfinished) = poundPower w := by
  unfold Work.endOrder
  split
  · rfl
  · dsimp only
    split
    · rfl
    · rw [poundPower_record, poundPower_ite]
      exact ite_self _

end Sys2Proof
end

section
/-!
Operating points (Obligations.OperatingPoints): an order of action 0x01, the end of a step, droops, and the steps of a host core.
-/

namespace Sys2Proof

open Sys2Proof.Machine

/-! ## An operating-point change (R496) -/

/-- The order of the sequence in progress of the pound of order o, if any, has ended, and order i has begun. -/
def changeBegun (w : Work) (i : Nat) (o : Order) : Work :=
  (match (w.ppow o.pound).seqOrder with | some j => w.endOrder j | none => w).beginOrder i o
    (some ((if o.arg < (w.ppow o.pound).freqMhz then (w.ppow o.pound).freqMhz - o.arg else o.arg - (w.ppow o.pound).freqMhz) / 25 *
      10_000 + 1000))

theorem changeBegun_ppow (w : Work) (i p : Nat) (o : Order) : (changeBegun w i o).ppow p = w.ppow p := by
  refine ppow_of_poundPower ((poundPower_beginOrder _ _ _ _).trans ?_) p
  split
  · exact poundPower_endOrder _ _ _
  · rfl

theorem modPpow_congr {w : Work} {p : Nat} {f g : PoundPower → PoundPower} (h : f (w.ppow p) = g (w.ppow p)) :
    w.modPpow p f = w.modPpow p g := by
  have h' : f (SMap.get PoundPower.reset w.chip.pwr.pounds p) = g (SMap.get PoundPower.reset w.chip.pwr.pounds p) := h
  rw [Work.modPpow, Work.modPpow, SMap.modify, SMap.modify, h']

section
variable {w : Work} {i : Nat}

theorem changeStart_waits (h : w.startable i 1 = none) : w.changeStart i = w := by simp only [Work.changeStart, h]

section Starts
variable {o : Order} (h : w.startable i 1 = some o) {v : Work} (hv : changeBegun w i o = v)
include h hv

theorem changeStart_eq :
    w.changeStart i =
      if ((w.ppow o.pound).freqMhz = o.arg && (w.ppow o.pound).seqTo.isNone) || !v.pwrNormal then
        (v.modPpow o.pound (fun x => { x with seqTo := none, seqOrder := none, stepHeld := false })).endOrder i (!v.pwrNormal)
      else v.modPpow o.pound (fun x =>
        { x with seqTo := some o.arg, seqOrder := some i, stepMhz := if x.seqTo.isSome then x.stepMhz else stepNext x.freqMhz o.arg }) := by
  subst hv
  simp only [Work.changeStart, h]
  rfl

theorem changeStart_ends (hend : (w.ppow o.pound).freqMhz = o.arg ∧ (w.ppow o.pound).seqTo = none ∨ v.pwrNormal = false) :
    w.changeStart i =
      (v.modPpow o.pound (fun x => { x with seqTo := none, seqOrder := none, stepHeld := false })).endOrder i (!v.pwrNormal) := by
  rw [changeStart_eq h hv, if_pos]
  simpa using hend

variable (hn : v.pwrNormal = true)
include hn

theorem changeStart_sequence (hf : (w.ppow o.pound).freqMhz ≠ o.arg) (hs : (w.ppow o.pound).seqTo = none) :
    w.changeStart i = v.modPpow o.pound (fun y => { y with
      seqTo := some o.arg, seqOrder := some i
      stepMhz := if y.freqMhz < o.arg then min o.arg (y.freqMhz + 25) else max o.arg (y.freqMhz - 25) }) := by
  have hs' : (v.ppow o.pound).seqTo = none := by rw [← hv, changeBegun_ppow]; exact hs
  rw [changeStart_eq h hv, if_neg (by simp [hf, hn])]
  refine modPpow_congr ?_
  simp only [hs', Option.isSome_none, Bool.false_eq_true, if_false, stepNext]

theorem changeStart_turns (hs : (w.ppow o.pound).seqTo ≠ none) :
    w.changeStart i = v.modPpow o.pound (fun y => { y with seqTo := some o.arg, seqOrder := some i }) := by
  have hs' : (v.ppow o.pound).seqTo.isSome = true := by
    rw [← hv, changeBegun_ppow, Option.isSome_iff_ne_none]; exact hs
  rw [changeStart_eq h hv, if_neg (by simp [hs, hn])]
  refine modPpow_congr ?_
  simp only [hs', if_true]

end Starts

end

/-! ## The end of a step (R490, R496, R498) -/

section
variable {w : Work} {p : Nat}

theorem stepEnd_stands (h : (w.ppow p).seqTo = none ∨ (w.ppow p).stepHeld = true ∨ w.locked = false) : w.stepEnd p = w := by
  cases hgoal : (w.ppow p).seqTo with
  | none => simp only [Work.stepEnd, hgoal]
  | some goal =>
    have hc : ((w.ppow p).stepHeld || !w.locked) = true := by
      rcases h with h | h | h
      · rw [hgoal] at h; cases h
      · simp [h]
      · simp [h]
    simp only [Work.stepEnd, hgoal, hc, if_true]

section Ends
variable {goal : Nat} (hgoal : (w.ppow p).seqTo = some goal) (hheld : (w.ppow p).stepHeld = false) (hl : w.locked = true)
  {v : Work}
  (hv : (w.modPpow p (fun y => { y with freqMhz := (w.ppow p).stepMhz, stepMhz := stepNext (w.ppow p).stepMhz goal })).setRails = v)
include hgoal hheld hl hv

theorem stepEnd_continues (hf : (w.ppow p).stepMhz ≠ goal) : w.stepEnd p = v := by
  simp [Work.stepEnd, hgoal, hheld, hl, hf, hv]

variable (hf : (w.ppow p).stepMhz = goal)
include hf

theorem stepEnd_reaches (ho : (w.ppow p).seqOrder = none) :
    w.stepEnd p = v.modPpow p (fun y => { y with seqTo := none, seqOrder := none }) := by
  rw [hf] at hv
  simp only [Work.stepEnd, hgoal, hheld, hl, hf, hv, ho, Bool.not_true, Bool.or_self, Bool.false_eq_true, if_false, if_true]

theorem stepEnd_reaches_order {i : Nat} (ho : (w.ppow p).seqOrder = some i) :
    w.stepEnd p = (v.modPpow p (fun y => { y with seqTo := none, seqOrder := none })).endOrder i := by
  rw [hf] at hv
  simp only [Work.stepEnd, hgoal, hheld, hl, hf, hv, ho, Bool.not_true, Bool.or_self, Bool.false_eq_true, if_false, if_true]

end Ends

end

/-! ## Droops (R497, R498) -/

/-- A tile stretches its clock, and its die counts the droop. -/
def stretched (w : Work) (t : Nat) : Work :=
  (w.modTile t (fun x => { x with phys.stretched := true })).modDiePow (tileDie t) (fun x => { x with droops := satAdd 16 x.droops 1 })

section
variable {w : Work} {t : Nat}

theorem droop_again (h : (w.tile t).phys.stretched = true) : w.droop t = w := if_pos h

theorem stretched_tile : (stretched w t).tile t = { w.tile t with phys := { (w.tile t).phys with stretched := true } } :=
  Work.modTile_self w t (fun x => { x with phys := { x.phys with stretched := true } })

theorem stretched_droops : ((stretched w t).diePow (tileDie t)).droops = min ((w.diePow (tileDie t)).droops + 1) 0xFFFF :=
  congrArg DiePower.droops (Work.modDiePow_self _ (tileDie t) _)

variable (h : (w.tile t).phys.stretched = false)
include h

theorem droop_unowned (ho : w.tileOwner t = none) : w.droop t = stretched w t := by
  have ho' : (stretched w t).tileOwner t = none := ho
  rw [stretched] at ho' ⊢
  simp only [Work.droop, h, Bool.false_eq_true, if_false, ho']

theorem droop_owned {p : Nat} (ho : w.tileOwner t = some p) :
    w.droop t = (stretched w t).modPpow p (fun y => { y with stepHeld := y.stepHeld || y.seqTo.isSome }) := by
  have ho' : (stretched w t).tileOwner t = some p := ho
  rw [stretched] at ho' ⊢
  simp only [Work.droop, h, Bool.false_eq_true, if_false, ho']

end

section
variable {w : Work} {p : Nat}

theorem stepResume_waits (h : ∃ e ∈ w.chip.tiles, e.2.phys.stretched = true ∧ w.tileOwner e.1 = some p) : w.stepResume p = w := by
  refine if_pos ?_
  simpa [List.any_eq_true] using h

theorem stepResume_resumes (h : ∀ e ∈ w.chip.tiles, e.2.phys.stretched = true → w.tileOwner e.1 ≠ some p) :
    w.stepResume p = w.modPpow p (fun y => { y with stepHeld := false }) := by
  refine if_neg ?_
  simpa [List.any_eq_true] using h

end

/-! ## A host core (R496, R514) -/

/-- The frequency that a host core steps toward. -/
def hostGoal (w : Work) (c allowed : Nat) : Nat := max 1200 (min (min 3600 (w.hostMax c)) allowed / 100 * 100)

section
variable {w : Work} {c allowed : Nat}

theorem hostStep_stays (h : w.pwrNormal = false ∨ w.coreMhz c = hostGoal w c allowed ∨
    w.coreMhz c < hostGoal w c allowed ∧ w.locked = false) : w.hostStep c allowed = w := by
  rw [hostGoal] at h
  rcases h with h | h | ⟨h, hl⟩
  · simp [Work.hostStep, h]
  · simp only [Work.hostStep, ← h, Nat.lt_irrefl, decide_false, Bool.false_and, Bool.false_eq_true, if_false, ite_self]
  · simp only [Work.hostStep, Nat.not_lt.mpr (Nat.le_of_lt h), if_false, hl, Bool.and_false, Bool.false_eq_true, ite_self]

variable (hn : w.pwrNormal = true)
include hn

theorem hostStep_rises (h : w.coreMhz c < hostGoal w c allowed) (hl : w.locked = true) :
    w.hostStep c allowed = (w.setCoreMhz c (min (hostGoal w c allowed) (w.coreMhz c + 100))).setRails := by
  rw [hostGoal] at h ⊢
  simp only [Work.hostStep, hn, Nat.not_lt.mpr (Nat.le_of_lt h), h, hl, Bool.not_true, Bool.false_eq_true, if_false, decide_true,
    Bool.and_self, if_true]

variable (h : hostGoal w c allowed < w.coreMhz c)
include h

theorem hostStep_falls (ha : w.hostMax c ≤ allowed) :
    w.hostStep c allowed = (w.setCoreMhz c (max (hostGoal w c allowed) (w.coreMhz c - 100))).setRails := by
  rw [hostGoal] at h ⊢
  simp only [Work.hostStep, hn, h, Nat.not_lt.mpr ha, Bool.not_true, Bool.false_eq_true, if_false, if_true]

theorem hostStep_overridden (ha : allowed < w.hostMax c) :
    w.hostStep c allowed = (Work.setCoreMhz { w with chip := { w.chip with
      pwr := { w.chip.pwr with ovr5 := min (w.chip.pwr.ovr5 + 1) 4095 } } } c
        (max (hostGoal w c allowed) (w.coreMhz c - 100))).setRails := by
  rw [hostGoal] at h ⊢
  simp only [Work.hostStep, hn, h, ha, Bool.not_true, Bool.false_eq_true, if_false, if_true]
  rfl

end

/-- Settles O32: each command by the equation of its outcome; a change that finds a sequence in progress, or none, still does after the
order before it has ended and its own has begun. -/
theorem operatingPoints : Obligations.OperatingPoints := by
  unfold Obligations.OperatingPoints
  refine ⟨fun s i h => becomes_of_lift exec_operatingPointChange (changeStart_waits h), fun s i o h => ?change, fun s p => ?stepEnd,
    fun s k => ⟨fun h => becomes_of_lift exec_droopDetect (droop_again h), fun h => ?droop, ?droopClear⟩,
    fun s p => ⟨fun h => becomes_of_lift exec_opStepResume (stepResume_waits h),
      fun h => runs_of_lift exec_opStepResume (stepResume_resumes h), fun h => becomes_of_lift exec_heavyWindowEnd (if_pos h),
      fun h => runs_of_lift exec_heavyWindowEnd (if_neg (Bool.eq_false_iff.mp h))⟩,
    fun s c mhz => ?host⟩
  case change =>
    exact ⟨fun hend => runs_of_lift exec_operatingPointChange (changeStart_ends h rfl hend),
      fun hf hs hn => runs_of_lift exec_operatingPointChange (changeStart_sequence h rfl hn hf hs),
      fun hs hn => runs_of_lift exec_operatingPointChange (changeStart_turns h rfl hn hs)⟩
  case stepEnd =>
    refine ⟨fun h => becomes_of_lift exec_opStepEnd (stepEnd_stands h), fun goal hgoal hheld hl => ?_⟩
    exact ⟨fun hf => runs_of_lift exec_opStepEnd (stepEnd_continues hgoal hheld hl rfl hf),
      fun hf ho => runs_of_lift exec_opStepEnd (stepEnd_reaches hgoal hheld hl rfl hf ho),
      fun i hf ho => runs_of_lift exec_opStepEnd (stepEnd_reaches_order hgoal hheld hl rfl hf ho)⟩
  case droop =>
    exact ⟨stretched (Work.of s) k, stretched_tile, stretched_droops, fun ho => runs_of_lift exec_droopDetect (droop_unowned h ho),
      fun p ho => runs_of_lift exec_droopDetect (droop_owned h ho)⟩
  case droopClear => exact gives_of_modTile _ exec_droopClear rfl rfl
  case host =>
    intro w f goal
    exact ⟨fun h => becomes_of_lift exec_hostFreqStep (hostStep_stays (w := w) h),
      fun hn h hl => runs_of_lift exec_hostFreqStep (hostStep_rises hn h hl),
      fun hn h ha => runs_of_lift exec_hostFreqStep (hostStep_falls hn h ha),
      fun hn h ha => runs_of_lift exec_hostFreqStep (hostStep_overridden hn h ha)⟩

end Sys2Proof
end

section
/-!
The cores of a tile (Obligations.TileIssueAndVectorCores): an instruction of a hart that executes, the next instruction, and the
control of the vector cores.
-/

namespace Sys2Proof

open Sys2Proof.Machine

/-! ## An instruction of a hart that executes (R134, R525) -/

/-- The command acts by F where hart h of tile k executes. -/
theorem exec_of_runs {c : Instr} {s : State} {F : Work → Work} {k h : Nat}
    (hexec : exec c s = lift (fun w => if !w.runs k h then w else F w) s) (hr : (Work.of s).runs k h = true) :
    exec c s = lift F s := by
  refine hexec.trans ?_
  simp only [lift, hr, Bool.not_true, Bool.false_eq_true, if_false]

/-- An instruction of hart h of tile k that changes its tile by f. -/
theorem gives_of_runs {c : Instr} {s : State} {f g : Tile → Tile} {k h : Nat}
    (hexec : exec c s = lift (fun w => if !w.runs k h then w else w.modTile k f) s) (hr : (Work.of s).runs k h = true)
    (hg : f (tileOf s k) = g (tileOf s k)) : Gives c s (TileTo k g s) :=
  gives_of_modTile f (exec_of_runs hexec hr) rfl hg

/-! ## The next instruction (R126, R139) -/

/-- The rows of 64 B in an instruction cache of 512 rows after it has fetched one. -/
def rowsAfter (rows : List Nat) (row : Nat) : List Nat :=
  (without rows row ++ [row]).drop ((without rows row ++ [row]).length - 512)

theorem mem_rowsAfter (rows : List Nat) (row : Nat) : row ∈ rowsAfter rows row := by
  rw [rowsAfter, List.drop_append_of_le_length (by simp only [List.length_append, List.length_singleton]; omega)]
  exact List.mem_append_right _ (List.mem_singleton_self row)

theorem length_rowsAfter_le (rows : List Nat) (row : Nat) : (rowsAfter rows row).length ≤ 512 := by
  rw [rowsAfter, List.length_drop]; omega

/-- A core as it goes on to its next instruction. -/
def nextInstr (c : TileCore) : TileCore :=
  { c with pc := c.pc + 4, instret := c.instret + 1, icache := rowsAfter c.icache (c.pc.toNat / 64) }

theorem nextInstr_icache (c : TileCore) : (nextInstr c).icache = rowsAfter c.icache (c.pc.toNat / 64) := by rw [nextInstr]

theorem advance_self (x : Tile) (h : Nat) : (x.advance h).core h = nextInstr (x.core h) := Tile.modCore_self x h _

theorem advance_ne {g h : Nat} (n : g ≠ h) (x : Tile) : (x.advance h).core g = x.core g := Tile.modCore_ne n x _

/-! ## Vector cores (R136 to R138) -/

/-- The start of vector core n at an entry, and the control core's next instruction (R138). -/
theorem gives_vectorCoreStart {s : State} {k : TileId} {v : Fin 4} {rs2 : BitVec 5} {g : Tile → Tile} (hr : (Work.of s).runs k 0 = true)
    (hg : (if ((tileOf s k).core (v + 1 : Nat)).running then tileOf s k else (tileOf s k).modCore (v + 1 : Nat) (fun c =>
      ({ TileCore.zero with running := true, pc := ((tileOf s k).core 0).reg rs2.toNat, flush := c.flush, exit := c.exit
                            cycle := c.cycle }).setReg 10 (SMap.get 0 (tileOf s k).vargs (v + 1 : Nat)))).advance 0 = g (tileOf s k)) :
    Gives (.vectorCoreStart k v rs2) s (TileTo k g s) :=
  gives_of_modTile _ (exec_of_runs exec_vectorCoreStart hr) (Work.modTile_modTile (Work.of s) k _ (fun x => x.advance 0)) hg

/-- A legal instruction of the exp, log and reciprocal unit (R136). -/
theorem gives_vh {c : Instr} {s : State} {k h : Nat} {op : VhOp} {vd vs2 : Nat} {vm : Bool} {word : W64}
    (hexec : exec c s = lift (fun w => w.vh k h op vd vs2 vm word) s) (hr : (Work.of s).runs k h = true)
    (hlegal : ((tileOf s k).core h).vhLegal vd vs2 vm = true) :
    Gives c s (TileTo k (fun x => (x.modCore h (fun c => c.vhRun op vd vs2 vm)).advance h) s) :=
  gives_of_modTile _ (exec_of_runs hexec hr) (if_pos hlegal) rfl

/-- Settles O6: the next instruction, read off the update of its core; each command by what it makes of its tile. -/
theorem tileIssueAndVectorCores : Obligations.TileIssueAndVectorCores := by
  unfold Obligations.TileIssueAndVectorCores
  refine ⟨fun x h => ?next, fun s k v rs2 hr hstopped => ?start, fun s k v rs2 hr hrunning => ?started,
    fun s k v hr => gives_of_runs exec_vectorEcall hr rfl, fun s k v hr => gives_of_runs exec_vectorFenceI hr rfl,
    fun s k v value hr => gives_of_runs exec_tvflushWrite hr rfl, fun s k value hr => gives_of_runs exec_tmcompWrite hr rfl,
    fun s k v vd vs2 vm hr hlegal => ?unit⟩
  case next =>
    rw [advance_self, nextInstr_icache]
    exact ⟨by rw [nextInstr], mem_rowsAfter _ _, length_rowsAfter_le _ _, fun g hg => advance_ne hg x, rfl⟩
  case start => exact gives_vectorCoreStart hr (by simp only [hstopped, Bool.false_eq_true, if_false])
  case started => exact gives_vectorCoreStart hr (by simp only [hrunning, if_true])
  case unit =>
    exact ⟨gives_vh exec_vhexp2V hr hlegal, gives_vh exec_vhlog2V hr hlegal, gives_vh exec_vhrecV hr hlegal,
      gives_vh exec_vhrsqrtV hr hlegal⟩

end Sys2Proof
end

section
/-!
Semaphores of a tile and the registers of a tile that a host core writes (Obligations.TileSemaphoresAndControl).
-/

namespace Sys2Proof

open Sys2Proof.Machine

/-! ## WAIT (R146, R147) -/

section
variable {w : Work} {k h : Nat}

section Wait
variable {sem rd rs2 n : Nat} (hr : w.runs k h = true) (hp : w.portTakes k sem = false)
  (hn : (((w.tile k).core h).reg rs2).toNat % 2 ^ 32 = n)
include hr hp hn

theorem tileWait_returns (h' : n = 0 ∨ n ≤ (w.tile k).sem sem ∧ ∀ v ∈ (w.tile k).waiters, v.sem ≠ sem) :
    w.tileWait k h sem rd rs2 = w.modTile k (fun x =>
      ((x.setSem sem (x.sem sem - n)).modCore h (fun c => c.setReg rd (sext 32 (x.sem sem)))).advance h) := by
  have hc : (n = 0 || (n ≤ (w.tile k).sem sem && !(w.tile k).waiters.any (fun v => v.sem = sem))) = true := by
    simpa using h'
  simp only [Work.tileWait, hr, hp, hn, hc, Bool.not_true, Bool.false_eq_true, if_false, if_true]

theorem tileWait_stalls (hn0 : n ≠ 0) (h' : (w.tile k).sem sem < n ∨ ∃ v ∈ (w.tile k).waiters, v.sem = sem) :
    w.tileWait k h sem rd rs2 = w.modTile k (fun x =>
      { x.modCore h (fun c => { c with stalled := true }) with
        waiters := x.waiters ++ [{ sem := sem, hart := h, amount := n, rd := rd }] }) := by
  have hc : (n = 0 || (n ≤ (w.tile k).sem sem && !(w.tile k).waiters.any (fun v => v.sem = sem))) = false := by
    simpa [hn0, imp_iff_not_or] using h'
  simp only [Work.tileWait, hr, hp, hn, hc, Bool.not_true, Bool.false_eq_true, if_false]

end Wait

/-- A blocked WAIT returns where it is the first of its semaphore's waiters and the count covers its amount. -/
theorem tileWaitReturn_of_first {v : Waiter} (hhart : (w.tile k).waiters.find? (fun u => u.hart = h) = some v)
    (hsem : (w.tile k).waiters.find? (fun u => u.sem = v.sem) = some v) (hn : v.amount ≤ (w.tile k).sem v.sem) :
    w.tileWaitReturn k h = w.modTile k (fun x =>
      { ((x.setSem v.sem (x.sem v.sem - v.amount)).modCore h (fun c =>
          { c.setReg v.rd (sext 32 (x.sem v.sem)) with stalled := false })).advance h with
        waiters := x.waiters.filter (fun u => u.hart ≠ h) }) := by
  simp only [Work.tileWaitReturn, hhart, hsem, hn, decide_true, Bool.and_self, if_true]

end

/-! ## TL_CTRL (R158, R160, R264) -/

section
variable {s : State} {c : CoreId} {k : TileId}

/-- A host core's write to a register of tile k that changes the tile by f. -/
theorem gives_of_tileReg {i : Instr} {off : Nat} {z : Size} {high allowed : Bool} {v : W64} {F : Work → Work} (f : Tile → Tile)
    {g : Tile → Tile} (hexec : exec i s = lift (fun w => w.regStore c off z high allowed v F) s) (hz : regSize z = true)
    (ho : RegOpen s c off allowed) (hF : F (Work.of s) = (Work.of s).modTile k f) (hg : f (tileOf s k) = g (tileOf s k)) :
    Gives i s (ThenCore c (TileTo k g) s) :=
  gives_of_regStore hexec hz ho (tileTo_modTile f hF hg)

/-- A tile that becomes disabled or draining, and that no launch waits for. -/
theorem refuseWaiting_modTile (hw : NoLaunchWaits s k) (f : Tile → Tile) (n : Nat) :
    ((Work.of s).modTile k f).refuseWaiting k n = (Work.of s).modTile k f := refuseWaiting_none (s := s) rfl hw

theorem tlDisable_idle (hw : NoLaunchWaits s k) (hst : (tileOf s k).st = .idle) :
    (Work.of s).tlDisable k = (Work.of s).modTile k (fun x => { x with st := .disabled }) := by
  rw [tileOf] at hst
  simp only [Work.tlDisable, hst, refuseWaiting_modTile hw]

theorem tlDisable_busy (hw : NoLaunchWaits s k) (hst : (tileOf s k).st = .loading ∨ (tileOf s k).st = .running) :
    (Work.of s).tlDisable k = (Work.of s).modTile k (fun x => { x with st := .draining }) := by
  rw [tileOf] at hst
  rcases hst with hst | hst <;> simp only [Work.tlDisable, hst, refuseWaiting_modTile hw]

/-- RESET of a tile at which no canal ends. -/
theorem tlReset_noCanal (hst : (tileOf s k).st = .disabled ∨ (tileOf s k).st = .quarantined ∨ (tileOf s k).st = .spare)
    (hc : ∀ r ∈ (Work.of s).canals, r.c.prod ≠ k.val ∧ r.c.cons ≠ k.val) :
    (Work.of s).tlReset k = (Work.of s).modTile k Tile.resetKeep := by
  have hnone : (Work.of s).canals.filter (fun r => r.c.prod = k.val || r.c.cons = k.val) = [] := by
    refine List.filter_eq_nil_iff.mpr fun r hr => ?_
    simp [hc r hr]
  rw [tileOf] at hst
  rcases hst with hst | hst | hst <;>
    simp only [Work.tlReset, hst, hnone, List.all_nil, if_true, Work.each_nil, List.foldl_nil]

end

/-- Settles O7: each command by what it makes of its tile. -/
theorem tileSemaphoresAndControl : Obligations.TileSemaphoresAndControl := by
  unfold Obligations.TileSemaphoresAndControl
  refine ⟨⟨fun s k h sem rd rs2 hr => ?signal, fun s k h sem rd rs2 hr hp => ⟨fun hn => ?waitReturns, fun hn h' => ?waitStalls⟩,
      fun s k h v hhart hsem hn => gives_of_modTile _ exec_waitReturn (tileWaitReturn_of_first hhart hsem hn) rfl,
      fun s k sem rs2 hr => gives_of_runs exec_semValueStore hr rfl⟩,
    fun s c k ho hw => ⟨fun hst => ?disableIdle, fun hst => ?disableBusy⟩, fun s c k ho hst => ?enable,
    fun s c k ho hst hc => gives_of_tileReg _ exec_tlReset rfl ho (tlReset_noCanal hst hc) rfl,
    fun s c k sem n ho => gives_of_tileReg _ exec_tlSemSignal rfl ho rfl rfl,
    fun s c k ho => gives_of_tileReg _ exec_tlFaultClear rfl ho rfl rfl⟩
  case signal => exact gives_of_modTile _ (exec_of_runs exec_signal hr) (Work.modTile_modTile (Work.of s) k _ _) rfl
  case waitReturns => exact gives_of_modTile _ exec_wait (tileWait_returns hr hp rfl hn) rfl
  case waitStalls => exact gives_of_modTile _ exec_wait (tileWait_stalls hr hp rfl hn h') rfl
  case disableIdle => exact gives_of_tileReg _ exec_tlDisable rfl ho (tlDisable_idle hw hst) rfl
  case disableBusy => exact gives_of_tileReg _ exec_tlDisable rfl ho (tlDisable_busy hw hst) rfl
  case enable => exact gives_of_tileReg _ exec_tlEnable rfl ho (if_pos hst) rfl

end Sys2Proof
end

section
/-!
Loads of a tile core from its tile store (Obligations.TileLoads).
-/

namespace Sys2Proof

open Sys2Proof.Machine

/-! ## An access within the tile store (R128, R130, R131) -/

section
variable {w : Work} {k h a n : Nat}

theorem not_misaligned (ha : a % n = 0) : ¬ (decide (a % n ≠ 0) && !inMoverWindow a) = true := by simp [ha]

theorem inStore_of_le (hin : a + n ≤ 0x60_0000) : inStore a n = true := decide_eq_true hin

theorem localRead_inStore (ha : a % n = 0) (hin : a + n ≤ 0x60_0000) (hp : w.mem.poisonedIn (tileAddr k a) n = false)
    (isScalar signed : Bool) : w.localRead k h a n isScalar signed = .ok (w.mem.read (tileAddr k a) n) := by
  rw [Work.localRead, if_neg (not_misaligned ha), if_pos (inStore_of_le hin), if_neg (by rw [hp]; decide)]

end

/-! ## Loads (R130, R131, R134) -/

theorem mem_idxs {n i : Nat} {p : Nat → Bool} : i ∈ idxs n p ↔ i < n ∧ p i = true := by simp [idxs]

/-- A fold over results that stay good. -/
theorem foldl_ok {α β ε : Type} {F : Except ε α → β → Except ε α} {g : α → β → α} {l : List β}
    (h : ∀ d, ∀ i ∈ l, F (.ok d) i = .ok (g d i)) (d : α) : l.foldl F (.ok d) = .ok (l.foldl g d) := by
  induction l generalizing d with
  | nil => rfl
  | cons i l ih =>
    rw [List.foldl_cons, h d i List.mem_cons_self, ih (fun d j hj => h d j (List.mem_cons_of_mem i hj)), List.foldl_cons]

section
variable {w : Work} {k h z : Nat} {rs1 : Nat} {imm : BitVec 12} {bs : List Byte} (hr : w.runs k h = true)
include hr

/-- What a load into an integer register makes of its tile. -/
theorem tileLoad_x {rd : BitVec 5} {signed : Bool}
    (hread : w.localRead k h (localAddr ((w.tile k).core h) rs1 imm) z true signed = .ok bs) :
    w.tileLoad k h (.x rd signed) rs1 imm z =
      w.modTile k (fun x => (x.modCore h (fun c => c.writeDst (.x rd signed) z 0 bs)).advance h) := by
  simp only [Work.tileLoad, hr, hread, Bool.not_true, Bool.and_false, Bool.false_eq_true, if_false]

/-- What a load into a floating-point register of a vector core makes of its tile. -/
theorem tileLoad_f {rd : BitVec 5} (hh : h ≠ 0)
    (hread : w.localRead k h (localAddr ((w.tile k).core h) rs1 imm) z false false = .ok bs) :
    w.tileLoad k h (.f rd) rs1 imm z =
      w.modTile k (fun x => (x.modCore h (fun c => c.writeDst (.f rd) z 0 bs)).advance h) := by
  simp only [Work.tileLoad, hr, hread, hh, decide_false, Bool.false_and, Bool.not_true, Bool.false_eq_true, if_false]

/-- What a vector load into a vector core makes of its tile, where the reads of its elements succeed. -/
theorem tileLoad_v {vd : BitVec 5} (hh : h ≠ 0) (hvill : ((w.tile k).core h).vill = false) {bytes : Nat → List Byte}
    (hread : ∀ i, ((w.tile k).core h).vstart ≤ i → i < ((w.tile k).core h).vl →
      w.localRead k h (localAddr ((w.tile k).core h) rs1 imm + i * z) z false false = .ok (bytes i)) :
    w.tileLoad k h (.v vd) rs1 imm z = w.modTile k (fun x =>
      (x.setCore h { (idxs ((w.tile k).core h).vl (fun i => ((w.tile k).core h).vstart ≤ i)).foldl (fun d i =>
        d.writeDst (.v vd) z i (bytes i)) ((w.tile k).core h) with vstart := 0 }).advance h) := by
  simp only [Work.tileLoad, hr, hh, hvill, decide_false, Bool.or_self, Bool.not_true, Bool.false_eq_true, if_false]
  rw [foldl_ok (g := fun d i => d.writeDst (.v vd) z i (bytes i))]
  intro d i hi
  obtain ⟨hvl, hvstart⟩ := mem_idxs.mp hi
  simp only [hread i (of_decide_eq_true hvstart) hvl]

end

section
variable {w : Work} {k h rd rs1 z a : Nat}

theorem tileLr_inStore (hr : w.runs k h = true) (haddr : (((w.tile k).core h).reg rs1).toNat = a) (ha : a % z = 0)
    (hin : a + z ≤ 0x60_0000) (hp : w.mem.poisonedIn (tileAddr k a) z = false) :
    w.tileLr k h rd rs1 z = w.modTile k (fun x => (x.modCore h (fun c =>
      { c.setReg rd (sext (8 * z) (leNat (w.mem.read (tileAddr k a) z))) with reserved := some (tileAddr k a / 128) })).advance h) := by
  rw [Work.tileLr]
  simp only [haddr]
  rw [if_neg (by rw [hr]; decide), if_neg (not_misaligned ha), if_neg (by rw [inStore_of_le hin, hp]; decide)]

end

theorem size_scalar {z : Size} (hz : z ≠ .b16) : z.scalar = true := decide_eq_true hz

theorem bytes_eq_eight {z : Size} : z.bytes = 8 ↔ z = .b8 := by cases z <;> decide

theorem word_or_double {z : Size} (hz : z = .b4 ∨ z = .b8) : (decide (z = .b4) || decide (z = .b8)) = true := by simpa using hz

/-- Settles O8: the reads succeed; what each load then makes of its core. -/
theorem tileLoads : Obligations.TileLoads := by
  unfold Obligations.TileLoads
  refine ⟨fun s k h rd signed rs1 imm z hz => ?x, fun s k h rd rs1 imm z hz hz1 hh => ?f,
    fun s k h vd rs1 imm z hz hh hr hvill => ?v, fun s k h rd rs1 z hz => ?lr⟩
  case x =>
    rintro a ⟨hr, ha, hin⟩ hp
    exact gives_of_modTile _ (exec_tileLoad.trans (liftIf_eq (by simp [Instr.wellFormed, size_scalar hz])))
      (tileLoad_x hr (localRead_inStore (w := Work.of s) ha hin hp true signed)) rfl
  case f =>
    rintro a ⟨hr, ha, hin⟩ hp
    refine gives_of_modTile _ (exec_tileLoad.trans (liftIf_eq (by simp [Instr.wellFormed, size_scalar hz, hz1])))
      (tileLoad_f hr hh (localRead_inStore (w := Work.of s) ha hin hp false false)) ?_
    simp only [TileCore.writeDst, bytes_eq_eight]
    rfl
  case v =>
    intro c a haccess
    have hread (i : Nat) (hlo : c.vstart ≤ i) (hhi : i < c.vl) : (Work.of s).localRead k h (a + i * z.bytes) z.bytes false false =
        .ok (s.mem.read (tileAddr k (a + i * z.bytes)) z.bytes) := by
      obtain ⟨⟨-, ha, hin⟩, hp⟩ := haccess i hlo hhi
      exact localRead_inStore (w := Work.of s) ha hin hp false false
    exact gives_of_modTile _ (exec_tileLoad.trans (liftIf_eq (by simp [Instr.wellFormed, size_scalar hz])))
      (tileLoad_v hr hh hvill hread) rfl
  case lr =>
    rintro a ⟨hr, ha, hin⟩ hp
    exact gives_of_modTile _ (exec_tileLr.trans (liftIf_eq (word_or_double hz))) (tileLr_inStore (w := Work.of s) hr rfl ha hin hp) rfl

end Sys2Proof
end

section
/-!
Stores and atomics of a tile core to its tile store (Obligations.TileStoresAndAtomics).
-/

namespace Sys2Proof

open Sys2Proof.Machine

/-! ## The values of an AMO (R131) -/

/-- The number that an AMO reads as signed is that of its bit vector. -/
theorem signed_eq_toInt {b n : Nat} (hb : 0 < b) (hn : n < 2 ^ b) :
    (if n.testBit (b - 1) then (n : Int) - ((2 ^ b : Nat) : Int) else n) = (BitVec.ofNat b n).toInt := by
  rw [BitVec.toInt_eq_msb_cond, BitVec.msb_eq_getLsbD_last, BitVec.getLsbD_ofNat, BitVec.toNat_ofNat, Nat.mod_eq_of_lt hn]
  simp [Nat.sub_lt hb]

section
variable {z old v : Nat} (hv : v < 2 ^ (8 * z))
include hv

theorem amoValue_unsigned : amoValue .swap z old v 0 = v ∧ amoValue .add z old v 0 = (old + v) % 2 ^ (8 * z) ∧
    amoValue .minu z old v 0 = min old v ∧ amoValue .maxu z old v 0 = max old v := by
  simp only [amoValue, Nat.mod_eq_of_lt hv, and_self]

variable (ho : old < 2 ^ (8 * z))
include ho

theorem amoValue_bitwise : amoValue .and z old v 0 = (BitVec.ofNat (8 * z) old &&& BitVec.ofNat (8 * z) v).toNat ∧
    amoValue .or z old v 0 = (BitVec.ofNat (8 * z) old ||| BitVec.ofNat (8 * z) v).toNat ∧
    amoValue .xor z old v 0 = (BitVec.ofNat (8 * z) old ^^^ BitVec.ofNat (8 * z) v).toNat := by
  simp only [amoValue, BitVec.toNat_and, BitVec.toNat_or, BitVec.toNat_xor, BitVec.toNat_ofNat, Nat.mod_eq_of_lt hv,
    Nat.mod_eq_of_lt ho, and_self]

variable (hz : 0 < z)
include hz

theorem signed_le_iff :
    ((if old.testBit (8 * z - 1) then (old : Int) - ((2 ^ (8 * z) : Nat) : Int) else old) ≤
      (if v.testBit (8 * z - 1) then (v : Int) - ((2 ^ (8 * z) : Nat) : Int) else v)) ↔
      (BitVec.ofNat (8 * z) old).sle (BitVec.ofNat (8 * z) v) = true := by
  rw [signed_eq_toInt (Nat.mul_pos (by decide) hz) ho, signed_eq_toInt (Nat.mul_pos (by decide) hz) hv, BitVec.sle, decide_eq_true_iff]

theorem amoValue_min : amoValue .min z old v 0 =
    (if (BitVec.ofNat (8 * z) old).sle (BitVec.ofNat (8 * z) v) then old else v) := by
  simp only [amoValue, Nat.mod_eq_of_lt hv, signed_le_iff hv ho hz]

theorem amoValue_max : amoValue .max z old v 0 =
    (if (BitVec.ofNat (8 * z) old).sle (BitVec.ofNat (8 * z) v) then v else old) := by
  simp only [amoValue, Nat.mod_eq_of_lt hv, signed_le_iff hv ho hz]

end

/-! ## The bytes that are stored (R127, R236) -/

@[simp] theorem length_leBytes (n v : Nat) : (leBytes n v).length = n := by
  induction n generalizing v with
  | zero => rfl
  | succ n ih => rw [leBytes, List.length_cons, ih]

@[simp] theorem length_storeBytes (c : TileCore) (src : StoreSrc) (z i : Nat) : (c.storeBytes src z i).length = z := by
  cases src <;> exact length_leBytes _ _

theorem advance_modCore_id (x : Tile) (h : Nat) : (x.modCore h id).advance h = x.advance h := Tile.modCore_modCore x h id _

/-- A command that stores bytes of hart h to its tile store and changes its registers by f. -/
theorem gives_of_coreWrite {c : Instr} {s : State} {F : Work → Work} {k h a : Nat} {bs : List Byte} {f : TileCore → TileCore}
    (hexec : exec c s = lift F s)
    (hF : F (Work.of s) = ((Work.of s).coreWrite k h a bs).modTile k (fun x => (x.modCore h f).advance h)) :
    Gives c s (TileStores k h a bs f s) := by
  refine gives_of_lift hexec ?_
  rw [hF]
  exact tileStores_coreWrite s k h a bs f

section
variable {w : Work} {k h a z : Nat}

theorem localStore_inStore {bs : List Byte} (hz : bs.length = z) (ha : a % z = 0) (hin : a + z ≤ 0x60_0000)
    (hh : (w.tile k).holds a z = false) (isScalar : Bool) :
    w.localStore k h a bs isScalar = .ok ((w.coreWrite k h a bs).modTile k (fun x => (x.modCore h id).advance h)) := by
  subst hz
  rw [Work.localStore, if_neg (not_misaligned ha), if_pos (inStore_of_le hin), if_neg (by rw [hh]; decide)]
  simp only [advance_modCore_id]

/-- A store of a core that its control core may execute, where its one write succeeds. -/
theorem tileStore_scalar {src : StoreSrc} {rs1 : Nat} {imm : BitVec 12} (hr : w.runs k h = true) (hvec : ∀ v, src ≠ .v v)
    (hx : h = 0 → ∃ r, src = .x r) {v : Work}
    (hstore : ∀ isScalar, w.localStore k h (localAddr ((w.tile k).core h) rs1 imm) (((w.tile k).core h).storeBytes src z 0) isScalar = .ok v) :
    w.tileStore k h src rs1 imm z = v := by
  have hne : ∀ r, src = .f r → h ≠ 0 := by
    rintro r rfl h0
    obtain ⟨r', hr'⟩ := hx h0
    cases hr'
  cases src with
  | x r => simp only [Work.tileStore, hr, hstore, Bool.not_true, Bool.and_false, Bool.false_eq_true, if_false]
  | f r => simp only [Work.tileStore, hr, hstore, hne r rfl, decide_false, Bool.false_and, Bool.not_true, Bool.false_eq_true, if_false]
  | v r => exact absurd rfl (hvec r)

/-! ## Atomics (R131, R616) -/

section Atomic
variable {rd rs1 rs2 : Nat} (hr : w.runs k h = true) (haddr : (((w.tile k).core h).reg rs1).toNat = a)
include hr haddr

section InStore
variable (ha : a % z = 0) (hin : a + z ≤ 0x60_0000) (hp : w.mem.poisonedIn (tileAddr k a) z = false) (hh : (w.tile k).holds a z = false)
include ha hin hp hh

theorem tileAmo_inStore {op : AmoOp} :
    w.tileAmo k h op rd rs1 rs2 z =
      (w.coreWrite k h a (leBytes z (amoValue op z (leNat (w.mem.read (tileAddr k a) z)) (((w.tile k).core h).reg rs2).toNat 0))).modTile k
        (fun x => (x.modCore h (fun c => c.setReg rd (sext (8 * z) (leNat (w.mem.read (tileAddr k a) z))))).advance h) := by
  rw [Work.tileAmo]
  simp only [haddr]
  rw [if_neg (by rw [hr]; decide), if_neg (not_misaligned ha), if_pos (inStore_of_le hin), if_neg (by rw [hp, hh]; decide)]

theorem tileSc_reserved (hres : ((w.tile k).core h).reserved = some (tileAddr k a / 128)) :
    w.tileSc k h rd rs1 rs2 z =
      (w.coreWrite k h a (leBytes z (((w.tile k).core h).reg rs2).toNat)).modTile k
        (fun x => (x.modCore h (fun c => { c.setReg rd 0 with reserved := none })).advance h) := by
  rw [Work.tileSc]
  simp only [haddr]
  rw [if_neg (by rw [hr]; decide), if_neg (not_misaligned ha), if_neg (by rw [inStore_of_le hin, hp, hh]; decide)]
  simp only [hres, if_true]

theorem tileSc_unreserved (hres : ((w.tile k).core h).reserved ≠ some (tileAddr k a / 128)) :
    w.tileSc k h rd rs1 rs2 z =
      w.modTile k (fun x => (x.modCore h (fun c => { c.setReg rd 1 with reserved := none })).advance h) := by
  rw [Work.tileSc]
  simp only [haddr]
  rw [if_neg (by rw [hr]; decide), if_neg (not_misaligned ha), if_neg (by rw [inStore_of_le hin, hp, hh]; decide)]
  simp only [hres, if_false]

end InStore

/-- AMOADD.W on a window of the semaphores: SIGNAL of offset 8, WAIT of offset 16 (R146). -/
theorem tileAmo_semaphore {sem : Nat} (hsem : sem < 64) {o : Nat} (ho : o = 8 ∨ o = 0x10) (hwin : a = 0x80_0000 + o + sem * 0x20) :
    w.tileAmo k h .add rd rs1 rs2 4 = if o = 8 then w.tileSignal k h sem rd rs2 else w.tileWait k h sem rd rs2 := by
  have hoff : a % 0x20 = o := by omega
  have hnum : (a - 0x80_0000) / 0x20 = sem := by omega
  rw [Work.tileAmo]
  simp only [haddr]
  rw [if_neg (by rw [hr]; decide), if_neg (not_misaligned (by omega)), if_neg (by rw [inStore, decide_eq_true_iff]; omega), if_pos ?_, hoff, hnum]
  rw [hoff]
  simp only [Bool.and_eq_true, Bool.or_eq_true, decide_eq_true_eq]
  exact ⟨⟨⟨⟨by omega, by omega⟩, trivial⟩, trivial⟩, ho⟩

end Atomic

end

/-- Settles O9: each store and atomic by the write it makes, and the values of an AMO. -/
theorem tileStoresAndAtomics : Obligations.TileStoresAndAtomics := by
  unfold Obligations.TileStoresAndAtomics
  refine ⟨⟨fun s k h src rs1 imm z hz hvec hx => ?store, fun s k h op rd rs1 rs2 z hz hop => ?amo,
    fun s k h sem rd rs1 rs2 hr => ?semaphore, fun s k h rd rs1 rs2 z hz => ?sc⟩, fun z old v hz ho hv => ?values⟩
  case store =>
    rintro a ⟨hr, ha, hin⟩ hh
    exact gives_of_coreWrite (exec_tileStore.trans (liftIf_eq (size_scalar hz)))
      (tileStore_scalar hr hvec (fun h0 => hx h0) (localStore_inStore (length_storeBytes _ _ _ _) ha hin hh))
  case amo =>
    rintro c a old ⟨hr, ha, hin⟩ hp hh
    exact gives_of_coreWrite (exec_tileAmo.trans (liftIf_eq (by simpa [Instr.wellFormed, hop] using hz)))
      (tileAmo_inStore (w := Work.of s) hr rfl ha hin hp hh)
  case semaphore =>
    intro a
    have hexec : exec (.tileAmo k h .add rd rs1 rs2 .b4) s =
        lift (fun w => w.tileAmo k h .add rd.toNat rs1.toNat rs2.toNat 4) s := exec_tileAmo
    refine ⟨fun hwin => ?_, fun hwin => ?_⟩
    · have hact := tileAmo_semaphore (w := Work.of s) (rd := rd.toNat) (rs2 := rs2.toNat) hr rfl sem.isLt (.inl rfl) hwin
      rw [hexec, exec_signal]; simp only [lift, hact]; rfl
    · have hact := tileAmo_semaphore (w := Work.of s) (rd := rd.toNat) (rs2 := rs2.toNat) hr rfl sem.isLt (.inr rfl) hwin
      rw [hexec, exec_wait]; simp only [lift, hact]; rfl
  case sc =>
    rintro c a ⟨hr, ha, hin⟩ hp hh
    have hexec : exec (.tileSc k h rd rs1 rs2 z) s = lift (fun w => w.tileSc k h rd.toNat rs1.toNat rs2.toNat z.bytes) s :=
      exec_tileSc.trans (liftIf_eq (word_or_double hz))
    exact ⟨fun hres => gives_of_coreWrite hexec (tileSc_reserved (w := Work.of s) hr rfl ha hin hp hh hres),
      fun hres => gives_of_modTile _ hexec (tileSc_unreserved (w := Work.of s) hr rfl ha hin hp hh hres) rfl⟩
  case values =>
    have hpos : 0 < z := by omega
    obtain ⟨hswap, hadd, hminu, hmaxu⟩ := amoValue_unsigned (old := old) hv
    obtain ⟨hand, hor, hxor⟩ := amoValue_bitwise hv ho
    exact ⟨hswap, hadd, hand, hor, hxor, hminu, hmaxu, amoValue_min hv ho hpos, amoValue_max hv ho hpos⟩

end Sys2Proof
end

section
/-!
Ends of a tile's program (Obligations.TileProgramEnds): what an end makes of a tile whose work lies within it, and what a non-normal
end leaves.
-/

namespace Sys2Proof

open Sys2Proof.Machine

/-! ## A tile whose work lies within it -/

theorem mapVal_eq_self {α : Type} {m : SMap α} {f : Nat → α → α} (h : ∀ e ∈ m, f e.1 e.2 = e.2) : SMap.mapVal m f = m := by
  rw [SMap.mapVal]
  exact (List.map_congr_left (fun e he => by rw [h e he]; rfl)).trans (List.map_id m)

/-- Nothing is outstanding that an engine could leave. -/
theorem leaveWrites_of_none {w : Work} (hremotes : w.chip.remotes = []) (hports : ∀ e ∈ w.chip.ports, e.2.posted = [] ∧ e.2.reqs = [])
    (htiles : ∀ e ∈ w.chip.tiles, e.2.heldWrites = []) (who as : RemoteWho) : w.leaveWrites who as = w := by
  have hp : SMap.mapVal w.chip.ports (fun _ p => { p with
      posted := p.posted.map (fun x => (x.1, x.2.1, if x.2.2 = some who then some as else x.2.2))
      reqs := p.reqs.map (fun r => if r.who = some who then { r with who := none, dst := none } else r) }) = w.chip.ports :=
    mapVal_eq_self fun e he => by
      obtain ⟨hposted, hreqs⟩ := hports e he
      rw [hposted, hreqs, List.map_nil, List.map_nil, ← hposted]
      conv_rhs => rw [show e.2 = { e.2 with reqs := e.2.reqs } from rfl, hreqs]
  have ht : SMap.mapVal w.chip.tiles (fun _ t => { t with
      heldWrites := t.heldWrites.map (fun x => (x.1, x.2.1, if x.2.2 = some who then some as else x.2.2)) }) = w.chip.tiles :=
    mapVal_eq_self fun e he => by rw [htiles e he, List.map_nil, ← htiles e he]
  rw [Work.leaveWrites]
  simp only [hp, ht, hremotes, List.filter_nil, List.map_nil]
  rw [← hremotes]

section
variable {s : State} {k : Nat} (hs : WorksAlone s k)
include hs

theorem dropTileWork_alone : (Work.of s).dropTileWork k = Work.of s := by
  obtain ⟨hsamples, hremotes, hreplay, -, htiles, hports, -⟩ := hs
  rw [tileOf] at hreplay
  have hleave (who as : RemoteWho) : (Work.of s).leaveWrites who as = Work.of s :=
    leaveWrites_of_none hremotes hports htiles who as
  have hsame : ({ Work.of s with chip := { s.chip with samples := [] } } : Work) = Work.of s := by rw [← hsamples]; rfl
  simp only [Work.dropTileWork, Work.of_chip, hsamples, hreplay, List.filter_nil, List.map_nil, List.append_nil, Work.each_nil, hsame, hleave]

theorem heldWrites_alone : (tileOf s k).heldWrites = [] := by
  obtain ⟨-, -, -, hheld, -⟩ := hs
  exact hheld

theorem groupOf_alone {l : TileLaunch} (hl : (tileOf s k).launch = some l) : (Work.of s).groupOf l.sq l.seq = [k] := by
  obtain ⟨-, -, -, -, -, -, hgroup⟩ := hs
  exact hgroup l hl

end

/-! ## A non-normal end (R155, R164, R184) -/

/-- No write waits for a tile: none is released. -/
theorem releaseHeld_modTile {w : Work} {k : Nat} {f : Tile → Tile} (h : (f (w.tile k)).heldWrites = []) :
    (w.modTile k f).releaseHeld k = w.modTile k f := by
  simp only [Work.releaseHeld, Work.modTile_self, Work.modTile_modTile, h, Work.each_nil]
  rw [Work.modTile, Work.modTile, ← h]

theorem endBad_eq (x : Tile) (h kind cause : Nat) (pc tval : W64) :
    x.endBad h kind cause pc tval = { x with
      fault := if x.fault.valid then x.fault
        else { valid := true, hart := h, kind := kind, cause := cause, pc := pc, tval := tval }
      cores := x.stopCores.cores, waiters := [], seqWaiting := [], mover0 := x.mover0.drop, mover1 := x.mover1.drop
      array := x.array.discard, endWait := false, ended := some { kind := kind, cause := cause, code := 0, pc := pc } } := by
  by_cases h : x.fault.valid = true <;> simp only [Tile.endBad, Tile.setFault, h, if_true, Bool.false_eq_true, if_false] <;> rfl

theorem stopCores_core (x : Tile) (g : Nat) :
    x.stopCores.core g = { x.core g with running := false, stalled := false, reserved := none } :=
  SMap.get_mapVal TileCore.zero x.cores (fun _ c => { c with running := false, stalled := false, reserved := none }) g rfl

theorem launch_of_busy {x : Tile} (hb : x.busy = true) : ∃ l, x.launch = some l := by
  rw [Tile.busy, Bool.and_eq_true] at hb
  exact Option.isSome_iff_exists.mp hb.1

section
variable {s : State} {k : Nat} (hs : WorksAlone s k) (hb : (tileOf s k).busy = true) (h kind cause : Nat) (pc tval : W64)
include hs hb

theorem endOne_alone : (Work.of s).endOne k h kind cause pc tval = (Work.of s).modTile k (fun x => x.endBad h kind cause pc tval) := by
  have hheld : (((Work.of s).tile k).endBad h kind cause pc tval).heldWrites = [] := by rw [endBad_eq]; exact heldWrites_alone hs
  rw [tileOf] at hb
  rw [Work.endOne, if_pos hb, dropTileWork_alone hs, releaseHeld_modTile hheld]

theorem endTile_alone : (Work.of s).endTile k h kind cause pc tval = (Work.of s).modTile k (fun x => x.endBad h kind cause pc tval) := by
  obtain ⟨l, hl⟩ := launch_of_busy hb
  rw [tileOf] at hl hb
  rw [Work.endTile, if_pos hb]
  simp [hl, groupOf_alone hs hl, endOne_alone hs hb]

/-- The time limit of a program that has not ended normally (R153). -/
theorem tileTimeLimit_alone (hwait : (tileOf s k).endWait = false) :
    (Work.of s).tileTimeLimit k = (Work.of s).modTile k (fun x => x.endBad 0 3 0 0 0) := by
  obtain ⟨l, hl⟩ := launch_of_busy hb
  rw [tileOf] at hl hwait
  simp [Work.tileTimeLimit, hl, groupOf_alone hs hl, hwait, endOne_alone hs hb]

/-- The time limit finds a program that waits for its normal end. -/
theorem tileTimeLimit_waits (hwait : (tileOf s k).endWait = true) : (Work.of s).tileTimeLimit k = Work.of s := by
  obtain ⟨l, hl⟩ := launch_of_busy hb
  rw [tileOf] at hl hwait
  simp [Work.tileTimeLimit, hl, groupOf_alone hs hl, hwait]

end

/-! ## A normal end (R133, R155, R165) -/

theorem tileEcall_ends {w : Work} {k : Nat} (hr : w.runs k 0 = true) (ha : (((w.tile k).core 0).reg 10).toNat < 0x8000_0000) :
    w.tileEcall k = w.modTile k (fun x => { (x.advance 0).modCore 0 (fun c => { c with running := false }) with
      endWait := true, exitCode := ((w.tile k).core 0).reg 10 |>.setWidth 32 }) := by
  rw [Work.tileEcall]
  simp only []
  rw [if_neg (by rw [hr]; decide), if_neg (Nat.not_le.mpr ha)]

/-- The wait of a normal end is over, and no vector core runs. -/
theorem tileEndWait_ends {s : State} {k : Nat} (hs : WorksAlone s k) (hwait : (tileOf s k).endWait = true)
    (hend : (tileOf s k).ended = none) (hquiet : (tileOf s k).quiet = true)
    (hcores : ∀ h ∈ [1, 2, 3, 4], ((tileOf s k).core h).running = false) :
    (Work.of s).tileEndWait k = (Work.of s).modTile k (fun x =>
      { x.stopCores with array := x.array.discard, ended := some { kind := 0, cause := 0, code := x.exitCode.toNat, pc := 0 } }) := by
  have hfind : [1, 2, 3, 4].find? (fun h => ((tileOf s k).core h).running) = none :=
    List.find?_eq_none.mpr fun h hh => by rw [hcores h hh]; decide
  rw [tileOf] at hwait hend hquiet hfind
  rw [Work.tileEndWait]
  simp only [hwait, hend, hquiet, hfind, Bool.not_true, Option.isSome_none, Bool.or_self, Bool.false_eq_true, if_false]
  rw [dropTileWork_alone hs, releaseHeld_modTile]
  exact heldWrites_alone hs

/-- Settles O10: each end by what it makes of a tile whose work lies within it; the parts of a tile after a non-normal end, read off
its update. -/
theorem tileProgramEnds : Obligations.TileProgramEnds := by
  unfold Obligations.TileProgramEnds
  refine ⟨⟨fun s k hr ha => gives_of_modTile _ exec_ecall (tileEcall_ends hr ha) rfl,
    fun s k hs hwait hend hquiet hcores => gives_of_modTile _ exec_tileEndWaitDone (tileEndWait_ends hs hwait hend hquiet hcores) rfl,
    fun s k h word hs hb hr => gives_of_modTile _ (exec_of_runs exec_tileIllegalInstruction hr) (endTile_alone hs hb _ _ _ _ _) rfl,
    fun s k hs hb => ⟨fun hwait => gives_of_modTile _ exec_tileTimeLimit (tileTimeLimit_alone hs hb hwait) rfl,
      fun hwait => becomes_of_lift exec_tileTimeLimit (tileTimeLimit_waits hs hb hwait)⟩,
    fun s k hs hb hst => ⟨fun hwait => ?drain, fun hwait => ?drainWaits⟩⟩, fun x h kind cause pc tval => ?left⟩
  case drain =>
    refine gives_of_modTile _ exec_tileDrainTimeout (if_pos ?_ |>.trans (endTile_alone hs hb _ _ _ _ _)) rfl
    rw [tileOf] at hst hwait; rw [hst, hwait]; rfl
  case drainWaits =>
    refine becomes_of_lift exec_tileDrainTimeout (if_neg ?_)
    rw [tileOf] at hwait; rw [hwait, Bool.not_true, Bool.and_false]; decide
  case left =>
    rw [endBad_eq]
    refine ⟨rfl, rfl, fun g => stopCores_core x g, fun m => ?_, rfl, rfl⟩
    match m with
    | 0 => exact ⟨rfl, rfl, rfl⟩
    | 1 => exact ⟨rfl, rfl, rfl⟩

end Sys2Proof
end

section
/-!
The matrix array's parameters, and the instructions that enter its queue (Obligations.ArrayIssue).
-/

namespace Sys2Proof

open Sys2Proof.Machine

/-! ## Chains (R180) -/

theorem chain?_modChain {f : Chain → Chain} (hf : ∀ c, (f c).id = c.id) (a : Array_) (id : Nat) :
    (a.modChain id f).chain? id = (a.chain? id).map f := by
  simp only [Array_.chain?, Array_.modChain]
  induction a.chains with
  | nil => rfl
  | cons c l ih =>
    by_cases hc : c.id = id
    · have hfc : (f c).id = id := (hf c).trans hc
      simp [hc, hfc]
    · simp [hc, ih]

/-- A chain whose bank needs no second load: its hmacc, if any, has not completed alone (R175). -/
theorem retype_of_chain {w : Work} {k id : Nat} {c : Chain} (hc : (w.tile k).array.chain? id = some c)
    (h : c.completed ≠ 1 ∨ ∀ j ∈ c.instrs, j.kind = .hmma) : w.retype k id = w := by
  simp only [Work.retype, hc]
  cases hi : c.instrs with
  | nil => rfl
  | cons i rest =>
    refine if_neg ?_
    rcases h with h | h
    · simp [h]
    · simp [h i (by rw [hi]; exact List.mem_cons_self)]

/-- A chain that changes by f and needs no second load of its bank. -/
theorem retype_modChain {w : Work} {k id : Nat} {g : Array_ → Array_} {f : Chain → Chain} (hf : ∀ c, (f c).id = c.id) {c : Chain}
    (hc : (g (w.tile k).array).chain? id = some c) (h : (f c).completed ≠ 1 ∨ ∀ j ∈ (f c).instrs, j.kind = .hmma) :
    (w.modArray k (fun a => (g a).modChain id f)).retype k id = w.modArray k (fun a => (g a).modChain id f) := by
  refine retype_of_chain (c := f c) ?_ h
  rw [Work.modArray, Work.modTile_self, chain?_modChain hf, hc, Option.map_some]

/-- A chain of a pound that does not sample starts without a sample (R530). -/
theorem sampleChain_of_noSampling {s : State} {k : Nat} (hs : NoSampling s k) (g : Array_ → Array_) (c : Chain) :
    ((Work.of s).modArray k g).sampleChain k c = (Work.of s).modArray k g := by
  have howner : ((Work.of s).modArray k g).tileOwner k = (Work.of s).tileOwner k := rfl
  have hsampling (p : Nat) : ((Work.of s).modArray k g).sampling p = (Work.of s).sampling p := rfl
  rw [Work.sampleChain, howner]
  cases ho : (Work.of s).tileOwner k with
  | none => rfl
  | some p =>
    cases (((Work.of s).modArray k g).tile k).launch with
    | none => rfl
    | some l => simp only [hsampling, hs p ho, Bool.not_false, if_true]

/-! ## The queue (R173, R177, R182) -/

/-- An instruction enters the queue of an array that has become g of what it was. -/
theorem enqueue_modArray {w : Work} {k rd : Nat} {i : MInstr} (hnum : i.num = (w.tile k).array.issued + 1) (g : Array_ → Array_) :
    (w.modArray k g).enqueue k rd i = w.modTile k (fun _ => Queued (w.tile k) (g (w.tile k).array) rd i) := by
  rw [Work.modArray, Work.enqueue, Work.modTile_modTile, Queued, Work.modTile, ← hnum]
  rfl

/-- What may leave the head of the queue of its own accord: a signal while fewer than eight wait, or a drain while none is pending. -/
theorem leaveOne_cases (a : Array_) :
    a.leaveOne = a ∨
    (∃ i q, a.queue = i :: q ∧ a.signals.length < 8 ∧ a.leaveOne = { a with queue := q, signals := a.signals ++ [i] }) ∨
    ∃ i q, a.queue = i :: q ∧ a.pending = none ∧ a.leaveOne = { a with queue := q, pending := some i } := by
  cases hq : a.queue with
  | nil => simp [Array_.leaveOne, hq]
  | cons i q =>
    simp only [Array_.leaveOne, hq]
    split
    · exact .inl rfl
    split
    next h =>
      rw [Bool.and_eq_true, decide_eq_true_eq, decide_eq_true_eq] at h
      exact .inr (.inl ⟨i, q, rfl, h.2, rfl⟩)
    split
    next h =>
      rw [Bool.and_eq_true, Option.isNone_iff_eq_none] at h
      exact .inr (.inr ⟨i, q, rfl, h.2, rfl⟩)
    · exact .inl rfl

/-- What every instruction that leaves the queue keeps, `settle` keeps. -/
theorem settle_induction {P : Array_ → Prop} {a : Array_} (h0 : P a) (hstep : ∀ b, P b → P b.leaveOne) : P a.settle := by
  rw [Array_.settle]
  generalize List.range 16 = l
  induction l generalizing a with
  | nil => exact h0
  | cons n l ih => exact ih (hstep a h0)

/-- From a to b no instruction has been lost, and what is not of the queue's head is as it was. -/
def Settled (a b : Array_) : Prop :=
  b.unfinished.Perm a.unfinished ∧ (a.signals.length ≤ 8 → b.signals.length ≤ 8) ∧ b.queue.length ≤ a.queue.length ∧
  b.words = a.words ∧ b.chains = a.chains ∧ b.issued = a.issued

theorem Settled.refl (a : Array_) : Settled a a := ⟨.refl _, id, le_rfl, rfl, rfl, rfl⟩

theorem Settled.trans {a b c : Array_} (h : Settled a b) (g : Settled b c) : Settled a c := by
  obtain ⟨hp, hs, hq, hw, hc, hi⟩ := h
  obtain ⟨gp, gs, gq, gw, gc, gi⟩ := g
  exact ⟨gp.trans hp, fun h => gs (hs h), gq.trans hq, gw.trans hw, gc.trans hc, gi.trans hi⟩

theorem settled_leaveOne (a : Array_) : Settled a a.leaveOne := by
  rcases leaveOne_cases a with h | ⟨i, q, hq, hlen, h⟩ | ⟨i, q, hq, hpend, h⟩
  · rw [h]; exact .refl a
  · rw [h]
    refine ⟨?_, fun _ => ?_, ?_, rfl, rfl, rfl⟩
    · rw [List.perm_iff_count]; intro j; simp [Array_.unfinished, hq, List.count_cons]; omega
    · simpa using hlen
    · simp [hq]
  · rw [h]
    refine ⟨?_, id, ?_, rfl, rfl, rfl⟩
    · rw [List.perm_iff_count]; intro j; simp [Array_.unfinished, hq, hpend, List.count_cons]; omega
    · simp [hq]

theorem settled_settle (a : Array_) : Settled a a.settle :=
  settle_induction (.refl a) (fun b hb => hb.trans (settled_leaveOne b))

/-! ## Issue (R134, R173 to R178, R180) -/

section
variable {w : Work} {k rd rs1 rs2 : Nat} {f : BitVec 7} (hr : w.runs k 0 = true)
include hr

theorem hmget_returns {index : Nat} {v : W64} (hv : (w.tile k).array.status index = some v) :
    w.hmget k index 0 rd = w.modTile k (fun x => (x.modCore 0 (fun c => c.setReg rd v)).advance 0) := by
  simp only [Work.hmget, hr, hv, Bool.not_true, Bool.false_eq_true, if_false, if_true]

section Room
variable (hroom : (w.tile k).array.queue.length < 16)
include hroom

omit hr in
theorem arrayFull_eq_false : w.arrayFull k = false := decide_eq_false (Nat.not_le.mpr hroom)

theorem hmma_issues {i : MInstr} (hi : w.capture k .hmma 2 f rs2 rs1 rd = i) (hok : (w.tile k).array.chainOk i = true) (hbad : i.hmmaBad = none) :
    w.hmma k f rs2 rs1 rd = w.joinChain k rd i := by
  simp only [Work.hmma, hi, hr, arrayFull_eq_false hroom, hok, hbad, Bool.not_true, Bool.false_eq_true, if_false, if_true]

theorem hmacc_issues {i : MInstr} (hi : w.capture k .hmacc 4 f rs2 rs1 rd = i) (hok : (w.tile k).array.chainOk i = true) (hf : f.toNat < 2)
    (hb : i.b.toNat % 64 = 0) (hpitch : 512 ≤ i.b.toNat) (ha : i.a.toNat % 64 = 0) (hin : beyond i.reads = none) :
    w.hmacc k f rs2 rs1 rd = w.joinChain k rd i := by
  simp [Work.hmacc, hi, hr, arrayFull_eq_false hroom, hok, hf, hb, hpitch, ha, hin]

theorem hmdrain_issues {i : MInstr} (hi : w.capture k .hmdrain 3 f rs2 rs1 rd = i) (hf : f.toNat < 2) (hb : bits i.b 15 3 = 0)
    (ha : i.a.toNat % 64 = 0) (hin : beyond i.reads = none) {id : Nat} (hopen : (w.tile k).array.openOf i.bk = some id) :
    w.hmdrain k f rs2 rs1 rd =
      ((w.modArray k (fun a => (a.setOpen i.bk none).modChain id (fun c =>
        { c with drain := some { i with chain := id }, ranges := c.ranges ++ (i.reads ++ w.columnRanges k i.a.toNat) }))).retype k id).enqueue
          k rd { i with chain := id } := by
  have hcheck : (decide (2 ≤ f.toNat) || decide (bits i.b 15 3 ≠ 0)) = false := by simp [hf, hb]
  simp only [Work.hmdrain, hi, hr, arrayFull_eq_false hroom, hcheck, hopen, ha, hin, ne_eq, not_true_eq_false, Bool.not_true,
    Bool.false_eq_true, if_false]
  rfl

theorem hmdrain_closes {i : MInstr} (hi : w.capture k .hmdrain 3 f rs2 rs1 rd = i) (hf : f.toNat < 2) (hb : bits i.b 15 3 = 0)
    (ha : i.a.toNat % 64 = 0) (hin : beyond i.reads = none) {id : Nat} (hopen : (w.tile k).array.openOf i.bk = some id) {c : Chain}
    (hc : ((w.tile k).array.setOpen i.bk none).chain? id = some c) (h : c.completed ≠ 1 ∨ ∀ j ∈ c.instrs, j.kind = .hmma) :
    w.hmdrain k f rs2 rs1 rd = w.modTile k (fun _ =>
      let i := { i with chain := id }
      Queued (w.tile k) (((w.tile k).array.setOpen i.bk none).modChain id (fun c =>
        { c with drain := some i, ranges := c.ranges ++ (i.reads ++ w.columnRanges k i.a.toNat) })) rd i) := by
  have hnum : i.num = (w.tile k).array.issued + 1 := by rw [← hi]; rfl
  rw [hmdrain_issues hr hroom hi hf hb ha hin hopen, retype_modChain (g := fun a => a.setOpen i.bk none)
      (f := fun c => { c with drain := some { i with chain := id }, ranges := c.ranges ++ (i.reads ++ w.columnRanges k i.a.toNat) })
      (fun _ => rfl) hc h,
    enqueue_modArray (by exact hnum)]
  rfl

theorem hmsig_issues {i : MInstr} (hi : w.capture k .hmsig 5 0 rs2 rs1 rd = i) (ha : i.a.toNat ≤ 63) (hb : i.b.toNat % 2 ^ 32 ≠ 0) :
    w.hmsig k 0 rs2 rs1 rd = w.enqueue k rd i := by
  have hcheck : (decide ((0 : BitVec 7) ≠ 0) || decide (63 < i.a.toNat) || decide (i.b.toNat % 2 ^ 32 = 0)) = false := by
    simpa [ha] using hb
  simp only [Work.hmsig, hi, hr, arrayFull_eq_false hroom, hcheck, Bool.not_true, Bool.false_eq_true, if_false]

end Room

/-- A matrix instruction that meets a full queue. -/
theorem array_stalls (hfull : 16 ≤ (w.tile k).array.queue.length) :
    w.hmma k f rs2 rs1 rd = w.arrayStall k { kind := .hmma, funct7 := f, rs2 := rs2, rs1 := rs1, rd := rd } ∧
    w.hmacc k f rs2 rs1 rd = w.arrayStall k { kind := .hmacc, funct7 := f, rs2 := rs2, rs1 := rs1, rd := rd } ∧
    w.hmdrain k f rs2 rs1 rd = w.arrayStall k { kind := .hmdrain, funct7 := f, rs2 := rs2, rs1 := rs1, rd := rd } ∧
    w.hmsig k f rs2 rs1 rd = w.arrayStall k { kind := .hmsig, funct7 := f, rs2 := rs2, rs1 := rs1, rd := rd } := by
  have hf : w.arrayFull k = true := decide_eq_true hfull
  simp only [Work.hmma, Work.hmacc, Work.hmdrain, Work.hmsig, hr, hf, Bool.not_true, Bool.false_eq_true, if_false, if_true, and_self]

end

section
variable {k rd : Nat} {i : MInstr}

/-- An hmma or hmacc that starts a chain. -/
theorem joinChain_starts {s : State} (hs : NoSampling s k) (hopen : (tileOf s k).array.openOf i.bk = none)
    (hnum : i.num = (tileOf s k).array.issued + 1) :
    (Work.of s).joinChain k rd i = (Work.of s).modTile k (fun _ =>
      let a := (tileOf s k).array
      let i := { i with chain := a.nextChain }
      let c : Chain := { id := a.nextChain, bank := i.bk, instrs := [i], drain := none, completed := 0, poisoned := false, ranges := i.reads }
      Queued (tileOf s k) { a.setOpen i.bk (some a.nextChain) with chains := a.chains ++ [c], nextChain := a.nextChain + 1 } rd i) := by
  rw [tileOf] at hopen hnum ⊢
  rw [Work.joinChain]
  simp only [hopen]
  rw [sampleChain_of_noSampling hs, enqueue_modArray (by exact hnum)]

/-- An hmma or hmacc that joins the open chain of its bank. -/
theorem joinChain_joins {w : Work} {id : Nat} {c : Chain} (hopen : (w.tile k).array.openOf i.bk = some id)
    (hc : (w.tile k).array.chain? id = some c) (hkind : i.kind = .hmma) (h : c.completed ≠ 1 ∨ ∀ j ∈ c.instrs, j.kind = .hmma)
    (hnum : i.num = (w.tile k).array.issued + 1) :
    w.joinChain k rd i = w.modTile k (fun _ =>
      let i := { i with chain := id }
      Queued (w.tile k) ((w.tile k).array.modChain id (fun c => { c with instrs := c.instrs ++ [i], ranges := c.ranges ++ i.reads })) rd i) := by
  have hjoined : ∀ j ∈ c.instrs ++ [{ i with chain := id }], j ∈ c.instrs ∨ j.kind = .hmma := by
    intro j hj
    rcases List.mem_append.mp hj with hj | hj
    · exact .inl hj
    · rw [List.mem_singleton.mp hj]; exact .inr hkind
  rw [Work.joinChain]
  simp only [hopen]
  rw [retype_modChain (g := fun a => a) (f := fun c => { c with instrs := c.instrs ++ [{ i with chain := id }], ranges := c.ranges ++ MInstr.reads { i with chain := id } })
    (fun _ => rfl) hc (h.imp_right fun h j hj => (hjoined j hj).elim (h j) (fun h => h)), enqueue_modArray (by exact hnum)]

end

/-- Settles O13: an instruction that passes its checks joins its chain; what that and the queue make of the array. -/
theorem arrayIssue : Obligations.ArrayIssue := by
  unfold Obligations.ArrayIssue
  refine ⟨⟨fun s k index rs1 hr hi => ?hmset, ?hmget⟩, ⟨?hmmaStarts, ?hmmaJoins, ?hmaccStarts, ?hmdrain,
    ?hmsig, fun s k f rs2 rs1 rd hr hroom => ⟨fun hok hbad => ?hmmaRuns, fun hok hf hb hpitch ha hin => ?hmaccRuns,
      fun hf hb ha hin id hopen => ?hmdrainRuns⟩, ?stalls⟩, settled_settle⟩
  case hmset =>
    refine gives_of_modTile _ (exec_of_runs exec_hmset hr) (if_neg ?_) rfl
    simpa using hi
  case hmget =>
    intro s k index rd v hr a hv
    have hstatus : ((Work.of s).tile k).array.status index.toNat = some v := by
      rcases hv with ⟨hi, rfl⟩ | ⟨rfl, rfl⟩ | ⟨rfl, rfl⟩ | ⟨rfl, rfl⟩ | ⟨rfl, rfl⟩ | ⟨rfl, rfl⟩
      · exact if_pos hi
      all_goals rfl
    exact gives_of_modTile _ exec_hmget (hmget_returns hr hstatus) rfl
  case hmmaStarts =>
    intro s k f rs2 rs1 rd hr hroom hs i hok hbad hopen
    exact gives_of_modTile _ exec_hmma ((hmma_issues hr hroom rfl hok hbad).trans (joinChain_starts hs hopen rfl)) rfl
  case hmmaJoins =>
    intro s k f rs2 rs1 rd id c hr hroom i hok hbad hopen hc h
    exact gives_of_modTile _ exec_hmma ((hmma_issues hr hroom rfl hok hbad).trans (joinChain_joins hopen hc rfl h rfl)) rfl
  case hmaccStarts =>
    intro s k f rs2 rs1 rd hr hroom hs hf i hb hpitch ha hin hopen
    have hok : (tileOf s k).array.chainOk i = true := by simp only [Array_.chainOk, hopen]; rfl
    exact gives_of_modTile _ exec_hmacc ((hmacc_issues hr hroom rfl hok hf hb hpitch ha hin).trans (joinChain_starts hs hopen rfl)) rfl
  case hmdrain =>
    intro s k f rs2 rs1 rd id c hr hroom hf i hb ha hin hopen hc h
    exact gives_of_modTile _ exec_hmdrain (hmdrain_closes hr hroom rfl hf hb ha hin hopen hc h) rfl
  case hmsig =>
    intro s k rs2 rs1 rd hr hroom i ha hb
    exact gives_of_modTile _ exec_hmsig (hmsig_issues hr hroom rfl ha hb) rfl
  case hmmaRuns => exact runs_of_lift exec_hmma (hmma_issues hr hroom rfl hok hbad)
  case hmaccRuns => exact runs_of_lift exec_hmacc (hmacc_issues hr hroom rfl hok hf hb hpitch ha hin)
  case hmdrainRuns => exact runs_of_lift exec_hmdrain (hmdrain_issues hr hroom rfl hf hb ha hin hopen)
  case stalls =>
    intro s k f rs2 rs1 rd hr hfull stalls
    obtain ⟨hmma, hmacc, hmdrain, hmsig⟩ := array_stalls (w := Work.of s) (rd := rd.toNat) (rs1 := rs1.toNat) (rs2 := rs2.toNat) (f := f) hr hfull
    exact ⟨gives_of_modTile _ exec_hmma hmma rfl, gives_of_modTile _ exec_hmacc hmacc rfl, gives_of_modTile _ exec_hmdrain hmdrain rfl,
      gives_of_modTile _ exec_hmsig hmsig rfl⟩

end Sys2Proof
end

section
/-!
The movers (Obligations.Movers) do not copy at once what the statement says they do: by R334 a write waits for an earlier write of its
writer to one of its lines that waits itself, and no premise of the copy's clause excludes one (`StoreFree` looks at the bytes that
chains hold, not at the writes that wait on them).
-/

namespace Sys2Proof

open Sys2Proof.Machine

/-- A descriptor that copies 64 bytes within the tile store, from 0 to 4096. -/
def lineCopy : List W64 := [0, 4096, 63, 0, 0, 0xC, 0, 0, 0]

def lineCopyPiece : Piece :=
  { op := .copy, src := 0, srcLocal := true, dst := 4096, dstLocal := true, len := 64, publish := false }

/-- A tile whose mover 0 is to start that copy: a write of the mover to the other half of the line at 4096 waits there, on bytes that
an open chain holds. -/
def heldLineTile : Tile :=
  { Tile.reset 0 with
    st := .running
    mover0 := { Mover.zero with queue := [lineCopy] }
    array := { Array_.zero with chains :=
      [{ id := 0, bank := 0, instrs := [], drain := none, completed := 0, poisoned := false, ranges := [(4160, 64)] }] }
    heldWrites := [(4160, List.replicate 64 5, some (.mover 0 0))] }

/-- That tile, with 7 in the first byte of its store and 0 in every other. -/
def heldLineState : State :=
  { State.reset with
    chip := { State.reset.chip with tiles := [(0, heldLineTile)] }
    mem := { cells := [(tileAddr 0 0, 7)], poison := [] } }

theorem heldLine_queue : ((tileOf heldLineState 0).mover 0).queue = [lineCopy] ∧ ((tileOf heldLineState 0).mover 0).run = none := ⟨rfl, rfl⟩

theorem lineCopy_ok : moverFieldsOk lineCopy = true ∧ (moverDesc lineCopy).ok = true ∧ (moverDesc lineCopy).pieces = [lineCopyPiece] := by
  decide +kernel

theorem heldLine_free : StoreFree heldLineState 0 0 64 ∧ StoreFree heldLineState 0 4096 64 ∧ NotHeld heldLineState 0 0 64 ∧
    NotHeld heldLineState 0 4096 64 ∧ heldLineState.mem.firstPoison (tileAddr 0 0) 64 = none := by
  unfold StoreFree NotHeld; decide +kernel

/-- The copy joins the writes that wait, and none reaches memory. -/
theorem heldLine_start : ((Work.of heldLineState).moverStart 0 0).wr = [] ∧
    (((Work.of heldLineState).moverStart 0 0).tile 0).heldWrites.length = 2 := by
  decide +kernel

/-- Refutes O11: the start of a copy of one piece stores nothing while an earlier write of the mover to the line of its destination
waits. -/
theorem not_movers : ¬ Obligations.Movers := by
  unfold Obligations.Movers
  rintro ⟨-, hcopy, -⟩
  obtain ⟨hqueue, hrun⟩ := heldLine_queue
  obtain ⟨hfields, hok, hpieces⟩ := lineCopy_ok
  obtain ⟨hsrc, hdst, hsrcHeld, hdstHeld, hpoison⟩ := heldLine_free
  obtain ⟨t, ht, ⟨hbytes, -⟩, -⟩ := hcopy heldLineState 0 0 lineCopy [] lineCopyPiece hqueue hrun hfields hok hpieces rfl rfl rfl
    hsrc hdst hsrcHeld hdstHeld hpoison
  have hmem : t.mem = heldLineState.mem := by
    have hnext : exec (.moverDescriptorStart 0 0) heldLineState =
        lift (fun w => w.moverStart 0 0) heldLineState := exec_moverDescriptorStart
    have hstate := Host.Outcome.next.inj (ht.symm.trans hnext)
    rw [hstate]
    exact congrArg heldLineState.mem.perform heldLine_start.1
  have hcopied := hbytes (tileAddr 0 4096)
  rw [hmem] at hcopied
  exact absurd hcopied (by decide +kernel)

end Sys2Proof
end

section
/-!
The end of a launch's loading, and its completion (Obligations.LaunchLoads).
-/

namespace Sys2Proof

open Sys2Proof.Machine

/-- A command of a queue that has started and not completed acts by f. -/
theorem finish_of_going {s : State} {q op : Nat} {n : W32} {c : Cmd} (hg : Going s q n op c) (f : Work → Cmd → Work) :
    (Work.of s).finish q n op f = f (Work.of s) c := by
  have h : (Work.of s).started? q n op = some c := hg
  simp only [Work.finish, h]

/-! ## The end of loading (R153, R154) -/

section
variable {w : Work} {c : Cmd}

/-- A transfer that is complete has not failed. -/
theorem loadFailed_of_xferDone {k : Nat} (h : w.xferDone (.mover k 0) = true) : (w.loadOf k).bind (fun x => x.failed) = none := by
  have hx : w.xfer? (.mover k 0) = (w.tile k).mover0.run.map (fun r => r.xf) := rfl
  cases hrun : (w.tile k).mover0.run with
  | none => simp only [Work.loadOf, hrun, Option.bind_none]
  | some r =>
    rw [hrun, Option.map_some] at hx
    simp only [Work.xferDone, hx, Bool.and_eq_true, Option.isNone_iff_eq_none] at h
    obtain ⟨⟨-, hfailed⟩, -⟩ := h
    simp only [Work.loadOf, hrun]
    split
    · exact hfailed
    · rfl

section
variable (hne : c.tiles ≠ [])
include hne

theorem isEmpty_tiles : c.tiles.isEmpty = false := by simpa using hne

theorem loadingEnd_starts {q : Nat}
    (h : c.tiles.all (fun k => (w.loadOf k).isSome && w.xferDone (.mover k 0)) = true) :
    w.loadingEnd q c = w.each c.tiles (fun w k => w.modTile k (fun x => x.startCore k)) := by
  have hload : c.tiles.all (fun k => (w.loadOf k).isSome) = true :=
    List.all_eq_true.mpr fun k hk => (Bool.and_eq_true_iff.mp (List.all_eq_true.mp h k hk)).1
  have hdone : c.tiles.all (fun k => w.xferDone (.mover k 0)) = true :=
    List.all_eq_true.mpr fun k hk => (Bool.and_eq_true_iff.mp (List.all_eq_true.mp h k hk)).2
  have hfailed : c.tiles.findSome? (fun k => (w.loadOf k).bind (fun x => x.failed)) = none :=
    List.findSome?_eq_none_iff.mpr fun k hk => loadFailed_of_xferDone (List.all_eq_true.mp hdone k hk)
  simp only [Work.loadingEnd, isEmpty_tiles hne, hload, hdone, hfailed, Bool.not_true, Bool.or_self, Bool.false_eq_true, if_false]

theorem loadingEnd_fails {q st a : Nat} (h : c.tiles.all (fun k => (w.loadOf k).isSome) = true)
    (hfailed : c.tiles.findSome? (fun k => (w.loadOf k).bind (fun x => x.failed)) = some (st, a)) :
    w.loadingEnd q c =
      (((w.each c.tiles (fun w k =>
        (w.leaveWrites (.mover k 0) (.tile k)).modTile k (fun x => { x.leave with mover0 := Mover.zero }))).each c.tiles
        (fun w k => w.settleQuarantine k)).complete q c st 0 (BitVec.ofNat 64 a)) := by
  simp only [Work.loadingEnd, isEmpty_tiles hne, h, hfailed, Bool.not_true, Bool.or_self, Bool.false_eq_true, if_false]

/-! ## The completion of a launch (R156, R158, R341) -/

theorem launchComplete_ends {q : Nat} (h : c.tiles.all (fun k => (w.tile k).ended.isSome) = true) :
    w.launchComplete q c =
      let r := w.launchResult c
      let left := (w.each c.tiles (fun w k => w.modTile k Tile.leave)).each c.tiles (fun w k => w.settleQuarantine k)
      (if c.scope = 3 then left.dropLines c.xf.lines else left).setRails.complete q c r.1 0 r.2.1 r.2.2 := by
  simp only [Work.launchComplete, isEmpty_tiles hne, h, Bool.not_true, Bool.or_self, Bool.false_eq_true, if_false]

end

theorem launchComplete_waits {q : Nat} (h : c.tiles.any (fun k => (w.tile k).ended.isNone) = true) : w.launchComplete q c = w := by
  have hall : c.tiles.all (fun k => (w.tile k).ended.isSome) = false := by
    obtain ⟨k, hk, hnone⟩ := List.any_eq_true.mp h
    refine List.all_eq_false.mpr ⟨k, hk, ?_⟩
    rw [Option.isNone_iff_eq_none.mp hnone]; decide
  simp only [Work.launchComplete, hall, Bool.not_false, Bool.or_true, if_true]

/-! ## The result of a launch (R156, R158, R297, R298) -/

/-- A tile whose end is not a launch's result: it ended well, or with its group (R155). -/
def TileEnd.passed (e : TileEnd) : Prop := e.kind = 5 ∨ e.kind = 0 ∧ e.code = 0

theorem not_passed_iff {e : TileEnd} : ((e.kind ≠ 0 || e.code ≠ 0) && e.kind ≠ 5) = true ↔ ¬ TileEnd.passed e := by
  simp only [TileEnd.passed, Bool.and_eq_true, Bool.or_eq_true, decide_eq_true_eq]
  tauto

section Result
variable {e : Nat → TileEnd} (he : ∀ k ∈ c.tiles, (w.tile k).ended = some (e k))
include he

theorem ends_eq : c.tiles.filterMap (fun t => (w.tile t).ended.map (fun e => (t, e))) = c.tiles.map (fun k => (k, e k)) := by
  rw [← List.filterMap_eq_map]
  exact List.filterMap_congr fun k hk => by rw [he k hk]; rfl

theorem launchResult_timeout (h : ∃ k ∈ c.tiles, (e k).kind = 7) : w.launchResult c = (0x0F, 0, 0) := by
  have hany : (c.tiles.map (fun k => (k, e k))).any (fun e => e.2.kind = 7) = true := by simpa using h
  rw [Work.launchResult]
  simp only [ends_eq he, hany, if_true]

omit he in
theorem no_timeout (h7 : ∀ k ∈ c.tiles, (e k).kind ≠ 7) : (c.tiles.map (fun k => (k, e k))).any (fun e => e.2.kind = 7) = false := by
  simpa using h7

theorem launchResult_good (h : ∀ k ∈ c.tiles, (e k).kind = 0 ∧ (e k).code = 0) :
    w.launchResult c = if c.check = 0 then (0, 0, 0) else (c.check, BitVec.ofNat 64 c.checkTile, 0) := by
  have h7 : ∀ k ∈ c.tiles, (e k).kind ≠ 7 := fun k hk => by rw [(h k hk).1]; decide
  have hfind : (c.tiles.map (fun k => (k, e k))).find? (fun e => (e.2.kind ≠ 0 || e.2.code ≠ 0) && e.2.kind ≠ 5) = none := by
    refine List.find?_eq_none.mpr fun p hp => ?_
    obtain ⟨k, hk, rfl⟩ := List.mem_map.mp hp
    exact fun hbad => not_passed_iff.mp hbad (.inr (h k hk))
  rw [Work.launchResult]
  simp only [ends_eq he, no_timeout h7, hfind, Bool.false_eq_true, if_false]

theorem launchResult_first (h7 : ∀ k ∈ c.tiles, (e k).kind ≠ 7) {l r : List Nat} {k : Nat} (hl : c.tiles = l ++ k :: r) (hk : ¬ TileEnd.passed (e k))
    (h : ∀ j ∈ l, TileEnd.passed (e j)) :
    w.launchResult c = (0x0C, BitVec.ofNat 64 (k + (e k).kind * 2 ^ 8 + (e k).cause % 65536 * 2 ^ 16 + (e k).code * 2 ^ 32),
      (w.tile k).fault.pc) := by
  have hfind : (c.tiles.map (fun k => (k, e k))).find? (fun e => (e.2.kind ≠ 0 || e.2.code ≠ 0) && e.2.kind ≠ 5) = some (k, e k) := by
    refine List.find?_eq_some_iff_append.mpr ⟨not_passed_iff.mpr hk, l.map (fun k => (k, e k)), r.map (fun k => (k, e k)), ?_, fun p hp => ?_⟩
    · rw [hl, List.map_append, List.map_cons]
    · obtain ⟨j, hj, rfl⟩ := List.mem_map.mp hp
      rw [Bool.not_eq_true', Bool.eq_false_iff]
      exact fun hbad => not_passed_iff.mp hbad (h j hj)
  rw [Work.launchResult]
  simp only [ends_eq he, no_timeout h7, hfind, Bool.false_eq_true, if_false]

end Result
end

/-- The control core of a tile starts (R154). -/
theorem startCore_of_launch {x : Tile} {l : TileLaunch} (hl : x.launch = some l) (k : Nat) :
    x.startCore k = { x.setCore 0 { ((((TileCore.zero.setReg 10 (BitVec.ofNat 64 l.rank)).setReg 11 (BitVec.ofNat 64 l.size)).setReg 12
        (BitVec.ofNat 64 l.argOffset)).setReg 13 (BitVec.ofNat 64 k)) with pc := BitVec.ofNat 64 l.entry, running := true } with
      st := if x.st = .loading then .running else x.st
      mover0 := Mover.zero } := by
  simp only [Tile.startCore, hl]

theorem setCore_self (x : Tile) (h : Nat) (c : TileCore) : (x.setCore h c).core h = c := SMap.get_set_self _ _ _ _

theorem setCore_ne {g h : Nat} (n : g ≠ h) (x : Tile) (c : TileCore) : (x.setCore h c).core g = x.core g := SMap.get_set_ne n _ _ _

/-- Settles O19: each command by the equation of its outcome; the result of a launch by what its tiles' ends are. -/
theorem launchLoads : Obligations.LaunchLoads := by
  unfold Obligations.LaunchLoads
  refine ⟨⟨fun s q n c hg hne h => ?starts, fun x k l hl => ?core, fun s q n c st a hg hne h hfailed => ?fails⟩,
    fun s q n c hg hne h => ?completes, fun s q n c hg h => ?waits, fun w c e he => ⟨?timeout, ?good, ?check, ?first⟩⟩
  case starts => exact runs_of_lift exec_loadingEnd ((finish_of_going hg _).trans (loadingEnd_starts hne h))
  case core =>
    rw [startCore_of_launch hl]
    exact ⟨setCore_self _ _ _, rfl, rfl, fun h hh => setCore_ne hh _ _⟩
  case fails => exact runs_of_lift exec_loadingEnd ((finish_of_going hg _).trans (loadingEnd_fails hne h hfailed))
  case completes => exact runs_of_lift exec_launchComplete ((finish_of_going hg _).trans (launchComplete_ends hne h))
  case waits => exact becomes_of_lift exec_launchComplete ((finish_of_going hg _).trans (launchComplete_waits h))
  case timeout => exact fun h => by rw [launchResult_timeout he h]
  case good => exact fun h hc => by rw [launchResult_good he h, if_pos hc]
  case check => exact fun h hc => by rw [launchResult_good he h, if_neg hc]
  case first =>
    intro k l r hl h7 h5 hbad h
    refine launchResult_first he h7 hl ?_ h
    rintro (hk | ⟨hkind, hcode⟩)
    · exact h5 hk
    · exact hbad.elim (· hkind) (· hcode)

end Sys2Proof
end

section
/-!
A launch that takes its tiles (Obligations.LaunchTiles). It writes the tiles it has taken to the commands of its queue that have its
number. The statement gives each of them the tiles that it names itself, where the model gives them those of the launch that starts:
a queue with two commands of one number tells these apart.
-/

namespace Sys2Proof

open Sys2Proof.Machine

/-- A LAUNCH without image and arguments, fetched and waiting for its group, that names the tiles of a mask. -/
def maskLaunch (mask : Byte) : Cmd :=
  { seq := 0, bytes := [1, 0x20] ++ List.replicate 10 0 ++ [mask] ++ List.replicate 43 0 ++ [1] ++ List.replicate 7 0
    phase := .fetched, startPs := 0, tiles := [], check := 0, checkTile := 0, xf := Xfer.none, count := 1, seen := 0 }

/-- Queue 0 holds two launches of one number, of tile 0 and of tile 1; tile 0 is idle. -/
def sameNumberState : State :=
  { State.reset with
    chip := { State.reset.chip with
      tiles := [(0, { Tile.reset 0 with st := .idle })]
      sqs := [(0, { Sq.zero with cmds := [maskLaunch 1, maskLaunch 2] })] } }

theorem sameNumber_turn : Turn sameNumberState (0 : SqId).val 1 (maskLaunch 1) := by unfold Turn; decide +kernel

theorem sameNumber_canTake : (Work.of sameNumberState).canTake (maskLaunch 1) = true := by decide +kernel

/-- The tiles that the commands of queue 0 have taken. -/
def takenTiles (w : Work) : List (List Nat) := (w.sq 0).cmds.map (fun c => c.tiles)

/-- Both commands of the number receive the tiles of the launch. -/
theorem sameNumber_start : takenTiles ((Work.of sameNumberState).start 0 1 Cmd.launchOk (fun w c => w.launchStart 0 c)) =
    [[0], [0]] := by
  decide +kernel

/-- Refutes O18: in a queue with two launches of one number the start of the first writes its tiles to the second, for which the
statement asks for the tiles that the second names. -/
theorem not_launchTiles : ¬ Obligations.LaunchTiles := by
  unfold Obligations.LaunchTiles
  rintro ⟨-, -, htakes⟩
  obtain ⟨-, hruns⟩ := htakes sameNumberState 0 (maskLaunch 1) sameNumber_turn rfl sameNumber_canTake
  have hnext : exec (.launchStart 0) sameNumberState =
      lift (fun w => w.start 0 1 Cmd.launchOk (fun w c => w.launchStart 0 c)) sameNumberState := exec_launchStart
  have hchip := congrArg (fun t => takenTiles (Work.of t)) (Host.Outcome.next.inj (hruns.symm.trans hnext))
  exact absurd (hchip.trans sameNumber_start) (by decide +kernel)

end Sys2Proof
end

section
/-!
Execution in the matrix array (Obligations.ArrayExecution): what its fences, feeds, completions and signals make of it.
-/

namespace Sys2Proof

open Sys2Proof.Machine

/-! ## An instruction that waits for an entry of the queue (R134) -/

theorem arrayResume_none {w : Work} {k : Nat} (h : (w.tile k).array.waiting = none) : w.arrayResume k = w := by
  rw [Work.arrayResume, h]

/-- What leaves the queue of its own accord is not what waits to enter it. -/
theorem settle_waiting (a : Array_) : a.settle.waiting = a.waiting :=
  settle_induction (P := fun b => b.waiting = a.waiting) rfl fun b hb => by
    rcases leaveOne_cases b with h | ⟨i, q, -, -, h⟩ | ⟨i, q, -, -, h⟩ <;> rw [h] <;> exact hb

/-! ## hmfence (R177) -/

section
variable {w : Work} {k : Nat}

theorem hmfence_returns (hr : w.runs k 0 = true) (h : (w.tile k).array.unfinished = []) :
    w.hmfence k 0 0 0 0 = w.modTile k (fun x => x.advance 0) := by
  simp [Work.hmfence, hr, h]

theorem hmfence_stalls (hr : w.runs k 0 = true) (h : (w.tile k).array.unfinished ≠ []) :
    w.hmfence k 0 0 0 0 = w.modTile k (fun x =>
      ({ x with array.fencing := true }).modCore 0 (fun c => { c with stalled := true })) := by
  simp [Work.hmfence, hr, h]

/-! ## Feeding (R182, R186) -/

/-- The array after instruction i has gone to the feed unit. -/
def fedArray (i : MInstr) (a : Array_) : Array_ :=
  ({ a with
    restart := a.restart.drop 1, queue := if a.restart.isEmpty then a.queue.drop 1 else a.queue
    flying := a.flying ++ a.feed.toList, feed := some i }).settle

/-- The queue feeds where no chain runs again. -/
theorem fedArray_of_queue {a : Array_} {i : MInstr} {q : List MInstr} (hrestart : a.restart = []) (hqueue : a.queue = i :: q) :
    fedArray i a = ({ a with queue := q, flying := a.flying ++ a.feed.toList, feed := some i }).settle := by
  simp only [fedArray, hrestart, hqueue, List.isEmpty_nil, List.drop_nil, List.drop_one, List.tail_cons, if_true]

section Feed
variable {i : MInstr} {q : List MInstr} (hnext : (w.tile k).array.restart ++ (w.tile k).array.queue = i :: q)
  (hreplay : (w.tile k).array.replay = none) (hdrain : w.bankDrain k i ≠ 1)
include hnext hreplay hdrain

theorem feedStart_feeds : w.feedStart k i.kind =
    (match (w.modArray k (fedArray i)).firstPoisonIn k i.reads with
      | some off => (w.modArray k (fedArray i)).poisonChain k i.chain off
      | none => w.modArray k (fedArray i)).arrayResume k := by
  rw [Work.feedStart]
  simp only [hnext]
  simp only [hreplay, hdrain, ne_eq, not_true_eq_false, decide_false, Option.isSome_none, Bool.or_self, Bool.false_eq_true, if_false]
  rfl

/-- Nothing that it reads is poisoned, and no instruction waits for its entry. -/
theorem feedStart_clean (hpoison : w.firstPoisonIn k i.reads = none) (hwait : (w.tile k).array.waiting = none) :
    w.feedStart k i.kind = w.modArray k (fedArray i) := by
  have hfed : (w.modArray k (fedArray i)).firstPoisonIn k i.reads = none := hpoison
  rw [feedStart_feeds hnext hreplay hdrain, hfed]
  refine arrayResume_none ?_
  rw [Work.modArray, Work.modTile_self, fedArray, settle_waiting]
  exact hwait

end Feed

/-! ## Completion (R172, R175, R183) -/

/-- What the results of instruction i make of the array (R175, R187). -/
def resultsOf (w : Work) (k : Nat) (isInt : Bool) (i : MInstr) (a : Array_) : Array_ :=
  if i.kind = .hmma then a.applyHmma i isInt (w.tileNum k) else a.applyHmacc i isInt (w.tileNum k)

theorem resultsOf_hmma {i : MInstr} (h : i.kind = .hmma) (isInt : Bool) (a : Array_) :
    resultsOf w k isInt i a = a.applyHmma i isInt (w.tileNum k) := if_pos h

theorem resultsOf_hmacc {i : MInstr} (h : i.kind = .hmacc) (isInt : Bool) (a : Array_) :
    resultsOf w k isInt i a = a.applyHmacc i isInt (w.tileNum k) := if_neg (by rw [h]; decide)

/-- The oldest instruction of an array that was a has completed with results b, and its feed has lost some cycles. -/
def completedArray (a : Array_) (i : MInstr) (b : Array_) (lost : Nat) : Array_ :=
  { b.modChain i.chain (fun c => { c with completed := c.completed + 1 }) with
    feed := if a.flying.isEmpty then none else a.feed
    flying := a.flying.drop 1, stall := a.stall + lost, done := a.done + b2n (!i.counted) }

/-- The cycles that the feed of i has lost: a free value where it may have lost any (log entry 41). -/
def lostCycles (w : Work) (k : Nat) (i : MInstr) : Nat :=
  if i.kind = .hmma && !w.feedsClean k i then Config.freeNat w.chip.free else 0

theorem lostCycles_of_clean {i : MInstr} (h : w.feedsClean k i = true) : lostCycles w k i = 0 := by
  rw [lostCycles, h, Bool.not_true, Bool.and_false, if_neg Bool.false_ne_true]

theorem lostCycles_hmacc {i : MInstr} (h : i.kind = .hmacc) : lostCycles w k i = 0 := by
  rw [lostCycles, h]; rfl

theorem feedComplete_completes {i : MInstr} {q : List MInstr} {c : Chain}
    (hnext : (w.tile k).array.flying ++ (w.tile k).array.feed.toList = i :: q) (hreplay : (w.tile k).array.replay = none)
    (hdrain : w.bankDrain k i = 0) (hc : (w.tile k).array.chain? i.chain = some c) :
    w.feedComplete k i.kind = w.take.2.modArray k (fun a =>
      completedArray a i (resultsOf w k (w.chainInt k c) i a) (lostCycles w k i)) := by
  rw [Work.feedComplete]
  simp only [hnext]
  simp only [hreplay, hdrain, hc, ne_eq, not_true_eq_false, decide_false, Option.isSome_none, Bool.or_self, Bool.false_eq_true, if_false]
  rfl

/-! ## Signals (R149, R177) -/

theorem semPlus_array (x : Tile) (m n : Nat) : (semPlus x m n).array = x.array := by
  rw [semPlus]; split <;> rfl

theorem semAdd_eq (m n : Nat) : w.semAdd k m n = w.modTile k (fun x => semPlus x m n) := rfl

/-- The array after the oldest signal has left the list. -/
def signalledArray (rest : List MInstr) (a : Array_) : Array_ := ({ a with signals := rest, done := a.done + 1 }).settle

section Signal
variable {i : MInstr} {rest : List MInstr} (hsig : (w.tile k).array.signals = i :: rest)
  (hdone : (w.tile k).array.doneBefore i.num = true)
include hsig hdone

theorem hmsigSignal_adds : w.hmsigSignal k =
    ((w.modArray k (signalledArray rest)).semAdd k i.a.toNat (i.b.toNat % 2 ^ 32)).arrayResume k := by
  simp only [Work.hmsigSignal, hsig, hdone, if_true]
  rfl

/-- No instruction waits for an entry of the queue. -/
theorem hmsigSignal_alone (hwait : (w.tile k).array.waiting = none) : w.hmsigSignal k =
    w.modTile k (fun x => semPlus { x with array := signalledArray rest x.array } i.a.toNat (i.b.toNat % 2 ^ 32)) := by
  have hadd : (w.modArray k (signalledArray rest)).semAdd k i.a.toNat (i.b.toNat % 2 ^ 32) =
      w.modTile k (fun x => semPlus { x with array := signalledArray rest x.array } i.a.toNat (i.b.toNat % 2 ^ 32)) := by
    rw [semAdd_eq, Work.modArray, Work.modTile_modTile]
  rw [hmsigSignal_adds hsig hdone, hadd]
  refine arrayResume_none ?_
  rw [Work.modTile_self, semPlus_array, signalledArray, settle_waiting]
  exact hwait

end Signal
end

/-- A command that takes a free value and changes one tile. -/
theorem gives_of_take_modTile {c : Instr} {s : State} {F : Work → Work} {k : Nat} {f : Tile → Tile} {P : State → Prop}
    (hexec : exec c s = lift F s) (hF : F (Work.of s) = (Work.of s).take.2.modTile k f)
    (hP : ∀ t, SameMem s t ∧ t.chip = { s.chip with tiles := t.chip.tiles, free := s.chip.free + 1 } ∧
      (∀ u, u ≠ k → tileOf t u = tileOf s u) → tileOf t k = f (tileOf s k) → P t) : Gives c s P := by
  refine gives_of_chip hexec (by rw [hF]; rfl) ?_
  rw [hF]
  exact hP _ ⟨⟨rfl, rfl, rfl⟩, rfl, fun u hu => Work.modTile_ne hu (Work.of s).take.2 f⟩ (Work.modTile_self (Work.of s).take.2 k f)

/-- Settles O14: each command by what it makes of the array; the free value of a completion is 0 where the feed is clean. -/
theorem arrayExecution : Obligations.ArrayExecution := by
  unfold Obligations.ArrayExecution
  refine ⟨fun s k hr => ⟨fun h => ?returns, fun h => ?stalls⟩, fun s k hf h => ?fenceReturn, ?feedsAlone, ?feeds, ?completes, ?signal⟩
  case returns => exact gives_of_modTile _ exec_hmfence (hmfence_returns hr h) rfl
  case stalls => exact gives_of_modTile _ exec_hmfence (hmfence_stalls hr h) rfl
  case fenceReturn =>
    refine gives_of_modTile _ exec_hmfenceReturn (if_pos ?_) rfl
    rw [tileOf] at hf h; rw [hf, h]; rfl
  case feedsAlone =>
    intro s k i q hrestart hqueue hreplay hdrain hpoison hwait fed
    have hnext : ((Work.of s).tile k).array.restart ++ ((Work.of s).tile k).array.queue = i :: q := by
      rw [tileOf] at hrestart hqueue; rw [hrestart, hqueue, List.nil_append]
    have hstart := feedStart_clean hnext hreplay hdrain hpoison hwait
    have hfed := congrArg (fun a => { tileOf s k with array := a }) (fedArray_of_queue hrestart hqueue)
    exact ⟨fun hk => gives_of_modTile _ exec_hmmaStart (hk ▸ hstart) hfed, fun hk => gives_of_modTile _ exec_hmaccStart (hk ▸ hstart) hfed⟩
  case feeds =>
    intro s k i q hnext hreplay hdrain fed next
    have hstart : (Work.of s).feedStart k i.kind = next := feedStart_feeds hnext hreplay hdrain
    exact ⟨fun hk => runs_of_lift exec_hmmaStart (hk ▸ hstart), fun hk => runs_of_lift exec_hmaccStart (hk ▸ hstart)⟩
  case completes =>
    intro s k i q c hnext hreplay hdrain hc isInt after rest
    have hcomplete := feedComplete_completes hnext hreplay hdrain hc
    refine ⟨fun hk => gives_of_take_modTile exec_hmmaComplete (hk ▸ hcomplete) fun t hrest htile =>
      ⟨hrest, lostCycles (Work.of s) k i, lostCycles_of_clean, ?_⟩,
      fun hk => gives_of_take_modTile exec_hmaccComplete (hk ▸ hcomplete) fun t hrest htile => ⟨hrest, ?_⟩⟩
    · rw [htile]; simp only [resultsOf_hmma hk]; rfl
    · rw [htile]; simp only [resultsOf_hmacc hk, lostCycles_hmacc hk]; rfl
  case signal =>
    intro s k i rest hsig hdone
    exact ⟨fun hwait => gives_of_modTile _ exec_hmsigSignal (hmsigSignal_alone hsig hdone hwait) rfl,
      runs_of_lift exec_hmsigSignal (hmsigSignal_adds hsig hdone)⟩

end Sys2Proof
end

section
/-!
The output stage (Obligations.OutputStage). A failed attempt of a replay waits behind the attempts that the module lists once it has
taken the recomputed bank into its tile. The statement counts them before that. A map of tiles that lists one tile twice loses the
second entry as the tile is written, and tells the two counts apart; the statement is about every state, also one whose maps are not
in their canonical form.
-/

namespace Sys2Proof

open Sys2Proof.Machine

/-- A drain whose descriptor stands at offset 64 of the tile store. -/
def checkedDrain : MInstr :=
  { kind := .hmdrain, funct7 := 0, a := 64, b := 0, params := [], bits := 0, pc := 0, chain := 0, num := 1, counted := false }

/-- Its chain, which has nothing to load. -/
def drainedChain : Chain :=
  { id := 0, bank := 0, instrs := [], drain := some checkedDrain, completed := 0, poisoned := false, ranges := [] }

/-- A tile that recomputes the chain for its drain. Lane 0 of the rows holds 1 where the words of its row are 0: the comparison fails. -/
def recomputingTile (since : Nat) : Tile :=
  { Tile.reset 0 with
    st := .running
    array := { Array_.zero with
      chains := [drainedChain]
      active := some checkedDrain
      laneM := [(0, 1)]
      replay := some { chain := 0, trigger := 1, attempt := 1, first := none, tile2 := none, stamp := 0, since := since } } }

/-- Tile 0 is listed twice, with places 0 and 5 among the attempts that wait; tile 144 is a spare of its die. The descriptor asks for
INT32 output at a pitch of 512 and for a checksum whose failure replays (R220). -/
def twiceListedState : State :=
  { State.reset with
    chip := { State.reset.chip with
      tiles := [(0, recomputingTile 0), (0, recomputingTile 5), (144, { Tile.reset 144 with st := .spare })] }
    mem := { cells := [(tileAddr 0 0x45, 2), (tileAddr 0 0x68, 0x0D), (tileAddr 0 0x69, 0x80)], poison := [] } }

theorem twiceListed_fails : ((Work.of twiceListedState).drainResult 0 drainedChain checkedDrain
    ((Work.of twiceListedState).recompute 0 drainedChain)).replays ((Work.of twiceListedState).desc 0 64) = true := by
  decide +kernel

theorem twiceListed_possible : (Work.of twiceListedState).attempt2Possible (tileDie 0) = true := by decide +kernel

/-- The next place counts both entries of tile 0. -/
theorem twiceListed_nextSince : (Work.of twiceListedState).nextSince = 6 := by decide +kernel

/-- The attempt is given the place after the one entry that is left. -/
theorem twiceListed_attempt :
    (((Work.of twiceListedState).attemptDone 0 none).tile 0).array.replay.map (fun r => r.since) = some 1 := by
  decide +kernel

/-- Tile k of the state that a command gives. -/
theorem tileOf_of_lift {c : Instr} {s t : State} {f : Work → Work} (hexec : exec c s = lift f s) (ht : exec c s = .next t) (k : Nat) :
    tileOf t k = (f (Work.of s)).tile k := by
  cases ht.symm.trans hexec
  rfl

/-- Refutes O15: where tile 0 is listed twice, the attempt of its replay that fails waits at place 1, and not at place 6, which the
statement asks for. -/
theorem not_outputStage : ¬ Obligations.OutputStage := by
  unfold Obligations.OutputStage
  rintro ⟨-, -, -, -, hfails, -⟩
  obtain ⟨t, hnext, -, hreplay, -⟩ := hfails twiceListedState 0 _ checkedDrain drainedChain rfl rfl rfl rfl twiceListed_fails
    twiceListed_possible
  have htile : tileOf t 0 = ((Work.of twiceListedState).attemptDone 0 none).tile 0 := tileOf_of_lift exec_replayAttemptDone hnext 0
  have hplaces : some 1 = some 6 := calc
    some 1 = (tileOf t 0).array.replay.map (fun r => r.since) := by rw [htile, twiceListed_attempt]
    _ = some (Work.of twiceListedState).nextSince := congrArg (Option.map fun r => r.since) hreplay
    _ = some 6 := congrArg some twiceListed_nextSince
  exact absurd hplaces (by decide)

end Sys2Proof
end

section
/-!
The ledger's exponent bins (Obligations.HistogramBins): the base-2 exponent that the model computes from the bit lengths of a magnitude's
numerator and denominator is the one between whose powers of two the magnitude lies, and a value counts in the bin of that exponent alone.
-/

namespace Sys2Proof

open Sys2Proof.Machine

/-! ## Powers of two and the exponent of a magnitude -/

theorem pow2_eq_zpow (e : Int) : pow2 e = (2 : Rat) ^ e := by
  unfold pow2
  split
  case isTrue h =>
    lift e to Nat using h
    simp
  case isFalse h =>
    obtain ⟨n, rfl⟩ : ∃ n : Nat, e = -n := ⟨(-e).toNat, by omega⟩
    simp

theorem pow2_pos (e : Int) : 0 < pow2 e := by
  rw [pow2_eq_zpow]
  positivity

theorem pow2_sub (a b : Int) : pow2 (a - b) = pow2 a / pow2 b := by
  simp only [pow2_eq_zpow]
  exact zpow_sub₀ two_ne_zero a b

theorem pow2_lt_pow2_iff {a b : Int} : pow2 a < pow2 b ↔ a < b := by
  simp only [pow2_eq_zpow]
  exact zpow_lt_zpow_iff_right₀ one_lt_two

/-- At most one exponent has a given magnitude between its power of two and the next. -/
theorem exponent_unique {q : Rat} {a b : Int} (ha : pow2 a ≤ q) (ha' : q < pow2 (a + 1)) (hb : pow2 b ≤ q) (hb' : q < pow2 (b + 1)) :
    a = b := by
  have hab : a < b + 1 := pow2_lt_pow2_iff.mp (ha.trans_lt hb')
  have hba : b < a + 1 := pow2_lt_pow2_iff.mp (hb.trans_lt ha')
  omega

theorem pow2_log2_le {n : Nat} (hn : n ≠ 0) : pow2 (Nat.log2 n) ≤ n := by
  rw [pow2_eq_zpow, zpow_natCast]
  exact_mod_cast Nat.log2_self_le hn

theorem lt_pow2_log2_succ (n : Nat) : (n : Rat) < pow2 (Nat.log2 n + 1) := by
  rw [pow2_eq_zpow]
  exact_mod_cast Nat.lt_log2_self (n := n)

/-- The bit lengths of the numerator and the denominator give the exponent up to one. -/
theorem between_pow2_of_log2 {q : Rat} (hq : 0 < q) :
    pow2 ((Nat.log2 q.num.toNat : Int) - Nat.log2 q.den - 1) < q ∧ q < pow2 ((Nat.log2 q.num.toNat : Int) - Nat.log2 q.den + 1) := by
  have hnum : 0 < q.num := Rat.num_pos.mpr hq
  have hval : q = (q.num.toNat : Rat) / q.den := by
    have hcast : (q.num.toNat : Rat) = q.num := by exact_mod_cast Int.toNat_of_nonneg hnum.le
    rw [hcast, Rat.num_div_den]
  have hnumLe := pow2_log2_le (n := q.num.toNat) (by omega)
  have hdenLe := pow2_log2_le q.den_nz
  constructor
  · calc pow2 ((Nat.log2 q.num.toNat : Int) - Nat.log2 q.den - 1)
        = pow2 (Nat.log2 q.num.toNat) / pow2 (Nat.log2 q.den + 1) := by rw [sub_sub, pow2_sub]
      _ < (q.num.toNat : Rat) / q.den :=
        div_lt_div₀' hnumLe (lt_pow2_log2_succ _) (by exact_mod_cast (by omega : 0 < q.num.toNat)) (by exact_mod_cast q.den_pos)
      _ = q := hval.symm
  · calc q = (q.num.toNat : Rat) / q.den := hval
      _ < pow2 (Nat.log2 q.num.toNat + 1) / pow2 (Nat.log2 q.den) :=
        div_lt_div₀ (lt_pow2_log2_succ _) hdenLe (pow2_pos _).le (pow2_pos _)
      _ = pow2 ((Nat.log2 q.num.toNat : Int) - Nat.log2 q.den + 1) := by rw [← pow2_sub, add_sub_right_comm]

/-- The model's exponent is right where the magnitude reaches the power of the difference of the lengths, and where it does not. -/
theorem floorLog2_bounds {q : Rat} (hq : 0 < q) : pow2 (floorLog2 q) ≤ q ∧ q < pow2 (floorLog2 q + 1) := by
  obtain ⟨hlow, hhigh⟩ := between_pow2_of_log2 hq
  simp only [floorLog2]
  split
  case isTrue hreach => exact ⟨hreach, hhigh⟩
  case isFalse hshort =>
    rw [sub_add_cancel]
    exact ⟨hlow.le, not_le.mp hshort⟩

theorem floorLog2_eq {q : Rat} {e : Int} (hlow : pow2 e ≤ q) (hhigh : q < pow2 (e + 1)) : floorLog2 q = e := by
  obtain ⟨hfloor, hnext⟩ := floorLog2_bounds ((pow2_pos e).trans_le hlow)
  exact exponent_unique hfloor hnext hlow hhigh

theorem exp?_fin {neg : Bool} {mag : Rat} {e : Int} (hlow : pow2 e ≤ mag) (hhigh : mag < pow2 (e + 1)) :
    (Num.fin neg mag).exp? = some e := by
  have hne : mag ≠ 0 := ((pow2_pos e).trans_le hlow).ne'
  simp [Num.exp?, hne, floorLog2_eq hlow hhigh]

/-! ## The bin of an exponent (R228) -/

theorem ledgerBin_cast (e : Int) : (ledgerBin e : Int) = min 63 (max 0 ((e + 64) / 2)) :=
  Int.toNat_of_nonneg (le_min (by decide) (le_max_left _ _))

theorem ledgerBin_eq_zero_iff (e : Int) : ledgerBin e = 0 ↔ e ≤ -63 := by
  have h := ledgerBin_cast e
  omega

theorem ledgerBin_eq_last_iff (e : Int) : ledgerBin e = 63 ↔ 62 ≤ e := by
  have h := ledgerBin_cast e
  omega

theorem ledgerBin_eq_middle_iff (e : Int) {b : Nat} (hb : 1 ≤ b) (hb' : b ≤ 62) :
    ledgerBin e = b ↔ e = 2 * (b : Int) - 64 ∨ e = 2 * (b : Int) - 63 := by
  have h := ledgerBin_cast e
  omega

/-! ## Counting an element (R227, R228) -/

/-- An element whose value has an exponent adds one to the bin of that exponent and to no other. -/
theorem count_bins_get {el : Elem} {e : Int} (hexp : el.v.exp? = some e) (g : LedgerSlot) (o : Outcome) (out : Bool) (j : Nat) :
    SMap.get 0 (g.count el o out).bins j = if j = ledgerBin e then satAdd 32 (SMap.get 0 g.bins j) 1 else SMap.get 0 g.bins j := by
  have hbins : (g.count el o out).bins = SMap.modify 0 g.bins (ledgerBin e) (fun n => satAdd 32 n 1) := by
    simp [LedgerSlot.count, hexp]
  rw [hbins]
  split
  case isTrue h => rw [h, SMap.get_modify_self]
  case isFalse h => exact SMap.get_modify_ne h 0 g.bins _

/-- Settles O59: the exponent of the value is the one its magnitude lies at, and each bin holds the exponents that R228 lists for it. -/
theorem histogramBins : Obligations.HistogramBins := by
  unfold Obligations.HistogramBins
  refine ⟨fun g neg keep flushed clipped out mag e o hlow hhigh j => ?counts, fun e => ?bins⟩
  case counts =>
    rw [count_bins_get (exp?_fin hlow hhigh), ← ledgerBin_cast]
    simp only [Nat.cast_inj]
  case bins =>
    exact ⟨ledgerBin_eq_zero_iff e, ledgerBin_eq_last_iff e, fun _ hb hb' => ledgerBin_eq_middle_iff e hb hb'⟩

end Sys2Proof
end

section
/-!
The two ends of a canal and its units (Obligations.Canals): one equation for each command, and the unit that arrives. A write at the
point of coherence and a record of the Fault Rolls, which a unit can bring, leave the canal ports of every tile as they are.
-/

namespace Sys2Proof

open Sys2Proof.Machine

/-! ## The canal ports of the tiles -/

/-- The out-ports and the in-ports of each tile. -/
def canalPorts (w : Work) (u : Nat) : SMap OutPort × SMap InPort := ((w.tile u).out, (w.tile u).inp)

theorem outPort_of_canalPorts {w v : Work} (h : canalPorts v = canalPorts w) (u p : Nat) :
    (v.tile u).outPort p = (w.tile u).outPort p :=
  congrArg (fun e => SMap.get OutPort.zero (Prod.fst e) p) (congrFun h u)

theorem inPort_of_canalPorts {w v : Work} (h : canalPorts v = canalPorts w) (u p : Nat) :
    (v.tile u).inPort p = (w.tile u).inPort p :=
  congrArg (fun e => SMap.get InPort.zero (Prod.snd e) p) (congrFun h u)

theorem canalPorts_of_tiles {w v : Work} (h : v.chip.tiles = w.chip.tiles) : canalPorts v = canalPorts w := by
  unfold canalPorts Work.tile; rw [h]

@[simp] theorem canalPorts_ite {c : Prop} [Decidable c] (u v : Work) :
    canalPorts (if c then u else v) = if c then canalPorts u else canalPorts v := apply_ite _ _ _ _

theorem canalPorts_each {β : Type} {f : Work → β → Work} (hf : ∀ w x, canalPorts (f w x) = canalPorts w) (w : Work) (l : List β) :
    canalPorts (w.each l f) = canalPorts w := by
  induction l generalizing w with
  | nil => rfl
  | cons x l ih => exact (ih (f w x)).trans (hf w x)

/-- An update of a tile leaves of every tile what it leaves of any. -/
theorem modTile_keeps {α : Type} (part : Tile → α) {f : Tile → Tile} (hf : ∀ x, part (f x) = part x) (w : Work) (t u : Nat) :
    part ((w.modTile t f).tile u) = part (w.tile u) := by
  by_cases h : u = t
  · subst h; rw [Work.modTile_self]; exact hf _
  · rw [Work.modTile_ne h]

section
variable (w : Work)

/-! ## The Archive slices (R347 to R351, R387) -/

@[simp] theorem canalPorts_modSlice (s : Nat) (f : Slice → Slice) : canalPorts (w.modSlice s f) = canalPorts w := rfl

@[simp] theorem canalPorts_charge (s : Nat) (p : Option Nat) (b : Bool) (n : Nat) : canalPorts (w.charge s p b n) = canalPorts w := by
  cases p <;> rfl

@[simp] theorem canalPorts_evictWay (s set way : Nat) : canalPorts (w.evictWay s set way) = canalPorts w := by
  have hbuffer (v : Work) (l : List (Nat × Sector)) : canalPorts (v.each l (fun w e => w.bufferSector s e.1 e.2)) = canalPorts v :=
    canalPorts_each (fun w (e : Nat × Sector) => (canalPorts_modSlice _ _ _).trans (canalPorts_charge w _ _ _ _)) v l
  simp only [Work.evictWay, Work.dropSectors, hbuffer, canalPorts_modSlice]

@[simp] theorem canalPorts_clampedAt (c : Bool) : canalPorts (w.clampedAt c) = canalPorts w := by cases c <;> rfl

@[simp] theorem canalPorts_arcUse (l : Nat) (p : Option Nat) (d : Bool) (k : Option Nat) :
    canalPorts (w.arcUse l p d k) = canalPorts w := by
  simp only [Work.arcUse]
  split <;> simp

@[simp] theorem canalPorts_train (line : Nat) (stream p : Option Nat) : canalPorts (w.train line stream p) = canalPorts w := by
  simp only [Work.train, Work.arcTrain]
  split
  · split <;> rfl
  · rfl

@[simp] theorem canalPorts_storeRaw (s g code : Nat) (p : Option Nat) : canalPorts (w.storeRaw s g code p) = canalPorts w := by
  have hexpand : canalPorts (w.expandGranule s g code p) = canalPorts w := by simp [Work.expandGranule]
  exact (canalPorts_charge _ _ _ _ _).trans hexpand

@[simp] theorem canalPorts_arcWrite (l : Nat) (p : Option Nat) (n : Nat) : canalPorts (w.arcWrite l p n) = canalPorts w := by
  simp [Work.arcWrite]

/-! ## A write at the point of coherence (R335) -/

@[simp] theorem canalPorts_put (x : Wr) : canalPorts (w.put x) = canalPorts w := rfl
@[simp] theorem canalPorts_dropAhead (lo hi : Nat) : canalPorts (w.dropAhead lo hi) = canalPorts w := rfl
@[simp] theorem canalPorts_staleAhead (lo hi : Nat) : canalPorts (w.staleAhead lo hi) = canalPorts w := rfl

@[simp] theorem canalPorts_post (a : Nat) (bs : List Byte) (i : Option RemoteWho) : canalPorts (w.post a bs i) = canalPorts w := by
  unfold Work.post
  split <;> rfl

@[simp] theorem canalPorts_snoopRange (lo hi : Nat) (k d : Bool) : canalPorts (w.snoopRange lo hi k d) = canalPorts w := by
  cases d
  · exact canalPorts_each (fun w (l : Nat × LineData × BitVec 4) => show canalPorts (w.putLine l.1 l.2.1 l.2.2) = _ from rfl) w
      (w.dirtyIn lo hi)
  · rfl

@[simp] theorem canalPorts_clearResv (lo hi : Nat) (e : Option Nat) : canalPorts (w.clearResv lo hi e) = canalPorts w := by
  funext u
  unfold canalPorts Work.tile
  rw [clearResv_tiles, SMap.get_mapVal _ _ _ _ rfl]

theorem canalPorts_modTile {t : Nat} {f : Tile → Tile} (hf : ∀ x, ((f x).out, (f x).inp) = (x.out, x.inp)) :
    canalPorts (w.modTile t f) = canalPorts w :=
  funext (modTile_keeps (fun x => (x.out, x.inp)) hf w t)

@[simp] theorem canalPorts_pwrite (a : Nat) (bs : List Byte) (pub : Bool) (p : Option Nat) (i : Option RemoteWho)
    (stream : Option Nat) : canalPorts (w.pwrite a bs pub p i stream) = canalPorts w := by
  have hlines (v : Work) (l : List Nat) (g : Nat → Nat) :
      canalPorts (v.each l (fun w l => (w.arcWrite l p (g l)).train l stream p)) = canalPorts v :=
    canalPorts_each (fun w l => (canalPorts_train _ _ _ _).trans (canalPorts_arcWrite _ _ _ _)) v l
  have hheld (v : Work) (t o : Nat) :
      canalPorts (v.modTile t (fun x => { x with heldWrites := x.heldWrites ++ [(o, bs, i)] })) = canalPorts v :=
    canalPorts_modTile v fun _ => rfl
  simp only [Work.pwrite, canalPorts_ite, canalPorts_post, canalPorts_put]
  split
  · rfl
  · split
    · rfl
    · split
      · split
        · exact hheld _ _ _
        · rfl
      · split <;> simp [hlines]

/-! ## A record of the Fault Rolls (R543 to R548) -/

@[simp] theorem canalPorts_rolls (x : Rolls) : canalPorts { w with chip := { w.chip with rolls := x } } = canalPorts w := rfl

@[simp] theorem canalPorts_aplicRaise (n : Nat) : canalPorts (w.aplicRaise n) = canalPorts w := by
  have himsic (f m : Nat) : canalPorts (w.imsicSet f m) = canalPorts w := by unfold Work.imsicSet; split <;> rfl
  simp only [Work.aplicRaise, Work.aplicPend, canalPorts_ite, himsic]
  split
  · split <;> rfl
  · rfl

@[simp] theorem canalPorts_bufferRecord (r : Record) : canalPorts (w.bufferRecord r) = canalPorts w := by
  unfold Work.bufferRecord
  dsimp only
  split <;> rfl

@[simp] theorem canalPorts_ringWrite (r : Record) : canalPorts (w.ringWrite r) = canalPorts w := by
  simp [Work.ringWrite]

@[simp] theorem canalPorts_storeRecord (r : Record) : canalPorts (w.storeRecord r) = canalPorts w := by
  unfold Work.storeRecord
  dsimp only
  split
  · exact canalPorts_bufferRecord w r
  split
  · split
    · exact canalPorts_ringWrite w r
    · exact canalPorts_rolls w _
  · split
    · exact (canalPorts_ringWrite _ r).trans ((canalPorts_rolls _ _).trans (canalPorts_ringWrite w _))
    · exact canalPorts_rolls w _

@[simp] theorem canalPorts_summaryRecord (r : Record) : canalPorts (w.summaryRecord r) = canalPorts w := by
  refine canalPorts_of_tiles ?_
  simp only [Work.summaryRecord, apply_ite Work.chip, apply_ite Chip.tiles, ite_self]

@[simp] theorem canalPorts_record (x : Rec) : canalPorts (w.record x) = canalPorts w := by
  have hsummary (v : Work) (s : Bool) (r : Record) (h : canalPorts v = canalPorts w) :
      canalPorts (if s then v.summaryRecord r else v) = canalPorts w := by
    split
    · exact (canalPorts_summaryRecord v r).trans h
    · exact h
  unfold Work.record
  exact hsummary _ _ _ ((canalPorts_storeRecord _ _).trans (canalPorts_rolls w _))

end

/-! ## A write that no writer waits with (R334, R335) -/

theorem tileInService_clearResv (w : Work) (lo hi : Nat) (e : Option Nat) (t : Nat) :
    (w.clearResv lo hi e).tileInService t = w.tileInService t := by
  have hst : ((w.clearResv lo hi e).tile t).st = (w.tile t).st := st_mapVal w.chip.tiles lo hi t
  rw [Work.tileInService, hst]; rfl

/-- A write that names no writer, at an address that lies in the store of a tile in service, whose bytes are not held: its bytes are
the one write to memory, also where other writes wait. -/
theorem pwrite_wr_at {w : Work} {a k off : Nat} {bs : List Byte} (hlocal : w.local_ a = a)
    (hplace : ∀ v : Work, v.tileInService k = true → v.place a = .tile k off) (hs : w.tileInService k = true)
    (hst : (w.tile k).st ≠ .exchanging) (hb : bs ≠ []) (hh : (w.tile k).holds off bs.length = false)
    (hd : w.dirtyIn (lineLo a) (lineHi a bs.length) = []) (p : Option Nat) :
    (w.pwrite a bs false p).wr = w.wr ++ [.bytes a bs] := by
  have hnow := hplace w hs
  have hpost : w.post a bs none = w := by rw [Work.post, hnow]
  have hwaits : w.tileWaits a bs.length none = false := by
    rw [Work.tileWaits, hnow]; simp [hh, hst, sameWriter]
  have hsnoop (lo hi : Nat) (h : w.dirtyIn lo hi = []) :
      (w.snoopRange lo hi true false).wr = w.wr ∧ (w.snoopRange lo hi true false).tileInService k = w.tileInService k := by
    rw [Work.snoopRange, h]; exact ⟨rfl, rfl⟩
  obtain ⟨hwr, hservice⟩ := hsnoop _ _ hd
  have hafter : (((w.snoopRange (lineLo a) (lineHi a bs.length) true false).clearResv (lineLo a) (lineHi a bs.length) none).staleAhead
      (lineLo a) (lineHi a bs.length)).place a = .tile k off :=
    hplace _ ((tileInService_clearResv _ _ _ none k).trans (hservice.trans hs))
  rw [Work.pwrite]
  simp only [hlocal, List.isEmpty_eq_false_iff.mpr hb, dead_of_tile hnow, hnow, Place.isMmio, hwaits, hpost, Bool.or_self,
    Bool.not_false, Bool.false_eq_true, if_false, hafter, Work.put_wr]
  exact congrArg (· ++ _) hwr

theorem pwrite_wr_tile {w : Work} {k off : Nat} {bs : List Byte} (hk : k < 160) (ho : off < 0x60_0000)
    (hs : w.tileInService k = true) (hst : (w.tile k).st ≠ .exchanging) (hb : bs ≠ []) (hh : (w.tile k).holds off bs.length = false)
    (hd : w.dirtyIn (lineLo (tileAddr k off)) (lineHi (tileAddr k off) bs.length) = []) (p : Option Nat) :
    (w.pwrite (tileAddr k off) bs false p).wr = w.wr ++ [.bytes (tileAddr k off) bs] :=
  pwrite_wr_at (local_tile w hk ho) (fun v hv => place_tile v hk ho hv) hs hst hb hh hd p

/-! ## Two tiles that a command changes -/

/-- Two updates of tiles change those tiles alone. -/
theorem onlyTiles_modTile_modTile (s : State) (j k : Nat) (f g : Tile → Tile) :
    OnlyTiles j k s { s with chip := (((Work.of s).modTile j f).modTile k g).chip } :=
  ⟨⟨rfl, rfl, rfl⟩, rfl, fun _ hj hk => (Work.modTile_ne hk _ _).trans (Work.modTile_ne hj _ _)⟩

theorem OnlyTiles.symm {j k : Nat} {s t : State} (h : OnlyTiles j k s t) : OnlyTiles k j s t := by
  obtain ⟨hmem, hchip, htiles⟩ := h
  exact ⟨hmem, hchip, fun u hk hj => htiles u hj hk⟩

section
variable {w : Work}

@[simp] theorem setOut_self (x : Tile) (p : Nat) (o : OutPort) : (x.setOut p o).outPort p = o := SMap.get_set_self _ _ _ _
@[simp] theorem setIn_self (x : Tile) (p : Nat) (i : InPort) : (x.setIn p i).inPort p = i := SMap.get_set_self _ _ _ _

theorem setSem_outPort (x : Tile) (m n p : Nat) : (x.setSem m n).outPort p = x.outPort p := rfl

theorem modOut_self (t p : Nat) (f : OutPort → OutPort) : ((w.modOut t p f).tile t).outPort p = f ((w.tile t).outPort p) := by
  rw [Work.modOut, Work.modTile_self, setOut_self]

theorem modIn_self (t p : Nat) (f : InPort → InPort) : ((w.modIn t p f).tile t).inPort p = f ((w.tile t).inPort p) := by
  rw [Work.modIn, Work.modTile_self, setIn_self]

/-- An update of an out-port leaves what is not of the out-ports. -/
theorem modOut_keeps {α : Type} (part : Tile → α) (hpart : ∀ x p o, part (Tile.setOut x p o) = part x) (t p u : Nat) (f : OutPort → OutPort) :
    part ((w.modOut t p f).tile u) = part (w.tile u) := modTile_keeps part (fun _ => hpart _ _ _) w t u

theorem modIn_keeps {α : Type} (part : Tile → α) (hpart : ∀ x p i, part (Tile.setIn x p i) = part x) (t p u : Nat) (f : InPort → InPort) :
    part ((w.modIn t p f).tile u) = part (w.tile u) := modTile_keeps part (fun _ => hpart _ _ _) w t u

/-! ## The out-port (R251, R252, R255) -/

section OutPort
variable {k p : Nat} {r : CanalRef} (hr : w.canalOut k p = some r)
include hr

theorem outPortTake_takes (hcredits : ((w.tile k).outPort p).credits ≠ 0) (htransfer : ((w.tile k).outPort p).transfer = false)
    (hsend : (w.tile k).sem r.c.sendSem ≠ 0) (hheld : w.inPortHeld r = false) (hst : (w.tile k).st ≠ .exchanging) :
    w.outPortTake k p = w.modTile k (fun x => (x.setSem r.c.sendSem ((w.tile k).sem r.c.sendSem - 1)).setOut p
      { x.outPort p with credits := (x.outPort p).credits - 1, transfer := true, readDone := false, left := 0 }) := by
  rw [Work.outPortTake, hr]
  simp only [hcredits, htransfer, hsend, hheld, hst, decide_false, Bool.or_self, Bool.false_eq_true, if_false]
  exact Work.modTile_modTile _ _ _ _

theorem outPortSlotRead_reads (htransfer : ((w.tile k).outPort p).transfer = true) (hheld : w.inPortHeld r = false) :
    w.outPortSlotRead k p = w.modTile k (fun x =>
      semPlus (x.setOut p
        { x.outPort p with
          transfer := false
          readDone := true
          slot := (((w.tile k).outPort p).slot + 1) % r.c.srcSlots
          slots := (((w.tile k).outPort p).slots + 1) % 2 ^ 32
          left := 0
          flight := (x.outPort p).flight ++ ((List.range (r.c.size / 64)).drop ((w.tile k).outPort p).left).map (fun i =>
            w.readUnit k (r.c.srcBase + ((w.tile k).outPort p).slot * r.c.size + i * 64)) }) r.c.freeSem 1) := by
  rw [Work.outPortSlotRead, hr]
  simp only [htransfer, hheld, Bool.not_true, Bool.or_self, Bool.false_eq_true, if_false]
  exact Work.modTile_modTile _ _ _ _

theorem canalCredit_arrives (hflight : ((w.tile k).outPort p).creditsInFlight ≠ 0) :
    w.canalCredit k p = w.modOut k p (fun o =>
      { o with creditsInFlight := o.creditsInFlight - 1, credits := min (o.credits + 1) r.c.dstSlots }) := by
  rw [Work.canalCredit, hr]
  exact if_neg hflight

end OutPort

/-! ## The in-port (R253, R267, R268) -/

section InPort
variable {k p : Nat} {r : CanalRef} (hr : w.canalIn k p = some r)
include hr

theorem inPortSlotWritten_signals (hbytes : r.c.size ≤ ((w.tile k).inPort p).bytes) :
    w.inPortSlotWritten k p = w.modTile k (fun x =>
      semPlus (x.setIn p
        { x.inPort p with
          transfer := false
          bytes := 0
          slot := ((x.inPort p).slot + 1) % r.c.dstSlots
          slots := ((x.inPort p).slots + 1) % 2 ^ 32 }) r.c.readySem 1) := by
  rw [Work.inPortSlotWritten, hr]
  simp only [Nat.not_lt.mpr hbytes, if_false]
  exact Work.modTile_modTile _ _ _ _

theorem inPortReturnTake_sends (hreturn : (w.tile k).sem r.c.returnSem ≠ 0) :
    w.inPortReturnTake k p =
      (w.modTile k (fun x => x.setSem r.c.returnSem ((w.tile k).sem r.c.returnSem - 1))).modOut r.c.prod r.c.outPort (fun o =>
        { o with creditsInFlight := o.creditsInFlight + 1 }) := by
  rw [Work.inPortReturnTake, hr]
  exact if_neg hreturn

theorem ends_inPortReturnTake (hreturn : (w.tile k).sem r.c.returnSem ≠ 0) :
    ((w.inPortReturnTake k p).tile k).sem r.c.returnSem = (w.tile k).sem r.c.returnSem - 1 ∧
    ((w.inPortReturnTake k p).tile r.c.prod).outPort r.c.outPort =
      { (w.tile r.c.prod).outPort r.c.outPort with
        creditsInFlight := ((w.tile r.c.prod).outPort r.c.outPort).creditsInFlight + 1 } := by
  rw [inPortReturnTake_sends hr hreturn]
  refine ⟨?_, ?_⟩
  · rw [modOut_keeps (fun x => x.sem r.c.returnSem) (fun _ _ _ => rfl), Work.modTile_self, Tile.setSem_self]
  · have hkept : ((w.modTile k (fun x => x.setSem r.c.returnSem ((w.tile k).sem r.c.returnSem - 1))).tile r.c.prod).outPort r.c.outPort =
        (w.tile r.c.prod).outPort r.c.outPort := modTile_keeps (fun x => x.outPort r.c.outPort) (fun x => setSem_outPort x _ _ _) w k r.c.prod
    rw [modOut_self, hkept]

theorem canalHeldTimeout_abandons (hheld : w.inPortHeld r = true) (hst : (w.pound r.pound).st = .draining) :
    w.canalHeldTimeout k p =
      (w.modOut r.c.prod r.c.outPort (fun o => o.abandon (r.c.size / 64 - ((w.tile k).inPort p).bytes / 64))).modIn k p (fun i =>
        { i with transfer := false, waitingHeld := false, bytes := 0
                 discarded := satAdd 8 i.discarded 1, abandoned := i.abandoned + 1 }) := by
  rw [Work.canalHeldTimeout, hr]
  simp only [hheld, hst, Bool.not_true, ne_eq, not_true_eq_false, decide_false, Bool.or_self, Bool.false_eq_true, if_false]

theorem ends_canalHeldTimeout (hheld : w.inPortHeld r = true) (hst : (w.pound r.pound).st = .draining) :
    ((w.canalHeldTimeout k p).tile k).inPort p = { (w.tile k).inPort p with
      transfer := false, waitingHeld := false, bytes := 0
      discarded := satAdd 8 ((w.tile k).inPort p).discarded 1, abandoned := ((w.tile k).inPort p).abandoned + 1 } ∧
    ((w.canalHeldTimeout k p).tile r.c.prod).outPort r.c.outPort =
      ((w.tile r.c.prod).outPort r.c.outPort).abandon (r.c.size / 64 - ((w.tile k).inPort p).bytes / 64) := by
  rw [canalHeldTimeout_abandons hr hheld hst]
  refine ⟨?_, ?_⟩
  · rw [modIn_self, modOut_keeps (fun x => x.inPort p) (fun _ _ _ => rfl)]
  · rw [modIn_keeps (fun x => x.outPort r.c.outPort) (fun _ _ _ => rfl), modOut_self]

end InPort

/-! ## A unit (R252, R253, R267, R268) -/

/-- The tiles of the canal's pound correct single errors. -/
def unitCorrects (w : Work) (r : CanalRef) : Bool := match w.cfg? r.pound with | some g => g.tileClass ≠ 2 | none => true

/-- The two code words of a unit as one read of it gives them. -/
def unitWords (corr : Bool) (u : CanalUnit) (errs : List (Fin 2 × Fin 36 × Byte)) : List (List Byte × Bool × Bool) :=
  [unitWord corr u errs 0, unitWord corr u errs 1]

/-- The unit is asked for again (R268). -/
def unitAgain (corr : Bool) (u : CanalUnit) (errs : List (Fin 2 × Fin 36 × Byte)) : Bool :=
  (unitWords corr u errs).any (fun x => x.2.2)

/-- The two code words as they are written. -/
def unitGot (corr : Bool) (u : CanalUnit) (errs resent : List (Fin 2 × Fin 36 × Byte)) : List (List Byte × Bool × Bool) :=
  if unitAgain corr u errs then unitWords corr u resent else unitWords corr u errs

/-- The numbers of the code words that have a property. -/
def wordsWith (got : List (List Byte × Bool × Bool)) (is : Bool × Bool → Bool) : List Nat :=
  idxs 2 (fun k => is (got.getD k ([], false, false)).2)

/-- The out-port after a unit of it has arrived. -/
def unitGone (again : Bool) (o : OutPort) : OutPort :=
  { o with
    flight := o.flight.drop 1
    left := if o.flight.isEmpty then o.left + 1 else o.left
    resent := if again then satAdd 16 o.resent 1 else o.resent }

/-- The in-port after a unit has arrived at it, n of whose code words failed twice. -/
def unitTaken (again : Bool) (n : Nat) (i : InPort) : InPort :=
  { i with
    transfer := true
    waitingHeld := false
    bytes := i.bytes + 64
    resent := if again then satAdd 16 i.resent 1 else i.resent
    poisoned := satAdd 8 i.poisoned n }

/-- An in-port at which a unit has arrived, which was not asked for again, but for the count of poisoned words. -/
theorem eq_of_unitTaken {i j : InPort} {n : Nat} (h : j = unitTaken false n i) :
    j = { i with transfer := true, waitingHeld := false, bytes := i.bytes + 64, poisoned := j.poisoned } := by
  subst h; rfl

/-- The unit leaves the out-port, its bytes are written, and the code words that were read poisoned are poisoned. -/
def unitStored (w : Work) (r : CanalRef) (a : Nat) (again : Bool) (got : List (List Byte × Bool × Bool)) : Work :=
  ((w.modOut r.c.prod r.c.outPort (unitGone again)).pwrite a (got.flatMap (fun x => x.1)) false none).each
    (wordsWith got Prod.fst) (fun w k => w.put (.poison (a / 32 + k)))

theorem canalPorts_unitStored (r : CanalRef) (a : Nat) (again : Bool) (got : List (List Byte × Bool × Bool)) :
    canalPorts (unitStored w r a again got) = canalPorts (w.modOut r.c.prod r.c.outPort (unitGone again)) :=
  (canalPorts_each (fun w _ => canalPorts_put w _) _ _).trans (canalPorts_pwrite _ _ _ _ _ _ _)

section Unit
variable {k p : Nat} {r : CanalRef} {u : CanalUnit} (hr : w.canalIn k p = some r) (hu : w.nextUnit r = some u)
  (hroom : ((w.tile k).inPort p).bytes < r.c.size) (hst : (w.tile k).st ≠ .exchanging) {off : Nat}
  (hoff : r.c.dstBase + ((w.tile k).inPort p).slot * r.c.size + ((w.tile k).inPort p).bytes = off)
include hr hu hroom hst hoff

theorem inPortUnit_waits (hheld : (w.tile k).holds off 64 = true) (e f : List (Fin 2 × Fin 36 × Byte)) :
    w.inPortUnit k p e f = w.modIn k p (fun i => { i with transfer := true, waitingHeld := true }) := by
  rw [Work.inPortUnit, hr]
  simp only [hu, hoff, hheld, hst, Nat.not_le.mpr hroom, if_true, if_false]

theorem inPortUnit_arrives (hheld : (w.tile k).holds off 64 = false) (e f : List (Fin 2 × Fin 36 × Byte)) {again : Bool}
    {got : List (List Byte × Bool × Bool)} (hagain : unitAgain (unitCorrects w r) u e = again)
    (hgot : unitGot (unitCorrects w r) u e f = got) :
    w.inPortUnit k p e f =
      ((unitStored w r (tileAddr k off) again got).modIn k p (unitTaken again (wordsWith got Prod.snd).length)).each
        (wordsWith got Prod.snd) (fun w j => w.record
          { cls := 0x0509, kind := 2, id := k, pound := r.pound, action := 3, addr := off + 32 * j, d0 := r.num }) := by
  subst hagain hgot
  rw [Work.inPortUnit, hr]
  simp only [hu, hoff, hheld, hst, Nat.not_le.mpr hroom, Bool.false_eq_true, if_false]
  rfl

/-- The two ports after a unit has arrived. -/
theorem ports_inPortUnit (hheld : (w.tile k).holds off 64 = false) (e f : List (Fin 2 × Fin 36 × Byte)) {again : Bool}
    {got : List (List Byte × Bool × Bool)} (hagain : unitAgain (unitCorrects w r) u e = again)
    (hgot : unitGot (unitCorrects w r) u e f = got) :
    ((w.inPortUnit k p e f).tile k).inPort p = unitTaken again (wordsWith got Prod.snd).length ((w.tile k).inPort p) ∧
    ((w.inPortUnit k p e f).tile r.c.prod).outPort r.c.outPort = unitGone again ((w.tile r.c.prod).outPort r.c.outPort) := by
  rw [inPortUnit_arrives hr hu hroom hst hoff hheld e f hagain hgot]
  have hrecords (v : Work) (l : List Nat) : canalPorts (v.each l (fun w j => w.record
      { cls := 0x0509, kind := 2, id := k, pound := r.pound, action := 3, addr := off + 32 * j, d0 := r.num })) = canalPorts v :=
    canalPorts_each (fun w _ => canalPorts_record w _) v l
  have hstored := canalPorts_unitStored (w := w) r (tileAddr k off) again got
  rw [inPort_of_canalPorts (hrecords _ _), outPort_of_canalPorts (hrecords _ _)]
  refine ⟨?_, ?_⟩
  · rw [modIn_self, inPort_of_canalPorts hstored]
    rw [modOut_keeps (fun x => x.inPort p) (fun _ _ _ => rfl)]
  · rw [modIn_keeps (fun x => x.outPort r.c.outPort) (fun _ _ _ => rfl), outPort_of_canalPorts hstored, modOut_self]

end Unit

/-! A unit that arrives without an error. -/

/-- A code word without an error is read as it is stored. -/
theorem unitWord_clean {u : CanalUnit} (hpoison : u.poison = [false, false]) (corr : Bool) (i : Nat) :
    unitWord corr u [] i = ((u.data.drop (32 * i)).take 32, false, false) := by
  have hbit : u.poison.getD i false = false := by
    rw [hpoison]
    match i with
    | 0 => rfl
    | 1 => rfl
    | _ + 2 => rfl
  have hread (bs : List Byte) : rsRead corr bs [] false = (bs, .good) := rfl
  rw [unitWord, hbit]
  simp only [List.filterMap_nil, hread]

/-- The two code words of a unit's bytes, neither of them poisoned. -/
def cleanWords (bs : List Byte) : List (List Byte × Bool × Bool) := [(bs.take 32, false, false), ((bs.drop 32).take 32, false, false)]

theorem bytes_cleanWords {bs : List Byte} (h : bs.length = 64) : (cleanWords bs).flatMap (fun x => x.1) = bs := by
  have hrest : (bs.drop 32).take 32 = bs.drop 32 := List.take_of_length_le (by rw [List.length_drop, h])
  rw [cleanWords, hrest]
  simp

section Clean
variable {u : CanalUnit} (hpoison : u.poison = [false, false]) (corr : Bool)
include hpoison

theorem unitWords_clean : unitWords corr u [] = cleanWords u.data := by
  rw [unitWords, unitWord_clean hpoison, unitWord_clean hpoison]; rfl

theorem unitAgain_clean : unitAgain corr u [] = false := by rw [unitAgain, unitWords_clean hpoison]; rfl

theorem unitGot_clean : unitGot corr u [] [] = cleanWords u.data := by rw [unitGot, unitWords_clean hpoison, ite_self]

end Clean

/-- The one write to memory of a unit that arrives without an error is that of its bytes. -/
theorem inPortUnit_clean_wr {s : State} {k : TileId} {p : Nat} {r : CanalRef} {u : CanalUnit} {off : Nat}
    (hr : (Work.of s).canalIn k p = some r) (hu : (Work.of s).nextUnit r = some u) (hpoison : u.poison = [false, false])
    (hlen : u.data.length = 64) (hroom : ((tileOf s k).inPort p).bytes < r.c.size)
    (hoff : r.c.dstBase + ((tileOf s k).inPort p).slot * r.c.size + ((tileOf s k).inPort p).bytes = off) (hfree : StoreFree s k off 64) :
    ((Work.of s).inPortUnit k p [] []).wr = [.bytes (tileAddr k off) u.data] := by
  obtain ⟨hservice, hst, -, hin, hheld, hdirty⟩ := hfree
  rw [inPortUnit_arrives hr hu hroom hst hoff hheld [] [] (unitAgain_clean hpoison _) (unitGot_clean hpoison _)]
  show (((Work.of s).modOut r.c.prod r.c.outPort (unitGone false)).pwrite (tileAddr k off)
    ((cleanWords u.data).flatMap (fun x => x.1)) false none).wr = _
  rw [bytes_cleanWords hlen]
  have hkeep {α : Type} (part : Tile → α) (hpart : ∀ x p o, part (Tile.setOut x p o) = part x) :
      part (((Work.of s).modOut r.c.prod r.c.outPort (unitGone false)).tile k) = part (tileOf s k) :=
    modOut_keeps part hpart _ _ _ _
  refine pwrite_wr_tile k.isLt (by omega) ?_ ?_ ?_ ?_ ?_ none
  · rw [Work.tileInService, hkeep (fun x => x.st) (fun _ _ _ => rfl)]; exact hservice
  · rw [hkeep (fun x => x.st) (fun _ _ _ => rfl)]; exact hst
  · rintro h; rw [h] at hlen; cases hlen
  · rw [hlen, hkeep (fun x => x.holds off 64) (fun _ _ _ => rfl)]; exact hheld
  · rw [hlen]; exact hdirty

end

/-- Settles O12: each command by what it makes of the two ends; a unit by its one write and the two ports after it. -/
theorem canals : Obligations.Canals := by
  unfold Obligations.Canals
  refine ⟨⟨fun s k p r hr hcredits htransfer hsend hheld hst =>
      gives_of_modTile _ exec_outPortTake (outPortTake_takes hr hcredits htransfer hsend hheld hst) rfl,
    fun s k p r hr htransfer hheld => gives_of_modTile _ exec_outPortSlotRead (outPortSlotRead_reads hr htransfer hheld) rfl,
    fun s k p r hr htransfer hbytes =>
      gives_of_modTile _ exec_inPortSlotWritten ((if_pos htransfer).trans (inPortSlotWritten_signals hr hbytes)) rfl,
    fun s k p r hr hreturn => ?returns,
    fun s k p r hr hflight => gives_of_modTile _ exec_canalCreditArrive (canalCredit_arrives hr hflight) rfl⟩,
    fun s k p r u hr hu hpoison hlen hroom => ?clean, fun s k p r u e f hr hu hroom hfree => ?arrives,
    fun s k p r u e f hr hu hroom hst hheld => gives_of_modTile _ exec_inPortUnit (inPortUnit_waits hr hu hroom hst rfl hheld e f) rfl,
    fun s k p r hr hheld hst => ?abandoned⟩
  case returns =>
    have hsends := inPortReturnTake_sends hr hreturn
    refine gives_of_chip exec_inPortReturnTake (by rw [hsends]; rfl) ⟨?_, ends_inPortReturnTake hr hreturn⟩
    rw [hsends]
    exact onlyTiles_modTile_modTile s k r.c.prod _ _
  case clean =>
    intro off hfree
    have hwr := inPortUnit_clean_wr hr hu hpoison hlen hroom rfl hfree
    obtain ⟨-, hst, -, -, hheld, -⟩ := hfree
    obtain ⟨hin, hout⟩ := ports_inPortUnit hr hu hroom hst rfl hheld [] [] (unitAgain_clean hpoison _) rfl
    refine gives_of_lift exec_inPortUnit ⟨?_, ?_, ?_⟩
    · rw [hwr]; exact stored_bytes _ _ _ _
    · exact eq_of_unitTaken hin
    · exact congrArg OutPort.flight hout
  case arrives =>
    obtain ⟨-, hst, -, -, hheld, -⟩ := hfree
    obtain ⟨hin, hout⟩ := ports_inPortUnit hr hu hroom hst rfl hheld e f rfl rfl
    exact gives_of_lift exec_inPortUnit
      ⟨congrArg InPort.transfer hin, congrArg InPort.waitingHeld hin, congrArg InPort.bytes hin, congrArg OutPort.flight hout⟩
  case abandoned =>
    intro o units
    have habandons := canalHeldTimeout_abandons hr hheld hst
    refine gives_of_chip exec_canalHeldTimeout (by rw [habandons]; rfl) ⟨?_, ends_canalHeldTimeout hr hheld hst⟩
    rw [habandons]
    exact (onlyTiles_modTile_modTile s r.c.prod k _ _).symm

end Sys2Proof
end

section
/-!
The commands of a submission queue: whose turn it is, what a command does that starts, and what its completion writes
(Obligations.CommandStarts).
-/

namespace Sys2Proof

open Sys2Proof.Machine

/-! ## Whose turn it is (R286) -/

section
variable {w : Work} {q : Nat} {c : Cmd}

/-- A command's turn: it is the first that has only been fetched, and one that comes alone finds every earlier command completed. -/
theorem next?_eq_some_iff : w.next? q = some c ↔
    (w.sq q).cmds.find? (fun c => c.phase = .fetched) = some c ∧
    (c.fence = true ∨ c.op = 5 ∨ c.op = 9 → ∀ d ∈ (w.sq q).cmds.takeWhile (fun d => d.seq ≠ c.seq), d.isDone = true) := by
  rw [Work.next?]
  cases hfind : (w.sq q).cmds.find? (fun c => c.phase = .fetched) with
  | none => simp
  | some e =>
    simp only [Bool.and_eq_true, Bool.or_eq_true, decide_eq_true_eq, or_assoc, Bool.not_eq_true', Option.ite_none_left_eq_some,
      not_and, Bool.not_eq_false, List.all_eq_true, Option.some.injEq]
    constructor
    · rintro ⟨halone, rfl⟩
      exact ⟨rfl, halone⟩
    · rintro ⟨rfl, halone⟩
      exact ⟨halone, rfl⟩

variable {l r : List Cmd} (hl : ∀ d ∈ l, d.seq ≠ c.seq)
include hl

theorem takeWhile_earlier : (l ++ c :: r).takeWhile (fun d => d.seq ≠ c.seq) = l := by
  rw [List.takeWhile_append_of_pos (by simpa using hl)]
  simp

theorem not_fetched_earlier (hfind : (l ++ c :: r).find? (fun c => c.phase = .fetched) = some c) : ∀ d ∈ l, d.phase ≠ .fetched := by
  cases hfirst : l.find? (fun c => c.phase = .fetched) with
  | none => simpa using List.find?_eq_none.mp hfirst
  | some e =>
    rw [List.find?_append, hfirst, Option.some_or] at hfind
    obtain rfl := Option.some.inj hfind
    exact absurd rfl (hl e (List.mem_of_find?_eq_some hfirst))

end

/-! ## A command at its turn, and one that has started -/

section
variable {s : State} {q op : Nat} {c : Cmd} {i : Instr} {ok : Cmd → Bool} {f : Work → Cmd → Work}

theorem start_of_ok (ht : (Work.of s).turn? q op = some c) (hok : ok c = true) : (Work.of s).start q op ok f = f (Work.of s) c := by
  simp only [Work.start, ht, hok, if_true]

theorem start_of_malformed (ht : (Work.of s).turn? q op = some c) (hok : ok c = false) :
    (Work.of s).start q op ok f = (Work.of s).beginDone q c 1 := by
  simp only [Work.start, ht, hok, Bool.false_eq_true, if_false]

theorem runs_of_turn {w : Work} (h : exec i s = lift (fun w => w.start q op ok f) s) (ht : Turn s q op c) (hok : ok c = formatOk op c)
    (hw : f (Work.of s) c = w) : Runs i s w := by
  obtain ⟨hturn, hformat⟩ := ht
  exact runs_of_lift h ((start_of_ok hturn (hok.trans hformat)).trans hw)

theorem runs_of_malformed (h : exec i s = lift (fun w => w.start q op ok f) s) (ht : (Work.of s).turn? q op = some c)
    (hok : ok c = formatOk op c) (hformat : formatOk op c = false) : Runs i s ((Work.of s).beginDone q c 1) :=
  runs_of_lift h (start_of_malformed ht (hok.trans hformat))

variable {n : W32}

theorem runs_of_going {w : Work} (h : exec i s = lift (fun w => w.finish q n op f) s) (hg : Going s q n op c)
    (hw : f (Work.of s) c = w) : Runs i s w :=
  runs_of_lift h ((finish_of_going hg f).trans hw)

theorem becomes_of_going (h : exec i s = lift (fun w => w.finish q n op f) s) (hg : Going s q n op c)
    (hw : f (Work.of s) c = Work.of s) : Becomes i s s.chip :=
  becomes_of_lift h ((finish_of_going hg f).trans hw)

end

/-! ## Completion (R296, R299) -/

/-- The two kinds of queue lie apart. -/
theorem modCq_modSq (w : Work) (q n : Nat) (f : Sq → Sq) (g : Cq → Cq) : (w.modCq n g).modSq q f = (w.modSq q f).modCq n g := rfl

section
variable {w : Work} {q : Nat} {c : Cmd}

/-- A queue whose commands of number n have this phase. -/
def withPhase (n : W32) (ph : CmdPhase) (x : Sq) : Sq :=
  { x with cmds := x.cmds.map (fun d => if d.seq = n then { d with phase := ph } else d) }

theorem modCmd_phase (w : Work) (q : Nat) (n : W32) (ph : CmdPhase) :
    w.modCmd q n (fun d => { d with phase := ph }) = w.modSq q (withPhase n ph) := rfl

@[simp] theorem cqNum_withPhase (n : W32) (ph : CmdPhase) (x : Sq) : (withPhase n ph x).cqNum = x.cqNum := rfl

/-- A queue that its commands of number n have left. -/
def withoutCmd (n : W32) (x : Sq) : Sq := Sq.settle { x with cmds := x.cmds.filter (fun d => d.seq ≠ n) }

theorem retireCmd_eq (w : Work) (q : Nat) (n : W32) : w.retireCmd q n = w.modSq q (withoutCmd n) := rfl

theorem filter_withPhase (n : W32) (ph : CmdPhase) (x : Sq) :
    (withPhase n ph x).cmds.filter (fun d => d.seq ≠ n) = x.cmds.filter (fun d => d.seq ≠ n) := by
  rw [withPhase]
  induction x.cmds with
  | nil => rfl
  | cons d ds ih => by_cases h : d.seq = n <;> simp_all

theorem withoutCmd_withPhase (n : W32) (ph : CmdPhase) (x : Sq) : withoutCmd n (withPhase n ph x) = withoutCmd n x := by
  rw [withoutCmd, filter_withPhase]; rfl

theorem settleQueue_of_noSelfReset (h : ∀ p, w.sqOwner q = some p → (w.pound p).selfReset = false) : w.settleQueue q = w := by
  rw [Work.settleQueue]
  cases howner : w.sqOwner q with
  | none => rfl
  | some p => simp only [Work.settleSelfReset, h p howner, Bool.false_and, Bool.false_eq_true, if_false]

variable (hreset : ∀ p, w.sqOwner q = some p → (w.pound p).selfReset = false) {st : Nat} (fl : Nat) (d0 d1 : W64)
include hreset

/-- A QUIET command that completes well returns its reservation and leaves its queue. -/
theorem complete_quiet (hquiet : c.quiet = true) :
    w.complete q c 0 fl d0 d1 =
      (w.modSq q (withoutCmd c.seq)).modCq (w.sq q).cqNum (fun y => { y with reserved := y.reserved - 1 }) := by
  simp only [Work.complete, modCmd_phase, Work.modSq_self, cqNum_withPhase, hquiet, decide_true, Bool.and_self, if_true,
    retireCmd_eq, modCq_modSq, Work.modSq_modSq, withoutCmd_withPhase]
  exact settleQueue_of_noSelfReset hreset

/-- Any other command leaves an entry to its completion queue. -/
theorem complete_entry (h : c.quiet = false ∨ st ≠ 0) :
    w.complete q c st fl d0 d1 = (w.modSq q (withPhase c.seq (.completed st fl d0 d1))).pushEntry (w.sq q).cqNum
      { seq := c.seq, tag := c.tag, status := st, flags := fl, sq := BitVec.ofNat 32 q, d0 := d0, d1 := d1, reserved := true } := by
  have hentry : (c.quiet && decide (st = 0)) = false := by simpa [or_iff_not_imp_left] using h
  simp only [Work.complete, modCmd_phase, Work.modSq_self, cqNum_withPhase, hentry, Bool.false_eq_true, if_false]
  exact settleQueue_of_noSelfReset hreset

/-- A completion changes the command's queue and its completion queue. -/
theorem complete_changes (st : Nat) :
    ∃ f g, w.complete q c st fl d0 d1 = (w.modSq q f).modCq (w.sq q).cqNum g := by
  by_cases h : c.quiet = true ∧ st = 0
  · obtain ⟨hquiet, rfl⟩ := h
    exact ⟨_, _, complete_quiet hreset fl d0 d1 hquiet⟩
  · exact ⟨_, _, complete_entry hreset fl d0 d1 (by simpa [or_iff_not_imp_left] using h)⟩

end

theorem begin_eq (w : Work) (q : Nat) (c : Cmd) : w.begin q c = w.modSq q (fun x =>
    { x with
      cmds := x.cmds.map (fun d => if d.seq = c.seq then { d with phase := .started, startPs := w.chip.refPs } else d)
      started := c.seq }) := by
  rw [Work.begin, Work.modCmd, Work.modSq_modSq]

/-- Settles O16: the turn by the commands before it; a completion by whether it leaves an entry; a start by the update of its queue. -/
theorem commandStarts : Obligations.CommandStarts := by
  unfold Obligations.CommandStarts
  refine ⟨fun w q c hnext => ?turn, ⟨fun s q c i op hi ht hformat => ?malformed, fun s q c hnext hop => ?reserved⟩,
    fun w q c st fl d0 d1 hreset => ⟨?quiet, ?entry, ?frame⟩, fun w q c => ?begins⟩
  case turn =>
    obtain ⟨hfind, halone⟩ := next?_eq_some_iff.mp hnext
    refine ⟨List.mem_of_find?_eq_some hfind, by simpa using List.find?_some hfind, fun l r hcmds hl d hd => ⟨?_, fun h => ?_⟩⟩
    · exact not_fetched_earlier hl (hcmds ▸ hfind) d hd
    · exact halone h d (by rwa [hcmds, takeWhile_earlier hl])
  case malformed =>
    simp only [List.mem_cons, List.not_mem_nil, or_false, Prod.mk.injEq] at hi
    rcases hi with ⟨rfl, rfl⟩ | ⟨rfl, rfl⟩ | ⟨rfl, rfl⟩ | ⟨rfl, rfl⟩ | ⟨rfl, rfl⟩ | ⟨rfl, rfl⟩ | ⟨rfl, rfl⟩ | ⟨rfl, rfl⟩ |
      ⟨rfl, rfl⟩ | ⟨rfl, rfl⟩ | ⟨rfl, rfl⟩ | ⟨rfl, rfl⟩
    · exact runs_of_malformed exec_nop ht rfl hformat
    · exact runs_of_malformed exec_launch ht rfl hformat
    · exact runs_of_malformed exec_launchStart ht rfl hformat
    · exact runs_of_malformed exec_move ht rfl hformat
    · exact runs_of_malformed exec_write ht rfl hformat
    · exact runs_of_malformed exec_semWait ht rfl hformat
    · exact runs_of_malformed exec_semSignal ht rfl hformat
    · exact runs_of_malformed exec_phase ht rfl hformat
    · exact runs_of_malformed exec_hint ht rfl hformat
    · exact runs_of_malformed exec_safePoint ht rfl hformat
    · exact runs_of_malformed exec_waitTime ht rfl hformat
    · exact runs_of_malformed exec_ledgerRead ht rfl hformat
  case reserved => exact runs_of_lift exec_opcodeReserved (by simp only [Work.opcodeReserved, hnext, hop, if_true])
  case quiet =>
    rintro ⟨hquiet, rfl⟩
    rw [complete_quiet hreset fl d0 d1 hquiet]
    exact ⟨Work.modSq_self _ _ _, Work.modCq_self _ _ _⟩
  case entry =>
    intro h
    rw [complete_entry hreset fl d0 d1 h]
    exact ⟨Work.modSq_self _ _ _, Work.modCq_self _ _ _⟩
  case frame =>
    obtain ⟨f, g, h⟩ := complete_changes (c := c) hreset fl d0 d1 st
    rw [h]
    exact ⟨fun p hp => Work.modSq_ne hp _ _, fun m hm => Work.modCq_ne hm _ _, rfl⟩
  case begins =>
    rw [begin_eq]
    exact ⟨Work.modSq_self _ _ _, fun p hp => Work.modSq_ne hp _ _, rfl⟩

end Sys2Proof
end

section
/-!
NOP, PHASE, HINT, WAIT_TIME, SAFE_POINT and SEM_WAIT (Obligations.PlainCommandsAndWaits): what each does at its turn, and while it waits.
-/

namespace Sys2Proof

open Sys2Proof.Machine

section
variable {w : Work} {q : Nat} {c : Cmd}

/-! ## HINT and WAIT_TIME (R294, R494) -/

theorem hint_owned {p : Nat} (h : w.sqOwner q = some p) :
    w.hint q c = (w.hintPower p (c.at_ 0x0C 1) (c.at_ 0x0E 2)).beginDone q c 0 := by
  simp only [Work.hint, h]

theorem hint_unowned (h : w.sqOwner q = none) : w.hint q c = w.beginDone q c 0 := by
  simp only [Work.hint, h]

/-- Lock Time is LOCKED and has reached the moment of WAIT_TIME. -/
theorem reached_eq_true (hlocked : w.locked = true) (h : c.at_ 0x10 8 ≤ w.now) :
    (w.locked && decide (c.at_ 0x10 8 ≤ w.now)) = true := by simp [hlocked, h]

theorem reached_eq_false (h : w.locked = false ∨ w.now < c.at_ 0x10 8) :
    (w.locked && decide (c.at_ 0x10 8 ≤ w.now)) = false := by
  rcases h with h | h
  · rw [h, Bool.false_and]
  · rw [decide_eq_false (Nat.not_le.mpr h), Bool.and_false]

theorem waitTime_late (hlocked : w.locked = true) (h : c.at_ 0x10 8 < w.now) : w.waitTime q c = w.beginDone q c 0 1 := by
  simp only [Work.waitTime, reached_eq_true hlocked h.le, h, decide_true, if_true, b2n]

theorem waitTime_onTime (hlocked : w.locked = true) (h : c.at_ 0x10 8 = w.now) : w.waitTime q c = w.beginDone q c 0 0 := by
  simp only [Work.waitTime, reached_eq_true hlocked h.le, Nat.not_lt.mpr h.ge, decide_false, Bool.false_eq_true, if_true, if_false, b2n]

theorem waitTime_waits (h : w.locked = false ∨ w.now < c.at_ 0x10 8) : w.waitTime q c = w.begin q c := by
  simp only [Work.waitTime, reached_eq_false h, Bool.false_eq_true, if_false]

theorem waitTimeReached_late (hlocked : w.locked = true) (h : c.at_ 0x10 8 ≤ w.now)
    (hlate : c.at_ 0x10 8 + 200 < w.now ∨ c.at_ 0x10 8 < w.chip.time.lockedAt) : w.waitTimeReached q c = w.complete q c 0 1 := by
  simp only [Work.waitTimeReached, reached_eq_true hlocked h, ← Bool.decide_or, hlate, decide_true, if_true, b2n]

theorem waitTimeReached_onTime (hlocked : w.locked = true) (h : c.at_ 0x10 8 ≤ w.now)
    (hlate : ¬ (c.at_ 0x10 8 + 200 < w.now ∨ c.at_ 0x10 8 < w.chip.time.lockedAt)) : w.waitTimeReached q c = w.complete q c 0 0 := by
  simp only [Work.waitTimeReached, reached_eq_true hlocked h, ← Bool.decide_or, hlate, decide_false, Bool.false_eq_true, if_true,
    if_false, b2n]

theorem waitTimeReached_waits (h : w.locked = false ∨ w.now < c.at_ 0x10 8) : w.waitTimeReached q c = w := by
  simp only [Work.waitTimeReached, reached_eq_false h, Bool.false_eq_true, if_false]

/-! ## SAFE_POINT (R294, R526) -/

theorem safePoint_refused (h : c.safeTiles.any (fun k => w.tileOwner k = none || w.tileOwner k ≠ w.sqOwner q) = true) :
    w.safePoint q c = w.beginDone q c 9 := if_pos h

section
variable (hown : c.safeTiles.any (fun k => w.tileOwner k = none || w.tileOwner k ≠ w.sqOwner q) = false)
include hown

theorem safePoint_starts : w.safePoint q c = (w.begin q c).settleSafePoint q c := if_neg (by rw [hown]; exact Bool.false_ne_true)

theorem safePoint_waits (h : c.safeTiles.any (fun k => (w.tile k).exDue.isSome || (w.tile k).st = .exchanging) = true) :
    w.safePoint q c = w.begin q c := (safePoint_starts hown).trans (if_pos h)

theorem safePoint_completes (h : c.safeTiles.all (fun k => (w.tile k).exDue = none && (w.tile k).st ≠ .exchanging) = true) :
    w.safePoint q c = w.beginDone q c 0 0 (BitVec.ofNat 64 c.count) := by
  have hnone : ¬ c.safeTiles.any (fun k => (w.tile k).exDue.isSome || (w.tile k).st = .exchanging) = true := by
    simpa [Option.isSome_iff_ne_none, not_or] using h
  exact (safePoint_starts hown).trans (if_neg hnone)

end

/-! ## SEM_WAIT (R292) -/

theorem semRead_asked (h : w.xferQuiet (.command q c.seq) = false) : w.semRead q c = w := by
  simp only [Work.semRead, h, Bool.not_false, if_true]

section
variable {v : Work} {a : Nat} (hquiet : w.xferQuiet (.command q c.seq) = true)
include hquiet

theorem semRead_unreached {st : Nat} (h : w.engReach (w.eng (.command q c.seq)) false (c.at_ 0x10 8) 8 false = (v, .bad st a)) :
    w.semRead q c = v.complete q c st 0 (BitVec.ofNat 64 a) := by
  simp only [Work.semRead, hquiet, h, Bool.not_true, Bool.false_eq_true, if_false]

variable (hreach : w.engReach (w.eng (.command q c.seq)) false (c.at_ 0x10 8) 8 false = (v, .ok a))
include hreach

/-- The request of a word of another module, and the status with which it is refused. -/
def semAsk (w v : Work) (q : Nat) (c : Cmd) (a : Nat) : Work × Option Nat :=
  v.issueRemote (.command q c.seq) (w.eng (.command q c.seq)).pound 1 a 8 [] [] { Remote.blank with va := c.at_ 0x10 8 }

theorem semRead_remote {m o : Nat} (hplace : v.place a = .glob m o) :
    w.semRead q c = match semAsk w v q c a with | (u, some st) => u.complete q c st | (u, none) => u := by
  simp only [Work.semRead, hquiet, hreach, hplace, Bool.not_true, Bool.false_eq_true, if_false]
  rfl

theorem semRead_remote_asked {m o : Nat} (hplace : v.place a = .glob m o) (h : (semAsk w v q c a).2 = none) :
    w.semRead q c = (semAsk w v q c a).1 := by
  rw [semRead_remote hquiet hreach hplace, ← Prod.mk.eta (p := semAsk w v q c a), h]

theorem semRead_remote_refused {m o st : Nat} (hplace : v.place a = .glob m o) (h : (semAsk w v q c a).2 = some st) :
    w.semRead q c = (semAsk w v q c a).1.complete q c st := by
  rw [semRead_remote hquiet hreach hplace, ← Prod.mk.eta (p := semAsk w v q c a), h]

theorem semRead_port {p o : Nat} (hplace : v.place a = .mmio p o) :
    w.semRead q c = v.portRead p (.command q c.seq) a (c.at_ 0x10 8) 8 none := by
  simp only [Work.semRead, hquiet, hreach, hplace, Bool.not_true, Bool.false_eq_true, if_false]

variable (hglob : ∀ m o, v.place a ≠ .glob m o) (hmmio : ∀ p o, v.place a ≠ .mmio p o)
include hglob hmmio

theorem semRead_poison (h : (v.vpoison a 8).isSome = true) :
    w.semRead q c = v.complete q c 7 0 (BitVec.ofNat 64 (c.at_ 0x10 8)) := by
  obtain ⟨x, hx⟩ := Option.isSome_iff_exists.mp h
  simp only [Work.semRead, hquiet, hreach, hx, Bool.not_true, Bool.false_eq_true, if_false]

theorem semRead_value (h : (v.vpoison a 8).isSome = false) :
    w.semRead q c = v.semSeen q c.seq (BitVec.ofNat 64 (leNat (v.vread a 8))) := by
  have hx : v.vpoison a 8 = none := by simpa using h
  simp only [Work.semRead, hquiet, hreach, hx, Bool.not_true, Bool.false_eq_true, if_false]

end
end

/-- SEM_WAIT reads its word when it starts and at each poll. -/
theorem runs_semRead {s : State} {q : SqId} {n : W32} {c : Cmd} {i : Instr} {w v : Work}
    (h : i = .semWait q ∧ Turn s q 4 c ∧ n = c.seq ∧ w = (Work.of s).begin q c ∨ i = .semWaitPoll q n ∧ Going s q n 4 c ∧ w = Work.of s)
    (hw : w.semRead q c = v) : Runs i s v := by
  rcases h with ⟨rfl, ht, -, rfl⟩ | ⟨rfl, hg, rfl⟩
  · exact runs_of_turn exec_semWait ht rfl hw
  · exact runs_of_going exec_semWaitPoll hg hw

/-- Settles O17: each command by the equation of its outcome. -/
theorem plainCommandsAndWaits : Obligations.PlainCommandsAndWaits := by
  unfold Obligations.PlainCommandsAndWaits
  refine ⟨⟨fun s q c ht => runs_of_turn exec_nop ht rfl rfl, fun s q c ht => runs_of_turn exec_phase ht rfl rfl,
      fun s q c ht => ⟨fun p hp => runs_of_turn exec_hint ht rfl (hint_owned hp), fun hp => runs_of_turn exec_hint ht rfl (hint_unowned hp)⟩,
      fun s q c ht => ⟨?late, ?onTime, ?waits⟩, fun s q n c hg => ⟨?reachedLate, ?reached, ?notReached⟩,
      fun s q c ht => ⟨?refused, fun hown => ⟨?safe, ?exchanges⟩⟩, fun s q n c hg => ⟨?timeout, ?noTimeout⟩⟩,
    fun s q n c i w hi => ⟨?asked, fun hquiet => ⟨?unreached, fun v a hreach => ⟨fun m o hplace => ⟨?remote, ?remoteRefused⟩, ?port,
      fun hglob hmmio => ⟨?poison, ?value⟩⟩⟩⟩⟩
  case late => exact fun ⟨hlocked, h⟩ => runs_of_turn exec_waitTime ht rfl (waitTime_late hlocked h)
  case onTime => exact fun ⟨hlocked, h⟩ => runs_of_turn exec_waitTime ht rfl (waitTime_onTime hlocked h)
  case waits => exact fun h => runs_of_turn exec_waitTime ht rfl (waitTime_waits h)
  case reachedLate => exact fun ⟨hlocked, h, hlate⟩ => runs_of_going exec_waitTimeReached hg (waitTimeReached_late hlocked h hlate)
  case reached => exact fun ⟨hlocked, h, hlate⟩ => runs_of_going exec_waitTimeReached hg (waitTimeReached_onTime hlocked h hlate)
  case notReached => exact fun h => becomes_of_going exec_waitTimeReached hg (waitTimeReached_waits h)
  case refused => exact fun h => runs_of_turn exec_safePoint ht rfl (safePoint_refused h)
  case safe => exact fun h => runs_of_turn exec_safePoint ht rfl (safePoint_completes hown h)
  case exchanges => exact fun h => runs_of_turn exec_safePoint ht rfl (safePoint_waits hown h)
  case timeout => exact fun h => runs_of_going exec_semWaitTimeout hg (if_neg h)
  case noTimeout => exact fun h => becomes_of_going exec_semWaitTimeout hg (if_pos h)
  case asked => exact fun h => runs_semRead hi (semRead_asked h)
  case unreached => exact fun v st a hreach => runs_semRead hi (semRead_unreached hquiet hreach)
  case remote => exact fun h => runs_semRead hi (semRead_remote_asked hquiet hreach hplace h)
  case remoteRefused => exact fun st h => runs_semRead hi (semRead_remote_refused hquiet hreach hplace h)
  case port => exact fun p o hplace => runs_semRead hi (semRead_port hquiet hreach hplace)
  case poison => exact fun h => runs_semRead hi (semRead_poison hquiet hreach hglob hmmio h)
  case value => exact fun h => runs_semRead hi (semRead_value hquiet hreach hglob hmmio h)

end Sys2Proof
end

section
/-!
MOVE, WRITE, SEM_SIGNAL and LEDGER_READ (Obligations.CopyCommands): what each starts, and the completion that they share.
-/

namespace Sys2Proof

open Sys2Proof.Machine

/-! ## Starting (R290, R291, R293, R294) -/

section
variable {w : Work} {q : Nat} {c : Cmd}

theorem move_refused {d : MoveDesc} (hd : w.moveDesc q c = d)
    (h : (d.ok && w.weightOk (w.eng (.command q c.seq)) d d.pieces) = false) : w.move q c = w.beginDone q c 1 := by
  rw [Work.move, hd]
  exact if_pos (by rw [← Bool.not_and, h, Bool.not_false])

theorem move_starts {d : MoveDesc} (hd : w.moveDesc q c = d)
    (h : (d.ok && w.weightOk (w.eng (.command q c.seq)) d d.pieces) = true) :
    w.move q c = ((w.begin q c).modCmd q c.seq (fun x => { x with xf := { Xfer.none with todo := d.pieces } })).pump
      (.command q c.seq) := by
  rw [Work.move, hd]
  exact if_neg (by rw [← Bool.not_and, h]; exact Bool.false_ne_true)

/-- A tile of another pound, or of none. -/
theorem notOwned_iff {k : Nat} : (w.tileOwner k = none || w.tileOwner k ≠ w.sqOwner q) = true ↔
    w.tileOwner k = none ∨ w.tileOwner k ≠ w.sqOwner q := by
  rw [Bool.or_eq_true, decide_eq_true_eq, decide_eq_true_eq]

theorem not_notOwned {k : Nat} (h : w.tileOwner k ≠ none) (hown : w.tileOwner k = w.sqOwner q) :
    ¬ (w.tileOwner k = none || w.tileOwner k ≠ w.sqOwner q) = true :=
  fun hn => (notOwned_iff.mp hn).elim h (fun hne => hne hown)

section
variable {v : Work} (hv : (if c.scope = 3 then w.dropStale else w) = v)
include hv

theorem semSignal_refused (hkind : c.at_ 0x0C 1 = 2) (h : v.tileOwner (c.at_ 0x20 2) = none ∨ v.tileOwner (c.at_ 0x20 2) ≠ v.sqOwner q) :
    w.semSignal q c = v.beginDone q c 9 := by
  simp only [Work.semSignal, hv, hkind]
  exact if_pos (notOwned_iff.mpr h)

theorem semSignal_tile (hkind : c.at_ 0x0C 1 = 2) (h : v.tileOwner (c.at_ 0x20 2) ≠ none)
    (hown : v.tileOwner (c.at_ 0x20 2) = v.sqOwner q) :
    w.semSignal q c =
      ((v.begin q c).modTile (c.at_ 0x20 2) (fun x => semPlus x (c.at_ 0x22 1) (c.at_ 0x18 4))).complete q c 0 := by
  simp only [Work.semSignal, hv, hkind]
  exact if_neg (not_notOwned h hown)

theorem semSignal_writes (hkind : c.at_ 0x0C 1 = 0) :
    w.semSignal q c = ((v.begin q c).inlineWrite q c (c.at_ 0x10 8) (leBytes 8 (c.at_ 0x18 8)) true).writeComplete q c.seq := by
  simp only [Work.semSignal, hv, hkind, if_true]

theorem semSignal_adds (hkind : c.at_ 0x0C 1 = 1) : w.semSignal q c = ((v.begin q c).signalAdd q c).writeComplete q c.seq := by
  simp only [Work.semSignal, hv, hkind]
  rfl

end

theorem ledgerRead_refused (h : w.tileOwner (c.at_ 0x0C 2) = none ∨ w.tileOwner (c.at_ 0x0C 2) ≠ w.sqOwner q) :
    w.ledgerRead q c = w.beginDone q c 9 := if_pos (notOwned_iff.mpr h)

/-- The slot that LEDGER_READ names, copied to its destination. -/
def ledgerCopied (w : Work) (q : Nat) (c : Cmd) : Work :=
  (w.begin q c).inlineWrite q c (c.at_ 0x10 8) ((w.tile (c.at_ 0x0C 2)).ledgerSlot (c.at_ 0x0E 1)).bytes true

section
variable (h : w.tileOwner (c.at_ 0x0C 2) ≠ none) (hown : w.tileOwner (c.at_ 0x0C 2) = w.sqOwner q)
include h hown

theorem ledgerRead_keeps (hclear : c.at_ 0x0F 1 = 0) : w.ledgerRead q c = (ledgerCopied w q c).writeComplete q c.seq := by
  refine (if_neg (not_notOwned h hown)).trans ?_
  rw [if_neg (by rw [hclear]; decide)]
  rfl

theorem ledgerRead_clears (hclear : c.at_ 0x0F 1 = 1) :
    w.ledgerRead q c = ((ledgerCopied w q c).modTile (c.at_ 0x0C 2) (fun x =>
      { x with ledger := SMap.set LedgerSlot.zero x.ledger (c.at_ 0x0E 1) LedgerSlot.zero })).writeComplete q c.seq := by
  refine (if_neg (not_notOwned h hown)).trans ?_
  rw [if_pos hclear]
  rfl

end

/-! ## Completion (R287, R290, R298, R341) -/

/-- The read-ahead entries of a copy command's lines go at SYSTEM scope. -/
def copyVisible (w : Work) (c : Cmd) : Work := if c.scope = 3 then w.dropLines c.xf.lines else w

theorem copyComplete_failed_waits {st a : Nat} (hf : c.xf.failed = some (st, a)) (h : w.xferQuiet (.command q c.seq) = false) :
    w.copyComplete q c = w := by
  simp only [Work.copyComplete, hf, h, Bool.not_false, if_true]

theorem copyComplete_failed {st a : Nat} (hf : c.xf.failed = some (st, a)) (h : w.xferQuiet (.command q c.seq) = true) :
    w.copyComplete q c = (copyVisible w c).complete q c st 0 (if 4 ≤ st && st ≤ 7 then BitVec.ofNat 64 a else 0) := by
  simp only [Work.copyComplete, hf, h, Bool.not_true, Bool.false_eq_true, if_false, copyVisible]

theorem copyComplete_waits (hf : c.xf.failed = none) (h : w.xferDone (.command q c.seq) = false) : w.copyComplete q c = w := by
  simp only [Work.copyComplete, hf, h, Bool.not_false, if_true]

theorem copyComplete_done (hf : c.xf.failed = none) (h : w.xferDone (.command q c.seq) = true) :
    w.copyComplete q c = (copyVisible w c).complete q c 0 := by
  simp only [Work.copyComplete, hf, h, Bool.not_true, Bool.false_eq_true, if_false, copyVisible]

end

section
variable {w : Work} {q op : Nat} {n : W32} {c : Cmd}

theorem started?_eq_some_iff : w.started? q n op = some c ↔ w.cmd? q n = some c ∧ c.phase = .started ∧ c.op = op := by
  rw [Work.started?]
  cases w.cmd? q n with
  | none => simp
  | some d =>
    simp only [Bool.and_eq_true, decide_eq_true_eq, Option.ite_none_right_eq_some, Option.some.injEq]
    constructor
    · rintro ⟨h, rfl⟩
      exact ⟨rfl, h⟩
    · rintro ⟨rfl, h⟩
      exact ⟨h, rfl⟩

theorem writeComplete_of_started (h : w.started? q n op = some c) (hop : op = 3 ∨ op = 5 ∨ op = 11) :
    w.writeComplete q n = w.copyComplete q c := by
  obtain ⟨hcmd, hphase, rfl⟩ := started?_eq_some_iff.mp h
  simp only [Work.writeComplete, hcmd, hphase]
  exact if_pos (by simpa [or_assoc] using hop)

end

/-- The commands at which a copy command completes, or waits until it can. -/
def CopyEnds (s : State) (q : SqId) (n : W32) (c : Cmd) (i : Instr) : Prop :=
  i = .moveComplete q n ∧ Going s q n 2 c ∨ i = .writeComplete q n ∧ (Going s q n 3 c ∨ Going s q n 5 c ∨ Going s q n 11 c)

section
variable {s : State} {q : SqId} {n : W32} {c : Cmd} {i : Instr}

theorem exec_copyEnds (h : CopyEnds s q n c i) :
    ∃ f : Work → Work, exec i s = lift f s ∧ f (Work.of s) = (Work.of s).copyComplete q c := by
  rcases h with ⟨rfl, hg⟩ | ⟨rfl, hg⟩
  · exact ⟨_, exec_moveComplete, finish_of_going hg _⟩
  · refine ⟨_, exec_writeComplete, ?_⟩
    rcases hg with hg | hg | hg
    · exact writeComplete_of_started hg (.inl rfl)
    · exact writeComplete_of_started hg (.inr (.inl rfl))
    · exact writeComplete_of_started hg (.inr (.inr rfl))

theorem runs_copyEnds {w : Work} (h : CopyEnds s q n c i) (hw : (Work.of s).copyComplete q c = w) : Runs i s w := by
  obtain ⟨f, hexec, hf⟩ := exec_copyEnds h
  exact runs_of_lift hexec (hf.trans hw)

theorem becomes_copyEnds (h : CopyEnds s q n c i) (hw : (Work.of s).copyComplete q c = Work.of s) : Becomes i s s.chip := by
  obtain ⟨f, hexec, hf⟩ := exec_copyEnds h
  exact becomes_of_lift hexec (hf.trans hw)

end

/-- Settles O20: each start by the equation of its outcome; the completions by that of `copyComplete`. -/
theorem copyCommands : Obligations.CopyCommands := by
  unfold Obligations.CopyCommands
  refine ⟨⟨fun s q c ht => ⟨?refused, ?moves⟩, fun s q c ht => runs_of_turn exec_write ht rfl rfl,
      fun s q c ht => ⟨?otherTile, ?signals, ?writes, ?adds⟩, fun s q c ht => ⟨?otherLedger, fun h hown => ⟨?keeps, ?clears⟩⟩⟩,
    fun s q n c i hi => ⟨fun st a hf => ⟨?failedWaits, ?failed⟩, ?waits, ?done⟩⟩
  case refused => exact fun h => runs_of_turn exec_move ht rfl (move_refused rfl h)
  case moves => exact fun h => runs_of_turn exec_move ht rfl (move_starts rfl h)
  case otherTile => exact fun hkind h => runs_of_turn exec_semSignal ht rfl (semSignal_refused rfl hkind h)
  case signals => exact fun hkind h hown => runs_of_turn exec_semSignal ht rfl (semSignal_tile rfl hkind h hown)
  case writes => exact fun hkind => runs_of_turn exec_semSignal ht rfl (semSignal_writes rfl hkind)
  case adds => exact fun hkind => runs_of_turn exec_semSignal ht rfl (semSignal_adds rfl hkind)
  case otherLedger => exact fun h => runs_of_turn exec_ledgerRead ht rfl (ledgerRead_refused h)
  case keeps => exact fun hclear => runs_of_turn exec_ledgerRead ht rfl (ledgerRead_keeps h hown hclear)
  case clears => exact fun hclear => runs_of_turn exec_ledgerRead ht rfl (ledgerRead_clears h hown hclear)
  case failedWaits => exact fun h => becomes_copyEnds hi (copyComplete_failed_waits hf h)
  case failed => exact fun h => runs_copyEnds hi (copyComplete_failed hf h)
  case waits => exact fun hf h => becomes_copyEnds hi (copyComplete_waits hf h)
  case done => exact fun hf h => runs_copyEnds hi (copyComplete_done hf h)

end Sys2Proof
end

section
/-!
Doorbells, and the drain of a submission queue (Obligations.DoorbellsAndDrains): one equation for each outcome of a doorbell, and of
the end of a drain.
-/

namespace Sys2Proof

open Sys2Proof.Machine

/-! ## Doorbells (R276, R278, R329) -/

section
variable {w : Work} {c q : Nat} {z : Size} {v : W64}

theorem highHalf_ne_zero_iff (v : W64) : bits v 63 32 ≠ 0 ↔ 2 ^ 32 ≤ v.toNat := by
  have := v.isLt
  simp only [bits]
  omega

/-- A store that is no doorbell: of another size, or of 64 bits with an upper half. -/
theorem badDoorbell_iff : (!regSize z || (z = .b8 && bits v 63 32 ≠ 0)) = true ↔ regSize z = false ∨ z = .b8 ∧ 2 ^ 32 ≤ v.toNat := by
  rw [Bool.or_eq_true, Bool.and_eq_true, Bool.not_eq_true', decide_eq_true_eq, decide_eq_true_eq, highHalf_ne_zero_iff]

theorem ringDoorbell_malformed (h : regSize z = false ∨ z = .b8 ∧ 2 ^ 32 ≤ v.toNat) :
    w.ringDoorbell c q z v = w.record
      { cls := 0x0601, kind := 1, id := c, pound := optPound (w.coreOwner c), action := 6, addr := 0x3F00_0000_0000 + q * 8
        d0 := v.toNat } := if_pos (badDoorbell_iff.mpr h)

theorem satAdd_one (n : Nat) : satAdd 32 n 1 = min 0xFFFF_FFFF (n + 1) := Nat.min_comm _ _

section
variable (hz : regSize z = true) (hv : z = .b8 → v.toNat < 2 ^ 32)
include hz hv

theorem not_badDoorbell : ¬ (!regSize z || (z = .b8 && bits v 63 32 ≠ 0)) = true := by
  rw [badDoorbell_iff]
  rintro (h | ⟨h8, h⟩)
  · exact absurd hz (by rw [h]; decide)
  · exact absurd h (Nat.not_le.mpr (hv h8))

theorem ringDoorbell_denied (h : w.sqOwner q = none ∨ w.coreOwner c ≠ w.sqOwner q) :
    w.ringDoorbell c q z v = w.denyStore c (0x3F00_0000_0000 + q * 8) := by
  refine (if_neg (not_badDoorbell hz hv)).trans (if_pos ?_)
  rwa [Bool.or_eq_true, decide_eq_true_eq, decide_eq_true_eq]

variable (hsome : w.sqOwner q ≠ none) (hown : w.coreOwner c = w.sqOwner q)
include hsome hown

/-- A doorbell of the queue's own pound. -/
theorem ringDoorbell_owned : w.ringDoorbell c q z v =
    if (w.sq q).st ≠ .running then w.modSq q (fun s => { s with refused := satAdd 32 s.refused 1 })
    else if v.setWidth 32 = (w.sq q).tail then w
    else if (v.setWidth 32 - (w.sq q).tail).toNat < 2 ^ 31 && (v.setWidth 32 - (w.sq q).head).toNat ≤ (w.sq q).slots then
      w.modSq q (fun s => { s with tail := v.setWidth 32 })
    else w.stopSq q 1 0 (v.setWidth 32).toNat := by
  refine (if_neg (not_badDoorbell hz hv)).trans (if_neg ?_)
  rw [Bool.or_eq_true, decide_eq_true_eq, decide_eq_true_eq]
  exact fun h => h.elim hsome (fun hne => hne hown)

theorem ringDoorbell_refused (hst : (w.sq q).st ≠ .running) :
    w.ringDoorbell c q z v = w.modSq q (fun x => { x with refused := min 0xFFFF_FFFF (x.refused + 1) }) := by
  rw [ringDoorbell_owned hz hv hsome hown, if_pos hst]
  simp only [satAdd_one]

variable (hst : (w.sq q).st = .running)
include hst

theorem ringDoorbell_same (h : v.setWidth 32 = (w.sq q).tail) : w.ringDoorbell c q z v = w := by
  rw [ringDoorbell_owned hz hv hsome hown, if_neg (not_not.mpr hst), if_pos h]

theorem ringDoorbell_moves (hne : v.setWidth 32 ≠ (w.sq q).tail) (hahead : (v.setWidth 32 - (w.sq q).tail).toNat < 2 ^ 31)
    (hroom : (v.setWidth 32 - (w.sq q).head).toNat ≤ 2 ^ (w.sq q).log2) :
    w.ringDoorbell c q z v = w.modSq q (fun x => { x with tail := v.setWidth 32 }) := by
  rw [ringDoorbell_owned hz hv hsome hown, if_neg (not_not.mpr hst), if_neg hne, if_pos]
  rw [Bool.and_eq_true, decide_eq_true_eq, decide_eq_true_eq]
  exact ⟨hahead, hroom⟩

theorem ringDoorbell_stops (h : 2 ^ 31 ≤ (v.setWidth 32 - (w.sq q).tail).toNat ∨
      v.setWidth 32 ≠ (w.sq q).tail ∧ 2 ^ (w.sq q).log2 < (v.setWidth 32 - (w.sq q).head).toNat) :
    w.ringDoorbell c q z v = w.stopSq q 1 0 (v.setWidth 32).toNat := by
  have hne : v.setWidth 32 ≠ (w.sq q).tail := by
    rcases h with h | ⟨h, -⟩
    · intro he
      rw [he, BitVec.sub_self] at h
      exact absurd h (by decide)
    · exact h
  rw [ringDoorbell_owned hz hv hsome hown, if_neg (not_not.mpr hst), if_neg hne, if_neg]
  rw [Bool.and_eq_true, decide_eq_true_eq, decide_eq_true_eq]
  rintro ⟨hahead, hroom⟩
  rcases h with h | ⟨-, h⟩
  · exact absurd hahead (Nat.not_lt.mpr h)
  · exact absurd hroom (Nat.not_le.mpr h)

end
end

/-- A hart that goes on rings a doorbell once its stores have drained. -/
theorem runs_doorbell {s : State} {c : CoreId} {q : SqId} {z : Size} {v : W64} {w : Work} (h : HartFree s c)
    (hw : (untrap c ((Work.of s).drainStores c)).ringDoorbell c q z v = w) : Runs (.doorbell c q z v) s w :=
  runs_of_lift exec_doorbell ((hostIo_of_free h _).trans hw)

theorem denyStore_untrap (w : Work) (c a : Nat) : (untrap c w).denyStore c a =
    w.modCore c (fun x => { x with trap := some (7, BitVec.ofNat 64 a), resv := none, lrHold := false }) := by
  rw [untrap, Work.denyStore, Work.hostTrap, Work.modCore_modCore]

/-- Where none of its stores waits, a refused doorbell is a trap of the core and nothing else. -/
theorem doorbell_traps {s : State} {c : CoreId} {q : SqId} {z : Size} {v : W64} {a : Nat} (h : HartFree s c)
    (hbuf : (coreOf s c).storeBuf = [])
    (hw : (untrap c ((Work.of s).drainStores c)).ringDoorbell c q z v = (untrap c ((Work.of s).drainStores c)).denyStore c a) :
    Gives (.doorbell c q z v) s (CoreTo c (fun h => { h with trap := some (7, BitVec.ofNat 64 a), resv := none, lrHold := false }) s) := by
  rw [drainStores_nil hbuf] at hw
  exact gives_of_modCore _ exec_doorbell ((hostIo_free _ h hbuf).trans (hw.trans (denyStore_untrap _ _ _))) rfl

/-! ## Drains (R302, R305, R307) -/

section
variable {w : Work} {q : Nat}

theorem queueDrainEnd_notDraining (h : (w.sq q).st ≠ .draining) : w.queueDrainEnd q = w :=
  if_pos (by rw [decide_eq_true h, Bool.true_or, Bool.true_or])

theorem queueDrainEnd_busy (h : ∃ c ∈ (w.sq q).cmds, c.isDone = false) : w.queueDrainEnd q = w := by
  have hbusy : w.sqBusy q = true := by simpa [Work.sqBusy] using h
  exact if_pos (by rw [hbusy, Bool.or_true, Bool.true_or])

theorem queueDrainEnd_entries (hcq : (w.cq (w.sq q).cqNum).st ≠ .faulted)
    (h : (w.sq q).cmds ≠ [] ∨ (w.cq (w.sq q).cqNum).pend ≠ []) : w.queueDrainEnd q = w := by
  have hleft : ((w.sq q).cmds.isEmpty && (w.cq (w.sq q).cqNum).pend.isEmpty) = false := by
    rw [Bool.and_eq_false_iff, List.isEmpty_eq_false_iff, List.isEmpty_eq_false_iff]
    exact h
  refine if_pos ?_
  rw [decide_eq_true hcq, hleft, Bool.not_false, Bool.and_self, Bool.or_true]

/-- The terminal entry of the drain of queue q. -/
def drainEntry (q : Nat) (x : Sq) : Entry :=
  { seq := x.fetched, tag := 0, status := 0x13, flags := 0, sq := BitVec.ofNat 32 q
    d0 := BitVec.ofNat 64 (x.head.toNat + x.tail.toNat * 2 ^ 32), d1 := BitVec.ofNat 64 x.aborted, reserved := true }

theorem queueDrainEnd_ends (hst : (w.sq q).st = .draining) (hdone : ∀ c ∈ (w.sq q).cmds, c.isDone = true)
    (h : (w.cq (w.sq q).cqNum).st = .faulted ∨ (w.sq q).cmds = [] ∧ (w.cq (w.sq q).cqNum).pend = []) :
    w.queueDrainEnd q =
      ((w.terminal (w.sq q).cqNum (drainEntry q (w.sq q))).modCq (w.sq q).cqNum (fun c => { c with bound := c.bound - 1 })).modSq q
        (fun y => { y with
          st := .disabled, tail := y.head, started := y.fetched, completed := y.fetched, cmds := [], aborted := 0 }) := by
  have hbusy : w.sqBusy q = false := by simpa [Work.sqBusy] using hdone
  have hleft : (decide ((w.cq (w.sq q).cqNum).st ≠ .faulted) &&
      !((w.sq q).cmds.isEmpty && (w.cq (w.sq q).cqNum).pend.isEmpty)) = false := by
    rcases h with h | ⟨hcmds, hpend⟩
    · rw [decide_eq_false (not_not.mpr h), Bool.false_and]
    · rw [hcmds, hpend]; exact Bool.and_false _
  refine if_neg ?_
  rw [decide_eq_false (not_not.mpr hst), hbusy, hleft]
  exact Bool.false_ne_true

/-- The terminal entry is held by a FAULTED queue, or by one that faults as it is written. -/
theorem terminal_eq (n : Nat) (e : Entry) : w.terminal n e =
    if (w.cq n).st = .faulted then w.pushEntry n e
    else if (w.writeEntry n e).2 then (w.writeEntry n e).1 else (w.writeEntry n e).1.pushEntry n e := by
  rw [Work.terminal]
  cases hwritten : w.writeEntry n e with
  | mk v b => cases b <;> rfl

end

/-- Settles O21: a doorbell, and the end of a drain, by the equation of each outcome. -/
theorem doorbellsAndDrains : Obligations.DoorbellsAndDrains := by
  unfold Obligations.DoorbellsAndDrains
  refine ⟨fun s c q z v hfree => ⟨?malformed, fun hz hv => ⟨fun h => ⟨?denied, ?trap⟩, fun hsome hown => ⟨?refused, ?same, ?moves, ?stops⟩⟩⟩,
    fun s q => ⟨?notDraining, ?timeout, ?busy, ?entries, ?ends⟩⟩
  case malformed => exact fun h => runs_doorbell hfree (ringDoorbell_malformed h)
  case denied => exact runs_doorbell hfree (ringDoorbell_denied hz hv h)
  case trap => exact fun hbuf => doorbell_traps hfree hbuf (ringDoorbell_denied hz hv h)
  case refused => exact fun hst => runs_doorbell hfree (ringDoorbell_refused hz hv hsome hown hst)
  case same => exact fun hst h => runs_doorbell hfree (ringDoorbell_same hz hv hsome hown hst h)
  case moves => exact fun hst hne hahead hroom => runs_doorbell hfree (ringDoorbell_moves hz hv hsome hown hst hne hahead hroom)
  case stops => exact fun hst h => runs_doorbell hfree (ringDoorbell_stops hz hv hsome hown hst h)
  case notDraining =>
    exact fun h => ⟨becomes_of_lift exec_queueDrainTimeout (if_neg h), becomes_of_lift exec_queueDrainEnd (queueDrainEnd_notDraining h)⟩
  case timeout => exact fun h => runs_of_lift exec_queueDrainTimeout (if_pos h)
  case busy => exact fun _ h => becomes_of_lift exec_queueDrainEnd (queueDrainEnd_busy h)
  case entries => exact fun _ hcq h => becomes_of_lift exec_queueDrainEnd (queueDrainEnd_entries hcq h)
  case ends =>
    intro hst hdone h
    refine runs_of_lift exec_queueDrainEnd ((queueDrainEnd_ends hst hdone h).trans ?_)
    rw [terminal_eq]
    rfl

end Sys2Proof
end

section
/-!
Completion queues (Obligations.CompletionQueues): writing the oldest entry, acknowledgements, and the interrupt of a batch.
-/

namespace Sys2Proof

open Sys2Proof.Machine

section
variable {w : Work} {c : Nat}

/-! ## Entries (R295, R296, R302) -/

/-- The write of entry e to the next slot of completion queue c. -/
def entryWrite (w : Work) (c : Nat) (e : Entry) : Work × Res Unit :=
  w.vaWrite (cpCache (c % 16)) (poundDev ((w.cqOwner c).getD 0)) (some (w.cq c).pid) (.ring (w.cqOwner c)) 8 (c % 16)
    ((w.cq c).base.toNat + ((w.cq c).lastWritten + 1).toNat % (w.cq c).slots * 64)
    (e.bytes ((w.cq c).lastWritten + 1) (if e.sq = 0xFFFF_FFFF then 0 else (w.sq e.sq.toNat).fetched) w.now) true

theorem writeEntry_fails {e : Entry} {v : Work} {st a : Nat} (h : entryWrite w c e = (v, .bad st a)) :
    w.writeEntry c e = (v.faultCq c st a, false) := by
  rw [entryWrite] at h
  rw [Work.writeEntry, h]

theorem writeEntry_written {e : Entry} {v : Work} {l : Unit} (h : entryWrite w c e = (v, .ok l)) :
    w.writeEntry c e = (v.modCq c (fun y =>
      { y with
        lastWritten := (w.cq c).lastWritten + 1, reserved := if e.reserved then y.reserved - 1 else y.reserved
        msiDue := y.msiDue || y.irq % 2 = 1 }), true) := by
  rw [entryWrite] at h
  rw [Work.writeEntry, h]

/-- An entry of no command in a queue: a notice, the end of a drain, or the refusal of a SEQ. -/
theorem noCommand_iff {e : Entry} : (e.sq = 0xFFFF_FFFF || e.status = 0x13 || e.status = 3) = true ↔
    e.sq = 0xFFFF_FFFF ∨ e.status = 0x13 ∨ e.status = 3 := by
  rw [Bool.or_eq_true, Bool.or_eq_true, decide_eq_true_eq, decide_eq_true_eq, decide_eq_true_eq, or_assoc]

theorem writeFront_empty (h : (w.cq c).pend = []) : w.writeFront c = w := by simp only [Work.writeFront, h]

section
variable {e : Entry} {rest : List Entry} (hpend : (w.cq c).pend = e :: rest)
include hpend

theorem writeFront_waits (h : w.entryReady e = false) : w.writeFront c = w := by
  simp only [Work.writeFront, hpend, h, Bool.not_false, if_true]

variable {v : Work} (hready : w.entryReady e = true)
include hready

theorem writeFront_fails (h : w.writeEntry c e = (v, false)) : w.writeFront c = v := by
  simp only [Work.writeFront, hpend, hready, h, Bool.not_true, Bool.false_eq_true, if_false]

/-- The entry has been written; its command leaves its queue. -/
theorem writeFront_written (h : w.writeEntry c e = (v, true)) :
    w.writeFront c =
      if e.sq = 0xFFFF_FFFF || e.status = 0x13 || e.status = 3 then v.modCq c (fun x => { x with pend := rest })
      else (v.modCq c (fun x => { x with pend := rest })).retireCmd e.sq.toNat e.seq := by
  simp only [Work.writeFront, hpend, hready, h, Bool.not_true, Bool.false_eq_true, if_false]

theorem writeFront_keeps (h : w.writeEntry c e = (v, true)) (hcmd : e.sq = 0xFFFF_FFFF ∨ e.status = 0x13 ∨ e.status = 3) :
    w.writeFront c = v.modCq c (fun x => { x with pend := rest }) :=
  (writeFront_written hpend hready h).trans (if_pos (noCommand_iff.mpr hcmd))

theorem writeFront_retires (h : w.writeEntry c e = (v, true)) (hsq : e.sq ≠ 0xFFFF_FFFF) (hdrain : e.status ≠ 0x13)
    (hseq : e.status ≠ 3) : w.writeFront c = (v.modCq c (fun x => { x with pend := rest })).retireCmd e.sq.toNat e.seq :=
  (writeFront_written hpend hready h).trans (if_neg fun hcmd =>
    (noCommand_iff.mp hcmd).elim hsq (·.elim hdrain hseq))

end

/-! ## Acknowledgements (R300, R302) -/

theorem ackRead_disabled (h : (w.cq c).st = .disabled) : w.ackRead c = w := if_pos h

/-- The read of the acknowledgement word of completion queue c. -/
def ackWord (w : Work) (c : Nat) : Work × Res (List Byte) :=
  w.vaRead (cpCache (c % 16)) (poundDev ((w.cqOwner c).getD 0)) (some (w.cq c).pid) (.ring (w.cqOwner c)) 8 (c % 16)
    (w.cq c).ackAddr.toNat 8

section
variable {v : Work} (hst : (w.cq c).st ≠ .disabled)
include hst

section
variable {st a : Nat} (hread : ackWord w c = (v, .bad st a))
include hread

theorem ackRead_unreadable : w.ackRead c =
    if (w.cq c).ackFault then v else (v.modCq c (fun y => { y with ackFault := true })).recCqFault c 1 a st 1 := by
  refine (if_neg hst).trans ?_
  rw [ackWord] at hread
  rw [hread]

end

section
variable {b : List Byte} (hread : ackWord w c = (v, .ok b))
include hread

theorem ackRead_value : w.ackRead c =
    if leNat b < 2 ^ 32 && (BitVec.ofNat 32 (leNat b) - (w.cq c).lastAck).toNat ≤ ((w.cq c).lastWritten - (w.cq c).lastAck).toNat then
      v.modCq c (fun y => { y with lastAck := BitVec.ofNat 32 (leNat b) })
    else if (w.cq c).badAcks.contains (BitVec.ofNat 64 (leNat b)) then v
    else (v.modCq c (fun y => { y with badAcks := y.badAcks ++ [BitVec.ofNat 64 (leNat b)] })).record
      { cls := 0x0603, kind := 8, id := c % 16, pound := optPound (w.cqOwner c), action := 6, addr := (w.cq c).ackAddr.toNat
        d0 := leNat b, d1 := c } := by
  refine (if_neg hst).trans ?_
  rw [ackWord] at hread
  rw [hread]

theorem ackRead_taken (h : leNat b < 2 ^ 32)
    (hle : (BitVec.ofNat 32 (leNat b) - (w.cq c).lastAck).toNat ≤ ((w.cq c).lastWritten - (w.cq c).lastAck).toNat) :
    w.ackRead c = v.modCq c (fun y => { y with lastAck := BitVec.ofNat 32 (leNat b) }) :=
  (ackRead_value hst hread).trans (if_pos (by simp only [h, hle, decide_true, Bool.and_self]))

variable (hbad : 2 ^ 32 ≤ leNat b ∨
  ((w.cq c).lastWritten - (w.cq c).lastAck).toNat < (BitVec.ofNat 32 (leNat b) - (w.cq c).lastAck).toNat)
include hbad

theorem ackRead_invalid : w.ackRead c =
    if (w.cq c).badAcks.contains (BitVec.ofNat 64 (leNat b)) then v
    else (v.modCq c (fun y => { y with badAcks := y.badAcks ++ [BitVec.ofNat 64 (leNat b)] })).record
      { cls := 0x0603, kind := 8, id := c % 16, pound := optPound (w.cqOwner c), action := 6, addr := (w.cq c).ackAddr.toNat
        d0 := leNat b, d1 := c } := by
  refine (ackRead_value hst hread).trans (if_neg ?_)
  rw [Bool.and_eq_true, decide_eq_true_eq, decide_eq_true_eq, not_and_or, Nat.not_lt, Nat.not_le]
  exact hbad

end
end

/-! ## The interrupt of a batch (R301) -/

theorem msiWrite_idle (h : (w.cq c).msiDue = false ∨ (w.cq c).st = .disabled) : w.msiWrite c = w := by
  refine if_pos ?_
  rw [Bool.or_eq_true, Bool.not_eq_true', decide_eq_true_eq]
  exact h

theorem msiWrite_goes (hdue : (w.cq c).msiDue = true) (hst : (w.cq c).st ≠ .disabled) :
    w.msiWrite c = (w.modCq c (fun y => { y with msiDue := false })).msi (cpCache (c % 16)) (poundDev ((w.cqOwner c).getD 0))
      (some (w.cq c).pid) (w.cqOwner c) 8 (c % 16) (w.cq c).msiAddr.toNat (w.cq c).msiData := by
  refine if_neg ?_
  rw [Bool.or_eq_true, Bool.not_eq_true', decide_eq_true_eq]
  exact fun h => h.elim (fun h => absurd hdue (by rw [h]; decide)) hst

end

/-- Settles O23: each command by the equation of its outcome. -/
theorem completionQueues : Obligations.CompletionQueues := by
  unfold Obligations.CompletionQueues
  refine ⟨fun s c h => ?idle, fun s c e rest v hst hpend => ⟨?waits, fun hready => ⟨?fails, fun hwritten => ⟨?keeps, ?retires⟩⟩⟩,
    fun w c e => ⟨?writeFails, ?written⟩, fun s c hst => becomes_of_lift exec_ackRead (ackRead_disabled hst),
    fun s c v b hst hread => ⟨?taken, ?again, ?invalid⟩, fun s c v st a hst hread => ⟨?faultAgain, ?fault⟩,
    fun s c => ⟨?noInterrupt, ?interrupt⟩⟩
  case idle =>
    refine becomes_of_lift exec_completionWrite ?_
    by_cases hst : (cqOf s c).st = .enabled
    · exact (if_pos hst).trans (writeFront_empty (h.resolve_left (not_not.mpr hst)))
    · exact if_neg hst
  case waits => exact fun h => becomes_of_lift exec_completionWrite ((if_pos hst).trans (writeFront_waits hpend h))
  case fails => exact fun h => runs_of_lift exec_completionWrite ((if_pos hst).trans (writeFront_fails hpend hready h))
  case keeps => exact fun h => runs_of_lift exec_completionWrite ((if_pos hst).trans (writeFront_keeps hpend hready hwritten h))
  case retires =>
    exact fun hsq hdrain hseq =>
      runs_of_lift exec_completionWrite ((if_pos hst).trans (writeFront_retires hpend hready hwritten hsq hdrain hseq))
  case writeFails => exact fun st a h => writeEntry_fails (Prod.ext rfl h)
  case written => exact fun l h => writeEntry_written (l := l) (Prod.ext rfl h)
  case taken => exact fun ⟨h, hle⟩ => runs_of_lift exec_ackRead (ackRead_taken hst hread h hle)
  case again =>
    exact fun hbad hseen => runs_of_lift exec_ackRead ((ackRead_invalid hst hread hbad).trans (if_pos (List.contains_iff_mem.mpr hseen)))
  case invalid =>
    exact fun hbad hnew => runs_of_lift exec_ackRead ((ackRead_invalid hst hread hbad).trans
      (if_neg (hnew ∘ List.contains_iff_mem.mp)))
  case faultAgain => exact fun h => runs_of_lift exec_ackRead ((ackRead_unreadable hst hread).trans (if_pos h))
  case fault =>
    exact fun h => runs_of_lift exec_ackRead ((ackRead_unreadable hst hread).trans (if_neg (Bool.eq_false_iff.mp h)))
  case noInterrupt => exact fun h => becomes_of_lift exec_msiWrite (msiWrite_idle h)
  case interrupt => exact fun hdue hst => runs_of_lift exec_msiWrite (msiWrite_goes hdue hst)

end Sys2Proof
end

section
/-!
Self-reset of a pound, its heartbeat, and CAT_POUND_CTRL (Obligations.SelfResets): one equation for each outcome.
-/

namespace Sys2Proof

open Sys2Proof.Machine

/-- A host core of pound p writes a register that is its pound's own. -/
theorem runs_of_poundReg {i : Instr} {s : State} {c p off : Nat} {z : Size} {high : Bool} {v : W64} {F : Work → Work} {w : Work}
    (h : exec i s = lift (fun w => w.regStore c off z high (w.isPound c p) v F) s) (hz : regSize z = true)
    (ho : RegOpen s c off ((Work.of s).isPound c p)) (hw : F (Work.of s) = w) : Runs i s (untrap c w) :=
  runs_of_lift h ((regStore_open F hz ho).trans (congrArg (untrap c) hw))

/-! ## One act for each of a list -/

section
variable {β : Type} {w : Work} {l : List β} {f : Work → β → Work}

theorem each_of_noChange (h : ∀ x ∈ l, f w x = w) : w.each l f = w := by
  induction l with
  | nil => rfl
  | cons x l ih =>
    rw [Work.each_cons, h x List.mem_cons_self]
    exact ih fun y hy => h y (List.mem_cons_of_mem x hy)

/-- Only the act for x changes anything. -/
theorem each_of_oneChange {x : β} (hl : l.Nodup) (hx : x ∈ l) (hbefore : ∀ y ∈ l, y ≠ x → f w y = w)
    (hafter : ∀ y ∈ l, y ≠ x → f (f w x) y = f w x) : w.each l f = f w x := by
  obtain ⟨a, b, rfl⟩ := List.append_of_mem hx
  obtain ⟨-, hb, hab⟩ := List.nodup_append.mp hl
  have hfirst : w.each a f = w :=
    each_of_noChange fun y hy => hbefore y (List.mem_append_left _ hy) (hab y hy x List.mem_cons_self)
  have hlast : (f w x).each b f = f w x :=
    each_of_noChange fun y hy => hafter y (List.mem_append_right _ (List.mem_cons_of_mem x hy)) fun hyx =>
      (List.nodup_cons.mp hb).1 (hyx ▸ hy)
  rw [Work.each, List.foldl_append, List.foldl_cons]
  rw [Work.each] at hfirst hlast
  rw [hfirst, hlast]

end

section
variable {w : Work} {c p : Nat}

/-! ## SELF_RESET (R309, R571, R574) -/

theorem selfResetOp_ignored (v : W64) (h : (w.pound p).held = true ∨ (w.pound p).selfResetAfter ≠ none) :
    w.selfResetOp c p v = w.ignoreReg c (poundCtrlOff p) .b8 v := by
  refine if_pos ?_
  rwa [Bool.or_eq_true, Option.isSome_iff_ne_none]

section
variable (hheld : (w.pound p).held = false) (hafter : (w.pound p).selfResetAfter = none)
include hheld hafter

theorem selfResetOp_resets (v : W64) : w.selfResetOp c p v = w.selfReset p 3 := by
  refine if_neg ?_
  rw [hheld, hafter]; decide

variable (cause : Nat) (hcfg : (w.pound p).cfg ≠ none)
include hcfg

/-- A pound that has a configuration, and no self-reset yet. -/
theorem not_selfResetting : ¬ ((w.pound p).held || (w.pound p).selfResetAfter.isSome || (w.pound p).cfg.isNone) = true := by
  rw [hheld, hafter, Bool.false_or, Option.isSome_none, Bool.false_or, Option.isNone_iff_eq_none]
  exact hcfg

theorem selfReset_deferred (hst : (w.pound p).st ≠ .running) :
    w.selfReset p cause = w.modPound p (fun x => { x with selfResetAfter := some cause, armed := false }) :=
  (if_neg (not_selfResetting hheld hafter hcfg)).trans (if_pos hst)

theorem selfReset_acts (hst : (w.pound p).st = .running) :
    w.selfReset p cause = (((w.modPound p (fun x =>
      { x with
        held := true, cause := cause, losses := min (x.losses + 1) 0xFFFF, armed := false, selfReset := true
        st := .draining })).holdQueues p).cancelPoundOrders p).settleSelfReset p :=
  (if_neg (not_selfResetting hheld hafter hcfg)).trans (if_neg (not_not.mpr hst))

end

theorem selfReset_ignored (cause : Nat) (h : (w.pound p).held = true ∨ (w.pound p).selfResetAfter ≠ none ∨ (w.pound p).cfg = none) :
    w.selfReset p cause = w := by
  refine if_pos ?_
  rwa [Bool.or_eq_true, Bool.or_eq_true, Option.isSome_iff_ne_none, Option.isNone_iff_eq_none, or_assoc]

/-! ## RESUME and DISARM (R305, R573, R575) -/

theorem resumeOp_ignored (v : W64) (h : (w.pound p).st ≠ .waitingOwner) :
    w.resumeOp c p v = w.ignoreReg c (poundCtrlOff p) .b8 v := if_pos h

/-- A queue that a self-reset holds is DISABLED, and returns its binding and its reservation. -/
def releaseQueue (w : Work) (q : Nat) : Work :=
  if (w.sq q).st ≠ .held then w
  else (w.modSq q (fun y => { y with st := .disabled })).modCq (w.sq q).cqNum (fun c =>
    { c with bound := c.bound - 1, reserved := c.reserved - 1 })

/-- The pound runs, and is neither held nor armed. -/
def poundResumed (w : Work) (p : Nat) : Work :=
  w.modPound p (fun x => { x with held := false, selfReset := false, fenced := false, armed := false, st := .running })

section
variable (v : W64) (hst : (w.pound p).st = .waitingOwner)
include hst

theorem resumeOp_resumes : w.resumeOp c p v = poundResumed (w.each (w.sqsOf p) releaseQueue) p := if_neg (not_not.mpr hst)

theorem resumeOp_noneHeld (h : ∀ q ∈ w.sqsOf p, (w.sq q).st ≠ .held) : w.resumeOp c p v = poundResumed w p := by
  rw [resumeOp_resumes v hst, each_of_noChange fun q hq => if_pos (h q hq)]

theorem resumeOp_oneHeld {q : Nat} (hq : w.sqsOf p = [q]) (h : (w.sq q).st = .held) :
    w.resumeOp c p v = poundResumed ((w.modSq q (fun y => { y with st := .disabled })).modCq (w.sq q).cqNum (fun c =>
      { c with bound := c.bound - 1, reserved := c.reserved - 1 })) p := by
  rw [resumeOp_resumes v hst, hq, Work.each_cons, Work.each_nil, releaseQueue, if_neg (not_not.mpr h)]

end

theorem disarmOp_disarms (v : W64) (h : (w.pound p).armed = true) :
    w.disarmOp c p v = w.modPound p (fun x => { x with armed := false }) := if_pos h

theorem disarmOp_ignored (v : W64) (h : (w.pound p).armed = false) : w.disarmOp c p v = w.ignoreReg c (poundCtrlOff p) .b8 v :=
  if_neg (Bool.eq_false_iff.mp h)

/-! ## The heartbeat (R570) -/

/-- The heartbeat check of pound p. -/
def beatCheck (w : Work) (p : Nat) : Work :=
  match (w.pound p).cfg with
  | some g => if (w.pound p).armed ∧ (w.pound p).lastBeat + g.beatMs * 1_000_000_000 < w.chip.refPs then w.selfReset p 1 else w
  | none => w

theorem heartbeatCheck_eq (w : Work) : w.heartbeatCheck = w.each (List.range 16) beatCheck := by
  refine congrArg (w.each (List.range 16)) (funext fun w => funext fun p => ?_)
  cases hcfg : (w.pound p).cfg with
  | none => simp only [beatCheck, hcfg]
  | some g => simp only [beatCheck, hcfg, Bool.and_eq_true, decide_eq_true_eq]

theorem beatCheck_noCfg (h : (w.pound p).cfg = none) : beatCheck w p = w := by simp only [beatCheck, h]

theorem beatCheck_unarmed (h : (w.pound p).armed = false) : beatCheck w p = w := by
  rw [beatCheck]
  split
  · exact if_neg fun hlate => absurd hlate.1 (Bool.eq_false_iff.mp h)
  · rfl

theorem beatCheck_inTime {g : PoundCfg} (hcfg : (w.pound p).cfg = some g)
    (h : w.chip.refPs ≤ (w.pound p).lastBeat + g.beatMs * 1_000_000_000) : beatCheck w p = w := by
  simp only [beatCheck, hcfg]
  exact if_neg fun hlate => absurd hlate.2 (Nat.not_lt.mpr h)

theorem beatCheck_late {g : PoundCfg} (hcfg : (w.pound p).cfg = some g) (harmed : (w.pound p).armed = true)
    (h : (w.pound p).lastBeat + g.beatMs * 1_000_000_000 < w.chip.refPs) : beatCheck w p = w.selfReset p 1 := by
  simp only [beatCheck, hcfg]
  exact if_pos ⟨harmed, h⟩

/-- The check of the one pound that there is, where it leaves the other pounds as they are. -/
theorem heartbeatCheck_one (hp : p < 16) (hother : ∀ q, q < 16 → q ≠ p → (w.pound q).cfg = none)
    (hkeep : ∀ q, q ≠ p → (beatCheck w p).pound q = w.pound q) : w.heartbeatCheck = beatCheck w p := by
  rw [heartbeatCheck_eq]
  refine each_of_oneChange List.nodup_range (List.mem_range.mpr hp) (fun q hq hne => ?_) (fun q hq hne => ?_)
  · exact beatCheck_noCfg (hother q (List.mem_range.mp hq) hne)
  · exact beatCheck_noCfg (by rw [hkeep q hne]; exact hother q (List.mem_range.mp hq) hne)

end

/-- Settles O30: each command by the equation of its outcome; a check of the heartbeats by that of each pound. -/
theorem selfResets : Obligations.SelfResets := by
  unfold Obligations.SelfResets
  refine ⟨fun s c p ho => ⟨?ignored, ?resets, ?notWaiting, ?resumes, ?noneHeld, ?oneHeld, ?disarms, ?unarmed⟩,
    fun w p cause => ⟨fun h => selfReset_ignored cause h, fun hheld hafter hcfg hst => selfReset_deferred hheld hafter cause hcfg hst,
      fun hheld hafter hcfg hst => selfReset_acts hheld hafter cause hcfg hst⟩,
    fun s c p ho => runs_of_poundReg exec_catHeartbeat rfl ho rfl, fun s h => ?noneArmed,
    fun s => runs_of_lift exec_heartbeatCheck (heartbeatCheck_eq _), fun s p g hother hcfg harmed hst hheld hafter => ⟨?late, ?inTime⟩,
    fun s p => ⟨?notDraining, ?drains⟩⟩
  case ignored => exact fun h => runs_of_poundReg exec_selfReset rfl ho (selfResetOp_ignored _ h)
  case resets => exact fun hheld hafter => runs_of_poundReg exec_selfReset rfl ho (selfResetOp_resets hheld hafter _)
  case notWaiting => exact fun h => runs_of_poundReg exec_resume rfl ho (resumeOp_ignored _ h)
  case resumes => exact fun h => runs_of_poundReg exec_resume rfl ho (resumeOp_resumes _ h)
  case noneHeld => exact fun h hnone => runs_of_poundReg exec_resume rfl ho (resumeOp_noneHeld _ h hnone)
  case oneHeld => exact fun q h hq hheld => runs_of_poundReg exec_resume rfl ho (resumeOp_oneHeld _ h hq hheld)
  case disarms => exact fun h => runs_of_poundReg exec_disarm rfl ho (disarmOp_disarms _ h)
  case unarmed => exact fun h => runs_of_poundReg exec_disarm rfl ho (disarmOp_ignored _ h)
  case noneArmed =>
    refine becomes_of_lift exec_heartbeatCheck ((heartbeatCheck_eq _).trans (each_of_noChange fun p hp => ?_))
    exact beatCheck_unarmed (h p (List.mem_range.mp hp))
  case late =>
    intro hlate
    have hcheck := (beatCheck_late hcfg harmed hlate).trans
      (selfReset_deferred hheld hafter 1 (by rw [hcfg]; exact Option.some_ne_none g) (by rw [hst]; decide))
    refine runs_of_lift exec_heartbeatCheck ((heartbeatCheck_one p.isLt hother fun q hq => ?_).trans hcheck)
    rw [hcheck]
    exact Work.modPound_ne hq _ _
  case inTime =>
    intro hbeat
    have hcheck := beatCheck_inTime hcfg hbeat
    refine becomes_of_lift exec_heartbeatCheck ((heartbeatCheck_one p.isLt hother fun q hq => ?_).trans hcheck)
    rw [hcheck]
  case notDraining =>
    intro h
    refine becomes_of_lift exec_selfResetDrainTimeout (if_pos ?_)
    rw [Bool.or_eq_true, Bool.or_eq_true, Bool.not_eq_true', decide_eq_true_eq, Option.isSome_iff_ne_none, or_assoc]
    exact h
  case drains =>
    intro hreset hst hgoal
    refine runs_of_lift exec_selfResetDrainTimeout (if_neg ?_)
    rw [hreset, hst, hgoal]
    decide

end Sys2Proof
end

section
/-!
The windows of a command processor and CP_NOTICE (Obligations.QueueRegisters): selections, contexts, OPs and their refusals.
-/

namespace Sys2Proof

open Sys2Proof.Machine

/-! ## Windows -/

section
variable (w : Work) (n p : Nat)

@[simp] theorem modCpWin_self (f : CpWindow → CpWindow) : (w.modCpWin n p f).cpWin n p = f (w.cpWin n p) :=
  SMap.get_modify_self _ w.chip.cpWins (n * 16 + p) f

/-- An update of a window is what it makes of the window as it is. -/
theorem modCpWin_congr {f g : CpWindow → CpWindow} (h : f (w.cpWin n p) = g (w.cpWin n p)) : w.modCpWin n p f = w.modCpWin n p g :=
  congrArg (fun x => { w with chip.cpWins := SMap.set CpWindow.zero w.chip.cpWins (n * 16 + p) x }) h

/-- What a window has latched does not say which queue it selects. -/
@[simp] theorem winOwned_snap (b : List Byte) : (w.modCpWin n p (fun x => { x with snap := b })).winOwned n p = w.winOwned n p := by
  simp only [Work.winOwned, modCpWin_self]
  rfl

end

section
variable {w : Work} {n p : Nat}

theorem winBytes_owned (h : w.winOwned n p = true) :
    w.winBytes n p = if (w.cpWin n p).cq then (w.cq (w.cpWin n p).queue).bytes else (w.sq (w.cpWin n p).queue).bytes := by
  rw [Work.winBytes, h]; rfl

theorem winBytes_unowned (h : w.winOwned n p = false) : w.winBytes n p = [] := by
  rw [Work.winBytes, h]; rfl

/-! ## CP_QSEL (R311, R314) -/

/-- The window after a write of CP_QSEL names the queue. -/
def winSelected (w : Work) (n p : Nat) (r : W64) : Work := w.modCpWin n p (fun x => { x with cq := bit r 32, queue := bits r 19 0 })

section
variable {z : Size} {high : Bool} {v r : W64} (hr : merge (w.cpWin n p).qsel z high v = r)
include hr

theorem cpQsel_owned (h : (winSelected w n p r).winOwned n p = true) :
    w.cpQsel n p z high v = (winSelected w n p r).modCpWin n p (fun x => { x with
      snap := if bit r 32 then ((winSelected w n p r).cq (bits r 19 0)).bytes else ((winSelected w n p r).sq (bits r 19 0)).bytes }) := by
  have hsel : w.modCpWin n p (fun x => { x with cq := bit r 32, queue := bits r 19 0 }) = winSelected w n p r := rfl
  have hwin : (winSelected w n p r).cpWin n p = { w.cpWin n p with cq := bit r 32, queue := bits r 19 0 } := modCpWin_self _ _ _ _
  simp only [Work.cpQsel, hr, hsel, winOwned_snap, h, if_true, winBytes_owned h, hwin]

theorem cpQsel_unowned (h : (winSelected w n p r).winOwned n p = false) :
    w.cpQsel n p z high v =
      ((winSelected w n p r).modCpWin n p (fun x => { x with snap := [] })).modCpWin n p (fun x => { x with status := 6 }) := by
  have hsel : w.modCpWin n p (fun x => { x with cq := bit r 32, queue := bits r 19 0 }) = winSelected w n p r := rfl
  simp only [Work.cpQsel, hr, hsel, winOwned_snap, h, Bool.false_eq_true, if_false, winBytes_unowned h]
  rfl

end

/-! ## CP_QCTX (R281, R282, R311, R314, R610) -/

/-- The first byte of the context that a write of word reaches, and how many it reaches. -/
@[reducible] def ctxLo (word : Nat) (z : Size) (high : Bool) : Nat := word * 8 + (if z = .b8 then 0 else if high then 4 else 0)
@[reducible] def ctxLen (z : Size) : Nat := if z = .b8 then 8 else 4

/-- The context bytes of which a write of len bytes from lo on has replaced the H fields that it reaches. -/
def ctxBytes (fs : List (Nat × Nat)) (lo len : Nat) (v : W64) (old : List Byte) : List Byte :=
  (List.range 64).map (fun o => if inField fs lo len o then (leBytes 8 v.toNat).getD (o - lo) 0 else old.getD o 0)

/-- A submission queue, and a completion queue, after a write to its context. -/
def sqWritten (fs : List (Nat × Nat)) (lo len : Nat) (v : W64) (old : List Byte) : Sq → Sq := fun y =>
  let b := y.withBytes (ctxBytes fs lo len v old)
  if lo ≤ 0x1C && 0x1C < lo + len then { b with started := b.fetched, completed := b.fetched, tail := b.head } else b
def cqWritten (fs : List (Nat × Nat)) (lo len : Nat) (v : W64) (old : List Byte) : Cq → Cq := fun y =>
  let b := y.withBytes (ctxBytes fs lo len v old)
  if lo = 0x18 then { b with lastAck := b.lastWritten } else b

section
variable {word : Nat} {z : Size} {high : Bool} {v : W64}

theorem cpQctx_unowned (h : w.winOwned n p = false) : w.cpQctx n p word z high v = w := if_pos (by rw [h]; rfl)

variable (hown : w.winOwned n p = true)
include hown

theorem cpQctx_notDisabled
    (h : if (w.cpWin n p).cq then (w.cq (w.cpWin n p).queue).st ≠ .disabled else (w.sq (w.cpWin n p).queue).st ≠ .disabled) :
    w.cpQctx n p word z high v = w.winStatus n p 1 := by
  refine (if_neg (by rw [hown]; decide)).trans (if_pos ?_)
  rw [Bool.or_eq_true, Bool.not_eq_true']
  left
  cases hcq : (w.cpWin n p).cq with
  | false => simpa [hcq] using h
  | true => simpa [hcq] using h

theorem cpQctx_noField {fs : List (Nat × Nat)} (hfs : (if (w.cpWin n p).cq then cqFields else sqFields) = fs)
    (h : ∀ f ∈ fs, f.1 < ctxLo word z high ∨ ctxLo word z high + ctxLen z < f.1 + f.2) :
    w.cpQctx n p word z high v = w.winStatus n p 1 := by
  refine (if_neg (by rw [hown]; decide)).trans (if_pos ?_)
  rw [hfs, Bool.or_eq_true, Bool.not_eq_true', Bool.not_eq_true', List.any_eq_false]
  right
  intro i _
  rw [inField, Bool.not_eq_true, List.any_eq_false]
  intro f hf hin
  simp only [Bool.and_eq_true, decide_eq_true_eq] at hin
  obtain ⟨⟨⟨hlo, hhi⟩, -⟩, -⟩ := hin
  exact (h f hf).elim (Nat.not_lt.mpr hlo) (Nat.not_lt.mpr hhi)

/-- A write to a DISABLED queue's context, of an H field at least, changes the queue, and what of it shows. -/
theorem cpQctx_writes {fs : List (Nat × Nat)} (hfs : (if (w.cpWin n p).cq then cqFields else sqFields) = fs)
    (hst : if (w.cpWin n p).cq then (w.cq (w.cpWin n p).queue).st = .disabled else (w.sq (w.cpWin n p).queue).st = .disabled)
    (hfield : ∃ i, i < ctxLen z ∧ inField fs (ctxLo word z high) (ctxLen z) (ctxLo word z high + i) = true) :
    ∃ snap, w.cpQctx n p word z high v =
      (if (w.cpWin n p).cq then w.modCq (w.cpWin n p).queue (cqWritten fs (ctxLo word z high) (ctxLen z) v (w.winBytes n p))
        else w.modSq (w.cpWin n p).queue (sqWritten fs (ctxLo word z high) (ctxLen z) v (w.winBytes n p))).modCpWin n p
        (fun y => { y with snap := snap }) := by
  obtain ⟨i, hi, hin⟩ := hfield
  have hany : (List.range (ctxLen z)).any (fun i => inField fs (ctxLo word z high) (ctxLen z) (ctxLo word z high + i)) = true :=
    List.any_eq_true.mpr ⟨i, List.mem_range.mpr hi, hin⟩
  subst hfs
  refine ⟨_, (if_neg (by rw [hown]; decide)).trans ((if_neg ?_).trans (modCpWin_congr _ _ _ rfl))⟩
  rw [decide_eq_true hst, hany]
  decide

theorem cpQctx_sq (hcq : (w.cpWin n p).cq = false) (hst : (w.sq (w.cpWin n p).queue).st = .disabled)
    (hfield : ∃ i, i < ctxLen z ∧ inField sqFields (ctxLo word z high) (ctxLen z) (ctxLo word z high + i) = true) :
    ∃ snap, w.cpQctx n p word z high v = (w.modSq (w.cpWin n p).queue (sqWritten sqFields (ctxLo word z high) (ctxLen z) v
      (w.sq (w.cpWin n p).queue).bytes)).modCpWin n p (fun y => { y with snap := snap }) := by
  obtain ⟨snap, h⟩ := cpQctx_writes (v := v) hown (by rw [hcq]; rfl) (by rw [hcq]; exact hst) hfield
  rw [hcq, winBytes_owned hown, hcq] at h
  exact ⟨snap, h⟩

theorem cpQctx_cq (hcq : (w.cpWin n p).cq = true) (hst : (w.cq (w.cpWin n p).queue).st = .disabled)
    (hfield : ∃ i, i < ctxLen z ∧ inField cqFields (ctxLo word z high) (ctxLen z) (ctxLo word z high + i) = true) :
    ∃ snap, w.cpQctx n p word z high v = (w.modCq (w.cpWin n p).queue (cqWritten cqFields (ctxLo word z high) (ctxLen z) v
      (w.cq (w.cpWin n p).queue).bytes)).modCpWin n p (fun y => { y with snap := snap }) := by
  obtain ⟨snap, h⟩ := cpQctx_writes (v := v) hown (by rw [hcq]; rfl) (by rw [hcq]; exact hst) hfield
  rw [hcq, winBytes_owned hown, hcq] at h
  exact ⟨snap, h⟩

end
end

/-! ## The base of a submission queue, written as a word -/

/-- The number that the low bytes of a number spell. -/
theorem leNat_leBytes (k v : Nat) : leNat (leBytes k v) = v % 256 ^ k := by
  induction k generalizing v with
  | zero => simp [leBytes, leNat, Nat.mod_one]
  | succ k ih => rw [leBytes, leNat, ih, Nat.pow_succ', Nat.mod_mul, BitVec.toNat_ofNat]

theorem leAt_zero_leBytes (k v : Nat) (bs : List Byte) : leAt (leBytes k v ++ bs) 0 k = v % 256 ^ k := by
  rw [leAt, List.drop_zero, List.take_left' (length_leBytes k v), leNat_leBytes]

theorem leAt_add_leBytes (n v o k : Nat) (bs : List Byte) : leAt (leBytes n v ++ bs) (n + o) k = leAt bs o k := by
  rw [leAt, ← List.drop_drop, List.drop_left' (length_leBytes n v), leAt]

/-- The context bytes of a submission queue after its base. -/
def sqTail (x : Sq) : List Byte :=
  leBytes 1 x.log2 ++ (leBytes 1 x.st.code ++ (leBytes 1 x.csv ++ (leBytes 1 x.phase ++ (leBytes 4 x.cq ++ (leBytes 4 x.pasid ++
    (leBytes 4 x.tail.toNat ++ (leBytes 4 x.head.toNat ++ (leBytes 4 x.fetched.toNat ++ (leBytes 4 x.started.toNat ++
      (leBytes 4 x.completed.toNat ++ (leBytes 4 x.fenceSeq.toNat ++ (leBytes 4 x.refused ++ (leBytes 2 x.error ++ leBytes 14 0)))))))))))))

theorem bytes_eq_base_tail (x : Sq) : x.bytes = leBytes 8 x.base.toNat ++ sqTail x := by
  simp only [Sq.bytes, sqTail, List.append_assoc]

/-- The H fields after the base, in the context bytes. -/
theorem leAt_sqTail (x : Sq) :
    leAt (sqTail x) 0 1 = x.log2 % 256 ^ 1 ∧ leAt (sqTail x) 2 1 = x.csv % 256 ^ 1 ∧ leAt (sqTail x) 4 4 = x.cq % 256 ^ 4 ∧
    leAt (sqTail x) 8 4 = x.pasid % 256 ^ 4 ∧ leAt (sqTail x) 20 4 = x.fetched.toNat % 256 ^ 4 := by
  refine ⟨leAt_zero_leBytes _ _ _, ?csv, ?cq, ?pasid, ?fetched⟩
  case csv =>
    show leAt (sqTail x) (1 + (1 + 0)) 1 = _
    rw [sqTail, leAt_add_leBytes, leAt_add_leBytes, leAt_zero_leBytes]
  case cq =>
    show leAt (sqTail x) (1 + (1 + (1 + (1 + 0)))) 4 = _
    rw [sqTail, leAt_add_leBytes, leAt_add_leBytes, leAt_add_leBytes, leAt_add_leBytes, leAt_zero_leBytes]
  case pasid =>
    show leAt (sqTail x) (1 + (1 + (1 + (1 + (4 + 0))))) 4 = _
    rw [sqTail, leAt_add_leBytes, leAt_add_leBytes, leAt_add_leBytes, leAt_add_leBytes, leAt_add_leBytes, leAt_zero_leBytes]
  case fetched =>
    show leAt (sqTail x) (1 + (1 + (1 + (1 + (4 + (4 + (4 + (4 + 0)))))))) 4 = _
    rw [sqTail, leAt_add_leBytes, leAt_add_leBytes, leAt_add_leBytes, leAt_add_leBytes, leAt_add_leBytes, leAt_add_leBytes,
      leAt_add_leBytes, leAt_add_leBytes, leAt_zero_leBytes]

/-- The context bytes of a queue hold its H fields. -/
theorem withBytes_bytes (x y : Sq) (hlog : x.log2 < 256) (hcsv : x.csv < 256) (hcq : x.cq < 2 ^ 32) (hpasid : x.pasid < 2 ^ 32) :
    y.withBytes x.bytes = { y with base := x.base, log2 := x.log2, csv := x.csv, cq := x.cq, pasid := x.pasid, fetched := x.fetched } := by
  obtain ⟨hlog', hcsv', hcq', hpasid', hfetched⟩ := leAt_sqTail x
  have hskip : ∀ o k, leAt x.bytes (8 + o) k = leAt (sqTail x) o k := fun o k => by
    rw [bytes_eq_base_tail]; exact leAt_add_leBytes 8 _ o k _
  have hbase : leAt x.bytes 0 8 = x.base.toNat % 256 ^ 8 := by rw [bytes_eq_base_tail]; exact leAt_zero_leBytes _ _ _
  rw [Sq.withBytes, hbase, hskip 0, hskip 2, hskip 4, hskip 8, hskip 20, hlog', hcsv', hcq', hpasid', hfetched]
  rw [Nat.mod_eq_of_lt (by exact x.base.isLt), Nat.mod_eq_of_lt (by exact hlog), Nat.mod_eq_of_lt (by exact hcsv),
    Nat.mod_eq_of_lt (by exact hcq), Nat.mod_eq_of_lt (by exact hpasid), Nat.mod_eq_of_lt (by exact x.fetched.isLt),
    BitVec.ofNat_toNat, BitVec.ofNat_toNat, BitVec.setWidth_eq, BitVec.setWidth_eq]

/-- The first word of the context is one field, and no other lies within it. -/
theorem inField_base (o : Nat) : inField sqFields 0 8 o = decide (o < 8) := by simp [inField, sqFields]

/-- A write of the first word replaces the first 8 of 64 bytes. -/
theorem ctxBytes_word (v b : W64) {t : List Byte} (ht : t.length = 56) :
    ctxBytes sqFields 0 8 v (leBytes 8 b.toNat ++ t) = leBytes 8 v.toNat ++ t := by
  refine List.ext_getElem (by simp [ctxBytes, ht]) fun o ho _ => ?_
  have ho' : o < 64 := by simpa [ctxBytes] using ho
  simp only [ctxBytes, List.getElem_map, List.getElem_range, inField_base, decide_eq_true_eq, Nat.sub_zero]
  by_cases h8 : o < 8
  · rw [if_pos h8, List.getElem_append_left (by rw [length_leBytes]; exact h8), List.getD_eq_getElem]
  · rw [if_neg h8, List.getElem_append_right (by rw [length_leBytes]; omega), List.getD_append_right _ _ _ _ (by rw [length_leBytes]; omega)]
    simp only [length_leBytes]
    exact List.getD_eq_getElem _ _ (by omega)

theorem ctxBytes_base (x : Sq) (v : W64) : ctxBytes sqFields 0 8 v x.bytes = ({ x with base := v } : Sq).bytes := by
  rw [bytes_eq_base_tail, bytes_eq_base_tail]
  exact ctxBytes_word v x.base (by simp [sqTail])

theorem sqWritten_base (x : Sq) (v : W64) (hlog : x.log2 < 256) (hcsv : x.csv < 256) (hcq : x.cq < 2 ^ 32) (hpasid : x.pasid < 2 ^ 32) :
    sqWritten sqFields 0 8 v x.bytes x = { x with base := v } := by
  rw [sqWritten, ctxBytes_base, withBytes_bytes { x with base := v } x hlog hcsv hcq hpasid]
  rfl

/-- An update of a queue is what it makes of the queue as it is. -/
theorem modSq_congr {w : Work} {q : Nat} {f g : Sq → Sq} (h : f (w.sq q) = g (w.sq q)) : w.modSq q f = w.modSq q g :=
  congrArg (fun x => { w with chip.sqs := SMap.set Sq.zero w.chip.sqs q x }) h

theorem cpQctx_base {w : Work} {n p : Nat} {v : W64} (high : Bool) (hown : w.winOwned n p = true) (hcq : (w.cpWin n p).cq = false)
    (hst : (w.sq (w.cpWin n p).queue).st = .disabled) (hlog : (w.sq (w.cpWin n p).queue).log2 < 256)
    (hcsv : (w.sq (w.cpWin n p).queue).csv < 256) (hnum : (w.sq (w.cpWin n p).queue).cq < 2 ^ 32)
    (hpasid : (w.sq (w.cpWin n p).queue).pasid < 2 ^ 32) :
    ∃ snap, w.cpQctx n p 0 .b8 high v =
      (w.modSq (w.cpWin n p).queue (fun y => { y with base := v })).modCpWin n p (fun y => { y with snap := snap }) := by
  have hlo : ctxLo 0 .b8 high = 0 := rfl
  have hfield : ∃ i, i < ctxLen .b8 ∧ inField sqFields (ctxLo 0 .b8 high) (ctxLen .b8) (ctxLo 0 .b8 high + i) = true :=
    ⟨0, by decide, by rw [hlo]; decide⟩
  obtain ⟨snap, h⟩ := cpQctx_sq (v := v) hown hcq hst hfield
  have hbase : sqWritten sqFields (ctxLo 0 .b8 high) (ctxLen .b8) v (w.sq (w.cpWin n p).queue).bytes (w.sq (w.cpWin n p).queue) =
      { w.sq (w.cpWin n p).queue with base := v } := sqWritten_base _ v hlog hcsv hnum hpasid
  exact ⟨snap, h.trans (congrArg (fun u => u.modCpWin n p (fun y => { y with snap := snap })) (modSq_congr hbase))⟩

end Sys2Proof
end

section
/-!
ENABLE and DISABLE of a queue, CP_NOTICE, and the settling of Obligations.QueueRegisters.
-/

namespace Sys2Proof

open Sys2Proof.Machine

/-! ## ENABLE and DISABLE (R302, R305 to R307, R315) -/

section
variable {w : Work} {n p : Nat}

theorem queueEnable_unowned (h : w.winOwned n p = false) : w.queueEnable n p = w.winStatus n p 6 := if_pos (by rw [h]; rfl)

theorem queueDisable_unowned (h : w.winOwned n p = false) : w.queueDisable n p = w.winStatus n p 6 := if_pos (by rw [h]; rfl)

theorem queueCmd_bad {op : BitVec 2} (h : op = 0 ∨ op = 3) : w.queueCmd n p op.toNat = w.winStatus n p 7 := by
  rcases h with rfl | rfl <;> rfl

section
variable (hown : w.winOwned n p = true)
include hown

theorem not_unowned : ¬ (!w.winOwned n p) = true := by rw [hown]; decide

section
variable (hcq : (w.cpWin n p).cq = false)
include hcq

theorem queueEnable_ofSq : w.queueEnable n p =
    if w.sqEnableStatus (w.cpWin n p).queue p ≠ 0 then w.winStatus n p (w.sqEnableStatus (w.cpWin n p).queue p)
    else ((w.modCq (w.sq (w.cpWin n p).queue).cqNum (fun y => { y with bound := y.bound + 1, reserved := y.reserved + 1 })).modSq
      (w.cpWin n p).queue (fun y => { y with st := .running, aborted := 0 })).winStatus n p 0 :=
  (if_neg (not_unowned hown)).trans (if_neg (by rw [hcq]; decide))

theorem queueDisable_ofSq : w.queueDisable n p =
    if (w.sq (w.cpWin n p).queue).st ≠ .running && (w.sq (w.cpWin n p).queue).st ≠ .stopped then w.winStatus n p 1
    else ((w.modSq (w.cpWin n p).queue (fun y => { y with st := .draining, aborted := 0 })).abortFetched
      (w.cpWin n p).queue 0x0F).winStatus n p 0 :=
  (if_neg (not_unowned hown)).trans (if_neg (by rw [hcq]; decide))

theorem queueDisable_drains (h : (w.sq (w.cpWin n p).queue).st = .running ∨ (w.sq (w.cpWin n p).queue).st = .stopped) :
    w.queueDisable n p = ((w.modSq (w.cpWin n p).queue (fun y => { y with st := .draining, aborted := 0 })).abortFetched
      (w.cpWin n p).queue 0x0F).winStatus n p 0 := by
  refine (queueDisable_ofSq hown hcq).trans (if_neg ?_)
  rw [Bool.and_eq_true, decide_eq_true_eq, decide_eq_true_eq]
  exact fun hst => h.elim hst.1 hst.2

theorem queueDisable_notRunning (h : (w.sq (w.cpWin n p).queue).st ≠ .running) (hs : (w.sq (w.cpWin n p).queue).st ≠ .stopped) :
    w.queueDisable n p = w.winStatus n p 1 := by
  refine (queueDisable_ofSq hown hcq).trans (if_pos ?_)
  rw [Bool.and_eq_true, decide_eq_true_eq, decide_eq_true_eq]
  exact ⟨h, hs⟩

end

section
variable (hcq : (w.cpWin n p).cq = true)
include hcq

theorem queueEnable_ofCq : w.queueEnable n p =
    if w.cqEnableStatus (w.cpWin n p).queue ≠ 0 then w.winStatus n p (w.cqEnableStatus (w.cpWin n p).queue)
    else ((w.modCq (w.cpWin n p).queue (fun y => { y with st := .enabled, ackFault := false })).writeHeld (w.cpWin n p).queue
      (w.cq (w.cpWin n p).queue).pend.length).winStatus n p 0 := by
  refine ((if_neg (not_unowned hown)).trans (if_pos hcq)).trans ?_
  simp only [Work.modCq_self]

/-- The entries of a FAULTED queue that is disabled are recorded as lost (R302). -/
def entriesLost (w : Work) (c : Nat) : Work :=
  if (w.cq c).st = .faulted then w.recCqFault c (w.cq c).pend.length 0 (w.cq c).error 2 else w

theorem queueDisable_ofCq : w.queueDisable n p =
    if (w.cq (w.cpWin n p).queue).bound ≠ 0 then w.winStatus n p 5
    else if (w.cq (w.cpWin n p).queue).st = .disabled then w.winStatus n p 1
    else (((entriesLost w (w.cpWin n p).queue).modCq (w.cpWin n p).queue (fun y =>
      { y with
        st := .disabled, pend := []
        reserved := y.reserved - (y.pend.filter (fun e => e.reserved)).length })).noticeOff p (w.cpWin n p).queue).winStatus n p 0 :=
  (if_neg (not_unowned hown)).trans (if_pos hcq)

end
end

/-! ## Why ENABLE of a submission queue is refused (R305, R306) -/

/-- The context of a submission queue keeps the rules of its fields. -/
def sqShape (x : Sq) : Prop := x.pasid < 2 ^ 20 ∧ x.cq < 2 ^ 18 ∧ 4 ≤ x.log2 ∧ x.log2 ≤ 16 ∧ x.base.toNat % 4096 = 0

theorem badShape_eq_true_iff (x : Sq) :
    (x.pasid / 2 ^ 20 ≠ 0 || x.cq / 2 ^ 18 ≠ 0 || x.log2 < 4 || 16 < x.log2 || x.base.toNat % 4096 ≠ 0) = true ↔ ¬ sqShape x := by
  simp only [sqShape, Bool.or_eq_true, decide_eq_true_eq]
  omega

/-- Its completion queue is ENABLED, and the pound's own. -/
def sqBound (w : Work) (x : Sq) (p : Nat) : Prop := (w.cq x.cqNum).st = .enabled ∧ w.cqOwner x.cqNum = some p

theorem unbound_eq_true_iff (x : Sq) : ((w.cq x.cqNum).st ≠ .enabled || w.cqOwner x.cqNum ≠ some p) = true ↔ ¬ sqBound w x p := by
  simp only [sqBound, Bool.or_eq_true, decide_eq_true_eq, not_and_or]

variable {q : Nat}

theorem sqEnableStatus_notDisabled (h : (w.sq q).st ≠ .disabled) : w.sqEnableStatus q p = 1 := if_pos h

section
variable (hst : (w.sq q).st = .disabled)
include hst

theorem sqEnableStatus_badContext (h : ¬ (sqShape (w.sq q) ∧ sqBound w (w.sq q) p)) : w.sqEnableStatus q p = 2 := by
  refine (if_neg (not_not.mpr hst)).trans ?_
  by_cases hshape : sqShape (w.sq q)
  · exact (if_neg ((not_congr (badShape_eq_true_iff _)).mpr (not_not.mpr hshape))).trans
      (if_pos ((unbound_eq_true_iff _).mpr fun hbound => h ⟨hshape, hbound⟩))
  · exact if_pos ((badShape_eq_true_iff _).mpr hshape)

theorem sqEnableStatus_goodContext (hshape : sqShape (w.sq q)) (hbound : sqBound w (w.sq q) p) :
    w.sqEnableStatus q p = if (w.sq q).csv ≠ 1 then 3 else if w.cqFree (w.sq q).cqNum < 1 then 4 else 0 :=
  (if_neg (not_not.mpr hst)).trans ((if_neg ((not_congr (badShape_eq_true_iff _)).mpr (not_not.mpr hshape))).trans
    (if_neg ((not_congr (unbound_eq_true_iff _)).mpr (not_not.mpr hbound))))

end

/-! ## CP_NOTICE (R316, R610) -/

section
variable {z : Size} {high : Bool}

theorem bits_setBits_low (old v : W64) : bits (setBits old 31 0 (bits v 31 0)) 17 0 = bits v 17 0 := by
  have := old.isLt
  simp only [bits, setBits, BitVec.toNat_ofNat]
  omega

theorem bit_setBits_high (old v : W64) : bit (setBits old 63 32 (bits v 31 0)) 63 = bit v 31 := by
  have := old.isLt
  simp only [bit, setBits, bits, ← BitVec.testBit_toNat, BitVec.toNat_ofNat, Nat.testBit_eq_decide_div_mod_eq, decide_eq_decide]
  omega

/-- The field CQ after a write to the register. -/
theorem bits_merge_low (old v : W64) (x : Nat) :
    (if writesLow z high then bits (merge old z high v) 17 0 else x) = if z = .b8 ∨ high = false then bits v 17 0 else x := by
  by_cases hz : z = .b8
  · simp [writesLow, merge, hz]
  · cases high
    · simp [writesLow, merge, hz, bits_setBits_low]
    · simp [writesLow, hz]

/-- The bit VALID after a write to the register. -/
theorem bit_merge_high (old v : W64) (x : Bool) :
    (if writesHigh z high then bit (merge old z high v) 63 else x) =
      if z = .b8 ∨ high = true then (if z = .b8 then bit v 63 else bit v 31) else x := by
  by_cases hz : z = .b8
  · simp [writesHigh, merge, hz]
  · cases high
    · simp [writesHigh, hz]
    · simp only [writesHigh, merge, hz, decide_false, Bool.or_true, or_true, if_true, if_false, bit_setBits_high]

theorem clearsDropped_iff (hz : regSize z = true) (v : W64) :
    (writesHigh z high && bits v (if z = .b8 then 47 else 15) (if z = .b8 then 32 else 0) = 0xFFFF) = true ↔
      z = .b8 ∧ bits v 47 32 = 0xFFFF ∨ z = .b4 ∧ high = true ∧ bits v 15 0 = 0xFFFF := by
  rcases regSize_iff.mp hz with rfl | rfl <;> simp [writesHigh]

theorem halfOff_eq (hz : regSize z = true) : halfOff z high = if z = .b4 ∧ high = true then 4 else 0 := by
  rcases regSize_iff.mp hz with rfl | rfl <;> simp [halfOff]

end

/-- The queue that CP_NOTICE names after a write, and whether the write leaves or sets VALID. -/
def noticeCqAfter (x : Pound) (z : Size) (high : Bool) (v : W64) : Nat :=
  if z = .b8 ∨ high = false then bits v 17 0 else x.noticeCq
def noticeWanted (x : Pound) (z : Size) (high : Bool) (v : W64) : Bool :=
  if z = .b8 ∨ high = true then (if z = .b8 then bit v 63 else bit v 31) else x.noticeValid

/-- The queue can be the notice queue of pound p. -/
abbrev noticeAllowed (w : Work) (p cq : Nat) : Prop := (w.cq cq).st = .enabled ∧ w.cqOwner cq = some p

section
variable {c cq : Nat} {z : Size} {high want : Bool} {v : W64}

/-- Pound p after a write of CP_NOTICE that names queue cq: it is the notice queue where VALID is wanted and the queue can be. -/
def noticeSet (w : Work) (p cq : Nat) (want ok : Bool) (z : Size) (high : Bool) (v : W64) : Work :=
  w.modPound p (fun x => { x with
    noticeCq := cq, noticeValid := want && ok
    noticeDropped := if z = .b8 ∧ bits v 47 32 = 0xFFFF ∨ z = .b4 ∧ high = true ∧ bits v 15 0 = 0xFFFF then 0 else x.noticeDropped })

variable (hz : regSize z = true) (hcq : noticeCqAfter (w.pound p) z high v = cq) (hwant : noticeWanted (w.pound p) z high v = want)
include hz hcq hwant

theorem cpNotice_eq : w.cpNotice c p z high v =
    if want = true ∧ ¬ noticeAllowed w p cq then
      (noticeSet w p cq want (decide (noticeAllowed w p cq)) z high v).ignoreReg c
        (cpOff 0 + 0x8000 + p * 0x40 + (if z = .b4 ∧ high = true then 4 else 0)) z v
    else noticeSet w p cq want (decide (noticeAllowed w p cq)) z high v := by
  rw [noticeCqAfter] at hcq
  rw [noticeWanted] at hwant
  simp only [Work.cpNotice, bits_merge_low, bit_merge_high, hcq, hwant, clearsDropped_iff hz, halfOff_eq hz, ← Bool.decide_and,
    Bool.and_eq_true, Bool.not_eq_true', decide_eq_false_iff_not]
  rfl

theorem cpNotice_takes (h : want = false ∨ noticeAllowed w p cq) :
    w.cpNotice c p z high v = noticeSet w p cq want (decide (noticeAllowed w p cq)) z high v := by
  refine (cpNotice_eq hz hcq hwant).trans (if_neg ?_)
  rintro ⟨hset, hno⟩
  exact h.elim (fun hunset => absurd hset (by rw [hunset]; decide)) hno

theorem cpNotice_ignored (hset : want = true) (hno : ¬ noticeAllowed w p cq) :
    w.cpNotice c p z high v = (noticeSet w p cq want (decide (noticeAllowed w p cq)) z high v).ignoreReg c
      (cpOff 0 + 0x8000 + p * 0x40 + (if z = .b4 ∧ high = true then 4 else 0)) z v :=
  (cpNotice_eq hz hcq hwant).trans (if_pos ⟨hset, hno⟩)

end

end

/-- Settles O24: each write by the equation of its outcome; the status of ENABLE by the first rule that its queue breaks. -/
theorem queueRegisters : Obligations.QueueRegisters := by
  unfold Obligations.QueueRegisters
  refine ⟨⟨fun s c n p z high v hz ho => ⟨?selected, ?notOwned⟩,
      fun s c n p word z high v hz ho => ⟨?ctxUnowned, ?notDisabled, ?noSqField, ?base, ?sqField, ?cqField, ?noCqField⟩,
      fun s c n p ho => ⟨fun h => ⟨?enableUnowned, ?disableUnowned⟩, fun hown hcq => ⟨?sqRefused, ?sqEnabled, ?drains, ?notRunning⟩,
        fun hown hcq => ⟨?cqRefused, ?cqEnabled, ?bound, ?already, ?disables⟩, ?badOp⟩,
      fun s c p z high v hz ho => ⟨?notice, ?noticeIgnored⟩⟩,
    fun w q p => ⟨sqEnableStatus_notDisabled, sqEnableStatus_badContext, ?version, ?full, ?accepted⟩⟩
  case selected => exact fun h => runs_of_poundReg exec_cpQselWrite hz ho (cpQsel_owned rfl h)
  case notOwned => exact fun h => runs_of_poundReg exec_cpQselWrite hz ho (cpQsel_unowned rfl h)
  case ctxUnowned => exact fun h => runs_of_poundReg exec_cpQctxWrite hz ho (cpQctx_unowned h)
  case notDisabled => exact fun hown h => runs_of_poundReg exec_cpQctxWrite hz ho (cpQctx_notDisabled hown h)
  case noSqField =>
    exact fun hown hcq hst h => runs_of_poundReg exec_cpQctxWrite hz ho (cpQctx_noField hown (if_neg (Bool.eq_false_iff.mp hcq)) h)
  case noCqField => exact fun hown hcq hst h => runs_of_poundReg exec_cpQctxWrite hz ho (cpQctx_noField hown (if_pos hcq) h)
  case sqField =>
    intro hown hcq hst hfield
    obtain ⟨snap, h⟩ := cpQctx_sq (v := v) hown hcq hst hfield
    exact ⟨snap, runs_of_poundReg exec_cpQctxWrite hz ho h⟩
  case cqField =>
    intro hown hcq hst hfield
    obtain ⟨snap, h⟩ := cpQctx_cq (v := v) hown hcq hst hfield
    exact ⟨snap, runs_of_poundReg exec_cpQctxWrite hz ho h⟩
  case base =>
    intro hown hcq hst hword h8 hlog hcsv hnum hpasid
    subst h8
    obtain ⟨snap, h⟩ := cpQctx_base (v := v) high hown hcq hst hlog hcsv hnum hpasid
    exact ⟨snap, runs_of_poundReg exec_cpQctxWrite hz ho (by rw [hword]; exact h)⟩
  case enableUnowned => exact runs_of_poundReg exec_queueEnable rfl ho (queueEnable_unowned h)
  case disableUnowned => exact runs_of_poundReg exec_queueDisable rfl ho (queueDisable_unowned h)
  case sqRefused => exact fun h => runs_of_poundReg exec_queueEnable rfl ho ((queueEnable_ofSq hown hcq).trans (if_pos h))
  case sqEnabled => exact fun h => runs_of_poundReg exec_queueEnable rfl ho ((queueEnable_ofSq hown hcq).trans (if_neg (not_not.mpr h)))
  case drains => exact fun h => runs_of_poundReg exec_queueDisable rfl ho (queueDisable_drains hown hcq h)
  case notRunning => exact fun h hs => runs_of_poundReg exec_queueDisable rfl ho (queueDisable_notRunning hown hcq h hs)
  case cqRefused => exact fun h => runs_of_poundReg exec_queueEnable rfl ho ((queueEnable_ofCq hown hcq).trans (if_pos h))
  case cqEnabled => exact fun h => runs_of_poundReg exec_queueEnable rfl ho ((queueEnable_ofCq hown hcq).trans (if_neg (not_not.mpr h)))
  case bound => exact fun h => runs_of_poundReg exec_queueDisable rfl ho ((queueDisable_ofCq hown hcq).trans (if_pos h))
  case already =>
    exact fun h hst => runs_of_poundReg exec_queueDisable rfl ho
      ((queueDisable_ofCq hown hcq).trans ((if_neg (not_not.mpr h)).trans (if_pos hst)))
  case disables =>
    exact fun h hst => runs_of_poundReg exec_queueDisable rfl ho
      ((queueDisable_ofCq hown hcq).trans ((if_neg (not_not.mpr h)).trans (if_neg hst)))
  case badOp => exact fun op hop => runs_of_poundReg exec_cpQcmdBad rfl ho (queueCmd_bad hop)
  case notice => exact fun h => runs_of_poundReg exec_cpNoticeWrite hz ho (cpNotice_takes hz rfl rfl h)
  case noticeIgnored => exact fun hset hno => runs_of_poundReg exec_cpNoticeWrite hz ho (cpNotice_ignored hz rfl rfl hset hno)
  case version => exact fun hst hshape hbound h => (sqEnableStatus_goodContext hst hshape hbound).trans (if_pos h)
  case full =>
    exact fun hst hshape hbound hv h =>
      (sqEnableStatus_goodContext hst hshape hbound).trans ((if_neg (not_not.mpr hv)).trans (if_pos h))
  case accepted =>
    exact fun hst hshape hbound hv h =>
      (sqEnableStatus_goodContext hst hshape hbound).trans ((if_neg (not_not.mpr hv)).trans (if_neg (Int.not_lt.mpr h)))

end Sys2Proof
end

section
/-!
Atomics, fences and cache-block operations of a host core, and what leaves its buffers by itself (Obligations.HostAtomicsAndFences):
one equation for each outcome.
-/

namespace Sys2Proof

open Sys2Proof.Machine

/-! ## Commands that run as an instruction of their hart (R70, R322, R371) -/

theorem resv_untrap (c : Nat) (w : Work) : ((untrap c w).core c).resv = (w.core c).resv := by
  rw [untrap, Work.modCore_self]

theorem wc_untrap (c : Nat) (w : Work) : ((untrap c w).core c).wc = (w.core c).wc := by
  rw [untrap, Work.modCore_self]

section
variable {s : State} {i : Instr} {c : CoreId} {F : Work → Work}
  (hi : exec i s = lift (fun w => w.hostInstr c F) s) (hfree : HartFree s c)
include hi hfree

theorem runs_of_hostInstr {w : Work} (hw : F (untrap c (Work.of s)) = w) : Runs i s w :=
  runs_of_lift hi ((hostInstr_of_free hfree F).trans hw)

/-- The trap that was cleared before the instruction leaves nothing behind once the instruction traps. -/
theorem gives_of_hostTrap {cause a : Nat} (hw : F (untrap c (Work.of s)) = (untrap c (Work.of s)).hostTrap c cause a) :
    Gives i s (CoreTo c (fun x => { x with trap := some (cause, BitVec.ofNat 64 a), resv := none, lrHold := false }) s) :=
  gives_of_modCore _ hi ((hostInstr_of_free hfree F).trans (hw.trans (Work.modCore_modCore _ _ _ _))) rfl

end

/-- None of three checks, made in turn, ends the access. -/
theorem ite_of_checks {α : Type} {A B C : Prop} [Decidable A] [Decidable B] [Decidable C] {x y z t : α} (ha : ¬ A) (hb : ¬ B)
    (hc : ¬ C) : (if A then x else if B then y else if C then z else t) = t :=
  (if_neg ha).trans ((if_neg hb).trans (if_neg hc))

/-! ## AMO (R30, R323, R325 to R327, R331) -/

section
variable {w : Work} {c a z v k la : Nat} {op : AmoOp} {p : Pbmt}

theorem amoRefused_iff : ((w.place la).type p = .io || (w.place la).isMmio || w.acc (.core c) a z true ≠ .ok) = true ↔
    (w.place la).type p = .io ∨ (w.place la).isMmio = true ∨ w.acc (.core c) a z true ≠ .ok := by
  rw [Bool.or_eq_true, Bool.or_eq_true, decide_eq_true_eq, decide_eq_true_eq, or_assoc]

theorem amo_allowed (hmmio : (w.place la).isMmio = false) (hacc : w.acc (.core c) a z true = .ok) (hio : (w.place la).type p ≠ .io) :
    ¬ ((w.place la).type p = .io ∨ (w.place la).isMmio = true ∨ w.acc (.core c) a z true ≠ .ok) :=
  not_or.mpr ⟨hio, not_or.mpr ⟨Bool.eq_false_iff.mp hmmio, not_not.mpr hacc⟩⟩

theorem amoWaits_iff : ((w.place la).type p = .main && w.lineHeld c la z true || w.exchangingAt la) = true ↔
    (w.place la).type p = .main ∧ w.lineHeld c la z true = true ∨ w.exchangingAt la = true := by
  rw [Bool.or_eq_true, Bool.and_eq_true, decide_eq_true_eq]

theorem hostAmo_misaligned (h : a % z ≠ 0) : w.hostAmo c op a z v k p = w.hostTrap c 6 a := if_pos h

variable (hla : w.local_ a = la) (halign : a % z = 0)
include hla halign

theorem hostAmo_refused (h : (w.place la).type p = .io ∨ (w.place la).isMmio = true ∨ w.acc (.core c) a z true ≠ .ok) :
    w.hostAmo c op a z v k p = w.denyStore c a := by
  subst hla
  exact (if_neg (not_not.mpr halign)).trans (if_pos (amoRefused_iff.mpr h))

variable (hallowed : ¬ ((w.place la).type p = .io ∨ (w.place la).isMmio = true ∨ w.acc (.core c) a z true ≠ .ok))
include hallowed

theorem hostAmo_waits (h : (w.place la).type p = .main ∧ w.lineHeld c la z true = true ∨ w.exchangingAt la = true) :
    w.hostAmo c op a z v k p = w := by
  subst hla
  exact (if_neg (not_not.mpr halign)).trans ((if_neg (mt amoRefused_iff.mp hallowed)).trans (if_pos (amoWaits_iff.mpr h)))

variable (hgo : ¬ ((w.place la).type p = .main ∧ w.lineHeld c la z true = true ∨ w.exchangingAt la = true))
  {d : Work} (hd : (w.drainStores c).drainWc c = d)
include hgo hd

section
variable {u : Work} (hmain : (w.place la).type p = .main)
  (hu : (if d.ownsLine c (la / 128) then d else (d.l2Miss c (la / 128)).fillUnique c (la / 128)).touch c (la / 128) = u)
include hmain hu

/-- An AMO to main memory acts on the line that it has brought to M or E. -/
theorem hostAmo_main (hclean : u.cachedPoison c la z = none) : w.hostAmo c op a z v k p =
    (u.writeLine c la (leBytes z (amoValue op z (leNat (u.cached c la z)) v k))).hostRetBytes c (u.cached c la z) := by
  subst hla hd hu
  refine (ite_of_checks (not_not.mpr halign) (mt amoRefused_iff.mp hallowed) (mt amoWaits_iff.mp hgo)).trans ((if_pos hmain).trans ?_)
  simp only [hclean]

theorem hostAmo_main_poisoned {b : Nat} (hpoison : u.cachedPoison c la z = some b) :
    w.hostAmo c op a z v k p = u.hostTrap c 19 (a + (b - la)) := by
  subst hla hd hu
  refine (ite_of_checks (not_not.mpr halign) (mt amoRefused_iff.mp hallowed) (mt amoWaits_iff.mp hgo)).trans ((if_pos hmain).trans ?_)
  simp only [hpoison]

end

section
variable (huncached : (w.place la).type p = .uncached)
include huncached

/-- An AMO to an uncached region acts at its point of coherence. -/
theorem hostAmo_uncached (hclean : d.vpoison a z = none) : w.hostAmo c op a z v k p =
    (d.coreWriteOut c la (leBytes z (amoValue op z (leNat (d.vread a z)) v k))).hostRetBytes c (d.vread a z) := by
  subst hla hd
  refine (ite_of_checks (not_not.mpr halign) (mt amoRefused_iff.mp hallowed) (mt amoWaits_iff.mp hgo)).trans
    ((if_neg (by rw [huncached]; decide)).trans ?_)
  simp only [hclean]

theorem hostAmo_uncached_poisoned {b : Nat} (hpoison : d.vpoison a z = some b) :
    w.hostAmo c op a z v k p = d.hostTrap c 19 (a + (b - la)) := by
  subst hla hd
  refine (ite_of_checks (not_not.mpr halign) (mt amoRefused_iff.mp hallowed) (mt amoWaits_iff.mp hgo)).trans
    ((if_neg (by rw [huncached]; decide)).trans ?_)
  simp only [hpoison]

end

end

/-! ## LR and SC (R323, R325 to R327) -/

section
variable {w : Work} {c a z v la : Nat} {p : Pbmt}

/-- LR and SC reach main memory alone. -/
theorem notMainOrRefused_iff {wr : Bool} : ((w.place la).type p ≠ .main || w.acc (.core c) a z wr ≠ .ok) = true ↔
    (w.place la).type p ≠ .main ∨ w.acc (.core c) a z wr ≠ .ok := by
  rw [Bool.or_eq_true, decide_eq_true_eq, decide_eq_true_eq]

theorem main_allowed {wr : Bool} (hmain : (w.place la).type p = .main) (hacc : w.acc (.core c) a z wr = .ok) :
    ¬ ((w.place la).type p ≠ .main ∨ w.acc (.core c) a z wr ≠ .ok) :=
  not_or.mpr ⟨not_not.mpr hmain, not_not.mpr hacc⟩

/-- An SC that may still succeed waits for the line as a store does. -/
theorem scWaits_iff : ((w.core c).resv = some (la / 128) && w.lineHeld c la z true) = true ↔
    (w.core c).resv = some (la / 128) ∧ w.lineHeld c la z true = true := by
  rw [Bool.and_eq_true, decide_eq_true_eq]

theorem hostLr_misaligned (h : a % z ≠ 0) : w.hostLr c a z p = w.hostTrap c 4 a := if_pos h

theorem hostSc_misaligned (h : a % z ≠ 0) : w.hostSc c a z v p = w.hostTrap c 6 a := if_pos h

variable (hla : w.local_ a = la) (halign : a % z = 0)
include hla halign

theorem hostLr_refused (h : (w.place la).type p ≠ .main ∨ w.acc (.core c) a z false ≠ .ok) :
    w.hostLr c a z p = w.denyLoad c a := by
  subst hla
  exact (if_neg (not_not.mpr halign)).trans (if_pos (notMainOrRefused_iff.mpr h))

theorem hostSc_refused (h : (w.place la).type p ≠ .main ∨ w.acc (.core c) a z true ≠ .ok) :
    w.hostSc c a z v p = w.denyStore c a := by
  subst hla
  exact (if_neg (not_not.mpr halign)).trans (if_pos (notMainOrRefused_iff.mpr h))

section
variable (hallowed : ¬ ((w.place la).type p ≠ .main ∨ w.acc (.core c) a z false ≠ .ok))
include hallowed

theorem hostLr_waits (h : w.lineHeld c la z false = true) : w.hostLr c a z p = w := by
  subst hla
  exact (if_neg (not_not.mpr halign)).trans ((if_neg (mt notMainOrRefused_iff.mp hallowed)).trans (if_pos h))

variable (hfree : w.lineHeld c la z false = false) {u : Work} (hu : (w.drainWc c).bring c la z = u)
include hfree hu

theorem hostLr_reserves (hclean : u.cachedPoison c la z = none) : w.hostLr c a z p =
    (u.hostRetBytes c (overlay (u.core c).storeBuf la (u.cached c la z))).modCore c (fun x =>
      { x with resv := some (la / 128), lrHold := true }) := by
  subst hla hu
  refine (ite_of_checks (not_not.mpr halign) (mt notMainOrRefused_iff.mp hallowed) (Bool.eq_false_iff.mp hfree)).trans ?_
  simp only [hclean]

theorem hostLr_poisoned {b : Nat} (hpoison : u.cachedPoison c la z = some b) :
    w.hostLr c a z p = u.hostTrap c 19 (a + (b - la)) := by
  subst hla hu
  refine (ite_of_checks (not_not.mpr halign) (mt notMainOrRefused_iff.mp hallowed) (Bool.eq_false_iff.mp hfree)).trans ?_
  simp only [hpoison]

end

section
variable (hallowed : ¬ ((w.place la).type p ≠ .main ∨ w.acc (.core c) a z true ≠ .ok))
include hallowed

theorem hostSc_waits (h : (w.core c).resv = some (la / 128) ∧ w.lineHeld c la z true = true) : w.hostSc c a z v p = w := by
  subst hla
  exact (if_neg (not_not.mpr halign)).trans ((if_neg (mt notMainOrRefused_iff.mp hallowed)).trans (if_pos (scWaits_iff.mpr h)))

variable (hgo : ¬ ((w.core c).resv = some (la / 128) ∧ w.lineHeld c la z true = true))
  {d : Work} (hd : (w.drainStores c).drainWc c = d)
include hgo hd

theorem hostSc_succeeds (h : (d.core c).resv = some (la / 128)) : w.hostSc c a z v p =
    ((d.writeLine c la (leBytes z v)).modCore c (fun x => { x with resv := none, lrHold := false, rd := 0, trap := none })).pumpAll := by
  subst hla hd
  refine (ite_of_checks (not_not.mpr halign) (mt notMainOrRefused_iff.mp hallowed) (mt scWaits_iff.mp hgo)).trans ?_
  simp only [h, if_true]

/-- An SC whose reservation has ended, perhaps as the hart's own buffers drained, writes nothing. -/
theorem hostSc_fails (h : (d.core c).resv ≠ some (la / 128)) : w.hostSc c a z v p =
    (d.modCore c (fun x => { x with resv := none, lrHold := false, rd := 1, trap := none })).pumpAll := by
  subst hla hd
  refine (ite_of_checks (not_not.mpr halign) (mt notMainOrRefused_iff.mp hallowed) (mt scWaits_iff.mp hgo)).trans ?_
  simp only [h, if_false]

end

end

/-! ## Fences (R322, R323, R329, R331) -/

section
variable {w : Work} {c : Nat} {x y : FenceSet}

theorem noSuccessor_iff : ¬ (y.r || y.w || y.i || y.o) = true ↔ y.r = false ∧ y.w = false ∧ y.i = false ∧ y.o = false := by
  rw [Bool.not_eq_true, Bool.or_eq_false_iff, Bool.or_eq_false_iff, Bool.or_eq_false_iff, and_assoc, and_assoc]

theorem hostFence_drains (hx : x.w = true) (hy : ¬ (y.r = false ∧ y.w = false ∧ y.i = false ∧ y.o = false)) :
    w.hostFence c x y = (w.drainStores c).drainWc c :=
  if_pos (Bool.and_eq_true_iff.mpr ⟨hx, not_not.mp (mt noSuccessor_iff.mp hy)⟩)

theorem hostFence_ignored (h : x.w = false ∨ y.r = false ∧ y.w = false ∧ y.i = false ∧ y.o = false) :
    w.hostFence c x y = w := by
  refine if_neg fun hboth => ?_
  obtain ⟨hx, hy⟩ := Bool.and_eq_true_iff.mp hboth
  exact h.elim (fun h => absurd hx (Bool.eq_false_iff.mp h)) (fun h => noSuccessor_iff.mpr h hy)

end

/-! ## Cache-block operations (R323, R355, R357) -/

section
variable {w : Work} {c a b la : Nat} {p : Pbmt}

section
variable (hb : a / 128 * 128 = b)
include hb

theorem cboZero_refused (h : (w.place (w.local_ b)).type p = .io ∨ w.acc (.core c) b 128 true ≠ .ok) :
    w.cboZero c a p = w.denyStore c b := by
  subst hb
  by_cases hio : (w.place (w.local_ (a / 128 * 128))).type p = .io
  · exact if_pos hio
  · exact (if_neg hio).trans (if_pos (h.resolve_left hio))

variable (hla : w.local_ b = la) (hio : (w.place la).type p ≠ .io) (hacc : w.acc (.core c) b 128 true = .ok)
include hla hio hacc

/-- In a port's window the zeros go to the port. -/
theorem cboZero_mmio {q o : Nat} (hplace : w.place la = .mmio q o) : w.cboZero c a p =
    ((w.drainStores c).post la (List.replicate 128 0) (some (.core c))).programHdm q o := by
  subst hb hla
  refine (if_neg hio).trans ((if_neg (not_not.mpr hacc)).trans ?_)
  simp only [hplace]
  exact if_neg (not_not.mpr (Nat.mul_mod_left _ _))

/-- Elsewhere the zeros commit as one store of the hart, which coherence sees once the buffer drains. -/
theorem cboZero_commits (hmmio : (w.place la).isMmio = false) : w.cboZero c a p =
    (w.each (linesOf la 128) (fun w l => w.drainWcLine c l)).modCore c (fun x => { x with
      storeBuf := x.storeBuf ++ [{ addr := la, bytes := List.replicate 128 0, nc := decide ((w.place la).type p = .uncached) }] }) := by
  subst hb hla
  refine (if_neg hio).trans ((if_neg (not_not.mpr hacc)).trans ?_)
  split
  · next q o hplace => rw [hplace] at hmmio; cases hmmio
  · refine (if_neg (by rw [Bool.and_false]; decide)).trans ?_
    cases htype : (w.place (w.local_ (a / 128 * 128))).type p with
    | io => exact absurd htype hio
    | main => rfl
    | uncached => rfl

end

section
variable {f : Work → Nat → Work}

theorem cboLine_refused (hla : w.local_ (a / 128 * 128) = la) (h : w.acc (.core c) la 128 false ≠ .ok) :
    w.cboLine c a p f = w.denyStore c (a / 128 * 128) := by
  subst hla
  exact if_pos h

variable (hla : w.local_ (a / 128 * 128) = la) (hacc : w.acc (.core c) la 128 false = .ok)
include hla hacc

theorem cboLine_waits (h : w.heldBy (some c) (la / 128) (la / 128 + 1) = true) : w.cboLine c a p f = w := by
  subst hla
  exact (if_neg (not_not.mpr hacc)).trans (if_pos h)

variable (hfree : w.heldBy (some c) (la / 128) (la / 128 + 1) = false)
include hfree

theorem cboLine_acts (hmem : (w.place la).mainMemory = true) (hp : p ≠ .io) :
    w.cboLine c a p f = f ((w.drainStores c).drainWcLine c (la / 128)) (la / 128) := by
  subst hla
  refine (if_neg (not_not.mpr hacc)).trans ((if_neg (Bool.eq_false_iff.mp hfree)).trans (if_pos ?_))
  rw [hmem, decide_eq_true hp]
  rfl

/-- Outside main memory a cache-block operation is ordered as a store and does no more. -/
theorem cboLine_ordered (h : (w.place la).mainMemory = false ∨ p = .io) :
    w.cboLine c a p f = (w.drainStores c).drainWcLine c (la / 128) := by
  subst hla
  refine (if_neg (not_not.mpr hacc)).trans ((if_neg (Bool.eq_false_iff.mp hfree)).trans (if_neg ?_))
  rw [Bool.and_eq_true, decide_eq_true_eq]
  rintro ⟨hmem, hp⟩
  exact h.elim (fun h => Bool.eq_false_iff.mp h hmem) hp

end

end

/-! ## What leaves the buffers by itself (R326, R330, R333, R341) -/

section
variable {w : Work} {c : Nat}

/-- No mover has a transfer and no command has started, so no transfer waits. -/
theorem pumpAll_idle (hmovers : ∀ e ∈ w.chip.tiles, e.2.mover0.run = none ∧ e.2.mover1.run = none)
    (hcmds : ∀ e ∈ w.chip.sqs, ∀ k ∈ e.2.cmds, k.phase ≠ .started) : w.pumpAll = w := by
  have hnoMover : w.chip.tiles.filter (fun e => e.2.mover0.run.isSome || e.2.mover1.run.isSome) = [] :=
    List.filter_eq_nil_iff.mpr fun e he => by
      obtain ⟨h0, h1⟩ := hmovers e he
      rw [h0, h1]; decide
  have hnoCmd : w.chip.sqs.flatMap (fun e => (e.2.cmds.filter (fun c => c.phase = .started)).map (fun c => (e.1, c.seq))) = [] :=
    List.flatMap_eq_nil_iff.mpr fun e he => List.map_eq_nil_iff.mpr <| List.filter_eq_nil_iff.mpr fun k hk =>
      mt of_decide_eq_true (hcmds e he k hk)
  simp only [Work.pumpAll, hnoMover, List.map_nil, Work.each_nil, hnoCmd]

theorem drainWcLine_listed {l : Nat} {e : WcEntry} (h : (w.core c).wc.find? (fun e => e.line = l) = some e) :
    w.drainWcLine c l = w.drainWcEntry c e := by
  rw [Work.drainWcLine, h]

theorem drainWcLine_absent {l : Nat} (h : ∀ e ∈ (w.core c).wc, e.line ≠ l) : w.drainWcLine c l = w := by
  rw [Work.drainWcLine, List.find?_eq_none.mpr fun e he => mt of_decide_eq_true (h e he)]

/-- An update of a core depends on what the core is alone. -/
theorem modCore_congr {f g : HostCore → HostCore} (h : f (w.core c) = g (w.core c)) : w.modCore c f = w.modCore c g :=
  congrArg (w.setCore c) h

theorem storeDropped_entry {e : WcEntry} {rest : List WcEntry} (hwc : (w.core c).wc = e :: rest)
    (h : w.storeOk c (e.line * 128) 128 = false) :
    w.storeDropped c true = (w.modCore c (fun x => { x with wc := rest })).dropStore c (e.line * 128) := by
  have hdrop : w.modCore c (fun x => { x with wc := x.wc.drop 1 }) = w.modCore c (fun x => { x with wc := rest }) :=
    modCore_congr (by rw [hwc]; rfl)
  simp only [Work.storeDropped, if_true, hwc, h, Bool.false_eq_true, if_false, hdrop]

section
variable {u : StoreUnit} {rest : List StoreUnit} (hbuf : (w.core c).storeBuf = u :: rest)
include hbuf

theorem storeDropped_store (h : w.storeOk c u.addr u.bytes.length = false) :
    w.storeDropped c false = (w.modCore c (fun x => { x with storeBuf := rest })).dropStore c u.addr := by
  have hdrop : w.modCore c (fun x => { x with storeBuf := x.storeBuf.drop 1 }) = w.modCore c (fun x => { x with storeBuf := rest }) :=
    modCore_congr (by rw [hbuf]; rfl)
  simp only [Work.storeDropped, hbuf, h, Bool.false_eq_true, if_false, hdrop]

theorem storeDropped_taken (h : w.storeOk c u.addr u.bytes.length = true) : w.storeDropped c false = w := by
  simp only [Work.storeDropped, hbuf, h, Bool.false_eq_true, if_false, if_true]

end

end

theorem look_mapVal {α : Type} (m : SMap α) (f : Nat → α → α) (k : Nat) :
    SMap.look (SMap.mapVal m f) k = (SMap.look m k).map (f k) := by
  induction m with
  | nil => rfl
  | cons e m ih =>
    obtain ⟨j, v⟩ := e
    by_cases h : j = k
    · simp [SMap.look, SMap.mapVal, h]
    · simpa [SMap.look, SMap.mapVal, h] using ih

/-- Settles O43: each command by the equation of its outcome. -/
theorem hostAtomicsAndFences : Obligations.HostAtomicsAndFences := by
  unfold Obligations.HostAtomicsAndFences
  refine ⟨?amo, ?lr, ?sc, ?fence, ?cbo, ?timeout, ?dropped, ?readahead⟩
  case amo =>
    intro s c op a z v k p hfree hz w la ty i trap
    have hexec : exec i s = lift (fun w => w.hostInstr c (fun w => w.hostAmo c op a.toNat z.bytes v.toNat k.toNat p)) s :=
      exec_hostAmo.trans (liftIf_eq hz)
    have hrun {u : Work} (hu : w.hostAmo c op a.toNat z.bytes v.toNat k.toNat p = u) : Runs i s u :=
      runs_of_hostInstr hexec hfree hu
    refine ⟨fun h => gives_of_hostTrap hexec hfree (hostAmo_misaligned h),
      fun halign h => gives_of_hostTrap hexec hfree (hostAmo_refused rfl halign h), ?waits, ?acts⟩
    case waits => exact fun halign hmmio hacc hio h => hrun (hostAmo_waits rfl halign (amo_allowed hmmio hacc hio) h)
    case acts =>
      intro halign hmmio hacc hio hgo d main
      have hallowed := amo_allowed hmmio hacc hio
      have hmain {u : Work} (hty : ty = .main)
          (hu : (if d.ownsLine c (la / 128) then d else (d.l2Miss c (la / 128)).fillUnique c (la / 128)).touch c (la / 128) = u) :
          main u :=
        ⟨fun hclean => hrun (hostAmo_main rfl halign hallowed hgo rfl hty hu hclean),
          fun b hpoison => hrun (hostAmo_main_poisoned rfl halign hallowed hgo rfl hty hu hpoison)⟩
      refine ⟨fun hty howns => hmain hty ?_, fun hty howns => hmain hty ?_, fun hty => ⟨fun hclean => ?_, fun b hpoison => ?_⟩⟩
      · rw [if_pos howns]
      · rw [if_neg (Bool.eq_false_iff.mp howns)]
      · exact hrun (hostAmo_uncached rfl halign hallowed hgo rfl hty hclean)
      · exact hrun (hostAmo_uncached_poisoned rfl halign hallowed hgo rfl hty hpoison)
  case lr =>
    intro s c a z p hfree hz w la i
    have hrun {u : Work} (hu : w.hostLr c a.toNat z.bytes p = u) : Runs i s u :=
      runs_of_hostInstr (exec_hostLr.trans (liftIf_eq (word_or_double hz))) hfree hu
    refine ⟨?main, fun halign h => hrun (hostLr_refused rfl halign h), fun h => hrun (hostLr_misaligned h)⟩
    case main =>
      intro halign hmain hacc u
      have hallowed := main_allowed hmain hacc
      exact ⟨fun h => hrun (hostLr_waits rfl halign hallowed h),
        fun hnone hclean => hrun (hostLr_reserves rfl halign hallowed hnone rfl hclean),
        fun hnone b hpoison => hrun (hostLr_poisoned rfl halign hallowed hnone rfl hpoison)⟩
  case sc =>
    intro s c a z v p hfree hz w la i d ends waits
    have hrun {u : Work} (hu : w.hostSc c a.toNat z.bytes v.toNat p = u) : Runs i s u :=
      runs_of_hostInstr (exec_hostSc.trans (liftIf_eq (word_or_double hz))) hfree hu
    have hresv : (w.core c).resv = (coreOf s c).resv := resv_untrap c (Work.of s)
    refine ⟨fun halign hmain hacc => ?_, fun halign h => hrun (hostSc_refused rfl halign h), fun h => hrun (hostSc_misaligned h)⟩
    have hallowed := main_allowed hmain hacc
    have hwaits : waits ↔ (w.core c).resv = some (la / 128) ∧ w.lineHeld c la z.bytes true = true := by rw [hresv]
    exact ⟨fun h => hrun (hostSc_waits rfl halign hallowed (hwaits.mp h)),
      fun hgo h => hrun (hostSc_succeeds rfl halign hallowed (mt hwaits.mpr hgo) rfl h),
      fun hgo h => hrun (hostSc_fails rfl halign hallowed (mt hwaits.mpr hgo) rfl h)⟩
  case fence =>
    intro s c x y hfree w none_
    exact ⟨fun hx hy => runs_of_hostInstr exec_hostFence hfree (hostFence_drains hx hy),
      fun h => runs_of_hostInstr exec_hostFence hfree (hostFence_ignored h), runs_of_hostInstr exec_fenceI hfree rfl⟩
  case cbo =>
    intro s c a p hfree w b la pl d
    have hzero {u : Work} (hu : w.cboZero c a.toNat p = u) : Runs (.cboZero c a p) s u := runs_of_hostInstr exec_cboZero hfree hu
    refine ⟨fun h => hzero (cboZero_refused rfl h), fun q o hplace hio hacc => hzero (cboZero_mmio rfl rfl hio hacc hplace),
      fun hio hmmio hacc => hzero (cboZero_commits rfl rfl hio hacc hmmio), ?alone, ?line⟩
    case alone =>
      intro hio hmmio hacc hwc
      have hwc' : (w.core c).wc = [] := (wc_untrap c (Work.of s)).trans hwc
      have hd : d = w := each_of_noChange fun l _ => drainWcLine_absent (by rw [hwc']; exact List.forall_mem_nil _)
      exact gives_of_modCore _ exec_cboZero
        ((hostInstr_of_free hfree _).trans ((cboZero_commits rfl rfl hio hacc hmmio).trans
          ((congrArg (Work.modCore · c _) hd).trans (Work.modCore_modCore _ _ _ _)))) rfl
    case line =>
      intro i f hi
      have hexec : exec i s = lift (fun w => w.hostInstr c (fun w => w.cboLine c a.toNat p f)) s := by
        rcases hi with ⟨rfl, rfl⟩ | ⟨rfl, rfl⟩ | ⟨rfl, rfl⟩
        · exact exec_cboClean
        · exact exec_cboFlush
        · exact exec_cboInval
      have hrun {u : Work} (hu : w.cboLine c a.toNat p f = u) : Runs i s u := runs_of_hostInstr hexec hfree hu
      exact ⟨fun h => hrun (cboLine_refused rfl h), fun hacc h => hrun (cboLine_waits rfl hacc h), fun hacc hnone =>
        ⟨fun hmem hp => hrun (cboLine_acts rfl hacc hnone hmem hp), fun h => hrun (cboLine_ordered rfl hacc hnone h)⟩⟩
  case timeout =>
    intro s c l
    exact ⟨runs_of_lift exec_lrHoldExpire rfl,
      fun hmovers hcmds => gives_of_modCore _ exec_lrHoldExpire (pumpAll_idle hmovers hcmds) rfl,
      fun e h => runs_of_lift exec_wcEntryTimeout (drainWcLine_listed h),
      fun h => becomes_of_lift exec_wcEntryTimeout (drainWcLine_absent h)⟩
  case dropped =>
    intro s c w
    exact ⟨fun e rest hwc h => runs_of_lift exec_storeDropped (storeDropped_entry hwc h),
      fun u rest hbuf h => runs_of_lift exec_storeDropped (storeDropped_store hbuf h),
      fun u rest hbuf h => becomes_of_lift exec_storeDropped (storeDropped_taken hbuf h)⟩
  case readahead =>
    intro s b l
    exact ⟨_, exec_readaheadExpire, ⟨rfl, rfl, rfl⟩, rfl, fun k =>
      look_mapVal s.chip.readAhead (fun j x => if j = b.val then x.filter (fun r => r.line ≠ l.toNat) else x) k⟩

end Sys2Proof
end

section
/-!
Requests at a home (Obligations.HomeRequests): how a request comes to be decided, one equation for each outcome, whom the home snoops,
and its answer to each kind of request.
-/

namespace Sys2Proof

open Sys2Proof.Machine

/-! ## A request that reaches its home (R345, R367, R376) -/

/-- A line that has a home lies neither in a scratchpad way nor in a tile, so a volatile read of it is a request like the others. -/
theorem volatileRequest_of_home {w : Work} {h l a : Nat} {n : Nature} (hhome : (w.homeOf (l * 128)).isSome = true) :
    w.volatileRequest h l a n = w.arrives h l a .rdVol .read n := by
  rw [Work.homeOf] at hhome
  rw [Work.volatileRequest]
  cases hplace : w.place (l * 128) with
  | scratch y o => rw [hplace] at hhome; cases hhome
  | tile k o => rw [hplace] at hhome; cases hhome
  | _ => rfl

/-- Each command that brings a request hands it to its home. -/
theorem runs_arrives {c : Instr} {r : Req} (s : State) (hr : reqOf c = some r)
    (hhome : ((Work.of s).homeOf (r.line * 128)).isSome = true) :
    Runs c s ((Work.of s).arrives r.home r.line r.agent r.kind r.op r.nature) := by
  unfold reqOf at hr
  split at hr
  case h_1 => cases hr; exact runs_of_lift exec_rdshared rfl
  case h_2 => cases hr; exact runs_of_lift exec_rdunique rfl
  case h_3 => cases hr; exact runs_of_lift exec_upgrade rfl
  case h_4 => cases hr; exact runs_of_lift exec_rdpref rfl
  case h_5 => cases hr; exact runs_of_lift exec_rdvol (volatileRequest_of_home hhome)
  case h_6 => cases hr; exact runs_of_lift exec_zeroline rfl
  case h_7 => cases hr; exact runs_of_lift exec_cleanline rfl
  case h_8 => cases hr; exact runs_of_lift exec_flushline rfl
  case h_9 => cases hr; exact runs_of_lift exec_wrplain rfl
  case h_10 => cases hr; exact runs_of_lift exec_wrpublish rfl
  case h_11 => cases hr; exact runs_of_lift exec_wrfull rfl
  case h_12 =>
    obtain ⟨hsize, hr⟩ := Option.ite_none_right_eq_some.mp hr
    cases hr
    exact runs_of_lift (exec_atomic.trans (liftIf_eq hsize)) rfl
  case h_13 => cases hr

/-- A writeback is no request that a command of its own brings. -/
theorem reqOf_kind {c : Instr} {r : Req} (hr : reqOf c = some r) : r.kind ≠ .wbReq := by
  unfold reqOf at hr
  split at hr
  case h_12 => obtain ⟨-, hr⟩ := Option.ite_none_right_eq_some.mp hr; cases hr; nofun
  case h_13 => cases hr
  all_goals cases hr; nofun

/-- A request that reaches its home is decided in the state that nature leaves. -/
theorem arrives_eq_request {s : State} {r : Req} (h : r.arrives s) :
    (Work.of s).arrives r.home r.line r.agent r.kind r.op r.nature = (r.at_ s).request r.home r.line r.agent r.kind r.op := by
  obtain ⟨hcomes, hmeta⟩ := h
  rw [Work.arrives, hcomes, hmeta]
  rfl

theorem home_of_arrives {s : State} {r : Req} (h : r.arrives s) : ((Work.of s).homeOf (r.line * 128)).isSome = true := by
  obtain ⟨hcomes, -⟩ := h
  simp only [Work.comes, Bool.and_eq_true] at hcomes
  obtain ⟨⟨⟨-, hhome⟩, -⟩, -⟩ := hcomes
  exact hhome

theorem runs_of_request {s : State} {c : Instr} {r : Req} {w : Work} (hr : reqOf c = some r) (ha : r.arrives s)
    (hw : (r.at_ s).request r.home r.line r.agent r.kind r.op = w) : Runs c s w := by
  rw [← hw, ← arrives_eq_request ha]
  exact runs_arrives s hr (home_of_arrives ha)

/-! ## Outcomes of a request (R365, R367, R369, R388) -/

/-- The home has reserved a tracker for agent a's request for line l. -/
def Machine.Home.ready (x : Home) (a l : Nat) : Prop := ∃ e ∈ x.retry, e.granted = true ∧ e.agent = a ∧ e.line = l

/-- An entry of the list comes before a new request for line l. -/
def Machine.Home.waits (x : Home) (l : Nat) : Prop := ∃ e ∈ x.retry, e.granted = false ∨ e.line = l

theorem find?_of_not_ready {x : Home} {a l : Nat} (h : ¬ x.ready a l) :
    x.retry.find? (fun e => e.granted && e.agent = a && e.line = l) = none := by
  refine List.find?_eq_none.mpr fun e he hgrant => h ⟨e, he, ?_⟩
  simpa only [Bool.and_eq_true, decide_eq_true_eq, and_assoc] using hgrant

theorem waits_iff {x : Home} {l : Nat} : x.retry.any (fun e => !e.granted || e.line = l) = true ↔ x.waits l := by
  simp only [List.any_eq_true, Home.waits, Bool.or_eq_true, Bool.not_eq_true', decide_eq_true_eq]

section
variable {w : Work} {h l a : Nat} {kind : MsgKind} {op : HomeOp}

theorem request_granted {e : RetryEntry}
    (hgrant : (w.home h).retry.find? (fun e => e.granted && e.agent = a && e.line = l) = some e) :
    w.request h l a kind op = (w.modHome h (fun x => { x with retry := x.retry.erase e })).openTxn h l a kind op := by
  simp only [Work.request, hgrant]

/-- A request that is not accepted is a prefetch that is dropped, or enters the list. -/
theorem retryReq_eq : w.retryReq h l a kind = if kind = .rdPref then w.send .noData h a l .rdPref .i
    else (w.modHome h (fun x => { x with
      retry := x.retry ++ [{ kind := kind, agent := a, line := l, granted := false }]
      retries := min (x.retries + 1) 0xFFFF_FFFF })).send .retry h a l kind .i := by
  by_cases hpref : kind = .rdPref
  · rw [Work.retryReq, if_pos hpref, if_pos hpref, hpref]
  · rw [Work.retryReq, if_neg hpref, if_neg hpref]; rfl

/-- A home with a free tracker and an empty list ahead refuses no new request. -/
theorem not_refused (hwaits : ¬ (w.home h).waits l) (hfree : (w.home h).free h = true) :
    ¬ ((w.home h).retry.any (fun e => !e.granted || e.line = l) || !(w.home h).free h) = true := by
  rw [Bool.or_eq_true, Bool.not_eq_true', hfree]
  exact not_or.mpr ⟨mt waits_iff.mp hwaits, Bool.noConfusion⟩

section
variable (hready : ¬ (w.home h).ready a l)
include hready

section
variable {t : Txn} (ht : w.txn? h l = some t)
include ht

theorem request_joins (hwb : t.kind = .wbReq) (hjoined : t.joined = none) (hwaits : ¬ (w.home h).waits l) (hkind : kind ≠ .wbReq) :
    w.request h l a kind op = w.setTxn h l { t with joined := some (kind, a, op) } := by
  simp only [Work.request, find?_of_not_ready hready, ht]
  refine if_pos ?_
  simp only [Bool.and_eq_true, decide_eq_true_eq, Bool.not_eq_true', Bool.eq_false_iff]
  exact ⟨⟨⟨hwb, hjoined⟩, mt waits_iff.mp hwaits⟩, hkind⟩

theorem request_conflicts (hbusy : t.kind ≠ .wbReq ∨ t.joined ≠ none ∨ (w.home h).waits l) :
    w.request h l a kind op = w.retryReq h l a kind := by
  simp only [Work.request, find?_of_not_ready hready, ht]
  refine if_neg ?_
  simp only [Bool.and_eq_true, decide_eq_true_eq, Bool.not_eq_true', Bool.eq_false_iff]
  rintro ⟨⟨⟨hwb, hjoined⟩, hfirst⟩, -⟩
  rcases hbusy with hother | htaken | hwaits
  · exact hother hwb
  · exact htaken hjoined
  · exact hfirst (waits_iff.mpr hwaits)

end

section
variable (ht : w.txn? h l = none)
include ht

theorem request_refused (hfull : (w.home h).waits l ∨ (w.home h).free h = false) :
    w.request h l a kind op = w.retryReq h l a kind := by
  simp only [Work.request, find?_of_not_ready hready, ht]
  refine if_pos ?_
  rw [Bool.or_eq_true, Bool.not_eq_true']
  exact hfull.imp_left waits_iff.mpr

section
variable (hwaits : ¬ (w.home h).waits l) (hfree : (w.home h).free h = true)
include hwaits hfree

theorem request_opens (htokens : w.needsTokens h l a kind op = none) : w.request h l a kind op = w.openTxn h l a kind op := by
  simp only [Work.request, find?_of_not_ready hready, ht, htokens]
  exact if_neg (not_refused hwaits hfree)

section
variable {p : Nat} {wr : Bool} (htokens : w.needsTokens h l a kind op = some (p, wr))
include htokens

theorem request_tooMany (hmany : 16 ≤ w.waitingTokens h p) : w.request h l a kind op = w.retryReq h l a kind := by
  simp only [Work.request, find?_of_not_ready hready, ht, htokens]
  exact (if_neg (not_refused hwaits hfree)).trans (if_pos hmany)

theorem request_waits (hfew : w.waitingTokens h p < 16) : w.request h l a kind op =
    (w.modSlice h (fun y => if wr then { y with wrWaiting := SMap.modify 0 y.wrWaiting p (· + 1) }
      else { y with rdWaiting := SMap.modify 0 y.rdWaiting p (· + 1) })).setTxn h l
      { Txn.opened kind a op [] with tokens := some p } := by
  simp only [Work.request, find?_of_not_ready hready, ht, htokens]
  exact (if_neg (not_refused hwaits hfree)).trans (if_neg (Nat.not_le.mpr hfew))

end

end

end

end

end

/-! ## A transaction opens with its snoops (R363, R360) -/

theorem look_erase_self {α : Type} (m : SMap α) (k : Nat) : SMap.look (SMap.erase m k) k = none := by
  induction m with
  | nil => rfl
  | cons e m ih =>
    obtain ⟨j, v⟩ := e
    by_cases h : j = k <;> simp [SMap.erase, SMap.look, h, ih]

@[simp] theorem txn?_setTxn (w : Work) (h l : Nat) (t : Txn) : (w.setTxn h l t).txn? h l = some t := by
  rw [Work.txn?, Work.setTxn, Work.modHome_self]
  exact look_insert_self _ _ _ (look_erase_self _ _)

/-- The snoop of the owner, of the requester too where self is true. -/
def Machine.DirEntry.snoopOwner (e : DirEntry) (a : Nat) (k : MsgKind) (self : Bool) : List (Nat × MsgKind) :=
  if (e.st = .o || e.st = .em) && (self || e.owner ≠ a) then [(e.owner, k)] else []

/-- The listed cores but the requester. -/
def Machine.DirEntry.others (e : DirEntry) (a : Nat) : List Nat := (bitList e.present).filter (fun q => q ≠ a)

/-- The cores of a list but the owner. -/
def Machine.DirEntry.notOwner (e : DirEntry) (qs : List Nat) : List Nat :=
  qs.filter (fun q => !((e.st = .o || e.st = .em) && q = e.owner))

/-- An invalidating snoop for each of some cores. -/
def invalidations (qs : List Nat) : List (Nat × MsgKind) := qs.map (fun q => (q, .snpInv))

section
variable {e : DirEntry} {a q : Nat} {k k' : MsgKind} {qs : List Nat}

theorem owned_iff : (e.st = .o || e.st = .em) = true ↔ e.owned := by
  rw [Bool.or_eq_true, decide_eq_true_eq, decide_eq_true_eq, DirEntry.owned]

theorem mem_snoopOwner_iff {self : Bool} :
    (q, k) ∈ e.snoopOwner a k' self ↔ (e.owned ∧ (self = true ∨ e.owner ≠ a)) ∧ q = e.owner ∧ k = k' := by
  rw [DirEntry.snoopOwner, List.mem_ite_nil_right, Bool.and_eq_true, owned_iff, Bool.or_eq_true, decide_eq_true_eq, List.mem_singleton,
    Prod.mk.injEq]

theorem mem_snoopOwner_self : (q, k) ∈ e.snoopOwner a k' true ↔ k = k' ∧ e.owned ∧ q = e.owner := by
  rw [mem_snoopOwner_iff]
  exact ⟨fun ⟨⟨howned, _⟩, hq, hk⟩ => ⟨hk, howned, hq⟩, fun ⟨hk, howned, hq⟩ => ⟨⟨howned, .inl rfl⟩, hq, hk⟩⟩

theorem mem_snoopOwner : (q, k) ∈ e.snoopOwner a k' false ↔ k = k' ∧ (e.owned ∧ q = e.owner) ∧ q ≠ a := by
  rw [mem_snoopOwner_iff]
  constructor
  · rintro ⟨⟨howned, hself⟩, rfl, hk⟩
    exact ⟨hk, ⟨howned, rfl⟩, hself.resolve_left Bool.noConfusion⟩
  · rintro ⟨hk, ⟨howned, rfl⟩, hself⟩
    exact ⟨⟨howned, .inr hself⟩, rfl, hk⟩

theorem mem_listed : q ∈ bitList e.present ↔ bit e.present q = true := by
  rw [bitList, mem_idxs]
  exact and_iff_right_of_imp BitVec.lt_of_getLsbD

theorem mem_others : q ∈ e.others a ↔ bit e.present q = true ∧ q ≠ a := by
  rw [DirEntry.others, List.mem_filter, mem_listed, decide_eq_true_eq]

theorem mem_notOwner : q ∈ e.notOwner qs ↔ q ∈ qs ∧ ¬ (e.owned ∧ q = e.owner) := by
  rw [DirEntry.notOwner, List.mem_filter, Bool.not_eq_true', ← Bool.not_eq_true, Bool.and_eq_true, owned_iff, decide_eq_true_eq]

theorem mem_invalidations : (q, k) ∈ invalidations qs ↔ k = .snpInv ∧ q ∈ qs := by
  simp only [invalidations, List.mem_map, Prod.mk.injEq]
  exact ⟨fun ⟨_, hmem, hq, hk⟩ => ⟨hk.symm, hq ▸ hmem⟩, fun ⟨hk, hmem⟩ => ⟨q, hmem, rfl, hk.symm⟩⟩

theorem mem_invalidations_others : (q, k) ∈ invalidations (e.others a) ↔ k = .snpInv ∧ bit e.present q = true ∧ q ≠ a := by
  rw [mem_invalidations, mem_others]

theorem mem_invalidations_sharers : (q, k) ∈ invalidations (e.notOwner (e.others a)) ↔
    k = .snpInv ∧ (bit e.present q = true ∧ q ≠ a) ∧ ¬ (e.owned ∧ q = e.owner) := by
  rw [mem_invalidations, mem_notOwner, mem_others]

theorem mem_invalidations_listed : (q, k) ∈ invalidations (e.notOwner (bitList e.present)) ↔
    k = .snpInv ∧ bit e.present q = true ∧ ¬ (e.owned ∧ q = e.owner) := by
  rw [mem_invalidations, mem_notOwner, mem_listed]

end

section
variable (e : DirEntry) (a : Nat)

theorem snoopsFor_rdShared : snoopsFor .rdShared e a = e.snoopOwner a .snpShared false := rfl
theorem snoopsFor_rdPref : snoopsFor .rdPref e a = e.snoopOwner a .snpShared false := rfl
theorem snoopsFor_rdUnique :
    snoopsFor .rdUnique e a = e.snoopOwner a .snpUnique false ++ invalidations (e.notOwner (e.others a)) := rfl
theorem snoopsFor_upgrade : snoopsFor .upgrade e a = invalidations (e.others a) := rfl
theorem snoopsFor_zeroLine : snoopsFor .zeroLine e a = invalidations (e.others a) := rfl
theorem snoopsFor_wrFull : snoopsFor .wrFull e a = invalidations (e.others a) := rfl
theorem snoopsFor_flushLine :
    snoopsFor .flushLine e a = e.snoopOwner a .snpFlush true ++ invalidations (e.notOwner (bitList e.present)) := rfl
theorem snoopsFor_cleanLine : snoopsFor .cleanLine e a = e.snoopOwner a .snpClean true := rfl
theorem snoopsFor_rdVol : snoopsFor .rdVol e a = e.snoopOwner a .snpCopy true := rfl
theorem snoopsFor_wrPlain : snoopsFor .wrPlain e a = e.snoopOwner a .snpRecall true := rfl
theorem snoopsFor_wrPublish :
    snoopsFor .wrPublish e a = e.snoopOwner a .snpFlush true ++ invalidations (e.notOwner (e.others a)) := rfl
theorem snoopsFor_atomic :
    snoopsFor .atomic e a = e.snoopOwner a .snpFlush true ++ invalidations (e.notOwner (e.others a)) := rfl

variable {e a}

theorem cls_of_mem_snoopOwner {k : MsgKind} {self : Bool} {x : Nat × MsgKind} (hk : k.cls = 1) (hx : x ∈ e.snoopOwner a k self) :
    x.2.cls = 1 := by
  obtain ⟨-, -, rfl⟩ := mem_snoopOwner_iff.mp hx
  exact hk

theorem cls_of_mem_invalidations {qs : List Nat} {x : Nat × MsgKind} (hx : x ∈ invalidations qs) : x.2.cls = 1 := by
  obtain ⟨hk, -⟩ := mem_invalidations.mp hx
  rw [hk]; rfl

theorem cls_of_mem_append {k : MsgKind} {self : Bool} {qs : List Nat} {x : Nat × MsgKind} (hk : k.cls = 1)
    (hx : x ∈ e.snoopOwner a k self ++ invalidations qs) : x.2.cls = 1 :=
  (List.mem_append.mp hx).elim (cls_of_mem_snoopOwner hk) cls_of_mem_invalidations

/-- Whom a home snoops, it snoops with a message of class snoop. -/
theorem cls_of_mem_snoopsFor {kind : MsgKind} {x : Nat × MsgKind} (hx : x ∈ snoopsFor kind e a) : x.2.cls = 1 := by
  cases kind with
  | rdShared | rdPref | cleanLine | rdVol | wrPlain => exact cls_of_mem_snoopOwner rfl hx
  | upgrade | zeroLine | wrFull => exact cls_of_mem_invalidations hx
  | rdUnique | flushLine | wrPublish | atomic => exact cls_of_mem_append rfl hx
  | _ => cases hx

end

theorem fromHome_of_snoop {k : MsgKind} (hk : k.cls = 1) : k.fromHome = true := by
  cases k with
  | snpShared | snpUnique | snpInv | snpFlush | snpClean | snpRecall | snpCopy => rfl
  | _ => cases hk

/-- Messages join those on the network. -/
def withMsgs (w : Work) (ms : List Msg) : Work := { w with chip.net := w.chip.net ++ ms }

theorem withMsgs_nil (w : Work) : withMsgs w [] = w := by rw [withMsgs, List.append_nil]

theorem withMsgs_append (w : Work) (ms ns : List Msg) : withMsgs (withMsgs w ms) ns = withMsgs w (ms ++ ns) := by
  simp only [withMsgs, List.append_assoc]

theorem txn?_withMsgs (w : Work) (ms : List Msg) (h l : Nat) : (withMsgs w ms).txn? h l = w.txn? h l := rfl

/-- The snoop that a home sends for a request of agent a. -/
def snoopMsg (h l a : Nat) (req : MsgKind) (x : Nat × MsgKind) : Msg :=
  { kind := x.2, home := h, agent := x.1, line := l, req := req, st := .i, src := homeDie h, dst := agentDie x.1
    vc := 2 + (if a < 96 then 0 else 1), poison := 0 }

section
variable {w : Work} {h l : Nat} {t : Txn}

theorem send_snoop {x : Nat × MsgKind} (hx : x.2.cls = 1) (ht : w.txn? h l = some t) (req : MsgKind) :
    w.send x.2 h x.1 l req .i = withMsgs w [snoopMsg h l t.agent req x] := by
  have hopener : w.opener x.2 h x.1 l = t.agent := by
    simp only [Work.opener, hx, ht, decide_true, Bool.true_or, if_true]
  rw [Work.send, fromHome_of_snoop hx, if_pos rfl, Work.sendFrom, hopener, hx]
  rfl

theorem each_send_snoop (req : MsgKind) (xs : List (Nat × MsgKind)) (hxs : ∀ x ∈ xs, x.2.cls = 1) (ht : w.txn? h l = some t) :
    w.each xs (fun w x => w.send x.2 h x.1 l req .i) = withMsgs w (xs.map (snoopMsg h l t.agent req)) := by
  induction xs generalizing w with
  | nil => rw [Work.each_nil, List.map_nil, withMsgs_nil]
  | cons x xs ih =>
    obtain ⟨hx, hxs⟩ := List.forall_mem_cons.mp hxs
    rw [Work.each_cons, send_snoop hx ht, ih hxs ((txn?_withMsgs _ _ _ _).trans ht), withMsgs_append]
    rfl

end

section
variable {w : Work} {h l a : Nat} {kind k : MsgKind} {op : HomeOp}
  (hk : (if kind = .upgrade && !bit (w.dirAt l).present a then .rdUnique else kind) = k)
include hk

/-- Where no core is to be snooped the request is answered at once. -/
theorem openTxn_answers (hnone : snoopsFor k (w.dirAt l) a = []) : w.openTxn h l a kind op =
    (w.setTxn h l (Txn.opened k a op [])).answerTxn h l (Txn.opened k a op []) := by
  subst hk
  simp only [Work.openTxn, hnone]
  rfl

theorem openTxn_snoops (hsome : snoopsFor k (w.dirAt l) a ≠ []) :
    w.openTxn h l a kind op = withMsgs (w.setTxn h l (Txn.opened k a op ((snoopsFor k (w.dirAt l) a).map (·.1))))
      ((snoopsFor k (w.dirAt l) a).map (snoopMsg h l a k)) := by
  subst hk
  refine (if_neg (mt List.isEmpty_iff.mp hsome)).trans ?_
  exact each_send_snoop _ _ (fun _ => cls_of_mem_snoopsFor) (txn?_setTxn _ _ _ _)

end

theorem openJoined_eq (w : Work) (h l a : Nat) (kind : MsgKind) (op : HomeOp) :
    let t := Txn.opened (if kind = .upgrade then .rdUnique else kind) a op []
    let v := ((w.setDir l { w.dirAt l with st := .i, owner := 0 }).setTxn h l t).answerTxn h l t
    w.openJoined h l a kind op = if (v.dirAt l).st = .i ∧ (v.dirAt l).present ≠ 0 then v.setDir l { v.dirAt l with st := .s } else v := by
  intro t v
  exact if_congr (by rw [Bool.and_eq_true, decide_eq_true_eq, decide_eq_true_eq]) rfl rfl

/-! ## The answer of a home once its snoops are answered (R363) -/

/-- The home supplies the data of the line from its point of coherence. -/
def homeSupplies (w : Work) (h l : Nat) (t : Txn) (p : Option Nat) (st : LineState) : Work :=
  ((w.homeRead l p).setTxn h l { t with waiting := [], needAck := true, granted := st }).send .dataResp h t.agent l t.kind st

/-- The home answers without data, and the transaction closes. -/
def homeCompletes (w : Work) (h l : Nat) (t : Txn) (st : LineState) : Work := (w.send .comp h t.agent l t.kind st).closeTxn h l

/-- The directory entry of a line that a requester alone comes to hold; in state I the cores that are listed stay so (R369). -/
def ownedBy (e : DirEntry) (a : Nat) : DirEntry := { st := .em, owner := a, present := setBit (if e.st = .i then e.present else 0) a true }

/-- The directory entry with a requester added to its sharers. -/
def sharedBy (e : DirEntry) (a : Nat) : DirEntry := { e with present := setBit e.present a true }

/-- A snoop has supplied the requester's data, which has arrived or is on its way. -/
def forwarded (w : Work) (l : Nat) (t : Txn) : Prop :=
  t.dirty = true ∨ t.supplied = true ∨ ∃ m ∈ w.chip.net, m.kind = .snpData ∧ m.agent = t.agent ∧ m.line = l

theorem forwarded_iff {w : Work} {l : Nat} {t : Txn} :
    (t.dirty || t.supplied || w.chip.net.any (fun m => m.kind = .snpData && m.agent = t.agent && m.line = l)) = true ↔
      forwarded w l t := by
  simp only [forwarded, Bool.or_eq_true, List.any_eq_true, Bool.and_eq_true, decide_eq_true_eq, or_assoc, and_assoc]

section
variable {w : Work} {h l : Nat} {t : Txn}

section
variable (hkind : t.kind = .rdShared ∨ t.kind = .rdPref)
include hkind

theorem answerTxn_read_invalid (hst : (w.dirAt l).st = .i) :
    w.answerTxn h l t = homeSupplies (w.setDir l (ownedBy (w.dirAt l) t.agent)) h l t (w.agentPound t.agent l) .e := by
  rcases hkind with hk | hk <;> simp only [Work.answerTxn, homeSupplies, ownedBy, hk, hst]

theorem answerTxn_read_shared (hst : (w.dirAt l).st = .s) (hfrom : ¬ forwarded w l t) :
    w.answerTxn h l t = homeSupplies (w.setDir l (sharedBy (w.dirAt l) t.agent)) h l t (w.agentPound t.agent l) .s := by
  have hnot := mt forwarded_iff.mp hfrom
  rcases hkind with hk | hk <;> simp only [Work.answerTxn, homeSupplies, sharedBy, hk, hst, if_neg hnot]

theorem answerTxn_read_supplied (hst : (w.dirAt l).st = .s) (hfrom : forwarded w l t) :
    w.answerTxn h l t = (w.setDir l (sharedBy (w.dirAt l) t.agent)).awaitAck h l t .s := by
  have hyes := forwarded_iff.mpr hfrom
  rcases hkind with hk | hk <;> simp only [Work.answerTxn, sharedBy, hk, hst, if_pos hyes]

section
variable (howned : (w.dirAt l).owned)
include howned

theorem answerTxn_read_owned (hother : (w.dirAt l).owner ≠ t.agent) :
    w.answerTxn h l t = (w.setDir l (sharedBy (w.dirAt l) t.agent)).awaitAck h l t .s := by
  rcases hkind with hk | hk <;> rcases howned with hst | hst <;> simp only [Work.answerTxn, sharedBy, hk, hst, if_pos hother]

section
variable (hself : (w.dirAt l).owner = t.agent)
include hself

theorem answerTxn_read_alone (halone : setBit (w.dirAt l).present t.agent false = 0) :
    w.answerTxn h l t = homeSupplies (w.setDir l { w.dirAt l with st := .em }) h l t (w.agentPound t.agent l) .e := by
  have hself := not_not.mpr hself
  rcases hkind with hk | hk <;> rcases howned with hst | hst <;>
    simp only [Work.answerTxn, homeSupplies, hk, hst, if_neg hself, if_pos halone]

theorem answerTxn_read_lost (hshared : setBit (w.dirAt l).present t.agent false ≠ 0) : w.answerTxn h l t =
    homeSupplies (w.setDir l { st := .s, owner := 0, present := setBit (w.dirAt l).present t.agent true }) h l t
      (w.agentPound t.agent l) .s := by
  have hself := not_not.mpr hself
  rcases hkind with hk | hk <;> rcases howned with hst | hst <;>
    simp only [Work.answerTxn, homeSupplies, hk, hst, if_neg hself, if_neg hshared]

end

end

end

section
variable (hkind : t.kind = .rdUnique)
include hkind

theorem answerTxn_rdUnique_supplies (hfrom : ¬ forwarded w l t) :
    w.answerTxn h l t = homeSupplies (w.setDir l (ownedBy (w.dirAt l) t.agent)) h l t (w.agentPound t.agent l) .e := by
  have hnot := mt forwarded_iff.mp hfrom
  simp only [Work.answerTxn, homeSupplies, ownedBy, hkind, if_neg hnot]

theorem answerTxn_rdUnique_forwarded (hfrom : forwarded w l t) :
    w.answerTxn h l t = (w.setDir l (ownedBy (w.dirAt l) t.agent)).awaitAck h l t (if t.dirty then .m else .e) := by
  have hyes := forwarded_iff.mpr hfrom
  simp only [Work.answerTxn, ownedBy, hkind, if_pos hyes]

end

theorem answerTxn_owns (hkind : t.kind = .upgrade ∨ t.kind = .zeroLine) :
    w.answerTxn h l t = homeCompletes (w.setDir l (ownedBy (w.dirAt l) t.agent)) h l t .m := by
  rcases hkind with hk | hk <;> simp only [Work.answerTxn, homeCompletes, ownedBy, hk]

theorem answerTxn_rdVol (hkind : t.kind = .rdVol) : w.answerTxn h l t = homeSupplies w h l t (w.agentPound t.agent l) .i := by
  simp only [Work.answerTxn, homeSupplies, hkind]

/-- A write performs its bytes at the point of coherence. -/
theorem answerTxn_write {mask : BitVec 128} {d : LineData} (hop : t.op = .write mask d)
    (hkind : t.kind = .wrPlain ∨ t.kind = .wrPublish ∨ t.kind = .wrFull) :
    w.answerTxn h l t = homeCompletes (w.homeMask l mask d (t.kind ≠ .wrPlain) (w.agentPound t.agent l)) h l t .i := by
  rcases hkind with hk | hk | hk <;> simp only [Work.answerTxn, homeCompletes, hk, hop]

theorem answerTxn_atomic {op : AmoOp} {a : Nat} {z : Size} {v c : BitVec 128} (hop : t.op = .atomic op a z v c)
    (hkind : t.kind = .atomic) : w.answerTxn h l t = homeCompletes (w.pwrite a
      (leBytes z.bytes (amoValue op z.bytes (leNat (w.mem.read a z.bytes)) v.toNat c.toNat)) true (w.agentPound t.agent l)) h l t .i := by
  simp only [Work.answerTxn, homeCompletes, hkind, hop]

theorem answerTxn_clean (hkind : t.kind = .cleanLine ∨ t.kind = .flushLine) :
    w.answerTxn h l t = homeCompletes w h l t .i := by
  rcases hkind with hk | hk <;> simp only [Work.answerTxn, homeCompletes, hk]

end

/-- Settles O38: a request by the equation of its outcome, the snoops by whom each list of them holds, an answer by the kind of its
request and the directory. -/
theorem homeRequests : Obligations.HomeRequests := by
  unfold Obligations.HomeRequests
  refine ⟨⟨?request, ?opens, ?joined, ?snoops⟩, ?answer⟩
  case request =>
    intro s c r hr harrives w x refused ready waits
    have hrun {u : Work} (hu : w.request r.home r.line r.agent r.kind r.op = u) : Runs c s u := runs_of_request hr harrives hu
    have hrefused (hu : w.request r.home r.line r.agent r.kind r.op = w.retryReq r.home r.line r.agent r.kind) : Runs c s refused :=
      hrun (hu.trans retryReq_eq)
    refine ⟨fun e hgrant => hrun (request_granted hgrant), ?free, ?full, ?busy⟩
    case free =>
      intro hready ht hwaits hfree
      exact ⟨fun htokens => hrun (request_opens hready ht hwaits hfree htokens), fun p wr htokens =>
        ⟨fun hmany => hrefused (request_tooMany hready ht hwaits hfree htokens hmany),
          fun hfew => hrun (request_waits hready ht hwaits hfree htokens hfew)⟩⟩
    case full => exact fun hready ht hfull => hrefused (request_refused hready ht hfull)
    case busy =>
      exact fun hready t ht => ⟨fun hwb hjoined hwaits => hrun (request_joins hready ht hwb hjoined hwaits (reqOf_kind hr)),
        fun hbusy => hrefused (request_conflicts hready ht hbusy)⟩
  case opens =>
    intro w h l a kind op e k v u
    refine ⟨fun hnone => ?_, fun hsome => openTxn_snoops rfl hsome⟩
    have hv : v = w.setTxn h l (Txn.opened k a op []) := by rw [← List.map_nil, ← hnone]
    rw [hv]
    exact openTxn_answers rfl hnone
  case joined => exact fun w h l a kind op => openJoined_eq w h l a kind op
  case snoops =>
    intro e a q k _ _ listed owner other
    rw [snoopsFor_rdShared, snoopsFor_rdPref, snoopsFor_rdUnique, snoopsFor_upgrade, snoopsFor_zeroLine, snoopsFor_wrFull,
      snoopsFor_flushLine, snoopsFor_cleanLine, snoopsFor_rdVol, snoopsFor_wrPlain, snoopsFor_wrPublish, snoopsFor_atomic]
    have hrecalled : (q, k) ∈ e.snoopOwner a .snpFlush true ++ invalidations (e.notOwner (e.others a)) ↔
        k = .snpFlush ∧ owner ∨ k = .snpInv ∧ other ∧ ¬ owner :=
      List.mem_append.trans (or_congr mem_snoopOwner_self mem_invalidations_sharers)
    exact ⟨mem_snoopOwner, mem_snoopOwner, List.mem_append.trans (or_congr mem_snoopOwner mem_invalidations_sharers),
      mem_invalidations_others, mem_invalidations_others, mem_invalidations_others,
      List.mem_append.trans (or_congr mem_snoopOwner_self mem_invalidations_listed),
      mem_snoopOwner_self, mem_snoopOwner_self, mem_snoopOwner_self, hrecalled, hrecalled⟩
  case answer =>
    intro w h l t e p mine shared alone fwd data done ack u
    exact ⟨fun hk => ⟨answerTxn_read_invalid hk, answerTxn_read_shared hk, answerTxn_read_supplied hk, answerTxn_read_owned hk,
        answerTxn_read_alone hk, answerTxn_read_lost hk⟩,
      fun hk => ⟨answerTxn_rdUnique_supplies hk,
        fun hdirty => (answerTxn_rdUnique_forwarded hk (.inl hdirty)).trans (by rw [hdirty]; rfl),
        fun hclean hfrom => (answerTxn_rdUnique_forwarded hk hfrom).trans (by rw [hclean]; rfl)⟩,
      answerTxn_owns, answerTxn_clean, answerTxn_rdVol,
      fun mask d hop hk => (answerTxn_write hop (.inl hk)).trans (by rw [hk]; rfl),
      fun mask d hop hk => (answerTxn_write hop (.inr hk)).trans (by rcases hk with hk | hk <;> rw [hk] <;> rfl),
      fun op a z v c hop hk => answerTxn_atomic hop hk⟩

end Sys2Proof
end

section
/-!
The limit of forwarding (Obligations.HopLimit): what the fields of a message's body read as, what a message that is routed leaves on a
link, and the message that a module forwards or answers.
-/

namespace Sys2Proof

open Sys2Proof.Machine

/-! ## Fields of bytes (R6) -/

theorem modAt_eq_modify {β : Type} (l : List β) (n : Nat) (f : β → β) : modAt l n f = l.modify n f := by
  induction l generalizing n with
  | nil => cases n <;> rfl
  | cons x l ih =>
    cases n with
    | zero => rfl
    | succ n => simp [modAt, ih]

theorem leNat_lt (bs : List Byte) : leNat bs < 256 ^ bs.length := by
  induction bs with
  | nil => simp [leNat]
  | cons b bs ih =>
    have := b.isLt
    rw [leNat, List.length_cons, Nat.pow_succ]
    omega

theorem leAt_lt (bs : List Byte) (o k : Nat) : leAt bs o k < 256 ^ k :=
  (leNat_lt _).trans_le (Nat.pow_le_pow_right (by decide) (List.length_take_le _ _))

/-- A field that lies apart from a byte does not depend on it. -/
theorem leAt_modAt_apart {n o k : Nat} (h : n < o ∨ o + k ≤ n) (bs : List Byte) (f : Byte → Byte) :
    leAt (modAt bs n f) o k = leAt bs o k := by
  have hfield : ((bs.modify n f).drop o).take k = (bs.drop o).take k := by
    refine List.ext_getElem? fun i => ?_
    simp only [List.getElem?_take, List.getElem?_drop, List.getElem?_modify]
    split
    · have hne : n ≠ o + i := by omega
      simp [hne]
    · rfl
  rw [leAt, modAt_eq_modify, hfield, leAt]

theorem leAt_one {bs : List Byte} {o : Nat} (h : o < bs.length) : leAt bs o 1 = bs[o].toNat := by
  rw [leAt, List.drop_eq_getElem_cons h, List.take_succ_cons, leNat, List.take_zero, leNat, Nat.mul_zero, Nat.add_zero]

theorem leAt_modAt_succ {n : Nat} {bs : List Byte} (h : n < bs.length) (hlt : leAt bs n 1 < 255) :
    leAt (modAt bs n (· + 1)) n 1 = leAt bs n 1 + 1 := by
  rw [leAt_one h] at hlt ⊢
  rw [modAt_eq_modify, leAt_one (by rwa [List.length_modify]), List.getElem_modify, if_pos rfl]
  bv_omega

/-- A field that begins after a number's bytes lies in what follows them. -/
theorem leAt_leBytes_append {n o : Nat} (h : n ≤ o) (v k : Nat) (bs : List Byte) : leAt (leBytes n v ++ bs) o k = leAt bs (o - n) k := by
  obtain ⟨o, rfl⟩ := Nat.exists_eq_add_of_le h
  rw [leAt_add_leBytes, Nat.add_sub_cancel_left]

/-! ## The body of a message (R441) -/

section
variable (dst src op hops len offset tag status : Nat) (operand : List Byte)

/-- What the fields of a body read as. -/
theorem leAt_nylBody :
    let b := nylBody dst src op hops len offset tag status operand
    leAt b 0 2 = dst % 2 ^ 16 ∧ leAt b 2 2 = src % 2 ^ 16 ∧ leAt b 4 1 = op % 2 ^ 8 ∧ leAt b 8 8 = offset % 2 ^ 64 ∧
      leAt b 16 4 = tag % 2 ^ 32 ∧ leAt b 20 2 = status % 2 ^ 16 := by
  refine ⟨?_, ?_, ?_, ?_, ?_, ?_⟩ <;>
    simp [nylBody, List.append_assoc, leAt_leBytes_append, leAt_zero_leBytes]

end

/-- Only the low 16 bits of a source enter the hash of a route. -/
theorem routeHash_mod (dst src offset : Nat) : routeHash dst (src % 2 ^ 16) offset = routeHash dst src offset := by
  have h : (BitVec.ofNat 32 (src % 2 ^ 16) <<< 16 : W32) = BitVec.ofNat 32 src <<< 16 := by
    apply BitVec.eq_of_toNat_eq
    simp only [BitVec.toNat_shiftLeft, BitVec.toNat_ofNat, Nat.shiftLeft_eq]
    omega
  simp only [routeHash, h]

theorem route_mod (w : Work) (p : Option Nat) (dst src offset : Nat) : w.route p dst (src % 2 ^ 16) offset = w.route p dst src offset := by
  simp only [Work.route, routeHash_mod]

/-! ## A message that is routed (R437, R438) -/

/-- The escape bit of a message that pound p's table sends over link k (R438). -/
def escapeBit (w : Work) (p : Option Nat) (m : NylMsg) (k : Nat) : Nat :=
  match m.inbound, (p.bind w.cfg?).bind (fun g => g.routes) with
  | some i, some r => if bit r.dateline k then 1 else if r.group.getD k 0 = r.group.getD i 0 then m.vc % 2 else 0
  | _, _ => 0

/-- A message as link k queues it. -/
def routedMsg (w : Work) (p : Option Nat) (m : NylMsg) (k : Nat) : NylMsg :=
  { m with vc := m.vc / 2 * 2 + escapeBit w p m k, pound := p }

section
variable {w : Work} {p : Option Nat} {m : NylMsg}

theorem sendMsg_unrouted (h : w.route p m.dst m.src m.offset = none) : w.sendMsg p m = (w, none) := by
  simp only [Work.sendMsg, h]

theorem sendMsg_routed {k : Nat} (h : w.route p m.dst m.src m.offset = some k) :
    w.sendMsg p m = (w.modLink k (fun x => { x with queue := x.queue ++ [routedMsg w p m k] }), some k) := by
  simp only [Work.sendMsg, h]
  rfl

end

/-! ## The error response to a request (R437) -/

/-- The error response to a request, as a module sends it by the table of pound p. -/
def errorMsg (w : Work) (m : NylMsg) (p : Option Nat) (status : Nat) : NylMsg :=
  { vc := 2, body := nylBody m.src w.moduleId 0x4F 0 (m.len - 1) m.offset m.tag status [], data := [], poison := [], inbound := none
    pound := p }

section
variable (w : Work) (m : NylMsg) (p : Option Nat) (status : Nat)

theorem errorMsg_dst : (errorMsg w m p status).dst = m.src :=
  (leAt_nylBody ..).1.trans (Nat.mod_eq_of_lt (leAt_lt m.body 2 2))

theorem errorMsg_src : (errorMsg w m p status).src = w.moduleId % 2 ^ 16 := (leAt_nylBody ..).2.1

theorem errorMsg_op : (errorMsg w m p status).op = 0x4F := (leAt_nylBody ..).2.2.1

theorem errorMsg_offset : (errorMsg w m p status).offset = m.offset :=
  (leAt_nylBody ..).2.2.2.1.trans (Nat.mod_eq_of_lt (leAt_lt m.body 8 8))

theorem errorMsg_tag : (errorMsg w m p status).tag = m.tag :=
  (leAt_nylBody ..).2.2.2.2.1.trans (Nat.mod_eq_of_lt (leAt_lt m.body 16 4))

theorem errorMsg_status : (errorMsg w m p status).status = status % 2 ^ 16 := (leAt_nylBody ..).2.2.2.2.2

end

theorem errorTo_routed {w : Work} {p : Option Nat} {m : NylMsg} {status k : Nat}
    (h : w.route p m.src w.moduleId m.offset = some k) :
    w.errorTo m p status = w.modLink k (fun x => { x with queue := x.queue ++ [routedMsg w p (errorMsg w m p status) k] }) := by
  have hsend := sendMsg_routed (w := w) (p := p) (m := errorMsg w m p status) (k := k) (by
    rw [errorMsg_dst, errorMsg_src, errorMsg_offset, route_mod, h])
  rw [errorMsg] at hsend
  simp only [Work.errorTo, hsend]
  rfl

/-! ## Forwarding (R439) -/

/-- The message with one more hop. -/
def hopped (m : NylMsg) : NylMsg := { m with body := modAt m.body 5 (· + 1) }

theorem hopped_hops {m : NylMsg} (hb : m.body.length = 48) (h : m.hops < 63) : (hopped m).hops = m.hops + 1 :=
  leAt_modAt_succ (by omega) (h.trans (by decide))

theorem hopped_fields (m : NylMsg) : (hopped m).dst = m.dst ∧ (hopped m).src = m.src ∧ (hopped m).op = m.op ∧
    (hopped m).offset = m.offset ∧ (hopped m).tag = m.tag :=
  ⟨leAt_modAt_apart (by decide) _ _, leAt_modAt_apart (by decide) _ _, leAt_modAt_apart (by decide) _ _, leAt_modAt_apart (by decide) _ _,
    leAt_modAt_apart (by decide) _ _⟩

section
variable {w : Work} {l : Nat} {m : NylMsg}

theorem forward_dropped (h : m.hops = 63) (hr : m.isRequest = false) : w.forward l m = w := by
  simp only [Work.forward, h, hr, if_true, Bool.false_eq_true, if_false]

theorem forward_answered (h : m.hops = 63) (hr : m.isRequest = true) : w.forward l m = w.errorTo m w.transitDefault 0x104 := by
  simp only [Work.forward, h, hr, if_true]

theorem forward_sent {v : Work} {k : Nat} (h : m.hops ≠ 63) (hs : w.sendMsg (w.transitPound l) (hopped m) = (v, some k)) :
    w.forward l m = v := by
  rw [hopped] at hs
  simp only [Work.forward, h, if_false, hs]

theorem forward_unsent {v : Work} (h : m.hops ≠ 63) (hs : w.sendMsg (w.transitPound l) (hopped m) = (v, none)) :
    w.forward l m = if m.isRequest then v.errorTo (hopped m) v.transitDefault 0x102 else v.countLost (some l) := by
  have hr : (hopped m).isRequest = m.isRequest := by rw [NylMsg.isRequest, NylMsg.isRequest, (hopped_fields m).2.2.1]
  rw [← hr]
  rw [hopped] at hs ⊢
  simp only [Work.forward, h, if_false, hs]

end

/-- Settles O60: a message is queued with one more hop; at 63 hops a request's answer is queued in its place. -/
theorem hopLimit : Obligations.HopLimit := by
  unfold Obligations.HopLimit
  refine fun w l m hb => ⟨fun h k hroute => ?forwarded, fun h hr => forward_dropped h hr, fun h hr k hroute => ?answered⟩
  case forwarded =>
    obtain ⟨hdst, hsrc, hop, hoff, htag⟩ := hopped_fields m
    have hsend := sendMsg_routed (m := hopped m) (by rw [hdst, hsrc, hoff]; exact hroute)
    rw [forward_sent h.ne hsend, Work.modLink_self]
    exact ⟨_, rfl, hopped_hops hb h, hdst, hsrc, hop, hoff, htag, rfl⟩
  case answered =>
    rw [forward_answered h hr, errorTo_routed hroute, Work.modLink_self]
    exact ⟨_, rfl, errorMsg_op w m w.transitDefault _, errorMsg_status w m w.transitDefault _, errorMsg_dst w m w.transitDefault _,
      errorMsg_tag w m w.transitDefault _, rfl, fun j hj => Work.modLink_ne hj _ _⟩

end Sys2Proof
end

section
/-!
The HBM interleave (Obligations.ChannelInterleave): the mapped channels, the part of the address map that is the HBM window, and the
arithmetic of the blocks of 4096 bytes.
-/

namespace Sys2Proof

open Sys2Proof.Machine

/-! ## The mapped channels (R384) -/

theorem mapped_pairwise (w : Work) : w.mapped.Pairwise (· < ·) := List.Pairwise.filter _ List.pairwise_lt_range

theorem mapped_nodup (w : Work) : w.mapped.Nodup := (mapped_pairwise w).imp Nat.ne_of_lt

theorem mem_mapped {w : Work} {c : Nat} : c ∈ w.mapped ↔ c < 256 ∧ bit w.chip.cht.mapNow c = true := by
  rw [Work.mapped, bitList, idxs, List.mem_filter, List.mem_range]

/-! ## The window (R25, R27, R384) -/

/-- What offset o of the HBM window reaches. -/
def windowPlace (w : Work) (o : Nat) : Place :=
  if w.chip.boot.hbmWindow && o < w.mapped.length * 2684354560 then .hbm o else .vacant

theorem place_window {w : Work} {o : Nat} (h : o < 2 ^ 40) : w.place (0x100_0000_0000 + o) = windowPlace w o := by
  have h56 : ¬ 2 ^ 56 ≤ 0x100_0000_0000 + o := by omega
  have h55 : ¬ 2 ^ 55 ≤ 0x100_0000_0000 + o := by omega
  have hlo : ¬ 0x100_0000_0000 + o < 0x100_0000_0000 := by omega
  have hhi : 0x100_0000_0000 + o < 0x200_0000_0000 := by omega
  simp only [Work.place, if_neg h56, if_neg h55, if_neg hlo, if_pos hhi, Nat.add_sub_cancel_left]
  rfl

theorem place_ownModule {w : Work} {a : Nat} (hlo : 2 ^ 55 ≤ a) (hhi : a < 2 ^ 56) (hm : a / 2 ^ 40 % 2 ^ 15 = w.moduleId) :
    w.place a = windowPlace w (a % 2 ^ 40) := by
  simp only [Work.place, if_neg (Nat.not_le.mpr hhi), if_pos hlo, if_pos hm]
  rfl

theorem windowPlace_beyond {w : Work} {o : Nat} (h : w.mapped.length * 2684354560 ≤ o) : windowPlace w o = .vacant := by
  simp [windowPlace, Nat.not_lt.mpr h]

theorem windowPlace_within {w : Work} {o : Nat} (hw : w.chip.boot.hbmWindow = true) (h : o < w.mapped.length * 2684354560) :
    windowPlace w o = .hbm o := by
  simp [windowPlace, hw, h]

/-! ## The blocks (R384) -/

/-- A block's rank among the channels and its place in its channel give it back. -/
theorem block_unique {n p q : Nat} (hmod : p / 4096 % n = q / 4096 % n)
    (hloc : p / 4096 / n * 4096 + p % 4096 = q / 4096 / n * 4096 + q % 4096) : p = q := by
  have hrow : p / 4096 / n = q / 4096 / n := by omega
  have hblock : p / 4096 = q / 4096 := by rw [← Nat.div_add_mod (p / 4096) n, ← Nat.div_add_mod (q / 4096) n, hrow, hmod]
  omega

/-- Of n blocks in a row one has rank i. -/
theorem exists_block_of_rank {n i : Nat} (hi : i < n) (o : Nat) : ∃ q, o ≤ q ∧ q < o + n * 4096 ∧ q / 4096 % n = i := by
  have hn : 0 < n := by omega
  obtain ⟨d, hd, hrank⟩ : ∃ d, d < n ∧ (o / 4096 + d) % n = i := by
    refine ⟨(i + (n - o / 4096 % n)) % n, Nat.mod_lt _ hn, ?_⟩
    have hlt := Nat.mod_lt (o / 4096) hn
    have hsum : o / 4096 % n + (i + (n - o / 4096 % n)) = i + n := by omega
    rw [Nat.add_mod_mod, ← Nat.mod_add_mod, hsum, Nat.add_mod_right, Nat.mod_eq_of_lt hi]
  rcases Nat.eq_zero_or_pos d with rfl | hpos
  · exact ⟨o, Nat.le_refl _, by omega, hrank⟩
  · refine ⟨(o / 4096 + d) * 4096, by omega, by omega, ?_⟩
    rw [Nat.mul_div_cancel _ (by decide), hrank]

section
variable {w : Work} (hn : 0 < w.mapped.length)
include hn

theorem hbmAt_eq (o : Nat) :
    w.hbmAt o = (w.mapped[o / 4096 % w.mapped.length]'(Nat.mod_lt _ hn), o / 4096 / w.mapped.length * 4096 + o % 4096) := by
  have hmax : max w.mapped.length 1 = w.mapped.length := by omega
  simp only [Work.hbmAt, hmax]
  rw [List.getD_eq_getElem]

theorem hbmAt_injective {p q : Nat} (h : w.hbmAt p = w.hbmAt q) : p = q := by
  rw [hbmAt_eq hn, hbmAt_eq hn, Prod.mk.injEq] at h
  exact block_unique ((mapped_nodup w).getElem_inj_iff.mp h.1) h.2

end

/-- Settles O57: the mapped channels are a filtered range, and block and rank determine each other. -/
theorem channelInterleave : Obligations.ChannelInterleave := by
  unfold Obligations.ChannelInterleave
  intro w n
  refine ⟨mapped_pairwise w, fun c => mem_mapped, fun o hlt ho => (place_window hlt).trans (windowPlace_beyond ho), fun o ho => ?within,
    fun a hlo hhi hm => ?own, fun o c hc _ => ?covers⟩
  case within =>
    have hn : 0 < w.mapped.length := by omega
    have hlen : w.mapped.length ≤ 256 := (List.length_filter_le _ _).trans (List.length_range).le
    have hrow : o / 4096 / w.mapped.length < 655360 := (Nat.div_lt_iff_lt_mul hn).mpr (by omega)
    rw [hbmAt_eq hn]
    exact ⟨fun hw => (place_window (by omega)).trans (windowPlace_within hw ho), List.getElem?_eq_getElem _, rfl, by omega,
      fun q _ h => hbmAt_injective hn (h.trans (hbmAt_eq hn o).symm)⟩
  case own => rw [place_ownModule hlo hhi hm, place_window (Nat.mod_lt _ (by decide))]
  case covers =>
    obtain ⟨i, hi, rfl⟩ := List.mem_iff_getElem.mp hc
    obtain ⟨q, hlo, hhi, hrank⟩ := exists_block_of_rank hi o
    refine ⟨q, hlo, hhi, ?_⟩
    rw [hbmAt_eq (by omega)]
    simp only [hrank]

end Sys2Proof
end

section
/-!
Sequence numbers, acknowledgement, retry and credits of a Nyulle link (Obligations.NyulleRetry): what a header brings, the timers of the
receiver, and the message that a link sends or gives up.
-/

namespace Sys2Proof

open Sys2Proof.Machine

/-- An update of a link depends only on what it makes of the link as it stands. -/
theorem modLink_congr {w : Work} {l : Nat} {f g : NylLink → NylLink} (h : f (w.link l) = g (w.link l)) : w.modLink l f = w.modLink l g := by
  show Work.mk _ _ _ _ = Work.mk _ _ _ _
  rw [Work.link] at h
  simp only [SMap.modify, h]

/-! ## What a header brings (R425, R429) -/

section Header
variable {x : NylLink} {f : NFlit}

theorem header_plain (h : f.at_ 5 1 = 0) : x.header f = x := by
  simp [NylLink.header, h]

theorem header_credits (h : f.at_ 5 1 = 2) : x.header f = { x with credits := modAt x.credits (f.at_ 6 1) (· + f.at_ 8 2) } := by
  simp [NylLink.header, h]

/-- An acknowledgement frees the message whose last flit it names, and every one before it. -/
theorem header_acknowledges {a b : List (Nat × NylMsg)} {e : Nat × NylMsg} (h : f.at_ 5 1 = 1) (hbuf : x.retryBuf = a ++ e :: b)
    (he : (e.1 + e.2.ndata) % 65536 = f.at_ 0xA 2) (ha : ∀ d ∈ a, (d.1 + d.2.ndata) % 65536 ≠ f.at_ 0xA 2) :
    x.header f = { x with retryBuf := b } := by
  have hany : x.retryBuf.any (fun d => decide ((d.1 + d.2.ndata) % 65536 = f.at_ 0xA 2)) = true :=
    List.any_eq_true.mpr ⟨e, by simp [hbuf], decide_eq_true he⟩
  have hidx : x.retryBuf.findIdx (fun d => decide ((d.1 + d.2.ndata) % 65536 = f.at_ 0xA 2)) = a.length := by
    rw [hbuf, List.findIdx_append, List.findIdx_eq_length_of_false (by simpa using ha)]
    simp [List.findIdx_cons, he]
  have hrest : x.retryBuf.drop (a.length + 1) = b := by
    rw [hbuf, List.append_cons, List.drop_left' (by simp)]
  simp [NylLink.header, h, hany, hidx, hrest]

end Header

theorem getD_modAt {l : List Nat} {n v : Nat} {f : Nat → Nat} (hv : v < l.length) :
    (modAt l n f).getD v 0 = if v = n then f (l.getD v 0) else l.getD v 0 := by
  rw [modAt_eq_modify, List.getD_eq_getElem _ _ (by rwa [List.length_modify]), List.getElem_modify, List.getD_eq_getElem _ _ hv]
  simp only [eq_comm]

/-- The commands that bring a flit that is not a message. -/
theorem exec_plainFlit {l : NylId} {f : NFlit} {i : Instr}
    (h : i ∈ [.nylAck l f, .nylIdleFlit l f, .nylRetry l f, .nylSelect l f, .nylDown l f, .nylTimeFlit l f]) :
    ∃ kind op act, ∀ s, exec i s = lift (fun w => w.plainFlit l kind op f act) s := by
  simp only [List.mem_cons, List.not_mem_nil, or_false] at h
  rcases h with rfl | rfl | rfl | rfl | rfl | rfl <;> exact ⟨_, _, _, fun s => rfl⟩

/-! ## The receiver's timers (R425 to R427) -/

section
variable {w : Work} {l : Nat}

/-- A link in service that has asked for a message. -/
theorem asking_iff {x : NylLink} : (x.carries && x.asked.isSome) = true ↔ x.carries = true ∧ x.asked ≠ none := by
  rw [Bool.and_eq_true, Option.isSome_iff_ne_none]

theorem not_asking {x : NylLink} (h : x.carries = false ∨ x.asked = none) : ¬ (x.carries && x.asked.isSome) = true := by
  rw [asking_iff]
  rintro ⟨hc, ha⟩
  exact h.elim (fun h => by rw [h] at hc; cases hc) ha

theorem nylRetryFailed_again (h : (w.link l).consecFail < 7) :
    w.nylRetryFailed l = (w.modLink l (fun x => { x with consecFail := x.consecFail + 1 })).modLink l NylLink.ask := by
  have hmin : min 8 ((w.link l).consecFail + 1) = (w.link l).consecFail + 1 := by omega
  have hmod : w.modLink l (fun x => { x with consecFail := min 8 (x.consecFail + 1) }) =
      w.modLink l (fun x => { x with consecFail := x.consecFail + 1 }) := modLink_congr (by rw [hmin])
  rw [Work.nylRetryFailed, hmod]
  refine if_neg ?_
  rw [Work.modLink_self]
  exact Nat.not_le.mpr (show (w.link l).consecFail + 1 < 8 by omega)

theorem nylRetryFailed_eighth (h : 7 ≤ (w.link l).consecFail) :
    w.nylRetryFailed l = (w.modLink l (fun x => { x with consecFail := 8 })).losePartner l 1 := by
  have hmin : min 8 ((w.link l).consecFail + 1) = 8 := by omega
  have hmod : w.modLink l (fun x => { x with consecFail := min 8 (x.consecFail + 1) }) =
      w.modLink l (fun x => { x with consecFail := 8 }) := modLink_congr (by rw [hmin])
  rw [Work.nylRetryFailed, hmod]
  refine if_pos ?_
  rw [Work.modLink_self]

end

/-! ## Sending (R424, R429) -/

/-- A message that is the first of its VC in a queue. -/
theorem find?_sameVc {a b : List NylMsg} {m : NylMsg} (h : ∀ n ∈ a, n.vc ≠ m.vc) :
    (a ++ m :: b).find? (fun n => decide (n.vc = m.vc)) = some m := by
  rw [List.find?_append, List.find?_eq_none.mpr (by simpa using h)]
  simp

/-- The message that a link would send next: the first whose VC has the credits, none of its VC before it. -/
theorem sendable_find {x : NylLink} {a b : List NylMsg} {m : NylMsg} (hq : x.queue = a ++ m :: b) (hm : m.flits ≤ x.credits.getD m.vc 0)
    (ha : ∀ n ∈ a, n.vc ≠ m.vc ∧ ∀ k, a.find? (fun k => decide (k.vc = n.vc)) = some k → x.credits.getD n.vc 0 < k.flits) :
    x.queue.find? (fun m => decide (x.queue.find? (fun n => decide (n.vc = m.vc)) = some m) && decide (m.flits ≤ x.credits.getD m.vc 0)) =
      some m := by
  refine List.find?_eq_some_iff_append.mpr ⟨?_, a, b, hq, fun n hn => ?_⟩
  · rw [hq, find?_sameVc fun n hn => (ha n hn).1]
    simpa using hm
  · obtain ⟨hvc, hcred⟩ := ha n hn
    obtain ⟨k, hk⟩ : ∃ k, a.find? (fun k => decide (k.vc = n.vc)) = some k :=
      Option.isSome_iff_exists.mp (List.find?_isSome.mpr ⟨n, hn, decide_eq_true rfl⟩)
    have hfirst : x.queue.find? (fun k => decide (k.vc = n.vc)) = some k := by rw [hq, List.find?_append, hk]; rfl
    rw [hfirst]
    by_cases hkn : k = n
    · subst hkn; simpa using hcred k hk
    · simp [hkn]

section
variable {w : Work} {l : Nat} {x : NylLink} (hx : w.link l = x)
include hx

theorem nylSend_none (h : ∀ m ∈ x.queue, x.credits.getD m.vc 0 < m.flits) : w.nylSend l = w := by
  have hnone : x.queue.find? (fun m => decide (x.queue.find? (fun n => decide (n.vc = m.vc)) = some m) &&
      decide (m.flits ≤ x.credits.getD m.vc 0)) = none :=
    List.find?_eq_none.mpr fun m hm => by simp only [Nat.not_le.mpr (h m hm), decide_false, Bool.and_false, Bool.false_eq_true, not_false_iff]
  subst hx
  simp only [Work.nylSend, hnone]

/-- What a link does with the message that it would send next. -/
theorem nylSend_first {a b : List NylMsg} {m : NylMsg} (hq : x.queue = a ++ m :: b) (hm : m.flits ≤ x.credits.getD m.vc 0)
    (ha : ∀ n ∈ a, n.vc ≠ m.vc ∧ ∀ k, a.find? (fun k => decide (k.vc = n.vc)) = some k → x.credits.getD n.vc 0 < k.flits) :
    w.nylSend l = if x.carries = false ∨ 2048 < x.held + m.flits then w
      else w.modLink l (fun x => { x.putMsg x.txSeq m with
        queue := a ++ b
        txSeq := (x.txSeq + m.flits) % 65536
        retryBuf := x.retryBuf ++ [(x.txSeq, m)]
        credits := modAt x.credits m.vc (· - m.flits) }) := by
  have hfind := sendable_find hq hm ha
  have hrest : x.queue.erase m = a ++ b := by
    rw [hq, List.erase_append_right _ (fun hin => (ha m hin).1 rfl), List.erase_cons_head]
  subst hx
  rw [Work.nylSend]
  simp only [hfind, Bool.or_eq_true, Bool.not_eq_true', decide_eq_true_eq]
  refine if_congr Iff.rfl rfl (modLink_congr ?_)
  rw [hrest]

theorem nylSend_closed (h : x.carries = false ∨ 2048 ≤ x.held ∨ x.queue = []) : w.nylSend l = w := by
  subst hx
  rw [Work.nylSend]
  split
  · rfl
  · next m hm =>
    refine if_pos ?_
    rcases h with h | h | h
    · simp [h]
    · have hfull : 2048 < (w.link l).held + m.flits := by rw [NylMsg.flits]; omega
      simp [hfull]
    · simp [h] at hm

end

/-- Settles O48: flits by what their header brings, the timers by what the receiver waits for, the message by the credits of its VC. -/
theorem nyulleRetry : Obligations.NyulleRetry := by
  unfold Obligations.NyulleRetry
  refine ⟨fun s l f => ?flits, fun x f => header_plain, fun x f h hlen hvc v hv => ?credits, fun x f a b e h hbuf he ha =>
    header_acknowledges h hbuf he ha, fun s l v => ?timers, fun s l a b m => ?sends, fun s l => ?closed⟩
  case flits =>
    intro x w
    refine ⟨fun hl hok => ⟨fun hk hop => ?_, fun hk => ?_, fun hk hop => ?_, fun h => ?_, fun h => ?_, fun h => ?_⟩,
      fun hl hok i hi => ?_, fun hl i hi => ?_⟩
    · exact runs_of_lift exec_nylAck (plainFlit_ofRow hl hok ⟨hk, fun _ => hop⟩)
    · exact runs_of_lift exec_nylIdleFlit (plainFlit_ofRow hl hok ⟨hk, fun h => absurd h (by decide)⟩)
    · exact runs_of_lift exec_nylRetry (plainFlit_ofRow hl hok ⟨hk, fun _ => hop⟩)
    · exact becomes_of_lift exec_nylAck (plainFlit_ofAnother hl hok (by simpa using h))
    · exact becomes_of_lift exec_nylRetry (plainFlit_ofAnother hl hok (by simpa using h))
    · exact becomes_of_lift exec_nylIdleFlit (plainFlit_ofAnother hl hok (.inl h))
    · obtain ⟨kind, op, act, hi⟩ := exec_plainFlit hi
      exact runs_of_lift (hi s) (plainFlit_failed hl hok)
    · obtain ⟨kind, op, act, hi⟩ := exec_plainFlit hi
      exact becomes_of_lift (hi s) (plainFlit_deaf hl)
  case credits =>
    rw [header_credits h]
    refine ⟨(getD_modAt (by omega)).trans ?_, rfl⟩
    split <;> simp
  case timers =>
    intro w x asks
    refine ⟨fun hc ha => ⟨runs_of_lift exec_nylRetryTimer (if_pos (asking_iff.mpr ⟨hc, ha⟩)), fun h => ?_, fun h => ?_⟩,
      fun h => ⟨becomes_of_lift exec_nylRetryTimer (if_neg (not_asking h)), becomes_of_lift exec_nylRetryTimeout (if_neg (not_asking h))⟩,
      fun hc hu => runs_of_lift exec_nylAckTimer (if_pos ?_), fun h => becomes_of_lift exec_nylAckTimer (if_neg ?_),
      fun hc hv => runs_of_lift exec_nylCreditReturn (if_pos ?_), fun h => becomes_of_lift exec_nylCreditReturn (if_neg ?_)⟩
    · exact runs_of_lift exec_nylRetryTimeout ((if_pos (asking_iff.mpr ⟨hc, ha⟩)).trans (nylRetryFailed_again h))
    · exact runs_of_lift exec_nylRetryTimeout ((if_pos (asking_iff.mpr ⟨hc, ha⟩)).trans (nylRetryFailed_eighth h))
    · simpa using ⟨hc, hu⟩
    · simpa [Decidable.imp_iff_not_or] using h
    · simpa using ⟨hc, hv⟩
    · simpa [Decidable.imp_iff_not_or] using h
  case sends =>
    intro w x held hq hm ha
    have hsend := nylSend_first (w := w) rfl hq hm ha
    refine ⟨fun hc hheld => runs_of_lift exec_nylMessageSend (hsend.trans (if_neg ?_)),
      fun hheld => becomes_of_lift exec_nylMessageSend (hsend.trans (if_pos (.inr hheld)))⟩
    rintro (h | h)
    · rw [hc] at h; cases h
    · exact absurd h (Nat.not_lt.mpr hheld)
  case closed =>
    intro x
    refine ⟨fun h => becomes_of_lift exec_nylMessageSend (nylSend_closed rfl h),
      fun h => becomes_of_lift exec_nylMessageSend (nylSend_none rfl h), fun h => ?_, fun m i hm hi => ?_⟩
    · have hnone : x.queue.find? (fun m => m.inbound.isSome && decide (x.credits.getD m.vc 0 < m.flits)) = none := by
        refine List.find?_eq_none.mpr fun m hm => ?_
        rcases h m hm with h | h
        · simp [h]
        · simp only [Nat.not_lt.mpr h, decide_false, Bool.and_false, Bool.false_eq_true, not_false_iff]
      exact becomes_of_lift exec_transitCreditTimeout (by simp only [x] at hnone; simp only [hnone]; rfl)
    · refine runs_of_lift exec_transitCreditTimeout ?_
      simp only [x] at hm
      simp only [hm, hi]
      rfl

end Sys2Proof
end

section
/-!
Loss of a partner of a Nyulle link, and the OPs of NYL_CTRL (Obligations.NyulleLoss): what a lost link makes of its requests and
collectives, how a remote request ends, and what each OP does by the state of the link.
-/

namespace Sys2Proof

open Sys2Proof.Machine

/-! ## The loss (R432, R433) -/

section
variable {w : Work} {l cause : Nat}

theorem losePartner_idle (h : (w.link l).carries = false) : w.losePartner l cause = w := by
  simp only [Work.losePartner, h, Bool.not_false, if_true]

/-- The link's third failure within 3,600 s (R433). -/
def staysFailed (w : Work) (l cause : Nat) : Bool :=
  decide (cause = 1 ∧ 3 ≤ (recent (w.link l).failures w.chip.refPs 3_600_000_000_000_000).length)

/-- The remote requests that left over a link, and the collectives that it carried, are lost with it. -/
def carriedLost (w : Work) (l : Nat) : Work :=
  { w with
    chip.remotes := SMap.mapVal w.chip.remotes (fun _ r => if r.link = some l then { r with lost := true } else r)
    chip.colls := w.chip.colls.map (fun c => if (w.collLinks c).contains l then { c with failed := some 0x101 } else c) }

theorem losePartner_carrying (h : (w.link l).carries = true) :
    w.losePartner l cause = carriedLost
      (((w.record { cls := 0x0704, kind := 7, id := l, pound := optPound (w.linkOwner l), d0 := cause }).modLink l (fun y => { y with
        downs := min (y.downs + 1) 0xFFFF
        failures := if cause = 1 then recent (w.link l).failures w.chip.refPs 3_600_000_000_000_000 else (w.link l).failures
        stuck := staysFailed w l cause })).emptyLink l
        (if (w.link l).st = .draining then .disabled else if staysFailed w l cause then .failed else .training)) l := by
  have hsat (n : Nat) : satAdd 16 n 1 = min (n + 1) 0xFFFF := rfl
  simp only [Work.losePartner, h, staysFailed, carriedLost, hsat, Bool.decide_and, Bool.not_true, Bool.false_eq_true, if_false]

end

theorem lostComplete_nothing {w : Work} {l : Nat} (hr : w.chip.remotes.filter (fun e => e.2.lost && e.2.link = some l) = [])
    (hc : w.chip.colls = []) : w.lostComplete l = w := by
  simp only [Work.lostComplete, hr, hc, List.map_nil, Work.each_nil, List.filter_nil]

theorem emptyLink_eq (w : Work) (l : Nat) (st : NylState) :
    w.emptyLink l st =
      ((w.modLink l (fun y => { y with
        st := st, queue := [], retryBuf := [], discarding := false, asked := none, unacked := 0
        gotIdentity := false, sentSelect := false, gotSelect := false, consecFail := 0
        credits := List.replicate 6 0, freed := List.replicate 6 0 })).each (w.link l).queue (fun w m => w.reroute m)).each
        ((w.link l).retryBuf.map (·.2)) (fun w m =>
          if m.isRequest = false then w.countLost (some l) else if m.inbound.isSome then w.errorTo m w.transitDefault 0x101 else w) := by
  have hlost : (fun (w : Work) (m : NylMsg) =>
      if m.isRequest then (if m.inbound.isSome then w.errorTo m w.transitDefault 0x101 else w) else w.countLost (some l)) =
      (fun w m => if m.isRequest = false then w.countLost (some l)
        else if m.inbound.isSome then w.errorTo m w.transitDefault 0x101 else w) := by
    funext w m
    cases m.isRequest <;> rfl
  simp only [Work.emptyLink, hlost]

/-! ## The end of a remote request (R444, R446) -/

/-- The pound that a remote request is recorded for. -/
def requesterPound (w : Work) : RemoteWho → Option Nat
  | .mover t _ => w.tileOwner t
  | .tile t => w.tileOwner t
  | .command q _ => w.sqOwner q
  | .power p => some p
  | .core c => w.coreOwner c

/-- The workbench after request r has ended with a status, before its engine takes it (R446). -/
def remoteEnded (w : Work) (r : Remote) (status : Nat) : Work :=
  if 0x101 ≤ status ∧ status ≤ 0x1FF then
    w.recRemote r.who.source.1 r.who.source.2 (requesterPound w r.who) r.gaddr.toNat status
  else w

section
variable {w : Work} {tag status off : Nat} {r : Remote} (h : SMap.look w.chip.remotes tag = some r)
include h

/-- A remote request that ends: its record, and then its engine. -/
theorem failRemote_known :
    w.failRemote tag status off =
      let u := remoteEnded { w with chip.remotes := SMap.erase w.chip.remotes tag } r status
      let a := if status < 0x100 then r.va + off else 0
      match r.who with
      | .command q n =>
        (match u.started? q n 4 with
          | some c => u.complete q c status 0 (BitVec.ofNat 64 a)
          | none => u.failXfer r.who status a)
      | _ => u.failXfer r.who status a := by
  simp only [Work.failRemote, h, remoteEnded, Bool.and_eq_true, decide_eq_true_eq]
  cases r.who <;> rfl

theorem failRemote_command {q : Nat} {n : W32} (hwho : r.who = .command q n) {c : Cmd}
    (hc : (remoteEnded { w with chip.remotes := SMap.erase w.chip.remotes tag } r status).started? q n 4 = some c) :
    w.failRemote tag status off = (remoteEnded { w with chip.remotes := SMap.erase w.chip.remotes tag } r status).complete q c status 0
      (BitVec.ofNat 64 (if status < 0x100 then r.va + off else 0)) := by
  rw [failRemote_known h]
  simp only [hwho, hc]

theorem failRemote_engine
    (hc : ∀ q n, r.who = .command q n →
      (remoteEnded { w with chip.remotes := SMap.erase w.chip.remotes tag } r status).started? q n 4 = none) :
    w.failRemote tag status off = (remoteEnded { w with chip.remotes := SMap.erase w.chip.remotes tag } r status).failXfer r.who status
      (if status < 0x100 then r.va + off else 0) := by
  rw [failRemote_known h]
  cases hwho : r.who with
  | command q n => simp only [hc q n hwho]
  | _ => rfl

end

/-! ## The OPs of NYL_CTRL (R447, R461) -/

section
variable {w : Work} {l : Nat}

theorem linkDisable_refused (h : (w.link l).st = .disabled ∨ (w.link l).st = .draining) : w.linkDisable l = w.linkRefused l 1 := by
  rcases h with h | h <;> simp [Work.linkDisable, h]

theorem linkDisable_drains (h : (w.link l).st = .up ∨ (w.link l).st = .retrying) :
    w.linkDisable l = w.modLink l (fun x => { x with st := .draining }) := by
  rcases h with h | h <;> simp [Work.linkDisable, NylLink.carries, h]

/-- A link that carries no messages is disabled at once, with a DOWN where its partner listens. -/
theorem linkDisable_atOnce (hd : (w.link l).st ≠ .disabled) (hc : (w.link l).carries = false) :
    w.linkDisable l = w.modLink l (fun x => { (if x.listens then x.control 5 [0, 1] else x) with st := .disabled }) := by
  have hdr : (w.link l).st ≠ .draining := fun h => by simp [NylLink.carries, h] at hc
  simp [Work.linkDisable, hd, hdr, hc]

theorem linkDisable_silent (h : (w.link l).st = .down ∨ (w.link l).st = .training ∨ (w.link l).st = .failed) :
    w.linkDisable l = w.modLink l (fun x => { x with st := .disabled }) := by
  have hl : (w.link l).listens = false := by rcases h with h | h | h <;> simp [NylLink.listens, NylLink.carries, h]
  rw [linkDisable_atOnce (by rcases h with h | h | h <;> simp [h]) (by rcases h with h | h | h <;> simp [NylLink.carries, h])]
  exact modLink_congr (by simp only [hl, Bool.false_eq_true, if_false])

theorem linkDisable_heard (h : (w.link l).st = .discovery ∨ (w.link l).st = .mismatch ∨ (w.link l).st = .noCommon) :
    w.linkDisable l = w.modLink l (fun x => { x.control 5 [0, 1] with st := .disabled }) := by
  have hl : (w.link l).listens = true := by rcases h with h | h | h <;> simp [NylLink.listens, h]
  rw [linkDisable_atOnce (by rcases h with h | h | h <;> simp [h]) (by rcases h with h | h | h <;> simp [NylLink.carries, h])]
  exact modLink_congr (by simp only [hl, if_true])

theorem linkEnable_trains (h : (w.link l).st = .disabled) : w.linkEnable l = w.modLink l (fun x => { x with st := .training }) := if_pos h

theorem linkEnable_refused (h : (w.link l).st ≠ .disabled) : w.linkEnable l = w.linkRefused l 2 := if_neg h

theorem disableTimeout_idle (h : (w.link l).st ≠ .draining) : w.disableTimeout l = w := if_pos h

/-- A draining link on which nothing waits. -/
theorem disableTimeout_empty (h : (w.link l).st = .draining) (hq : (w.link l).queue = []) (hb : (w.link l).retryBuf = [])
    (hr : w.chip.remotes = []) (hc : w.chip.colls = []) :
    w.disableTimeout l = w.modLink l (fun x =>
      { x.control 5 [0, 1] with st := .disabled, queue := [], retryBuf := [], discarding := false, asked := none, unacked := 0
                                gotIdentity := false, sentSelect := false, gotSelect := false }) := by
  simp only [Work.disableTimeout, h, hq, hb, hr, hc, List.filter_nil, List.map_nil, List.append_nil, Work.each_nil, ne_eq,
    not_true_eq_false, if_false]

end

/-- A store of an OP to NYL_CTRL that takes effect. -/
theorem runs_nylCtrl {s : State} {c : CoreId} {l : NylId} {i : Instr} {op : Nat} {w : Work}
    (ho : RegOpen s c (nylCtrlOff l) (((Work.of s).linkOwner l).isSome && (Work.of s).coreOwner c = (Work.of s).linkOwner l))
    (hi : exec i s = lift (fun w => w.nylCtrlStore c l op) s) (hw : (Work.of s).linkOp l op = w) : Runs i s (untrap c w) :=
  runs_of_regStore (F := fun w => w.linkOp l op) hi rfl ho hw

/-- Settles O49: the loss by what the link carries, the OPs by the state of the link. -/
theorem nyulleLoss : Obligations.NyulleLoss := by
  unfold Obligations.NyulleLoss
  refine ⟨fun s l k => ⟨runs_of_lift exec_nylSilenceTimeout rfl, runs_of_lift exec_nylLaneLockLost rfl, runs_of_lift exec_nylLostComplete rfl,
      fun hr hc => becomes_of_lift exec_nylLostComplete (lostComplete_nothing hr hc)⟩,
    fun s l f hl hok hk hop => runs_of_lift exec_nylDown (plainFlit_ofRow hl hok ⟨hk, fun _ => hop⟩),
    fun w l cause => ⟨losePartner_idle, fun h => ?loss⟩, emptyLink_eq, fun w tag status off r h => ?remote,
    fun s c l ho => ?ops, fun s l op hup => ⟨fun h => ?owned, fun h => ?free⟩,
    fun s l => ⟨fun h => becomes_of_lift exec_nylDisableTimeout (disableTimeout_idle h),
      fun h hq hb hr hc => runs_of_lift exec_nylDisableTimeout (disableTimeout_empty h hq hb hr hc),
      fun _ => runs_of_lift exec_nylDisableTimeout rfl⟩⟩
  case loss =>
    intro fails stuck u v z
    have hlost : w.losePartner l cause = carriedLost z l := losePartner_carrying h
    clear_value z
    exact hlost
  case remote =>
    intro v p u a
    have hu : remoteEnded v r status = u := by
      simp only [remoteEnded, u, p, requesterPound] <;> cases r.who <;> rfl
    rw [← hu]
    exact ⟨fun hc => failRemote_engine h hc, fun q n c hwho hc => failRemote_command h hwho hc⟩
  case ops =>
    intro w x refused
    exact ⟨fun h => runs_nylCtrl ho exec_nylLinkDisable (linkDisable_refused h),
      fun h => runs_nylCtrl ho exec_nylLinkDisable (linkDisable_drains h),
      fun h => runs_nylCtrl ho exec_nylLinkDisable (linkDisable_silent h),
      fun h => runs_nylCtrl ho exec_nylLinkDisable (linkDisable_heard h),
      fun h => runs_nylCtrl ho exec_nylLinkEnable (linkEnable_trains h),
      fun h => runs_nylCtrl ho exec_nylLinkEnable (linkEnable_refused h),
      runs_nylCtrl ho exec_nylLinkReset rfl, rfl⟩
  case owned =>
    refine runs_of_lift exec_linkControl ((manage_of_up hup _).trans (if_pos ?_))
    exact Option.isSome_iff_ne_none.mpr h
  case free =>
    refine runs_of_lift exec_linkControl ((manage_of_up hup _).trans (if_neg ?_))
    rw [h]
    exact Bool.false_ne_true

end Sys2Proof
end

section
/-!
Messages on a Nyulle link (Obligations.FabricMessages): the commands that bring one, what becomes of it by its checks and by its place in the
sequence, and the link that a route gives.
-/

namespace Sys2Proof

open Sys2Proof.Machine

/-- Command i brings a message of OP op, which act acts on. -/
def BringsMessage (i : Instr) (l : NylId) (f : NFlit) (d : List NFlit) (op : Nat) (act : Work → NylMsg → Work) : Prop :=
  ∀ s, exec i s = liftIf (nylData d) (fun w => w.message l op f d act) s

theorem exec_message {i : Instr} {l : NylId} {f : NFlit} {d : List NFlit} {op : Nat} {act : Work → NylMsg → Work}
    (hi : BringsMessage i l f d op act) (hd : d.length ≤ 64) (s : State) : exec i s = lift (fun w => w.message l op f d act) s :=
  (hi s).trans (liftIf_eq (decide_eq_true hd))

/-- A link that has accepted a message of n flits (R425 to R427, R429): an ACK goes at once where another message could bring the flits
accepted past 256. -/
theorem accept_eq (x : NylLink) (f : NFlit) (n : Nat) :
    x.accept f n =
      let x := x.header f
      let y := { x with
        rxSeq := (x.rxSeq + n) % 65536
        unacked := x.unacked + n
        discarding := false
        consecFail := if x.asked.isSome then 0 else x.consecFail
        asked := none
        st := if x.st = .retrying then .up else x.st
        freed := modAt x.freed f.vc (· + n) }
      if 191 < y.unacked then y.control 1 [] else y := by
  have hiff (n : Nat) : 256 < n + 65 ↔ 191 < n := by omega
  simp only [NylLink.accept, hiff]

section
variable {w : Work} {l op : Nat} {f : NFlit} {d : List NFlit} {act : Work → NylMsg → Work}

theorem message_idle (h : (w.link l).carries = false) : w.message l op f d act = w := by
  simp only [Work.message, h, Bool.not_false, Bool.true_or, if_true]

section
variable (hc : (w.link l).carries = true)
include hc

theorem message_ofAnother (hok : f.ok = true) (h : f.kind ≠ 1 ∨ f.op ≠ op) : w.message l op f d act = w := by
  have hrow : (decide (f.kind ≠ 1) || decide (f.op ≠ op)) = true := by simpa using h
  simp only [Work.message, hc, hok, hrow, Bool.not_true, Bool.false_or, Bool.true_and, if_true]

/-- A flit of the row, or one that fails its check. -/
theorem message_ofRow (h : f.ok = true → f.kind = 1 ∧ f.op = op) :
    w.message l op f d act =
      if msgOk f d = true ∧ f.seq = (w.link l).rxSeq then
        let v := w.modLink l (fun x => x.accept f (1 + d.length))
        if (nylMsg l f d).dst = v.moduleId ∧ v.provisioning = false then act v (nylMsg l f d)
        else if v.provisioning then (if (nylMsg l f d).isRequest then v.answerOn l (nylMsg l f d) 4 else v)
        else v.forward l (nylMsg l f d)
      else if (w.link l).discarding then
        let v := if msgOk f d then w else w.modLink l (fun x => { x with errFlits := min (x.errFlits + 1) 0xFFFF_FFFF })
        if msgOk f d = false ∧ f.ok = true ∧ (w.link l).asked = some f.seq then v.nylRetryFailed l else v
      else w.modLink l (fun x => NylLink.ask { x with errFlits := min (x.errFlits + 1) 0xFFFF_FFFF }) := by
  have hrow : (f.ok && (decide (f.kind ≠ 1) || decide (f.op ≠ op))) = false := by
    cases hok : f.ok with
    | false => rfl
    | true => obtain ⟨hk, ho⟩ := h hok; simp [hk, ho]
  have hsat (n : Nat) : satAdd 32 n 1 = min (n + 1) 0xFFFF_FFFF := rfl
  simp only [Work.message, hc, hrow, hsat, Bool.not_true, Bool.false_or, Bool.false_eq_true, if_false, Bool.and_eq_true,
    Bool.not_eq_true', decide_eq_true_eq, and_assoc]

section Accepted
variable (hgood : msgOk f d = true) (hk : f.kind = 1) (hop : f.op = op) (hseq : f.seq = (w.link l).rxSeq) {v : Work}
  (hv : w.modLink l (fun x => x.accept f (1 + d.length)) = v)
include hgood hk hop hseq hv

/-- A message that is accepted. -/
theorem message_accepted :
    w.message l op f d act =
      if (nylMsg l f d).dst = v.moduleId ∧ v.provisioning = false then act v (nylMsg l f d)
      else if v.provisioning then (if (nylMsg l f d).isRequest then v.answerOn l (nylMsg l f d) 4 else v)
      else v.forward l (nylMsg l f d) := by
  subst hv
  rw [message_ofRow hc (fun _ => ⟨hk, hop⟩), if_pos ⟨hgood, hseq⟩]

theorem message_acts (hdst : (nylMsg l f d).dst = v.moduleId) (hp : v.provisioning = false) :
    w.message l op f d act = act v (nylMsg l f d) := by
  rw [message_accepted hc hgood hk hop hseq hv, if_pos ⟨hdst, hp⟩]

theorem message_provisioning (hp : v.provisioning = true) :
    w.message l op f d act = if (nylMsg l f d).isRequest then v.answerOn l (nylMsg l f d) 4 else v := by
  rw [message_accepted hc hgood hk hop hseq hv, if_neg (fun h => by rw [hp] at h; cases h.2), if_pos hp]

theorem message_forwards (hdst : (nylMsg l f d).dst ≠ v.moduleId) (hp : v.provisioning = false) :
    w.message l op f d act = v.forward l (nylMsg l f d) := by
  rw [message_accepted hc hgood hk hop hseq hv, if_neg (fun h => hdst h.1), if_neg (by rw [hp]; exact Bool.false_ne_true)]

end Accepted

section Refused
variable (h : f.ok = true → f.kind = 1 ∧ f.op = op) (hbad : ¬ (msgOk f d = true ∧ f.seq = (w.link l).rxSeq))
include h hbad

theorem message_asks (hd : (w.link l).discarding = false) :
    w.message l op f d act = w.modLink l (fun x => NylLink.ask { x with errFlits := min (x.errFlits + 1) 0xFFFF_FFFF }) := by
  rw [message_ofRow hc h, if_neg hbad, hd, if_neg Bool.false_ne_true]

variable (hd : (w.link l).discarding = true)
include hd

theorem message_discarded (hgood : msgOk f d = true) : w.message l op f d act = w := by
  rw [message_ofRow hc h, if_neg hbad, if_pos hd]
  simp only [hgood, Bool.true_eq_false, false_and, if_true, if_false]

theorem message_retryFails (hgood : ¬ msgOk f d = true) (hok : f.ok = true) (ha : (w.link l).asked = some f.seq) :
    w.message l op f d act =
      (w.modLink l (fun x => { x with errFlits := min (x.errFlits + 1) 0xFFFF_FFFF })).nylRetryFailed l := by
  rw [message_ofRow hc h, if_neg hbad, if_pos hd]
  simp only [if_neg hgood]
  exact if_pos ⟨Bool.eq_false_of_not_eq_true hgood, hok, ha⟩

theorem message_counted (hgood : ¬ msgOk f d = true) (ho : f.ok = false ∨ (w.link l).asked ≠ some f.seq) :
    w.message l op f d act = w.modLink l (fun x => { x with errFlits := min (x.errFlits + 1) 0xFFFF_FFFF }) := by
  rw [message_ofRow hc h, if_neg hbad, if_pos hd]
  refine (if_neg ?_).trans (if_neg hgood)
  rintro ⟨-, hok, ha⟩
  exact ho.elim (fun h => by rw [hok] at h; cases h) (fun h => h ha)

end Refused

end

end

/-! ## Routes (R437) -/

section
variable {w : Work} {p : Nat} {c : PoundCfg} {r : Routes} {e : Route} {g src off : Nat} (hc : w.cfg? p = some c)
  (hr : c.routes = some r) (he : r.entries.find? (fun e => e.modFirst ≤ g && g ≤ e.modLast) = some e)
include hc hr he

theorem route_entry :
    w.route (some p) g src off =
      if ((bitList e.links).filter w.linkUp).isEmpty then none
      else if e.ordered then ((bitList e.links).filter w.linkUp).head?
      else ((bitList e.links).filter w.linkUp)[routeHash g src off % ((bitList e.links).filter w.linkUp).length]? := by
  simp only [Work.route, Option.bind_some, hc, hr, he]

theorem route_noneUp (h : (bitList e.links).filter w.linkUp = []) : w.route (some p) g src off = none := by
  rw [route_entry hc hr he, h]; rfl

variable (hup : (bitList e.links).filter w.linkUp ≠ [])
include hup

theorem route_ordered (ho : e.ordered = true) : w.route (some p) g src off = ((bitList e.links).filter w.linkUp).head? := by
  rw [route_entry hc hr he, if_neg (by rwa [List.isEmpty_iff]), if_pos ho]

theorem route_hashed (ho : e.ordered = false) :
    w.route (some p) g src off =
      ((bitList e.links).filter w.linkUp)[routeHash g src off % ((bitList e.links).filter w.linkUp).length]? := by
  rw [route_entry hc hr he, if_neg (by rwa [List.isEmpty_iff]), ho, if_neg Bool.false_ne_true]

end

theorem route_unconfigured {w : Work} {p g src off : Nat} (h : w.cfg? p = none) : w.route (some p) g src off = none := by
  simp only [Work.route, Option.bind_some, h, Option.bind_none]

/-- Settles O50: the message by its checks and its place in the sequence; forwarding and routes by their equations. -/
theorem fabricMessages : Obligations.FabricMessages := by
  unfold Obligations.FabricMessages
  refine ⟨fun s l f d i op act hd hi => ?message, fun w l m => ⟨fun h hr => forward_answered h hr, fun h hr => forward_dropped h hr, fun h => ?forward⟩,
    fun w p g c r e src off hc hr he => ⟨route_noneUp hc hr he, fun hup => route_ordered hc hr he hup, fun hup => route_hashed hc hr he hup⟩,
    fun w p m h => sendMsg_unrouted (route_unconfigured h)⟩
  case message =>
    intro w x good m v failed
    have hbrings : BringsMessage i l f d op act := by
      rcases hi with ⟨rfl, rfl, rfl⟩ | ⟨rfl, rfl, rfl⟩ | ⟨rfl, rfl, rfl⟩ | ⟨rfl, rfl, rfl⟩ | ⟨rfl, rfl, rfl⟩ | ⟨rfl, rfl, rfl⟩ | ⟨rfl, rfl, rfl⟩ |
        ⟨rfl, rfl, rfl⟩ | ⟨rfl, rfl, rfl⟩ | ⟨rfl, rfl, rfl⟩ | ⟨rfl, rfl, rfl⟩ | ⟨rfl, rfl, rfl⟩ | ⟨rfl, rfl, rfl⟩ <;> exact fun s => rfl
    have hexec := exec_message hbrings hd s
    have hv : w.modLink l (fun x => x.accept f (1 + d.length)) = v := by simp only [accept_eq]; rfl
    clear_value v
    refine ⟨fun hc => becomes_of_lift hexec (message_idle hc), fun hc hok h => becomes_of_lift hexec (message_ofAnother hc hok h),
      fun hc hgood hk hop hseq => ⟨fun hdst hp => ?_, fun hp hr => ?_, fun hp hr => ?_, fun hdst hp => ?_⟩,
      fun hc h hbad => ⟨fun hdis => ?_, fun hdis hgood => ?_, fun hdis hgood hok ha => ?_, fun hdis hgood ho => ?_⟩⟩
    · exact runs_of_lift hexec (message_acts hc hgood hk hop hseq hv hdst hp)
    · exact runs_of_lift hexec ((message_provisioning hc hgood hk hop hseq hv hp).trans (if_pos hr))
    · exact runs_of_lift hexec ((message_provisioning hc hgood hk hop hseq hv hp).trans (if_neg (by rw [hr]; exact Bool.false_ne_true)))
    · exact runs_of_lift hexec (message_forwards hc hgood hk hop hseq hv hdst hp)
    · exact runs_of_lift hexec (message_asks hc h hbad hdis)
    · exact runs_of_lift hexec (message_discarded hc h hbad hdis hgood)
    · exact runs_of_lift hexec (message_retryFails hc h hbad hdis hgood hok ha)
    · exact runs_of_lift hexec (message_counted hc h hbad hdis hgood ho)
  case forward =>
    refine ⟨fun v k hs => forward_sent h hs, fun v hs => ⟨fun hr => ?_, fun hr => ?_⟩⟩
    · rw [forward_unsent h hs, if_pos hr]; rfl
    · rw [forward_unsent h hs, hr, if_neg Bool.false_ne_true]

end Sys2Proof
end

section
/-!
Collectives (Obligations.Collectives): the start and what refuses it, the plan of a member, the piece that is sent, and what the messages of
a collective do.
-/

namespace Sys2Proof

open Sys2Proof.Machine

/-! ## The start (R448, R449, R456) -/

section
variable {w : Work} {q : Nat} {c : Cmd}

theorem collective_full (h : 16 ≤ (w.chip.colls.filter (fun d => d.die = q % 16 / 4)).length) : w.collective q c = w := if_pos h

/-- A message that a starting collective takes from those that came before it: a piece of its predecessor. -/
def fromPred (d : Coll) (m : NylMsg) : Bool := d.takes m && m.src = d.pred

/-- Collective d of command c starts, and takes the pieces that came before it. -/
def collStarted (u : Work) (q : Nat) (c : Cmd) (d : Coll) : Work :=
  (u.chip.early.filter (fromPred d)).foldl (fun (w : Work) m => match w.coll? q c.seq with | some d => w.collPiece d m | none => w)
    { u.begin q c with
      chip.colls := (u.begin q c).chip.colls ++ [d]
      chip.early := (u.begin q c).chip.early.filter (fun m => !fromPred d m) }

section
variable (hfree : (w.chip.colls.filter (fun d => d.die = q % 16 / 4)).length < 16) {u : Work}
include hfree

theorem collective_unread {k a : Nat} (hg : w.groupBytes q c = (u, .bad k a)) :
    w.collective q c = u.beginDone q c k 0 (BitVec.ofNat 64 a) := by
  simp only [Work.collective, if_neg (Nat.not_le.mpr hfree), hg]

variable {bs : List Byte} (hg : w.groupBytes q c = (u, .ok bs))
include hg

theorem collective_noGroup (hp : parseGroup u.moduleId bs = none) : w.collective q c = u.beginDone q c 0x108 := by
  simp only [Work.collective, if_neg (Nat.not_le.mpr hfree), hg, hp]

variable {ids : List Nat} {rank : Nat} (hp : parseGroup u.moduleId bs = some (ids, rank))
include hp

theorem collective_badRoot (hroot : ids.length ≤ c.at_ 0x38 2) : w.collective q c = u.beginDone q c 1 := by
  simp only [Work.collective, if_neg (Nat.not_le.mpr hfree), hg, hp, if_pos hroot]

theorem collective_starts (hroot : c.at_ 0x38 2 < ids.length) :
    w.collective q c = collStarted u q c (u.newColl q c bs ids rank) := by
  simp only [Work.collective, if_neg (Nat.not_le.mpr hfree), hg, hp, if_neg (Nat.not_le.mpr hroot)]
  rfl

end

end

/-! ## Plans (R450, R451, R454) -/

theorem chunk_eq {c : Coll} (h : 0 < c.members.length) (k : Nat) :
    let size := ((c.count + c.members.length - 1) / c.members.length + 31) / 32 * 32
    (c.chunk k).1 = min (k % c.members.length * size) c.count ∧
    (c.chunk k).1 + (c.chunk k).2 = min ((c.chunk k).1 + size) c.count := by
  have hmax : max 1 c.members.length = c.members.length := Nat.max_eq_right h
  simp only [Coll.chunk, hmax, true_and]
  exact Nat.add_sub_cancel' (Nat.le_min.mpr ⟨Nat.le_add_right _ _, Nat.min_le_right _ _⟩)

/-- Step j of a turn around the ring that begins with chunk start (R450, R451). -/
def ringStep (c : Coll) (phase start j : Nat) : CollStep :=
  { phase := phase, derived := decide (0 < j), lo := (c.chunk (start + 2 * c.members.length - j)).1
    len := (c.chunk (start + 2 * c.members.length - j)).2 }

/-- A turn around the ring. -/
def ringTurn (c : Coll) (phase start : Nat) : List CollStep := (List.range (c.members.length - 1)).map (ringStep c phase start)

section
variable {c : Coll} {r : Nat}

theorem length_ringTurn (phase start : Nat) : (ringTurn c phase start).length = c.members.length - 1 := by
  rw [ringTurn, List.length_map, List.length_range]

theorem ringTurn_getElem? {phase start j : Nat} (h : j < c.members.length - 1) :
    (ringTurn c phase start)[j]? = some (ringStep c phase start j) := by
  rw [ringTurn, List.getElem?_map, List.getElem?_range h, Option.map_some]

theorem plan_reduceScatter (h : c.kind = 1) : c.plan r = ringTurn c 0 (r + c.members.length - 1) := by
  simp only [Coll.plan, h]
  rfl

theorem plan_allGather (h : c.kind = 2) : c.plan r = ringTurn c 1 r := by
  simp only [Coll.plan, h]
  rfl

theorem plan_allReduce (h : c.kind = 3) : c.plan r = ringTurn c 0 (r + c.members.length - 1) ++ ringTurn c 1 r := by
  simp only [Coll.plan, h]
  rfl

theorem plan_broadcast (h : c.kind = 4) :
    c.plan r = if (r + 1) % c.members.length = c.root then []
      else [{ phase := 2, derived := decide (r ≠ c.root), lo := 0, len := c.count }] := by
  simp only [Coll.plan, h]

end

/-! ## A piece is sent (R451, R453, R455) -/

/-- The piece goes to the successor, and what it allows is consumed. -/
def pieceSent (u : Work) (c : Coll) (p : CollPiece) (q : Nat) (n : W32) (blocks : Nat) (bs : List Byte) : Work :=
  let v := (u.sendColl c c.succ 0x81 (bs.length - 1) (c.stage + c.sent % 128 * 4096) c.sent p.phase blocks 0 bs).modColl c
    (fun d => { d with sent := d.sent + 1 })
  Work.consumeEnds 128 (if p.derived then v.consume c else v) q n

/-- When a piece may be sent (R455). -/
theorem canSend_iff {c : Coll} {p : CollPiece} : c.canSend p = true ↔
    c.sent - c.acked < 128 ∧ (if p.derived then c.consumed ∈ c.received else c.kind ≠ 3 ∨ p.phase = 0 ∨ c.reduceTotal ≤ c.consumed) := by
  cases hd : p.derived <;> simp [Coll.canSend, hd, or_assoc]

section
variable {w : Work} {q : Nat} {n : W32}

theorem collSend_none (h : w.coll? q n = none) : w.collSend q n = w := by
  simp only [Work.collSend, h]

section
variable {c : Coll} (hc : w.coll? q n = some c)
include hc

theorem collSend_allSent (hp : c.pieceOf c.sends c.sent = none) : w.collSend q n = w := by
  simp only [Work.collSend, hc, hp]

variable {p : CollPiece} (hp : c.pieceOf c.sends c.sent = some p)
include hp

theorem collSend_waits (h : c.canSend p = false) : w.collSend q n = w := by
  simp only [Work.collSend, hc, hp, h, Bool.not_false, if_true]

variable (h : c.canSend p = true) {u : Work}
include h

theorem collSend_fails {k a : Nat} (hmade : (if p.derived then w.nextPiece c p else w.firstPiece c p) = (u, .bad k a)) :
    w.collSend q n = u.failColl c k a := by
  simp only [Work.collSend, hc, hp, h, hmade, Bool.not_true, Bool.false_eq_true, if_false]

theorem collSend_sends {blocks : Nat} {bs : List Byte}
    (hmade : (if p.derived then w.nextPiece c p else w.firstPiece c p) = (u, .ok (blocks, bs))) :
    w.collSend q n = pieceSent u c p q n blocks bs := by
  simp only [Work.collSend, hc, hp, h, hmade, Bool.not_true, Bool.false_eq_true, if_false, pieceSent]

end

/-! ## The end (R456) -/

/-- Everything of a collective is sent, acknowledged and consumed, and its writes are visible. -/
def collDone (w : Work) (c : Coll) (q : Nat) (n : W32) : Prop :=
  c.sent = c.total c.sends ∧ c.acked = c.sent ∧ c.consumed = c.total c.receives ∧ w.xferQuiet (.command q n) = true

section
variable {c : Coll} {d : Cmd} (hc : w.coll? q n = some c) (hd : w.cmd? q n = some d)
include hc hd

theorem collComplete_failed {k a : Nat} (hf : d.xf.failed = some (k, a)) : w.collComplete q n = w.failColl c k a := by
  simp only [Work.collComplete, hc, hd, hf]

variable (hf : d.xf.failed = none)
include hf

theorem collComplete_eq [Decidable (collDone w c q n)] :
    w.collComplete q n =
      if collDone w c q n then
        let v := { w with chip.colls := w.chip.colls.filter (fun e => !(e.sq = q && e.seq = n)) }
        (if d.scope = 3 then v.dropLines d.xf.lines else v).complete q d 0
      else w := by
  simp only [Work.collComplete, hc, hd, hf, Bool.and_eq_true, decide_eq_true_eq]
  exact if_congr (by simp only [collDone, and_assoc]) rfl rfl

theorem collComplete_waits (h : ¬ collDone w c q n) : w.collComplete q n = w := by
  classical
  rw [collComplete_eq hc hd hf, if_neg h]

variable (h : collDone w c q n)
include h

theorem collComplete_visible (hs : d.scope ≠ 3) :
    w.collComplete q n =
      Work.complete { w with chip.colls := w.chip.colls.filter (fun e => !(e.sq = q && e.seq = n)) } q d 0 := by
  classical
  rw [collComplete_eq hc hd hf, if_pos h]
  simp only [if_neg hs]

theorem collComplete_system (hs : d.scope = 3) :
    w.collComplete q n =
      (Work.dropLines { w with chip.colls := w.chip.colls.filter (fun e => !(e.sq = q && e.seq = n)) } d.xf.lines).complete q d 0 := by
  classical
  rw [collComplete_eq hc hd hf, if_pos h]
  simp only [if_pos hs]

end

/-! ## Messages (R455, R456) -/

section
variable {m : NylMsg}

theorem collPiece_otherCall {c : Coll} (h : m.hash ≠ c.hash.toNat) : w.collPiece c m = w.failColl c 0x105 0 := if_pos h

theorem collPiece_comes {c : Coll} (h : m.hash = c.hash.toNat) : w.collPiece c m = w.collCome c m.piece := if_neg (not_not.mpr h)

/-- CDATA is admitted for pound p (R72, R443). -/
def cdataFor (w : Work) (m : NylMsg) (p : Nat) : Prop := m.offset + m.len ≤ w.hbmBytes ∧ w.covered m.src m.offset m.len 2 = some p

/-- The payload of CDATA in memory, with its poison (R445). -/
def cdataStored (w : Work) (m : NylMsg) (p : Nat) : Work :=
  let u := w.pwrite (0x100_0000_0000 + m.offset) m.data true (some p)
  if u.dead (0x100_0000_0000 + m.offset) then u else u.pokeWords (0x100_0000_0000 + m.offset) m.len m.poison

/-- The collective that takes a piece from its predecessor. -/
def takerOf (w : Work) (m : NylMsg) : Option Coll := w.chip.colls.find? (fun c => c.takes m && c.pred = m.src)

section
variable (h : ∀ p, ¬ cdataFor w m p)
include h

theorem notAdmitted : (if w.hbmBytes < m.offset + m.len then none else w.covered m.src m.offset m.len 2) = none := by
  rw [ite_eq_left_iff, Option.eq_none_iff_forall_ne_some]
  exact fun hin p hp => h p ⟨Nat.le_of_not_lt hin, hp⟩

theorem cdata_refused (hm : takerOf w m = none) : w.cdata m = w.recFabric m := by
  rw [takerOf] at hm
  simp only [Work.cdata, notAdmitted h, hm]

theorem cdata_refused_fails {c : Coll} (hm : takerOf w m = some c) :
    w.cdata m = (w.recFabric m).failColl c 5 (0x100_0000_0000 + m.offset) := by
  rw [takerOf] at hm
  simp only [Work.cdata, notAdmitted h, hm]

end

section
variable {p : Nat} (h : cdataFor w m p)
include h

theorem cdata_early (hm : takerOf w m = none) :
    w.cdata m = { cdataStored w m p with chip.early := (cdataStored w m p).chip.early ++ [m] } := by
  obtain ⟨hin, hcov⟩ := h
  rw [takerOf] at hm
  simp only [Work.cdata, if_neg (Nat.not_lt.mpr hin), hcov, hm]
  rfl

theorem cdata_taken {c : Coll} (hm : takerOf w m = some c) : w.cdata m = (cdataStored w m p).collPiece c m := by
  obtain ⟨hin, hcov⟩ := h
  rw [takerOf] at hm
  simp only [Work.cdata, if_neg (Nat.not_lt.mpr hin), hcov, hm]
  rfl

end

theorem cack_taken {c : Coll} (h : w.chip.colls.find? (fun c => c.takes m && c.succ = m.src) = some c) :
    w.cack m = w.modColl c (fun d => { d with acked := max d.acked (min m.piece d.sent) }) := by
  simp only [Work.cack, h]

theorem cabort_taken {c : Coll} (h : w.chip.colls.find? (fun c => c.takes m && (c.pred = m.src || c.succ = m.src)) = some c) :
    w.cabort m = w.failColl c 0x106 0 := by
  simp only [Work.cabort, h]

/-- Of collectives that take no message none is found by one. -/
theorem find?_takes_none {l : List Coll} (h : ∀ c ∈ l, c.takes m = false) (p : Coll → Bool) :
    l.find? (fun c => c.takes m && p c) = none :=
  List.find?_eq_none.mpr fun c hc => by simp [h c hc]

theorem cack_ofNone (h : ∀ c ∈ w.chip.colls, c.takes m = false) : w.cack m = w := by
  simp only [Work.cack, find?_takes_none h]

theorem cabort_ofNone (h : ∀ c ∈ w.chip.colls, c.takes m = false) : w.cabort m = w := by
  simp only [Work.cabort, find?_takes_none h (fun c => c.pred = m.src || c.succ = m.src)]

end

end

/-- Settles O52: the start, the plan and the pieces by the equations of their outcomes, the messages by the collective that takes them. -/
theorem collectives : Obligations.Collectives := by
  unfold Obligations.Collectives
  refine ⟨fun s q c hturn => ?start, fun w c m => ⟨collPiece_otherCall, collPiece_comes⟩, fun c r => ?plan, fun c k h => chunk_eq h k,
    fun s q n => ?send, fun s q n c hc => ?ends, fun s l f d i op act hd hi => ?accepted, fun w m => ?messages⟩
  case start =>
    intro w i
    have hruns (hok : c.collOk = true) {u : Work} (hu : w.collective q c = u) : Runs i s u :=
      runs_of_lift exec_collective ((start_of_ok hturn hok).trans hu)
    refine ⟨fun hbad => runs_of_lift exec_collective (start_of_malformed hturn hbad),
      fun hok hfull => becomes_of_lift exec_collective ((start_of_ok hturn hok).trans (collective_full hfull)),
      fun hok hfree => ⟨fun u k a hg => hruns hok (collective_unread hfree hg), fun u bs hg =>
        ⟨fun hp => hruns hok (collective_noGroup hfree hg hp), fun ids rank hp => ⟨fun hroot => hruns hok (collective_badRoot hfree hg hp hroot),
          fun hroot => hruns hok (collective_starts hfree hg hp hroot)⟩⟩⟩⟩
  case plan =>
    intro n at_
    refine ⟨fun h j hj => ?_, fun h j hj => ?_, fun h j hj => ?_, fun h => ?_, fun h => ?_, plan_broadcast⟩
    · rcases h with h | h
      · rw [plan_reduceScatter h, ringTurn_getElem? hj]; rfl
      · rw [plan_allReduce h, List.getElem?_append_left (by rwa [length_ringTurn]), ringTurn_getElem? hj]; rfl
    · rw [plan_allGather h, ringTurn_getElem? hj]; rfl
    · rw [plan_allReduce h, List.getElem?_append_right (by rw [length_ringTurn]; omega), length_ringTurn, Nat.add_sub_cancel_left,
        ringTurn_getElem? hj]
      rfl
    · rcases h with h | h
      · rw [plan_reduceScatter h, length_ringTurn]
      · rw [plan_allGather h, length_ringTurn]
    · rw [plan_allReduce h, List.length_append, length_ringTurn, length_ringTurn, Nat.two_mul]
  case send =>
    intro w i
    refine ⟨fun h => becomes_of_lift exec_collectivePieceSend (collSend_none h), fun c hc =>
      ⟨fun hp => becomes_of_lift exec_collectivePieceSend (collSend_allSent hc hp), fun p hp => ?_⟩⟩
    intro may made
    refine ⟨fun h => becomes_of_lift exec_collectivePieceSend (collSend_waits hc hp (Bool.eq_false_of_not_eq_true (mt canSend_iff.mp h))),
      fun h => ⟨fun u k a hmade => runs_of_lift exec_collectivePieceSend (collSend_fails hc hp (canSend_iff.mpr h) hmade), fun u b bs hmade => ?_⟩⟩
    have hsent := collSend_sends hc hp (canSend_iff.mpr h) hmade
    refine ⟨fun hd => runs_of_lift exec_collectivePieceSend (hsent.trans ?_), fun hd => runs_of_lift exec_collectivePieceSend (hsent.trans ?_)⟩
    · simp only [pieceSent, hd, if_true]
    · simp only [pieceSent, hd, Bool.false_eq_true, if_false]
  case ends =>
    intro w
    refine ⟨runs_of_lift exec_collectiveTimeout (by simp only [hc]; rfl), fun d hcmd => ?_⟩
    intro done
    exact ⟨fun k a hf => runs_of_lift exec_collectiveComplete (collComplete_failed hc hcmd hf),
      fun hf h => becomes_of_lift exec_collectiveComplete (collComplete_waits hc hcmd hf h),
      fun hf h => ⟨fun hs => runs_of_lift exec_collectiveComplete (collComplete_visible hc hcmd hf h hs),
        fun hs => runs_of_lift exec_collectiveComplete (collComplete_system hc hcmd hf h hs)⟩⟩
  case accepted =>
    intro x m hc hgood hk hop hseq hp hdst
    have hbrings : BringsMessage i l f d op act := by
      rcases hi with ⟨rfl, rfl, rfl⟩ | ⟨rfl, rfl, rfl⟩ | ⟨rfl, rfl, rfl⟩ <;> exact fun s => rfl
    refine runs_of_lift (exec_message hbrings hd s) ((message_acts hc hgood hk hop hseq rfl hdst hp).trans ?_)
    simp only [accept_eq]
    rfl
  case messages =>
    intro a mine admitted
    exact ⟨fun h hm => cdata_refused h hm, fun h c hm => cdata_refused_fails h hm, fun p h => ⟨fun hm => cdata_early h hm,
        fun c hm hh => (cdata_taken h hm).trans (collPiece_otherCall hh), fun c hm hh => (cdata_taken h hm).trans (collPiece_comes hh)⟩,
      fun c => cack_taken, fun c => cabort_taken, fun h => ⟨cack_ofNone h, cabort_ofNone h⟩⟩

end Sys2Proof
end

section
/-!
Retraining of HBM channels and errors of memory words (Obligations.RetrainingAndMemoryErrors): the window of a channel, what a window that
fails or that ends makes of it, and the word that a patrol reads.
-/

namespace Sys2Proof

open Sys2Proof.Machine

/-! ## Retraining (R390, R396, R397) -/

section
variable {w : Work} {ch : Nat}

/-- The windows that are pending (R396). -/
def pendingWindows (w : Work) : Nat := (w.chip.time.orders.filter (fun e => e.2.action = 4)).length

theorem retrainPost_none (h : w.mapped.contains ch = false ∨ 16 ≤ pendingWindows w) : w.retrainPost ch = w :=
  if_pos (by rw [Bool.or_eq_true, Bool.not_eq_true', decide_eq_true_eq]; exact h)

theorem retrainPost_posts (hm : w.mapped.contains ch = true) (h : pendingWindows w < 16) :
    w.retrainPost ch = (w.post_ .power 4 (w.windowAt ch (w.now + 1_002_000)) 0xFF 1000 ch).1 := by
  refine if_neg ?_
  rw [Bool.or_eq_true, Bool.not_eq_true', decide_eq_true_eq, hm]
  exact fun hor => hor.elim Bool.false_ne_true.symm (Nat.not_le.mpr h)

section
variable {i : Nat}

theorem retrainStart_waits (h : w.startable i 4 = none) : w.retrainStart i = w := by simp only [Work.retrainStart, h]

section
variable {o : Order} (h : w.startable i 4 = some o) {v : Work} (hv : w.beginOrder i o (some 2000) = v)
include h hv

theorem retrainStart_idle (hch : v.mapped.contains o.arg = false ∨ (v.hbmCh o.arg).health = 2) : w.retrainStart i = v.endOrder i := by
  simp only [Work.retrainStart, h, hv]
  exact if_pos (by rw [Bool.or_eq_true, Bool.not_eq_true', decide_eq_true_eq]; exact hch)

/-- The window trains the channel, and its slice enters RECOVERY. -/
theorem retrainStart_trains (hm : v.mapped.contains o.arg = true) (hh : (v.hbmCh o.arg).health ≠ 2) :
    w.retrainStart i = ((v.modHbm o.arg (fun x => { x with
      trains := min (x.trains + 1) 0xFFFF_FFFF, trainAt := BitVec.ofNat 64 o.at_, training := some o.at_ })).modSlice (o.arg / 2)
      (fun x => { x with st := .recovery, recoverAt := some (v.chip.refPs + 22_000_000) })).endOrder i := by
  simp only [Work.retrainStart, h, hv]
  refine if_neg ?_
  rw [Bool.or_eq_true, Bool.not_eq_true', decide_eq_true_eq, hm]
  exact fun hor => hor.elim Bool.false_ne_true.symm hh

end

end

/-- A record leaves the HBM channels as they are. -/
theorem record_hbmCh (w : Work) (r : Rec) (ch : Nat) : (w.record r).hbmCh ch = w.hbmCh ch := by
  rw [Work.hbmCh, Work.record_near w r]; rfl

theorem retrainTimeout_none (h : (w.hbmCh ch).training = none) : w.retrainTimeout ch = w := by simp only [Work.retrainTimeout, h]

/-- Training that began at t has not converged: the failure is counted and recorded. -/
def trainFailed (w : Work) (ch t : Nat) : Work :=
  (w.modHbm ch (fun x => { x with
    fails := min (x.fails + 1) 0xFFFF, consec := min 2 ((w.hbmCh ch).consec + 1), training := none })).record
    { cls := 0x0304, kind := 3, id := ch, d0 := min 2 ((w.hbmCh ch).consec + 1), d1 := t }

theorem trainFailed_health (w : Work) (ch t : Nat) : ((trainFailed w ch t).hbmCh ch).health = (w.hbmCh ch).health := by
  rw [trainFailed, record_hbmCh, Work.modHbm_self]

section
variable {t : Nat} (h : (w.hbmCh ch).training = some t)
include h

theorem retrainTimeout_eq :
    w.retrainTimeout ch =
      if min 2 ((w.hbmCh ch).consec + 1) = 2 ∧ (w.hbmCh ch).health = 0 then (trainFailed w ch t).failing false ch 3 else trainFailed w ch t := by
  rw [← trainFailed_health w ch t]
  simp only [Work.retrainTimeout, h]
  exact if_congr (by rw [Bool.and_eq_true, decide_eq_true_eq, decide_eq_true_eq]; rfl) rfl rfl

theorem retrainTimeout_counts (hn : min 2 ((w.hbmCh ch).consec + 1) = 1 ∨ (w.hbmCh ch).health ≠ 0) :
    w.retrainTimeout ch = trainFailed w ch t := by
  rw [retrainTimeout_eq h, if_neg]
  rintro ⟨h2, h0⟩
  exact hn.elim (by rw [h2]; decide) (fun hne => hne h0)

theorem retrainTimeout_failing (hn : min 2 ((w.hbmCh ch).consec + 1) = 2) (hh : (w.hbmCh ch).health = 0) :
    w.retrainTimeout ch = (trainFailed w ch t).failing false ch 3 := by
  rw [retrainTimeout_eq h, if_pos ⟨hn, hh⟩]

end

section
variable {i : Nat}

theorem regulationActive_waits (h : (w.slice i).recoverAt = none ∨ (w.slice i).st ≠ .recovery) : w.regulationActive i = w := by
  cases hr : (w.slice i).recoverAt with
  | none => simp only [Work.regulationActive, hr]
  | some t => simp only [Work.regulationActive, hr, if_neg (h.resolve_left (by simp [hr]))]

/-- RECOVERY ends: a window that did not fail has trained its channel. -/
theorem regulationActive_returns (h : (w.slice i).recoverAt ≠ none) (hst : (w.slice i).st = .recovery) :
    w.regulationActive i =
      ((w.modSlice i (fun y => { y with st := if w.homesFailed i then .recovery else .active, recoverAt := none })).modHbm (2 * i)
        (fun y => if y.training.isSome then { y with consec := 0, training := none } else y)).modHbm (2 * i + 1)
        (fun y => if y.training.isSome then { y with consec := 0, training := none } else y) := by
  obtain ⟨t, ht⟩ := Option.ne_none_iff_exists'.mp h
  simp only [Work.regulationActive, ht, hst, if_true, Work.each_cons, Work.each_nil]

end

end

/-! ## Patrol (R394, R398) -/

section
variable {w : Work} {a : Nat} {errs : List (Nat × Byte)}

theorem patrol_dead (h : w.dead a = true) : w.patrol a errs = w := by
  simp only [Work.patrol, h, Bool.or_true, if_true]

theorem patrol_elsewhere (hh : ∀ off, w.place a ≠ .hbm off) (hl : ∀ h off, w.place a ≠ .lpd h off) : w.patrol a errs = w := by
  cases hp : w.place a with
  | hbm off => exact absurd hp (hh off)
  | lpd h off => exact absurd hp (hl h off)
  | _ => simp [Work.patrol, hp]

variable (hdead : w.dead a = false)
include hdead

theorem patrol_lpd {h off : Nat} (hp : w.place a = .lpd h off) :
    w.patrol a errs = w.readWord (.channel true (w.lpdAt h off)) (a / 32) errs := by
  simp [Work.patrol, Work.sectorAt, hp, hdead]

section
variable {off : Nat} (hp : w.place a = .hbm off)
  {v : Bool → Work} (hv : ∀ lasts, w.readWord (.channel false (w.hbmAt off).1) (a / 32) errs lasts = v lasts)
include hp hv

theorem patrol_dirty {e : Sector} (hs : w.sectorAt a = some e) (hd : e.dirty = true) : w.patrol a errs = v false := by
  simp only [Work.patrol, hp, hs, hdead, hd, hv, Bool.or_false, Bool.true_or, Bool.not_true, Bool.false_and, reduceCtorEq, decide_false,
    Bool.false_eq_true, if_false]

variable {under : Bool} (hu : (w.slice (w.arcAt (a / 128)).1).evict.contains (a / 128) = under)
include hu

theorem patrol_bare (hs : w.sectorAt a = none) : w.patrol a errs = v (!under) := by
  simp only [Work.patrol, hp, hs, hdead, hu, hv, Bool.or_false, Bool.false_or, reduceCtorEq, decide_false, Bool.false_eq_true, if_false]

section
variable {e : Sector} (hs : w.sectorAt a = some e)
include hs

variable (hd : e.dirty = false)
include hd

/-- A clean sector whose word is detected below it is given up. -/
theorem patrol_clean :
    w.patrol a errs =
      if w.mem.poisoned (a / 32) = false ∧ (v (!under)).mem.poisoned (a / 32) = true then
        (v (!under)).modSlice (w.arcAt (a / 128)).1 (fun y => { y with sectors := SMap.erase y.sectors (a / 128) })
      else v (!under) := by
  simp only [Work.patrol, hp, hs, hdead, hd, hu, hv, Bool.or_false, Bool.false_or, Bool.not_false, Bool.true_and, Bool.and_eq_true,
    Bool.not_eq_true', reduceCtorEq, decide_false, Bool.false_eq_true, if_false]

theorem patrol_clean_kept (h : w.mem.poisoned (a / 32) = true ∨ (v (!under)).mem.poisoned (a / 32) = false) :
    w.patrol a errs = v (!under) := by
  rw [patrol_clean hdead hp hv hu hs hd, if_neg]
  rintro ⟨hwas, hnow⟩
  rcases h with h | h
  · rw [hwas] at h; cases h
  · rw [hnow] at h; cases h

theorem patrol_clean_givenUp (hwas : w.mem.poisoned (a / 32) = false) (hnow : (v (!under)).mem.poisoned (a / 32) = true) :
    w.patrol a errs = (v (!under)).modSlice (w.arcAt (a / 128)).1 (fun y => { y with sectors := SMap.erase y.sectors (a / 128) }) := by
  rw [patrol_clean hdead hp hv hu hs hd, if_pos ⟨hwas, hnow⟩]

end

end

end

/-- A word that is good and that nature has left alone is read without a change. -/
theorem readWord_good {w : Work} {cw : Nat} (x : WordHome) (hp : w.mem.poisoned cw = false)
    (hg : (rsRead (w.correcting (cw * 32)) (w.mem.read (cw * 32) 32) [] false).2 = .good) : w.readWord x cw [] = w := by
  generalize hr : rsRead (w.correcting (cw * 32)) (w.mem.read (cw * 32) 32) [] false = r at hg
  obtain ⟨out, res⟩ := r
  obtain rfl : res = .good := hg
  simp only [Work.readWord, hp, hr, List.isEmpty_nil, if_true]

/-- Settles O35: each command by the equation of its outcome. -/
theorem retrainingAndMemoryErrors : Obligations.RetrainingAndMemoryErrors := by
  unfold Obligations.RetrainingAndMemoryErrors
  refine ⟨⟨fun s ch => ?post, fun s i => ⟨fun h => becomes_of_lift exec_hbmRetrainingWindow (retrainStart_waits h), fun o h => ?window⟩,
      fun s ch => ?timeout, fun s i => ?active⟩,
    fun s a l => ?patrol, fun w x cw hp hg => readWord_good x hp hg, fun s ch => runs_of_lift exec_hbmChannelNoResponse rfl,
    fun s ch => runs_of_lift exec_hbmChannelNoResponse rfl, fun s i g => becomes_of_lift exec_expansionBufferExpire rfl⟩
  case post =>
    exact ⟨fun h => becomes_of_lift exec_hbmRetrainPost (retrainPost_none h),
      fun hm h => runs_of_lift exec_hbmRetrainPost (retrainPost_posts hm h)⟩
  case window =>
    exact ⟨fun hch => runs_of_lift exec_hbmRetrainingWindow (retrainStart_idle h rfl hch),
      fun hm hh => runs_of_lift exec_hbmRetrainingWindow (retrainStart_trains h rfl hm hh)⟩
  case timeout =>
    exact ⟨fun h => becomes_of_lift exec_hbmRetrainTimeout (retrainTimeout_none h), fun t h =>
      ⟨fun hn => runs_of_lift exec_hbmRetrainTimeout (retrainTimeout_counts h hn),
        fun hn hh => runs_of_lift exec_hbmRetrainTimeout (retrainTimeout_failing h hn hh)⟩⟩
  case active =>
    exact ⟨fun h => becomes_of_lift exec_regulationActive (regulationActive_waits h),
      fun h hst => runs_of_lift exec_regulationActive (regulationActive_returns h hst)⟩
  case patrol =>
    intro w errs
    refine ⟨fun h => becomes_of_lift exec_patrolScrub (patrol_dead h), fun hdead => ⟨fun off hp => ⟨fun hs => ?_, fun e hs hd => ?_,
        fun e hs hd => ⟨fun h => ?_, fun hwas hnow => ?_⟩⟩, fun h off hp => runs_of_lift exec_patrolScrub (patrol_lpd hdead hp),
      fun hh hl => becomes_of_lift exec_patrolScrub (patrol_elsewhere hh hl)⟩⟩
    · exact runs_of_lift exec_patrolScrub (patrol_bare hdead hp (fun _ => rfl) rfl hs)
    · exact runs_of_lift exec_patrolScrub (patrol_dirty hdead hp (fun _ => rfl) hs hd)
    · exact runs_of_lift exec_patrolScrub (patrol_clean_kept hdead hp (fun _ => rfl) rfl hs hd h)
    · exact runs_of_lift exec_patrolScrub (patrol_clean_givenUp hdead hp (fun _ => rfl) rfl hs hd hwas hnow)

end Sys2Proof
end

section
/-!
Frequency groups (Obligations.FrequencyGroups): the descriptor of a pound, and what a member, a leader and the root make of an epoch.
-/

namespace Sys2Proof

open Sys2Proof.Machine

/-! ## The descriptor (R499) -/

/-- A store of 64 bits replaces a field by its bits. -/
theorem newField_whole (high : Bool) (v : W64) (hi lo old : Nat) : newField .b8 high v hi lo old = bits v hi lo := by
  simp [newField, reaches, inPlace]

theorem bits_one {n : Nat} (v : BitVec n) (i : Nat) : decide (bits v i i = 1) = bit v i := by
  rw [bits, Nat.add_sub_cancel_left, Nat.pow_one, bit, BitVec.getLsbD, Nat.testBit_eq_decide_div_mod_eq]

theorem fgDescWrite_whole (w : Work) (p : Nat) (high : Bool) (v : W64) :
    w.fgDescWrite p .b8 high v =
      (w.modPpow p (fun x => { x with fgDesc := BitVec.ofNat 53 (bits v 55 3), fgValid := bit v 0 })).fgSetup p := by
  have hreach : reaches .b8 high 0 0 = true := rfl
  simp only [Work.fgDescWrite, newField_whole, bits_one, hreach, if_true]

/-- A pound whose descriptor is not valid is no member. -/
theorem fgSetup_invalid {w : Work} {p : Nat} (h : (w.ppow p).fgValid = false) :
    w.fgSetup p = w.modPpow p (fun x => { x with fg := .notMember, members := [], groupMhz := 0 }) := by
  simp only [Work.fgSetup, h, Bool.not_false, Bool.or_true, if_true]

/-! ## Epochs (R501) -/

section
variable {w : Work} {i : Nat}

theorem epochStart_waits (h : w.startable i 8 = none) : w.epochStart i = w := by simp only [Work.epochStart, h]

section
variable {o : Order} (h : w.startable i 8 = some o) {v : Work}
  (hv : (w.beginOrder i o (some 1_000_000)).postEpoch o.pound (o.at_ + 1_000_000) = v)
include h hv

theorem epochStart_idle (hm : (v.ppow o.pound).isMember = false) : w.epochStart i = v.endOrder i := by
  simp only [Work.epochStart, h, hv, hm, Bool.not_false, if_true]

theorem epochStart_sends (hm : (v.ppow o.pound).isMember = true) :
    w.epochStart i = v.boardWrite o.pound ((v.ppow o.pound).rank / 256 * 256) ((v.ppow o.pound).rank % 256 * 16)
      (fgRecord (epochOf o.at_) (v.attainable o.pound) (v.ppow o.pound).phase 1) := by
  simp only [Work.epochStart, h, hv, hm, Bool.not_true, Bool.false_eq_true, if_false]

end

end

/-! ### Leaders and the root -/

/-- A pound that leads no set. -/
theorem notLeader_iff {x : PoundPower} : (!x.isMember || x.rank % 256 ≠ 0) = true ↔ x.isMember = false ∨ x.rank % 256 ≠ 0 := by
  rw [Bool.or_eq_true, Bool.not_eq_true', decide_eq_true_eq]

theorem not_notLeader {x : PoundPower} (hm : x.isMember = true) (hr : x.rank % 256 = 0) : ¬ (!x.isMember || x.rank % 256 ≠ 0) = true := by
  rw [notLeader_iff, hm, hr]
  decide

/-- No member of the set is left out: each has a record of this epoch or of the one before it. -/
theorem leftOut_nil {n : Nat} {l : List (Nat × Nat × Nat)} (hall : ∀ j, j < n → ∃ r ∈ l, r.1 = j) :
    idxs n (fun j => !l.any (fun r => r.1 = j)) = [] := by
  refine List.filter_eq_nil_iff.mpr fun j hj => ?_
  obtain ⟨r, hr, hrj⟩ := hall j (List.mem_range.mp hj)
  rw [Bool.not_eq_true, Bool.not_eq_false', List.any_eq_true]
  exact ⟨r, hr, decide_eq_true hrj⟩

section
variable {w : Work} {p : Nat}

theorem noEpoch (h : w.epochOrder p = none) :
    w.leaderCollect p = w ∧ w.rootCollect p = w ∧ w.leaderDistribute p = w ∧ w.memberRead p = w := by
  simp only [Work.leaderCollect, Work.rootCollect, Work.leaderDistribute, Work.memberRead, h, and_self]

section
variable {i : Nat} {o : Order} (h : w.epochOrder p = some (i, o))
include h

theorem leaderCollect_idle (hl : (w.ppow p).isMember = false ∨ (w.ppow p).rank % 256 ≠ 0) : w.leaderCollect p = w := by
  simp only [Work.leaderCollect, h]
  exact if_pos (notLeader_iff.mpr hl)

theorem leaderDistribute_idle (hl : (w.ppow p).isMember = false ∨ (w.ppow p).rank % 256 ≠ 0) : w.leaderDistribute p = w := by
  simp only [Work.leaderDistribute, h]
  exact if_pos (notLeader_iff.mpr hl)

theorem leaderCollect_writes (hm : (w.ppow p).isMember = true) (hr : (w.ppow p).rank % 256 = 0)
    (hall : ∀ j, j < setSize (w.ppow p).members.length (w.ppow p).rank →
      ∃ r ∈ w.current p 0 (setSize (w.ppow p).members.length (w.ppow p).rank) (epochOf o.at_), r.1 = j)
    {f c : Nat} (hl : leastOf (w.current p 0 (setSize (w.ppow p).members.length (w.ppow p).rank) (epochOf o.at_)) = some (f, c)) :
    w.leaderCollect p = (w.modPpow p (fun y => { y with missed := [] })).boardWrite p 0 (0x1000 + (w.ppow p).rank / 256 * 16)
      (fgRecord (epochOf o.at_) f (w.ppow p).phase c) := by
  simp only [Work.leaderCollect, h]
  refine (if_neg (not_notLeader hm hr)).trans ?_
  simp only [leftOut_nil hall, List.foldl_nil, List.filter_nil, Work.each_nil, hl]

theorem rootCollect_idle (hl : (w.ppow p).isMember = false ∨ (w.ppow p).rank ≠ 0) : w.rootCollect p = w := by
  simp only [Work.rootCollect, h]
  exact if_pos (by rw [Bool.or_eq_true, Bool.not_eq_true', decide_eq_true_eq]; exact hl)

theorem rootCollect_writes (hm : (w.ppow p).isMember = true) (hr : (w.ppow p).rank = 0) {f c : Nat}
    (hl : leastOf (w.current p 0x1000 (((w.ppow p).members.length + 255) / 256) (epochOf o.at_)) = some (f, c)) :
    w.rootCollect p = w.each (List.range (((w.ppow p).members.length + 255) / 256)) (fun v k =>
      v.boardWrite p (256 * k) 0x1800 (fgRecord (epochOf o.at_) f (w.ppow p).phase c)) := by
  simp only [Work.rootCollect, h, hm, hr, hl, Bool.not_true, Bool.false_or, ne_eq, not_true_eq_false, decide_false,
    Bool.false_eq_true, if_false]

theorem leaderDistribute_unread (hb : w.boardRead p 0x1800 = none) : w.leaderDistribute p = w := by
  simp only [Work.leaderDistribute, h, hb, ite_self]

theorem leaderDistribute_writes (hm : (w.ppow p).isMember = true) (hr : (w.ppow p).rank % 256 = 0) {r : List Byte}
    (hb : w.boardRead p 0x1800 = some r) :
    w.leaderDistribute p = w.each ((List.range (setSize (w.ppow p).members.length (w.ppow p).rank)).filter (fun j => j ≠ 0))
      (fun v j => v.boardWrite p ((w.ppow p).rank + j) 0x1800 r) := by
  simp only [Work.leaderDistribute, h, hb]
  exact if_neg (not_notLeader hm hr)

/-! ### Members (R501, R503) -/

theorem memberRead_idle (hm : (w.ppow p).isMember = false) : w.memberRead p = w.endOrder i := by
  simp only [Work.memberRead, h, hm, Bool.not_false, if_true]

variable (hm : (w.ppow p).isMember = true)
include hm

theorem memberRead_noResult (hb : ∀ f c, w.boardRecord p 0x1800 ≠ some (epochOf o.at_, f, c)) :
    w.memberRead p = (w.modPpow p (fun y => { y with fg := .noResult })).endOrder i := by
  have hnone : (w.boardRecord p 0x1800).filter (fun r => r.1 = epochOf o.at_) = none := by
    refine Option.filter_eq_none_iff.mpr fun r hr hepoch => hb r.2.1 r.2.2 ?_
    rw [hr, ← of_decide_eq_true hepoch]
  simp only [Work.memberRead, h, hm, hnone, Bool.not_true, Bool.false_eq_true, if_false]

/-- What a member adopts of its result while Lock Time is lost. -/
theorem memberRead_adopts {f c : Nat} (hb : w.boardRecord p 0x1800 = some (epochOf o.at_, f, c)) (hl : w.locked = false) {v u : Work}
    (hv : w.modPpow p (fun y => { y with fg := .member, groupMhz := f }) = v) (hu : v.countOverrides p (v.wantTarget p) = u) :
    w.memberRead p = (u.modPpow p (fun y => { y with targetMhz := min (min f (u.freqMax p)) y.hard })).endOrder i := by
  have hsome : (w.boardRecord p 0x1800).filter (fun r => r.1 = epochOf o.at_) = some (epochOf o.at_, f, c) := by
    simp [hb]
  have hlocked : (u.modPpow p (fun y => { y with targetMhz := min (min f (u.freqMax p)) y.hard })).locked = false := by
    subst hu hv; exact hl
  simp only [Work.memberRead, h, hm, hsome, hv, hu, hlocked, Bool.not_true, Bool.false_eq_true, if_false]

end

end

/-! ## The least record (R501) -/

/-- The records taken so far and those of a list have least frequency f and counts that sum to c. -/
theorem leastOf_foldl {l : List (Nat × Nat × Nat)} {f₀ c₀ f c : Nat}
    (h : l.foldl (fun a r => match a with
      | none => some (r.2.1, r.2.2)
      | some (f, n) => some (min f r.2.1, n + r.2.2)) (some (f₀, c₀)) = some (f, c)) :
    f ≤ f₀ ∧ (∀ r ∈ l, f ≤ r.2.1) ∧ (f = f₀ ∨ ∃ r ∈ l, r.2.1 = f) ∧ c = (l.map (fun r => r.2.2)).foldl (· + ·) c₀ := by
  induction l generalizing f₀ c₀ with
  | nil =>
    obtain ⟨rfl, rfl⟩ : f₀ = f ∧ c₀ = c := by simpa using h
    simp
  | cons r l ih =>
    obtain ⟨hle, hall, hleast, hsum⟩ := ih h
    refine ⟨hle.trans (Nat.min_le_left _ _), List.forall_mem_cons.mpr ⟨hle.trans (Nat.min_le_right _ _), hall⟩, ?_, hsum⟩
    rcases hleast with hleast | ⟨s, hs, hsf⟩
    · rcases Nat.le_total f₀ r.2.1 with hmin | hmin
      · exact .inl (hleast.trans (Nat.min_eq_left hmin))
      · exact .inr ⟨r, List.mem_cons_self, (hleast.trans (Nat.min_eq_right hmin)).symm⟩
    · exact .inr ⟨s, List.mem_cons_of_mem _ hs, hsf⟩

theorem leastOf_some {l : List (Nat × Nat × Nat)} {f c : Nat} (h : leastOf l = some (f, c)) :
    (∀ r ∈ l, f ≤ r.2.1) ∧ (∃ r ∈ l, r.2.1 = f) ∧ c = (l.map (fun r => r.2.2)).foldl (· + ·) 0 := by
  cases l with
  | nil => cases h
  | cons r l =>
    obtain ⟨hle, hall, hleast, hsum⟩ := leastOf_foldl h
    refine ⟨List.forall_mem_cons.mpr ⟨hle, hall⟩, ?_, by rw [hsum, List.map_cons, List.foldl_cons, Nat.zero_add]⟩
    rcases hleast with rfl | ⟨s, hs, hsf⟩
    · exact ⟨r, List.mem_cons_self, rfl⟩
    · exact ⟨s, List.mem_cons_of_mem _ hs, hsf⟩

/-- Settles O34: each command by the equation of its outcome; the least record by induction over the records. -/
theorem frequencyGroups : Obligations.FrequencyGroups := by
  unfold Obligations.FrequencyGroups
  refine ⟨fun s c p high v ho => ?descriptor, fun s i => ⟨fun h => becomes_of_lift exec_frequencyGroupEpoch (epochStart_waits h), fun o h => ?epoch⟩,
    fun s p => ?collection, fun l => ⟨?empty, fun f c h => leastOf_some h⟩⟩
  case descriptor =>
    intro w
    have hruns {u : Work} (hu : w.fgSetup p = u) : Runs (.pwrFgDescValid c p .b8 high v) s (untrap c u) :=
      runs_of_regStore (F := fun w => w.fgDescWrite p .b8 high v) exec_pwrFgDescValid rfl ho ((fgDescWrite_whole (Work.of s) p high v).trans hu)
    refine ⟨hruns rfl, fun hv => hruns (fgSetup_invalid ?_)⟩
    simp only [w, Work.modPpow_self, hv]
  case epoch =>
    exact ⟨fun hm => runs_of_lift exec_frequencyGroupEpoch (epochStart_idle h rfl hm),
      fun hm => runs_of_lift exec_frequencyGroupEpoch (epochStart_sends h rfl hm)⟩
  case collection =>
    intro w x n
    refine ⟨fun h => ?_, fun i o h => ⟨fun hl => ⟨?_, ?_⟩, fun hl => ?_, fun hm hr hall f c hl => ?_, fun hm hr f c hl => ?_,
      fun _ _ hb => ?_, fun hm hr r hb => ?_, fun hm => ?_, fun hm hb => ?_, fun f c hm hb hl => ?_⟩⟩
    · obtain ⟨hcollect, hroot, hdistribute, hread⟩ := noEpoch h
      exact ⟨becomes_of_lift exec_fgLeaderCollect hcollect, becomes_of_lift exec_fgRootCollect hroot,
        becomes_of_lift exec_fgLeaderDistribute hdistribute, becomes_of_lift exec_fgMemberRead hread⟩
    · exact becomes_of_lift exec_fgLeaderCollect (leaderCollect_idle h hl)
    · exact becomes_of_lift exec_fgLeaderDistribute (leaderDistribute_idle h hl)
    · exact becomes_of_lift exec_fgRootCollect (rootCollect_idle h hl)
    · exact runs_of_lift exec_fgLeaderCollect (leaderCollect_writes h hm hr hall hl)
    · exact runs_of_lift exec_fgRootCollect (rootCollect_writes h hm hr hl)
    · exact becomes_of_lift exec_fgLeaderDistribute (leaderDistribute_unread h hb)
    · exact runs_of_lift exec_fgLeaderDistribute (leaderDistribute_writes h hm hr hb)
    · exact runs_of_lift exec_fgMemberRead (memberRead_idle h hm)
    · exact runs_of_lift exec_fgMemberRead (memberRead_noResult h hm hb)
    · exact runs_of_lift exec_fgMemberRead (memberRead_adopts h hm hb hl rfl rfl)
  case empty =>
    rintro rfl
    rfl

end Sys2Proof
end

section
/-!
A read at a virtual address leaves the Ethernet ports and their queue pairs as they are: its translation, the records and faults
of the IOMMU, the slice and the read-ahead buffer change others (R341, R467 to R470).
-/

namespace Sys2Proof

open Sys2Proof.Machine

/-- From w to v the Ethernet ports, and with them the queue pairs, are as they were. -/
def SameEths (w v : Work) : Prop := v.chip.eths = w.chip.eths

namespace SameEths

theorem refl (w : Work) : SameEths w w := rfl

theorem trans {u v w : Work} (h : SameEths u v) (k : SameEths v w) : SameEths u w := Eq.trans k h

theorem of_near {w v : Work} (h : Near w v) : SameEths w v := (congrArg Chip.eths h :)

theorem ite {w u v : Work} {c : Prop} [Decidable c] (hu : SameEths w u) (hv : SameEths w v) : SameEths w (if c then u else v) := by
  split
  · exact hu
  · exact hv

/-- The workbench of a result that is (u, x). -/
theorem of_eq {α : Type} {w u : Work} {r : Work × α} {x : α} (h : r = (u, x)) (hr : SameEths w r.1) : SameEths w u := by
  rw [h] at hr; exact hr

theorem fst_ite {α : Type} {w : Work} {a b : Work × α} {c : Prop} [Decidable c] (ha : SameEths w a.1) (hb : SameEths w b.1) :
    SameEths w (if c then a else b).1 := by
  split
  · exact ha
  · exact hb

end SameEths

/-! ## Faults (R467, R469) -/

theorem setIommu32_sameEths (w : Work) (off v : Nat) : SameEths w (w.setIommu32 off v) := rfl

theorem iommuMsi_sameEths (w : Work) (v : Nat) : SameEths w (w.iommuMsi v) := by
  unfold Work.iommuMsi
  dsimp only
  split
  · exact .refl w
  · split
    · split
      · exact .of_near (Work.imsicSet_near _ _ _)
      · exact .refl w
    · exact .of_near (Work.pwrite_near _ _ _ _ _ _ _)
    · exact .of_near (Work.pwrite_near _ _ _ _ _ _ _)
    · exact .refl w

theorem iommuIrq_sameEths (w : Work) (i : Nat) : SameEths w (w.iommuIrq i) :=
  (setIommu32_sameEths w _ _).trans (iommuMsi_sameEths _ _)

theorem iommuFault_sameEths (w : Work) (cause ttyp dev : Nat) (pasid : Option Nat) (va va2 : Nat) :
    SameEths w (w.iommuFault cause ttyp dev pasid va va2) := by
  have htold {v : Work} (hv : SameEths w v) (c : Prop) [Decidable c] : SameEths w (if c then v.iommuIrq 1 else v) :=
    .ite (hv.trans (iommuIrq_sameEths v 1)) hv
  unfold Work.iommuFault
  dsimp only
  split
  · exact .refl w
  · split
    · exact htold (setIommu32_sameEths _ _ _) _
    · exact htold ((SameEths.of_near (Work.pwrite_near _ _ _ _ _ _ _)).trans (setIommu32_sameEths _ _ _)) _

/-! ## Walks (R467, R468) -/

theorem ptWalk_sameEths {s2 : Work → Bool → Nat → Walk} (hs2 : ∀ w b a, SameEths w (s2 w b a).1) (w : Work) (wide : Bool) (pf : Nat × Nat)
    (af : Nat) (ade isWrite : Bool) (va n table : Nat) : SameEths w (w.ptWalk s2 wide pf af ade isWrite va n table).1 := by
  induction n generalizing w wide table with
  | zero => exact .refl w
  | succ n ih =>
    rw [Work.ptWalk]
    dsimp only
    have hentry := hs2 w false (table * 4096 + va / 2 ^ (12 + 9 * n) % (if wide then 2048 else 512) * 8)
    split
    next u e h => exact .of_eq h hentry
    next u a h =>
      replace hentry := SameEths.of_eq h hentry
      split
      · exact hentry
      · refine .fst_ite hentry (.fst_ite (.fst_ite hentry (.fst_ite hentry (.fst_ite hentry (.fst_ite hentry ?update))))
          (.fst_ite hentry (hentry.trans (ih u _ _))))
        have hupdate := hentry.trans (hs2 u true (table * 4096 + va / 2 ^ (12 + 9 * n) % (if wide then 2048 else 512) * 8))
        split
        next v e k => exact .of_eq k hupdate
        next v b k => exact (SameEths.of_eq k hupdate).trans (.of_near (Work.pwrite_near _ _ _ _ _ _ _))

theorem gStage_sameEths (w : Work) (gatp : W64) (gade causeWrite implicit isWrite : Bool) (gpa : Nat) :
    SameEths w (w.gStage gatp gade causeWrite implicit isWrite gpa).1 := by
  unfold Work.gStage
  exact .fst_ite (.refl w) (.fst_ite (.refl w) (ptWalk_sameEths (fun w _ _ => .refl w) w _ _ _ _ _ _ _ _))

theorem fStage_sameEths (w : Work) (satp gatp : W64) (sade gade isWrite : Bool) (va : Nat) :
    SameEths w (w.fStage satp gatp sade gade isWrite va).1 := by
  unfold Work.fStage
  exact .fst_ite (.refl w) (.fst_ite (.refl w) (ptWalk_sameEths (fun w _ _ => gStage_sameEths w _ _ _ _ _ _) w _ _ _ _ _ _ _ _))

theorem pdtWalk_sameEths (w : Work) (c : DevCtx) (isWrite : Bool) (pid n table : Nat) :
    SameEths w (w.pdtWalk c isWrite pid n table).1 := by
  induction n generalizing w table with
  | zero => exact .refl w
  | succ n ih =>
    rw [Work.pdtWalk]
    have hentry := gStage_sameEths w c.gatp (bit c.tc 7) isWrite true false
      (table * 4096 + (if n = 0 then pid % 256 else if n = 1 then pid / 256 % 512 else pid / 2 ^ 17) * (if n = 0 then 16 else 8))
    split
    next u e h => exact .of_eq h hentry
    next u a h =>
      replace hentry := SameEths.of_eq h hentry
      split
      · exact hentry
      · refine .fst_ite hentry (.fst_ite ?_ (.fst_ite hentry (hentry.trans (ih u _))))
        split
        · exact hentry
        · exact .fst_ite hentry hentry

/-- A walk. The kernel must not evaluate the device context that the walk matches on: the function is a variable F while its body is
taken. -/
theorem walk_sameEths (w : Work) (dev : Nat) (pasid : Option Nat) (va : Nat) (isWrite : Bool) : SameEths w (w.walk dev pasid va isWrite).1 := by
  suffices h : ∀ F, F = Work.walk → ∀ R, F w dev pasid va isWrite = R → SameEths w R.1 from h _ rfl _ rfl
  intro F hF R hR
  delta Work.walk at hF
  subst hF
  beta_reduce at hR
  generalize w.devCtx dev = r at hR
  subst hR
  rcases r with e | _ | c
  · exact .refl w
  · exact .refl w
  dsimp -zeta only
  extract_lets gscid stage2 first pid mode
  have hstage2 (r : Walk) (pscid : Nat) (hr : SameEths w r.1) : SameEths w (stage2 r pscid).1 := by
    obtain ⟨u, e | gpa⟩ := r
    · exact hr
    · have hwalk := hr.trans (gStage_sameEths u c.gatp (bit c.tc 7) isWrite false isWrite gpa)
      dsimp only [stage2]
      split
      · exact hr
      · split
        next v e h => exact .of_eq h hwalk
        next v a h => exact .of_eq h hwalk
  have hfirst (satp : W64) (pscid : Nat) : SameEths w (first satp pscid).1 := hstage2 _ _ (fStage_sameEths w _ _ _ _ _ _)
  have hdefault : SameEths w (stage2 (w, .ok va) 0).1 := hstage2 (w, .ok va) 0 (.refl w)
  refine .fst_ite ?noProcess ?process
  case noProcess =>
    cases pasid with
    | none => exact hfirst _ _
    | some p => exact .refl w
  case process =>
    generalize pid = x
    cases x with
    | none => exact hdefault
    | some x =>
      refine .fst_ite hdefault (.fst_ite (.refl w) ?_)
      have hpdt := pdtWalk_sameEths w c isWrite x mode (bits c.fsc 43 0)
      split
      next u e h => exact .of_eq h hpdt
      next u ta fsc h => exact hstage2 _ _ ((SameEths.of_eq h hpdt).trans (fStage_sameEths u _ _ _ _ _ _))

theorem translateMsi_sameEths (w : Work) (cache dev : Nat) (pasid : Option Nat) (va : Nat) (isWrite : Bool) :
    SameEths w (w.translateMsi cache dev pasid va isWrite).1 := by
  suffices h : ∀ F, F = Work.translateMsi → ∀ R, F w cache dev pasid va isWrite = R → SameEths w R.1 from h _ rfl _ rfl
  intro F hF R hR
  delta Work.translateMsi at hF
  subst hF
  beta_reduce at hR
  have hwalk := walk_sameEths w dev pasid va isWrite
  generalize w.walk dev pasid va isWrite = r at hR hwalk
  extract_lets id entries at hR
  generalize List.find? _ _ = x at hR
  obtain ⟨u, ⟨cause, va2⟩ | ⟨a, g, p, msi⟩⟩ := r
  · cases x with
    | some e => subst hR; exact .refl w
    | none => subst hR; exact .ite hwalk (hwalk.trans (iommuFault_sameEths u _ _ _ _ _ _))
  · cases x with
    | some e => subst hR; exact .refl w
    | none => subst hR; exact hwalk.trans rfl

theorem translate_sameEths (w : Work) (cache dev : Nat) (pasid : Option Nat) (va : Nat) (isWrite : Bool) :
    SameEths w (w.translate cache dev pasid va isWrite).1 := translateMsi_sameEths w cache dev pasid va isWrite

/-! ## Accesses at virtual addresses (R69, R341, R469) -/

theorem recOwner_sameEths (w : Work) (kind id : Nat) (p : Option Nat) (a status : Nat) : SameEths w (w.recOwner kind id p a status) := by
  unfold Work.recOwner
  dsimp only
  split
  · cases p <;> exact .refl w
  · refine SameEths.trans ?_ (.of_near (Work.record_near _ _))
    exact .refl w

theorem reach_sameEths (w : Work) (cache dev : Nat) (pasid : Option Nat) (who : Who) (kind id va n : Nat) (isWrite : Bool) :
    SameEths w (w.reach cache dev pasid who kind id va n isWrite).1 := by
  have htr := translate_sameEths w cache dev pasid va isWrite
  unfold Work.reach
  split
  next u h => exact .of_eq h htr
  next u a h =>
    replace htr := SameEths.of_eq h htr
    split
    · exact htr
    · split
      · exact htr
      · exact .ite htr (htr.trans (.of_near (Work.record_near _ _)))
      · exact .ite htr (htr.trans (recOwner_sameEths _ _ _ _ _ _))

theorem arcRead_near (w : Work) (line : Nat) (p : Option Nat) (n : Nat) : Near w (w.arcRead line p n) := by
  have hread (v : Work) (hv : Near w v) : Near w (v.arcUse line p false none) := hv.trans (Work.arcUse_near v line p false none)
  unfold Work.arcRead
  dsimp only
  split
  · exact hread w .rfl
  · split
    · exact .rfl
    · split
      · exact hread _ (Work.charge_near _ _ _ _ _)
      · exact hread _ (Work.expandGranule_near _ _ _ _ _)

theorem arcReads_near (w : Work) (a n : Nat) (p stream : Option Nat) : Near w (w.arcReads a n p stream) := by
  unfold Work.arcReads
  dsimp only
  split
  · exact Near.each (fun w l => (arcRead_near w l p _).trans (Work.train_near _ l stream p)) w _
  · exact .rfl

theorem aheadRead_sameEths (w : Work) (b : Nat) (p : Option Nat) (a n : Nat) : SameEths w (w.aheadRead b p a n).1 := by
  refine List.foldlRecOn (motive := fun r : Work × List Byte × Option Nat => SameEths w r.1) _ _ (.refl w) ?_
  rintro ⟨u, bs, bad⟩ hu l -
  dsimp only
  split
  · exact hu
  · exact hu.trans (.of_near (arcReads_near _ _ _ _ _))

theorem fetchAhead_sameEths (w : Work) (b : Nat) (who : Who) (a n : Nat) : SameEths w (w.fetchAhead b who a n) := by
  have htake : SameEths w w.take.2 := .refl w
  unfold Work.fetchAhead
  refine htake.trans (List.foldlRecOn (motive := SameEths w.take.2) _ _ (.refl _) ?_)
  intro u hu k _
  refine .ite hu (hu.trans ?_)
  exact .trans (.of_near (arcReads_near u _ _ _ _)) (.refl _)

theorem bufferRead_sameEths (w : Work) (b : Nat) (who : Who) (a n : Nat) : SameEths w (w.bufferRead b who a n).1 := by
  unfold Work.bufferRead
  split
  · exact (aheadRead_sameEths w _ _ _ _).trans (fetchAhead_sameEths _ _ _ _ _)
  · exact (aheadRead_sameEths w _ _ _ _).trans (fetchAhead_sameEths _ _ _ _ _)
  · exact .of_near (arcReads_near _ _ _ _ _)

theorem vaRead_sameEths (w : Work) (cache dev : Nat) (pasid : Option Nat) (who : Who) (kind id va n : Nat) (stream ahead : Option Nat) :
    SameEths w (w.vaRead cache dev pasid who kind id va n stream ahead).1 := by
  refine List.foldlRecOn (motive := fun r : Work × Res (List Byte) => SameEths w r.1) _ _ (.refl w) ?_
  rintro ⟨u, bs | ⟨k, a⟩⟩ hu p -
  · have hreach := reach_sameEths u cache dev pasid who kind id p.1 p.2 false
    dsimp only
    split
    next v k a h => exact hu.trans (.of_eq h hreach)
    next v a h =>
      replace hreach := hu.trans (.of_eq h hreach)
      split
      · exact hreach
      · exact hreach.trans (.refl v)
      · cases ahead with
        | some b =>
          have hbuffer := bufferRead_sameEths v b who (v.local_ a) p.2
          dsimp only
          split
          next x d q h => exact hreach.trans (.of_eq h hbuffer)
          next x d h => exact hreach.trans (.of_eq h hbuffer)
        | none =>
          dsimp only
          split
          · exact hreach
          · exact hreach.trans (.of_near (arcReads_near _ _ _ _ _))
  · exact hu

/-- A read at an address of a queue pair leaves every queue pair as it was. -/
theorem qpRead_qp (w u : Work) (e pid va n : Nat) (r : Res (List Byte)) (h : w.qpRead e pid va n = (u, r)) (f q : Nat) :
    u.qp f q = w.qp f q := by
  have heths : u.chip.eths = w.chip.eths :=
    SameEths.of_eq h (vaRead_sameEths w _ _ _ _ _ _ _ _ _ _)
  unfold Work.qp Work.eth
  rw [heths]

end Sys2Proof
end

section
/-!
RoCE send side (Obligations.RoceSends): the doorbell of a queue pair, HIO_ETH_QPT, send entries and completions.
-/

namespace Sys2Proof

open Sys2Proof.Machine

/-! ## Queue pairs of a workbench (R475) -/

@[simp] theorem modQp_self (w : Work) (e q : Nat) (f : Qp → Qp) : (w.modQp e q f).qp e q = f (w.qp e q) := by
  rw [Work.qp, Work.modQp, Work.modEth_self]
  exact SMap.get_set_self _ _ _ _

/-- What a change of a queue pair gives counts at the queue pair only. -/
theorem modQp_congr {w : Work} {e q : Nat} {f g : Qp → Qp} (h : f (w.qp e q) = g (w.qp e q)) : w.modQp e q f = w.modQp e q g := by
  have hvalue (k : Qp → Qp) : w.modQp e q k = w.modQp e q (fun _ => k (w.qp e q)) := rfl
  rw [hvalue f, hvalue g, h]

/-! ## Doorbells (R475, R479) -/

/-- The indices that a doorbell of value v carries: of the send ring, of the receive ring, and of the consumed completions. -/
def bellIndices (v : Nat) (x : Qp) : Qp := { x with sProd := v % 65536, rProd := v / 2 ^ 16 % 65536, cCons := v / 2 ^ 32 % 65536 }

/-- An index of a doorbell of value v is more than one ring ahead. -/
def BeyondRing (x : Qp) (v : Nat) : Prop :=
  x.sqSlots < (v % 65536 + 65536 - x.sCons) % 65536 ∨ x.rqSlots < (v / 2 ^ 16 % 65536 + 65536 - x.rCons) % 65536 ∨
    x.cqSlots < (x.cseq.toNat % 65536 + 65536 - v / 2 ^ 32 % 65536) % 65536

section
variable {w : Work} {e q v : Nat}

theorem qpBell_reset (h : ((w.qpLoad e q).qp e q).st = 0) : w.qpBell e q v = w.qpLoad e q := by
  simp only [Work.qpBell, h, if_true]

theorem qpBell_beyond (hv : v < 2 ^ 63) (hst : ((w.qpLoad e q).qp e q).st = 1)
    (hfar : BeyondRing ((w.qpLoad e q).qp e q) v) :
    w.qpBell e q v = (w.qpLoad e q).qpError e q := by
  have hflush : ¬ v / 2 ^ 63 = 1 := by omega
  unfold BeyondRing at hfar
  simp only [Work.qpBell, one_ne_zero, hflush, hst, if_false, decide_true, Bool.true_and, Bool.or_eq_true, decide_eq_true_eq, or_assoc,
    hfar, if_true]

section
variable (h : ((w.qpLoad e q).qp e q).st ≠ 0)
include h

theorem qpBell_flush (hv : v / 2 ^ 63 = 1) : w.qpBell e q v = (w.qpLoad e q).qpFlush e q := by
  simp only [Work.qpBell, h, hv, if_false, if_true]

theorem qpBell_indices (hv : v < 2 ^ 63)
    (hnear : ((w.qpLoad e q).qp e q).st ≠ 1 ∨ ¬ BeyondRing ((w.qpLoad e q).qp e q) v) :
    w.qpBell e q v = (w.qpLoad e q).modQp e q (bellIndices v) := by
  have hflush : ¬ v / 2 ^ 63 = 1 := by omega
  have hin : ¬ (((w.qpLoad e q).qp e q).st = 1 ∧ BeyondRing ((w.qpLoad e q).qp e q) v) := fun hb => hnear.elim (· hb.1) (· hb.2)
  unfold BeyondRing at hin
  simp only [Work.qpBell, h, hflush, if_false, Bool.and_eq_true, Bool.or_eq_true, decide_eq_true_eq, or_assoc, hin]
  rfl

end

end

/-! ## The first doorbell after READY (R475) -/

section
variable {w : Work} {e q : Nat}

theorem qpLoad_keeps (h : (w.qp e q).st ≠ 0 ∨ w.tableRead e (tableAt (w.eth e).qptBase (w.eth e).qptLog2 q 64) 64 = none) :
    w.qpLoad e q = w := by
  unfold Work.qpLoad
  rcases h with hst | hnone
  · rw [if_pos hst]
  · simp only [hnone, ite_self]

variable (hst : (w.qp e q).st = 0) {b : List Byte}
  (hb : w.tableRead e (tableAt (w.eth e).qptBase (w.eth e).qptLog2 q 64) 64 = some b)
include hst hb

theorem qpLoad_notReady (h : leAt b 0 1 ≠ 1) : w.qpLoad e q = w := by
  simp only [Work.qpLoad, hst, hb, h, ne_eq, not_true_eq_false, not_false_eq_true, if_false, if_true]

theorem qpLoad_ready (h : leAt b 0 1 = 1) :
    w.qpLoad e q = if qpCtxOk b then w.modQp e q (fun _ => { Qp.zero with ctx := b, loaded := true, st := 1, psn := leAt b 0x0C 4 })
      else (w.modQp e q (fun _ => { Qp.zero with ctx := b, loaded := true, st := 1, psn := leAt b 0x0C 4 })).qpState e q 2 := by
  simp only [Work.qpLoad, hst, hb, h, ne_eq, not_true_eq_false, if_false]

end

/-! ## HIO_ETH_QPT (R487) -/

section
variable {w : Work} {c e : Nat} {high : Bool} {v : W64}

theorem qptWrite_used (h : ∃ x ∈ (w.eth e).qps, x.2.st ≠ 0) :
    w.qptWrite c e .b8 high v = w.recReg c (ctlBase + 0x600_2010 + e * 0x100) true 8 v.toNat := by
  have hany : (w.eth e).qps.any (fun x => x.2.st ≠ 0) = true := by simpa [List.any_eq_true] using h
  have hoff : ctlBase + (qptOff e + halfOff .b8 high) = ctlBase + 0x600_2010 + e * 0x100 := by simp [qptOff, halfOff, Nat.add_assoc]
  rw [Work.qptWrite, if_pos hany, Work.ignoreReg, hoff]
  rfl

theorem qptWrite_free (h : ¬ ∃ x ∈ (w.eth e).qps, x.2.st ≠ 0) :
    w.qptWrite c e .b8 high v =
      w.modEth e (fun x => { x with qptBase := v.extractLsb' 12 44, qptLog2 := v.extractLsb' 0 5 }) := by
  have hany : ¬ (w.eth e).qps.any (fun x => x.2.st ≠ 0) = true := by simpa [List.any_eq_true] using h
  have hbase (old : BitVec 44) : tableBase .b8 high v old = v.extractLsb' 12 44 := by
    rw [tableBase, newField_whole]
    apply BitVec.eq_of_toNat_eq
    simp [bits, BitVec.extractLsb'_toNat, Nat.shiftRight_eq_div_pow]
  have hlog2 (old : BitVec 5) : tableLog2 .b8 high v old = v.extractLsb' 0 5 := by
    rw [tableLog2, newField_whole]
    apply BitVec.eq_of_toNat_eq
    simp [bits, BitVec.extractLsb'_toNat]
  simp only [Work.qptWrite, if_neg hany, hbase, hlog2]

end

/-! ## Sending an entry (R476) -/

/-- The queue pair with data sent for entry b. -/
def sentOf (b data : List Byte) (x : Qp) : Qp := { x with sent := (seOp b, b ++ data) :: x.sent }

theorem sentOf_nil (b : List Byte) : sentOf b [] = fun x => { x with sent := (seOp b, b) :: x.sent } := by
  unfold sentOf
  rw [List.append_nil]

section
variable {w u : Work} {e q : Nat} {b : List Byte}

theorem seSend_bare (h : 4 ≤ seOp b) (h' : seOp b ≤ 6) : w.seSend e q b = (w.modQp e q (sentOf b []), none) := by
  simp only [Work.seSend, h, h', decide_true, Bool.and_true, if_true]
  rfl

section
variable (h : ¬ (4 ≤ seOp b ∧ seOp b ≤ 6))
include h

theorem seSend_data {d : List Byte} (hr : w.qpRead e (w.qp e q).pid (leAt b 8 8) (seLen b) = (u, .ok d)) :
    w.seSend e q b = (u.modQp e q (sentOf b d), none) := by
  simp only [Work.seSend, Bool.and_eq_true, decide_eq_true_eq, h, if_false, hr]
  rfl

theorem seSend_bad {k a : Nat} (hr : w.qpRead e (w.qp e q).pid (leAt b 8 8) (seLen b) = (u, .bad k a)) :
    w.seSend e q b = (u, some (if k = 7 then 7 else 1)) := by
  simp only [Work.seSend, Bool.and_eq_true, decide_eq_true_eq, h, if_false, hr]

end

/-- Sending leaves the context of the queue pair as it was. -/
theorem seSend_ctx {r : Option Nat} (h : w.seSend e q b = (u, r)) : (u.qp e q).ctx = (w.qp e q).ctx := by
  by_cases hop : 4 ≤ seOp b ∧ seOp b ≤ 6
  · rw [seSend_bare hop.1 hop.2] at h
    obtain ⟨rfl, -⟩ := Prod.mk.inj h
    rw [modQp_self]; rfl
  · rcases hr : w.qpRead e (w.qp e q).pid (leAt b 8 8) (seLen b) with ⟨v, d | ⟨k, a⟩⟩
    · rw [seSend_data hop hr] at h
      obtain ⟨rfl, -⟩ := Prod.mk.inj h
      rw [modQp_self, ← qpRead_qp _ _ _ _ _ _ _ hr e q]; rfl
    · rw [seSend_bad hop hr] at h
      obtain ⟨rfl, -⟩ := Prod.mk.inj h
      rw [qpRead_qp _ _ _ _ _ _ _ hr e q]

end

/-! ## Taking an entry (R476, R478) -/

/-- The engine takes nothing from the send ring of queue pair x. -/
def TakesNothing (x : Qp) : Prop := x.st = 0 ∨ x.sProd = x.sCons ∨ x.slotFree = false

/-- The operation of entry b is op, or none that there is. -/
def OpIs (op : Nat) (b : List Byte) : Prop := leAt b 0 1 = op ∨ ¬ (leAt b 0 1 ≤ 6 ∨ leAt b 0 1 = 0x10)

/-- Entry b waits for the READs and atomics in flight. -/
def Fenced (x : Qp) (b : List Byte) : Prop := leAt b 1 1 / 2 % 2 = 1 ∧ ∃ y ∈ x.inflight, 4 ≤ leAt y 0 1 ∧ leAt y 0 1 ≤ 6

/-- One more send entry is consumed. -/
def nextSend (u : Work) (e q : Nat) : Work := u.modQp e q (fun x => { x with sCons := (x.sCons + 1) % 65536 })

/-- The read of the send entry that comes next. -/
def readSend (w : Work) (e q : Nat) : Work × Res (List Byte) :=
  w.qpRead e (w.qp e q).pid ((w.qp e q).at_ 0x20 8 + (w.qp e q).sCons % (w.qp e q).sqSlots * 64) 64

theorem takesNothing_iff (x : Qp) : (decide (x.st = 0) || decide (x.sProd = x.sCons) || !x.slotFree) = true ↔ TakesNothing x := by
  simp [TakesNothing, or_assoc]

theorem seKnown_iff (op : Nat) : seKnown op = true ↔ op ≤ 6 ∨ op = 0x10 := by simp [seKnown]

theorem opOther_iff (op : Nat) (b : List Byte) : (decide (seOp b ≠ op) && seKnown (seOp b)) = true ↔ ¬ OpIs op b := by
  rw [Bool.and_eq_true, decide_eq_true_eq, seKnown_iff, OpIs, not_or, not_not]; rfl

theorem fenced_iff (x : Qp) (b : List Byte) :
    (decide (leAt b 1 1 / 2 % 2 = 1) && x.inflight.any (fun y => decide (4 ≤ seOp y) && decide (seOp y ≤ 6))) = true ↔ Fenced x b := by
  simp only [Fenced, Bool.and_eq_true, decide_eq_true_eq, List.any_eq_true]; rfl

section
variable {w u v : Work} {e q op : Nat}

theorem takeSend_none (h : TakesNothing (w.qp e q)) : w.takeSend e q op = w := by
  unfold Work.takeSend
  exact if_pos ((takesNothing_iff _).2 h)

section
variable (h : ¬ TakesNothing (w.qp e q))
include h

theorem takeSend_bad {k a : Nat} (hr : readSend w e q = (u, .bad k a)) :
    w.takeSend e q op = ((nextSend u e q).qpEntry e q 0 op (if (w.qp e q).st = 2 then 5 else 1) 0 0).qpError e q := by
  unfold readSend at hr
  simp only [Work.takeSend, takesNothing_iff, h, if_false, hr]
  rfl

section
variable {b : List Byte} (hr : readSend w e q = (u, .ok b))
include hr

theorem takeSend_other (hop : ¬ OpIs op b) : w.takeSend e q op = u := by
  unfold readSend at hr
  simp only [Work.takeSend, takesNothing_iff, h, if_false, hr, opOther_iff, hop, not_false_eq_true, if_true]

variable (hop : OpIs op b)
include hop

theorem takeSend_fenced (hf : Fenced (w.qp e q) b) : w.takeSend e q op = u := by
  unfold readSend at hr
  simp only [Work.takeSend, takesNothing_iff, h, if_false, hr, opOther_iff, hop, not_true_eq_false, fenced_iff, hf, if_true]

variable (hf : ¬ Fenced (w.qp e q) b)
include hf

theorem takeSend_inError (hst : (w.qp e q).st = 2) : w.takeSend e q op = (nextSend u e q).qpDone e q b 5 := by
  unfold readSend at hr
  simp only [Work.takeSend, takesNothing_iff, h, if_false, hr, opOther_iff, hop, not_true_eq_false, fenced_iff, hf]
  exact if_pos hst

variable (hst : (w.qp e q).st ≠ 2)
include hst

theorem takeSend_broken (hb : seCheck (w.qp e q) b ≠ 0) :
    w.takeSend e q op = ((nextSend u e q).qpDone e q b (seCheck (w.qp e q) b)).qpError e q := by
  unfold readSend at hr
  simp only [Work.takeSend, takesNothing_iff, h, if_false, hr, opOther_iff, hop, not_true_eq_false, fenced_iff, hf, hst, if_pos hb]
  rfl

variable (hb : seCheck (w.qp e q) b = 0)
include hb

theorem takeSend_unsent {k : Nat} (hs : (nextSend u e q).seSend e q b = (v, some k)) :
    w.takeSend e q op = (v.qpDone e q b k).qpError e q := by
  unfold readSend at hr
  unfold nextSend at hs
  simp only [Work.takeSend, takesNothing_iff, h, if_false, hr, opOther_iff, hop, not_true_eq_false, fenced_iff, hf, hst, ne_eq, hb, hs]

variable (hs : (nextSend u e q).seSend e q b = (v, none))
include hs

theorem takeSend_raw (hk : (w.qp e q).kind = 2) : w.takeSend e q op = v.qpDone e q b 0 := by
  unfold readSend at hr
  unfold nextSend at hs
  simp only [Work.takeSend, takesNothing_iff, h, if_false, hr, opOther_iff, hop, not_true_eq_false, fenced_iff, hf, hst, ne_eq, hb, hs, hk,
    if_true]

/-- The packets of an entry in flight are counted by the path MTU of the context, which reading and sending the entry leave as it was. -/
theorem takeSend_inflight (hk : (w.qp e q).kind ≠ 2) :
    w.takeSend e q op = v.modQp e q (fun y => { y with
      inflight := y.inflight ++ [b]
      psn := (y.psn + (w.qp e q).packets b) % 2 ^ 24 }) := by
  have hctx : (v.qp e q).ctx = (w.qp e q).ctx := by
    rw [seSend_ctx hs, nextSend, modQp_self, ← qpRead_qp _ _ _ _ _ _ _ hr e q]
  have hpackets : (v.qp e q).packets b = (w.qp e q).packets b := by simp only [Qp.packets, Qp.pmtu, Qp.at_, hctx]
  unfold readSend at hr
  unfold nextSend at hs
  simp only [Work.takeSend, takesNothing_iff, h, if_false, hr, opOther_iff, hop, not_true_eq_false, fenced_iff, hf, hst, ne_eq, hb, hs, hk]
  refine modQp_congr ?_
  rw [hpackets]

end

end

end

/-! ## Rules of an entry (R476) -/

theorem seCheck_long {x : Qp} {b : List Byte} (h : 2 ^ 31 < seLen b) : seCheck x b = 6 := if_pos h

section
variable {x : Qp} {b : List Byte} (h : seLen b ≤ 2 ^ 31)
include h

theorem seCheck_short : seCheck x b = 0 ∨ seCheck x b = 1 := by
  rw [seCheck, if_neg (Nat.not_lt.2 h)]
  split
  · exact .inr rfl
  · exact .inl rfl

theorem seCheck_zero_iff :
    seCheck x b = 0 ↔ (seOp b ≤ 6 ∨ seOp b = 0x10) ∧ leAt b 1 1 < 4 ∧ leAt b 2 2 = 0 ∧ leAt b 0x24 4 = 0 ∧ leAt b 0x38 8 = 0 ∧
      (seOp b = 0x10 ↔ x.kind = 2) := by
  rw [seCheck, if_neg (Nat.not_lt.2 h)]
  simp [← Bool.not_eq_true, seKnown_iff, and_assoc]
  omega

end

/-! ## Completions (R478) -/

section
variable {w u : Work} {e q k : Nat} {b : List Byte}

theorem qpDone_silent (h : leAt b 1 1 % 2 = 0) : w.qpDone e q b 0 = w := by
  simp [Work.qpDone, seSignaled, h]

theorem qpDone_failed (h : k ≠ 0) : w.qpDone e q b k = w.qpEntry e q (seWr b) (seOp b) k 0 (leAt b 0x14 4) := by
  simp [Work.qpDone, h]

theorem qpDone_signaled (h : leAt b 1 1 % 2 = 1) :
    w.qpDone e q b 0 = w.qpEntry e q (seWr b) (seOp b) 0 (seLen b) (leAt b 0x14 4) := by
  simp [Work.qpDone, seSignaled, h]

end

theorem qpIrq_none {w : Work} {e : Nat} {x : Qp} (h : x.at_ 0x33 1 = 0xFF) : w.qpIrq e x = w := if_pos h

theorem qpIrq_hart {w : Work} {e : Nat} {x : Qp} (h : x.at_ 0x33 1 < 96) (ho : w.ethOwner e ≠ none)
    (hc : w.coreOwner (x.at_ 0x33 1) = w.ethOwner e) : w.qpIrq e x = w.imsicSet (4096 + 16 * x.at_ 0x33 1) (x.at_ 0x34 2) := by
  have hsome : (w.ethOwner e).isSome = true := Option.isSome_iff_ne_none.2 ho
  have hff : x.at_ 0x33 1 ≠ 0xFF := by omega
  simp [Work.qpIrq, hff, h, hsome, hc]

/-- A completion entry with sequence number n (R478). -/
def completionBytes (n : W32) (wr op st bytes imm now : Nat) : List Byte :=
  leBytes 4 n.toNat ++ leBytes 4 wr ++ leBytes 1 op ++ leBytes 1 st ++ leBytes 2 0 ++ leBytes 4 bytes ++ leBytes 4 imm ++ leBytes 4 0 ++
    leBytes 8 now

theorem length_completionBytes (n : W32) (wr op st bytes imm now : Nat) : (completionBytes n wr op st bytes imm now).length = 32 := by
  simp [completionBytes]

/-- The write of a completion entry to its slot. -/
def writeCompletion (w : Work) (e q wr op st bytes imm : Nat) : Work × Res Unit :=
  let x := w.qp e q
  let n := x.cseq + 1
  let v := w.modQp e q (fun x => { x with cseq := n })
  v.qpWrite e x.pid (x.at_ 0x38 8 + n.toNat % x.cqSlots * 32) (completionBytes n wr op st bytes imm w.now)

section
variable {w u : Work} {e q wr op st bytes imm : Nat}

theorem qpEntry_written (h : writeCompletion w e q wr op st bytes imm = (u, .ok ())) :
    w.qpEntry e q wr op st bytes imm = u.qpIrq e (w.qp e q) := by
  dsimp only [writeCompletion, completionBytes] at h
  simp only [Work.qpEntry, h]

theorem qpEntry_unwritten {k a : Nat} (h : writeCompletion w e q wr op st bytes imm = (u, .bad k a)) :
    w.qpEntry e q wr op st bytes imm = u.qpState e q 2 := by
  dsimp only [writeCompletion, completionBytes] at h
  simp only [Work.qpEntry, h]

end

/-! ## The commands -/

section
variable {s : State} {e : EthId} {q : W16}

theorem exec_roceDoorbell {c : CoreId} {v : W64} :
    exec (.roceDoorbell c e q v) s = lift (fun w => w.roceStore c.val e.val q.toNat v) s := rfl

theorem exec_roceFlush {c : CoreId} {v : W64} :
    exec (.roceFlush c e q v) s = lift (fun w => w.roceStore c.val e.val q.toNat (setBit v 63 true)) s := rfl

/-- FLUSH is the highest bit of a doorbell. -/
theorem setBit_flush (v : W64) : (setBit v 63 true).toNat / 2 ^ 63 = 1 := by
  have hv := v.isLt
  simp only [setBit, setBits, bits, BitVec.toNat_ofNat, if_true]
  omega

variable {c : CoreId} {v : W64}
  (ho : RegOpen s c (0x610_0000 + e.val * 0x8_0000 + q.toNat * 8)
    (((Work.of s).ethOwner e).isSome && (Work.of s).coreOwner c = (Work.of s).ethOwner e))
include ho

theorem runs_roceDoorbell {w : Work} (h : (Work.of s).qpBell e q.toNat v.toNat = w) : Runs (.roceDoorbell c e q v) s (untrap c w) :=
  runs_of_regStore exec_roceDoorbell rfl ho h

theorem runs_roceFlush {w : Work} (h : (Work.of s).qpBell e q.toNat (setBit v 63 true).toNat = w) :
    Runs (.roceFlush c e q v) s (untrap c w) :=
  runs_of_regStore exec_roceFlush rfl ho h

end

theorem runs_hioEthQptWrite {s : State} {c : CoreId} {e : EthId} {high : Bool} {v : W64} {w : Work}
    (ho : RegOpen s c (0x600_2010 + e.val * 0x100) (((Work.of s).ethOwner e).isSome && (Work.of s).coreOwner c = (Work.of s).ethOwner e))
    (h : (Work.of s).qptWrite c e .b8 high v = w) : Runs (.hioEthQptWrite c e .b8 high v) s (untrap c w) :=
  runs_of_regStore (c := .hioEthQptWrite c e .b8 high v) rfl rfl ho h

/-- A command of send entries takes one whose operation is the command's own. -/
theorem exec_sendCommand {e : EthId} {q : W16} {i : Instr} {op : Nat}
    (h : (i, op) ∈ [(Instr.roceSend e q, 0), (.roceSendImm e q, 1), (.roceWrite e q, 2), (.roceWriteImm e q, 3), (.roceRead e q, 4),
      (.roceFetchAdd e q, 5), (.roceCmpSwap e q, 6), (.roceRawFrame e q, 0x10)]) (s : State) :
    exec i s = lift (fun w => w.takeSend e q.toNat op) s := by
  simp only [List.mem_cons, Prod.mk.injEq, List.not_mem_nil, or_false] at h
  rcases h with ⟨rfl, rfl⟩ | ⟨rfl, rfl⟩ | ⟨rfl, rfl⟩ | ⟨rfl, rfl⟩ | ⟨rfl, rfl⟩ | ⟨rfl, rfl⟩ | ⟨rfl, rfl⟩ | ⟨rfl, rfl⟩ <;> rfl

/-- Settles O45: each clause is the outcome of a branch of the doorbell, of a send entry or of a completion; the packets of an entry in
flight are counted by the context, which no read changes. -/
theorem roceSends : Obligations.RoceSends := by
  unfold Obligations.RoceSends
  refine ⟨⟨fun s c e q v ho => ?doorbell, fun w e q => ?load, fun s c e high v ho => ?table⟩,
    fun s e q i op hi => ?take, fun x b => ?check, fun w e q b h4 h6 => ?bare, fun w e q b h => ?data, fun w e q b k => ?done,
    fun w e q wr op st bytes imm => ?entry, fun w e x => ⟨qpIrq_none, qpIrq_hart⟩⟩
  case doorbell =>
    exact ⟨fun h => ⟨runs_roceDoorbell ho (qpBell_reset h), runs_roceFlush ho (qpBell_reset h)⟩,
      fun h => runs_roceFlush ho (qpBell_flush h (setBit_flush v)),
      fun _ hv hst hfar => runs_roceDoorbell ho (qpBell_beyond hv hst hfar),
      fun h hv hnear => runs_roceDoorbell ho (qpBell_indices h hv hnear)⟩
  case load =>
    exact ⟨qpLoad_keeps, fun hst b hb => ⟨qpLoad_notReady hst hb,
      fun h hok => (qpLoad_ready hst hb h).trans (if_pos hok),
      fun h hbad => (qpLoad_ready hst hb h).trans (if_neg (Bool.eq_false_iff.1 hbad))⟩⟩
  case table =>
    exact ⟨fun h => runs_hioEthQptWrite ho (qptWrite_used h), fun h => runs_hioEthQptWrite ho (qptWrite_free h)⟩
  case take =>
    have hexec := exec_sendCommand hi s
    refine ⟨fun h => becomes_of_lift hexec (takeSend_none h), fun hst hring hslot => ?_⟩
    have htakes : ¬ TakesNothing ((Work.of s).qp e q.toNat) := by
      rintro (h | h | h)
      · exact hst h
      · exact hring h
      · exact Bool.eq_false_iff.1 h hslot
    refine ⟨fun u k a hr => runs_of_lift hexec (takeSend_bad htakes hr), fun u b hr => ?_⟩
    exact ⟨fun hop => runs_of_lift hexec (takeSend_other htakes hr hop),
      fun hop hf => runs_of_lift hexec (takeSend_fenced htakes hr hop hf),
      fun hop hf hst => runs_of_lift hexec (takeSend_inError htakes hr hop hf hst),
      fun hop hf hst hb => runs_of_lift hexec (takeSend_broken htakes hr hop hf hst hb),
      fun hop hf hst hb => ⟨fun v k hs => runs_of_lift hexec (takeSend_unsent htakes hr hop hf hst hb hs),
        fun v hs => ⟨fun hk => runs_of_lift hexec (takeSend_raw htakes hr hop hf hst hb hs hk),
          fun hk => runs_of_lift hexec (takeSend_inflight htakes hr hop hf hst hb hs hk)⟩⟩⟩
  case check => exact ⟨seCheck_long, fun h => ⟨seCheck_short h, seCheck_zero_iff h⟩⟩
  case bare =>
    rw [seSend_bare h4 h6, sentOf_nil]
    rfl
  case data =>
    have hop : ¬ (4 ≤ seOp b ∧ seOp b ≤ 6) := fun hop => absurd hop.1 (Nat.not_le.2 h)
    exact ⟨fun u d => seSend_data hop, fun u k a => seSend_bad hop⟩
  case done =>
    refine ⟨?_, qpDone_failed, ?_⟩
    · rintro rfl h; exact qpDone_silent h
    · rintro rfl h; exact qpDone_signaled h
  case entry =>
    exact ⟨length_completionBytes _ _ _ _ _ _ _, fun u => qpEntry_written, fun u k a => qpEntry_unwritten⟩

end Sys2Proof
end

section
/-!
RoCE receive side (Obligations.RoceReceives): answers to an engine's requests, retries and rate, inbound requests and messages.
-/

namespace Sys2Proof

open Sys2Proof.Machine

/-! ## Acknowledgements (R478) -/

/-- Queue pair x with rest in flight after progress: no retry is counted. -/
def ackTo (rest : List (List Byte)) (x : Qp) : Qp := { x with inflight := rest, retry := 0, rnr := 0, rnrWait := false }

section
variable {w u : Work} {e q : Nat} {old : W64}

theorem qpAck1_empty (h : (w.qp e q).inflight = []) : w.qpAck1 e q old = w := by
  simp only [Work.qpAck1, h]

section
variable {b : List Byte} {rest : List (List Byte)} (h : (w.qp e q).inflight = b :: rest)
include h

theorem qpAck1_read (hop : seOp b = 4) : w.qpAck1 e q old = w := by
  simp only [Work.qpAck1, h, hop, if_true]

theorem qpAck1_done (hop : seOp b < 4) : w.qpAck1 e q old = (w.modQp e q (ackTo rest)).qpDone e q b 0 := by
  have hread : seOp b ≠ 4 := Nat.ne_of_lt hop
  simp only [Work.qpAck1, h, hread, hop, if_false, if_true]
  rfl

section
variable (hop : 4 < seOp b)
include hop

theorem qpAck1_atomic (hw : (w.modQp e q (ackTo rest)).qpWrite e (w.qp e q).pid (leAt b 8 8) (leBytes 8 old.toNat) = (u, .ok ())) :
    w.qpAck1 e q old = u.qpDone e q b 0 := by
  have hread : seOp b ≠ 4 := Nat.ne_of_gt hop
  unfold ackTo at hw
  simp only [Work.qpAck1, h, hread, Nat.not_lt.2 hop.le, if_false, hw]

theorem qpAck1_atomic_bad {k a : Nat}
    (hw : (w.modQp e q (ackTo rest)).qpWrite e (w.qp e q).pid (leAt b 8 8) (leBytes 8 old.toNat) = (u, .bad k a)) :
    w.qpAck1 e q old = (u.qpDone e q b 1).qpError e q := by
  have hread : seOp b ≠ 4 := Nat.ne_of_gt hop
  unfold ackTo at hw
  simp only [Work.qpAck1, h, hread, Nat.not_lt.2 hop.le, if_false, hw]

end

end

theorem qpAcks_notReady (h : (w.qp e q).st ≠ 1) (m : Nat) : Work.qpAcks m w e q old = w := by
  cases m with
  | zero => rfl
  | succ m => exact if_neg h

/-- One more entry is acknowledged by a queue pair that is READY. -/
theorem qpAcks_succ (h : (w.qp e q).st = 1) {v : Work} (hv : w.qpAck1 e q old = v) (m : Nat) :
    Work.qpAcks (m + 1) w e q old = Work.qpAcks m v e q old := by
  subst hv; exact if_pos h

end

/-! ## READ data (R478) -/

/-- The number of entries in flight before the first READ or atomic. -/
def firstRead (l : List (List Byte)) : Nat := l.findIdx (fun b => 4 ≤ seOp b)

theorem firstRead_all {l : List (List Byte)} (h : ∀ b ∈ l, leAt b 0 1 < 4) : firstRead l = l.length :=
  List.findIdx_eq_length.2 (fun b hb => decide_eq_false (Nat.not_le.2 (h b hb)))

theorem firstRead_append {a rest : List (List Byte)} {b : List Byte} (ha : ∀ y ∈ a, leAt y 0 1 < 4) (hb : 4 ≤ leAt b 0 1) :
    firstRead (a ++ b :: rest) = a.length := by
  have hbefore : a.findIdx (fun b => 4 ≤ seOp b) = a.length := firstRead_all ha
  have hfirst : decide (4 ≤ seOp b) = true := decide_eq_true hb
  rw [firstRead, List.findIdx_append, hbefore, if_neg (Nat.lt_irrefl _), List.findIdx_cons, hfirst]
  exact Nat.zero_add _

theorem readFirst {l a rest : List (List Byte)} {b : List Byte} (hl : l = a ++ b :: rest) (ha : ∀ y ∈ a, leAt y 0 1 < 4)
    (hb : leAt b 0 1 = 4) : firstRead l = a.length ∧ (l.drop a.length).head?.map seOp = some 4 := by
  have hfirst : firstRead l = a.length := hl ▸ firstRead_append ha hb.ge
  refine ⟨hfirst, ?_⟩
  rw [hl, List.drop_left]
  exact congrArg some hb

/-- What READ data does for the entry b, the oldest in flight once the entries before it are acknowledged. -/
def takeReadData (w : Work) (e q : Nat) (data b : List Byte) (rest : List (List Byte)) : Work :=
  if data.length ≠ seLen b then ((w.modQp e q (ackTo rest)).qpDone e q b 6).qpError e q
  else match (w.modQp e q (ackTo rest)).qpWrite e (w.qp e q).pid (leAt b 8 8) data with
    | (w, .ok _) => w.qpDone e q b 0
    | (w, .bad _ _) => (w.qpDone e q b 1).qpError e q

section
variable {w v u : Work} {e q : Nat} {data : List Byte}

theorem qpReadData_none
    (h : (w.qp e q).st ≠ 1 ∨ (((w.qp e q).inflight.drop (firstRead (w.qp e q).inflight)).head?.map seOp) ≠ some 4) :
    w.qpReadData e q data = w := by
  unfold firstRead at h
  simp only [Work.qpReadData, Bool.or_eq_true, decide_eq_true_eq, h, if_true]

section
variable {a rest : List (List Byte)} {b : List Byte} (hl : (w.qp e q).inflight = a ++ b :: rest) (ha : ∀ y ∈ a, leAt y 0 1 < 4)
include hl ha

theorem qpReadData_atomic (hb : 4 < leAt b 0 1) : w.qpReadData e q data = w := by
  refine qpReadData_none (.inr ?_)
  rw [hl, firstRead_append ha hb.le, List.drop_left]
  exact fun h => hb.ne' (Option.some.inj h)

variable (hb : leAt b 0 1 = 4) (hst : (w.qp e q).st = 1) (hv : Work.qpAcks a.length w e q 0 = v)
include hb hst hv

theorem qpReadData_acked (h : (v.qp e q).st ≠ 1 ∨ (v.qp e q).inflight = []) : w.qpReadData e q data = v := by
  obtain ⟨hfirst, hhead⟩ := readFirst hl ha hb
  unfold firstRead at hfirst
  simp only [Work.qpReadData, hst, hhead, hfirst, hv, ne_eq, not_true_eq_false, decide_false, Bool.or_self, Bool.false_eq_true, if_false]
  split
  · rfl
  next c tail hc => exact if_pos (h.resolve_right (by rw [hc]; exact List.cons_ne_nil _ _))

theorem qpReadData_taken (h : (v.qp e q).st = 1) {c : List Byte} {tail : List (List Byte)} (hc : (v.qp e q).inflight = c :: tail) :
    w.qpReadData e q data = takeReadData v e q data c tail := by
  obtain ⟨hfirst, hhead⟩ := readFirst hl ha hb
  unfold firstRead at hfirst
  simp only [Work.qpReadData, hst, hhead, hfirst, hv, hc, h, ne_eq, not_true_eq_false, decide_false, Bool.or_self, Bool.false_eq_true,
    if_false]
  rfl

end

section
variable {b : List Byte} {rest : List (List Byte)}

theorem takeReadData_length (h : data.length ≠ seLen b) :
    takeReadData w e q data b rest = ((w.modQp e q (ackTo rest)).qpDone e q b 6).qpError e q := if_pos h

theorem takeReadData_written (h : data.length = seLen b)
    (hw : (w.modQp e q (ackTo rest)).qpWrite e (w.qp e q).pid (leAt b 8 8) data = (u, .ok ())) :
    takeReadData w e q data b rest = u.qpDone e q b 0 := by
  rw [takeReadData, if_neg (not_not.2 h), hw]

theorem takeReadData_unwritten {k a : Nat} (h : data.length = seLen b)
    (hw : (w.modQp e q (ackTo rest)).qpWrite e (w.qp e q).pid (leAt b 8 8) data = (u, .bad k a)) :
    takeReadData w e q data b rest = (u.qpDone e q b 1).qpError e q := by
  rw [takeReadData, if_neg (not_not.2 h), hw]

end

end

/-! ## NAKs, retries and failures (R478) -/

section
variable {w : Work} {e q : Nat}

/-- Nothing is retried or refused on a queue pair that is not READY, or that has no entry in flight. -/
def Idle (x : Qp) : Prop := x.st ≠ 1 ∨ x.inflight = []

theorem qpNak_idle (h : Idle (w.qp e q)) (k : NakKind) : w.qpNak e q k = w := by
  unfold Idle at h
  simp only [Work.qpNak, Bool.or_eq_true, decide_eq_true_eq, List.isEmpty_iff, h, if_true]

theorem qpRetry_idle (h : Idle (w.qp e q)) : w.qpRetry e q = w := by
  unfold Idle at h
  simp only [Work.qpRetry, Bool.or_eq_true, decide_eq_true_eq, List.isEmpty_iff, h, if_true]

theorem qpRnr_idle (h : Idle (w.qp e q)) : w.qpRnr e q = w := by
  unfold Work.qpRnr
  refine if_pos ?_
  rcases h with h | h <;> simp [h]

theorem qpRnr_notWaiting (h : (w.qp e q).rnrWait = false) : w.qpRnr e q = w := by
  unfold Work.qpRnr
  exact if_pos (by simp [h])

section
variable (h : ¬ Idle (w.qp e q))
include h

theorem qpNak_rnr : w.qpNak e q .rnr = w.modQp e q (fun x => { x with rnrWait := true }) := by
  unfold Idle at h
  simp only [Work.qpNak, Bool.or_eq_true, decide_eq_true_eq, List.isEmpty_iff, h, if_false]

theorem qpNak_access : w.qpNak e q .remoteAccess = w.qpFail e q 2 := by
  unfold Idle at h
  simp only [Work.qpNak, Bool.or_eq_true, decide_eq_true_eq, List.isEmpty_iff, h, if_false]

theorem qpRetry_last (hn : 7 ≤ (w.qp e q).retry) : w.qpRetry e q = w.qpFail e q 3 := by
  unfold Idle at h
  simp only [Work.qpRetry, Bool.or_eq_true, decide_eq_true_eq, List.isEmpty_iff, h, hn, if_false, if_true]

theorem qpRetry_again (hn : (w.qp e q).retry < 7) :
    w.qpRetry e q = (w.modQp e q (fun x => { x with retry := x.retry + 1 })).qpResend e q := by
  unfold Idle at h
  simp only [Work.qpRetry, Bool.or_eq_true, decide_eq_true_eq, List.isEmpty_iff, h, Nat.not_le.2 hn, if_false]

variable (hw : (w.qp e q).rnrWait = true)
include hw

theorem rnr_waiting :
    ¬ (decide ((w.qp e q).st ≠ 1) || !(w.qp e q).rnrWait || (w.qp e q).inflight.isEmpty) = true := by
  obtain ⟨hst, hflight⟩ := not_or.1 h
  simp [not_not.1 hst, hw, hflight]

theorem qpRnr_last (hn : 7 ≤ (w.qp e q).rnr) : w.qpRnr e q = w.qpFail e q 4 := by
  simp only [Work.qpRnr, rnr_waiting h hw, Bool.false_eq_true, hn, if_false, if_true]

theorem qpRnr_again (hn : (w.qp e q).rnr < 7) :
    w.qpRnr e q = (w.modQp e q (fun x => { x with rnr := x.rnr + 1, rnrWait := false })).qpResend e q := by
  simp only [Work.qpRnr, rnr_waiting h hw, Bool.false_eq_true, Nat.not_le.2 hn, if_false]

end

theorem qpFail_oldest {k : Nat} {b : List Byte} {rest : List (List Byte)} (h : (w.qp e q).inflight = b :: rest) :
    w.qpFail e q k = ((w.modQp e q (fun x => { x with inflight := rest })).qpDone e q b k).qpError e q := by
  simp only [Work.qpFail, h]

theorem qpError_empty (h : (w.qp e q).inflight = []) :
    w.qpError e q = (w.qpState e q 2).modQp e q (fun x => { x with inflight := [], rnrWait := false }) := by
  simp only [Work.qpError, h, Work.each, List.foldl_nil]

end

/-! ## The rate (R474) -/

/-- Queue pair x with its rate halved at time t. -/
def halvedAt (t : Nat) (x : Qp) : Qp := { x with rate := x.rate / 2, lastCnp := some t }

section
variable {s : State} {e : EthId} {q : W16}

theorem exec_roceCnp : exec (.roceCnp e q) s = execRoceCnp e q s := rfl

theorem exec_roceRateRecover :
    exec (.roceRateRecover e q) s = lift (fun w => w.modQp e.val q.toNat (fun x => { x with rate := min 1048576 (x.rate + 65536) })) s := rfl

theorem roceCnp_first (h : ((Work.of s).qp e.val q.toNat).lastCnp = none) :
    Runs (.roceCnp e q) s ((Work.of s).modQp e.val q.toNat (halvedAt s.chip.refPs)) := by
  refine runs_of_lift exec_roceCnp ?_
  simp only [h]
  rfl

section
variable {t : Nat} (h : ((Work.of s).qp e.val q.toNat).lastCnp = some t)
include h

theorem roceCnp_later (ht : t + 50_000_000 ≤ s.chip.refPs) :
    Runs (.roceCnp e q) s ((Work.of s).modQp e.val q.toNat (halvedAt s.chip.refPs)) := by
  refine runs_of_lift exec_roceCnp ?_
  simp only [h]
  exact if_neg (Nat.not_lt.2 ht)

theorem roceCnp_soon (ht : s.chip.refPs < t + 50_000_000) : Becomes (.roceCnp e q) s s.chip := by
  refine becomes_of_lift exec_roceCnp ?_
  simp only [h]
  exact if_pos ht

end

end

/-! ## Keys (R477) -/

theorem bit_ofNat8 (x : Nat) {k : Nat} (h : k < 8) : bit (BitVec.ofNat 8 x) k = x.testBit k := by
  rw [bit, BitVec.getLsbD_ofNat, decide_eq_true h, Bool.true_and]

/-- Entry b of the MRT admits an access at a of n bytes that needs bit k, under the key's number. -/
def KeyAdmits (b : List Byte) (key a n k : Nat) : Prop :=
  (leAt b 0x14 1).testBit 3 = true ∧ leAt b 0x15 1 = key % 256 ∧ leAt b 0 8 ≤ a ∧ a + n ≤ leAt b 0 8 + leAt b 8 8 ∧
    (leAt b 0x14 1).testBit k = true

theorem rkeyPid_iff {w : Work} {e key a n k pid : Nat} {b : List Byte}
    (hb : w.tableRead e (tableAt (w.eth e).mrtBase (w.eth e).mrtLog2 (key / 256) 32) 32 = some b) (hk : k < 3) :
    w.rkeyPid e key a n k = some pid ↔ KeyAdmits b key a n k ∧ pid = leAt b 0x10 4 % 2 ^ 20 := by
  have hperm := bit_ofNat8 (leAt b 0x14 1) (show k < 8 by omega)
  have hvalid := bit_ofNat8 (leAt b 0x14 1) (show 3 < 8 by omega)
  simp only [Work.rkeyPid, hb, hperm, hvalid, Bool.and_eq_true, decide_eq_true_eq, and_assoc, KeyAdmits, Option.ite_none_right_eq_some,
    Option.some.injEq, @eq_comm _ pid]

/-! ## Inbound requests (R477, R478) -/

section
variable {w u v : Work} {e q : Nat}

section
variable {pid va : Nat} {f : Nat → Option Nat}

theorem qpAtomic_unread {k a : Nat}
    (h : w.vaRead ownCache (roceDev e) (some pid) (.engine (w.ethOwner e)) 0xA e va 8 = (u, .bad k a)) :
    w.qpAtomic e q pid va f = u.qpAnswer e q 3 [] := by
  simp only [Work.qpAtomic, h]

section
variable {old : List Byte} (h : w.vaRead ownCache (roceDev e) (some pid) (.engine (w.ethOwner e)) 0xA e va 8 = (u, .ok old))
include h

theorem qpAtomic_kept (hf : f (leNat old) = none) : w.qpAtomic e q pid va f = u.qpAnswer e q 1 old := by
  simp only [Work.qpAtomic, h, hf]

section
variable {n : Nat} (hf : f (leNat old) = some n)
include hf

theorem qpAtomic_stored (hw : u.qpWrite e pid va (leBytes 8 n) = (v, .ok ())) :
    w.qpAtomic e q pid va f = v.qpAnswer e q 1 old := by
  simp only [Work.qpAtomic, h, hf, hw]

theorem qpAtomic_unstored {k a : Nat} (hw : u.qpWrite e pid va (leBytes 8 n) = (v, .bad k a)) :
    w.qpAtomic e q pid va f = v.qpAnswer e q 3 [] := by
  simp only [Work.qpAtomic, h, hf, hw]

end

end

end

variable {r : RdmaRequest}

/-- The PASID under which the key of request r admits n bytes that need bit k. -/
def keyOf (w : Work) (e : Nat) (r : RdmaRequest) (n k : Nat) : Option Nat := w.rkeyPid e r.rkey.toNat r.addr.toNat n k

theorem qpRequest_out (h : (w.qp e q).st ≠ 1 ∨ (w.qp e q).kind ≠ 0) : w.qpRequest e q r = w := by
  simp only [Work.qpRequest, Bool.or_eq_true, decide_eq_true_eq, h, if_true]

/-- A receive entry and a completion slot are free. -/
def CanReceive (x : Qp) : Prop := x.rProd ≠ x.rCons ∧ x.slotFree = true

theorem cannotReceive_iff (x : Qp) : (decide (x.rProd = x.rCons) || !x.slotFree) = true ↔ ¬ CanReceive x := by
  simp [CanReceive, imp_iff_not_or]

theorem write_ready {x : Qp} {imm : Option W32} (h : imm = none ∨ CanReceive x) :
    ¬ (imm.isSome && (decide (x.rProd = x.rCons) || !x.slotFree)) = true := by
  rw [Bool.and_eq_true, cannotReceive_iff, Option.isSome_iff_ne_none]
  rintro ⟨himm, hcan⟩
  exact h.elim himm hcan

theorem serves {x : Qp} (hst : x.st = 1) (hkind : x.kind = 0) : ¬ (decide (x.st ≠ 1) || decide (x.kind ≠ 0)) = true := by
  simp [hst, hkind]

section
variable (hst : (w.qp e q).st = 1) (hkind : (w.qp e q).kind = 0)
include hst hkind

/-! ### Writes -/

section
variable {bs : List Byte} {imm : Option W32} (hr : r.kind = .write bs imm)
include hr

theorem qpRequest_write_keyless (hkey : keyOf w e r bs.length 1 = none) : w.qpRequest e q r = w.qpAnswer e q 3 [] := by
  unfold keyOf at hkey
  simp only [Work.qpRequest, serves hst hkind, hr, hkey, Bool.false_eq_true, if_false]

variable {pid : Nat} (hkey : keyOf w e r bs.length 1 = some pid)
include hkey

theorem qpRequest_write_notReady (himm : imm ≠ none) (hn : ¬ CanReceive (w.qp e q)) : w.qpRequest e q r = w.qpAnswer e q 2 [] := by
  unfold keyOf at hkey
  have hsome : imm.isSome = true := Option.isSome_iff_ne_none.2 himm
  simp only [Work.qpRequest, serves hst hkind, hr, hkey, Bool.false_eq_true, if_false, hsome, Bool.true_and, cannotReceive_iff, hn,
    not_false_eq_true, if_true]

variable (hn : imm = none ∨ CanReceive (w.qp e q))
include hn

theorem qpRequest_write_bad {k a : Nat} (hw : w.qpWrite e pid r.addr.toNat bs = (u, .bad k a)) :
    w.qpRequest e q r = u.qpAnswer e q 3 [] := by
  unfold keyOf at hkey
  simp only [Work.qpRequest, serves hst hkind, hr, hkey, write_ready hn, Bool.false_eq_true, if_false, hw]

theorem qpRequest_write_ok (hw : w.qpWrite e pid r.addr.toNat bs = (u, .ok ())) :
    w.qpRequest e q r = if imm.isSome then u.qpReceive e q false [] bs.length imm else u.qpAnswer e q 1 [] := by
  unfold keyOf at hkey
  simp only [Work.qpRequest, serves hst hkind, hr, hkey, write_ready hn, Bool.false_eq_true, if_false, hw]

end

/-! ### Reads -/

section
variable {n : W32} (hr : r.kind = .read n)
include hr

theorem qpRequest_read_keyless (hkey : keyOf w e r n.toNat 0 = none) : w.qpRequest e q r = w.qpAnswer e q 3 [] := by
  unfold keyOf at hkey
  simp only [Work.qpRequest, serves hst hkind, hr, hkey, Bool.false_eq_true, if_false]

variable {pid : Nat} (hkey : keyOf w e r n.toNat 0 = some pid)
include hkey

theorem qpRequest_read_ok {bs : List Byte} (h : w.qpRead e pid r.addr.toNat n.toNat = (u, .ok bs)) :
    w.qpRequest e q r = u.qpAnswer e q 4 bs := by
  unfold keyOf at hkey
  simp only [Work.qpRequest, serves hst hkind, hr, hkey, Bool.false_eq_true, if_false, h]

theorem qpRequest_read_bad {k a : Nat} (h : w.qpRead e pid r.addr.toNat n.toNat = (u, .bad k a)) :
    w.qpRequest e q r = u.qpAnswer e q 3 [] := by
  unfold keyOf at hkey
  simp only [Work.qpRequest, serves hst hkind, hr, hkey, Bool.false_eq_true, if_false, h]

end

/-! ### Atomics -/

/-- The value that an atomic of kind x stores over an old one, none where it stores none. -/
def atomicValue : RdmaKind → Nat → Option Nat
  | .fetchAdd a, old => some ((old + a.toNat) % 2 ^ 64)
  | .cmpSwap c v, old => if old = c.toNat then some v.toNat else none
  | _, _ => none

section
variable {k : W64} (hr : r.kind = .fetchAdd k ∨ ∃ c, r.kind = .cmpSwap c k)
include hr

theorem qpRequest_atomic_keyless (hkey : keyOf w e r 8 2 = none) : w.qpRequest e q r = w.qpAnswer e q 3 [] := by
  unfold keyOf at hkey
  obtain hr | ⟨c, hr⟩ := hr <;>
    simp only [Work.qpRequest, serves hst hkind, hr, hkey, Bool.false_eq_true, if_false]

variable {pid : Nat} (hkey : keyOf w e r 8 2 = some pid)
include hkey

theorem qpRequest_atomic_unaligned (ha : r.addr.toNat % 8 ≠ 0) : w.qpRequest e q r = w.qpAnswer e q 3 [] := by
  unfold keyOf at hkey
  obtain hr | ⟨c, hr⟩ := hr <;>
    simp only [Work.qpRequest, serves hst hkind, hr, hkey, Bool.false_eq_true, if_false, if_pos ha]

theorem qpRequest_atomic (ha : r.addr.toNat % 8 = 0) :
    w.qpRequest e q r = w.qpAtomic e q pid r.addr.toNat (atomicValue r.kind) := by
  unfold keyOf at hkey
  obtain hr | ⟨c, hr⟩ := hr <;>
    simp only [Work.qpRequest, serves hst hkind, hr, hkey, Bool.false_eq_true, if_false, ha, ne_eq, not_true_eq_false] <;> rfl

end

end

end

/-! ## Inbound messages (R478) -/

/-- The read of the receive entry that comes next. -/
def readReceive (w : Work) (e q : Nat) : Work × Res (List Byte) :=
  w.qpRead e (w.qp e q).pid ((w.qp e q).at_ 0x28 8 + (w.qp e q).rCons % (w.qp e q).rqSlots * 16) 16

/-- One more receive entry is consumed. -/
def nextReceive (u : Work) (e q : Nat) : Work := u.modQp e q (fun x => { x with rCons := (x.rCons + 1) % 65536 })

/-- The operation of a message's completion, and its immediate data. -/
def messageOp (m : RdmaMessage) : Nat := if m.imm.isSome then 0x81 else 0x80
def messageImm (m : RdmaMessage) : Nat := match m.imm with | some i => i.toNat | none => 0

/-- A message is received: its data are placed. -/
def receive (w : Work) (e q : Nat) (m : RdmaMessage) : Work := w.qpReceive e q true m.data m.data.length m.imm

section
variable {w u v : Work} {e q : Nat} {m : RdmaMessage}

theorem receive_notReady (h : ¬ CanReceive (w.qp e q)) :
    receive w e q m = if (w.qp e q).kind = 2 then w else w.qpAnswer e q 2 [] := by
  simp only [receive, Work.qpReceive, cannotReceive_iff, h, not_false_eq_true, if_true]

section
variable (h : CanReceive (w.qp e q))
include h

theorem receive_unread {k a : Nat} (hr : readReceive w e q = (u, .bad k a)) :
    receive w e q m = (u.qpAnswer e q 3 []).qpError e q := by
  unfold readReceive at hr
  simp only [receive, Work.qpReceive, cannotReceive_iff, h, not_true_eq_false, if_false, hr]

section
variable {b : List Byte} (hr : readReceive w e q = (u, .ok b))
include hr

theorem receive_long (hl : leAt b 8 4 < m.data.length) :
    receive w e q m = (((nextReceive u e q).qpAnswer e q 3 []).qpEntry e q (leAt b 12 4) (messageOp m) 6 0 (messageImm m)).qpError e q := by
  unfold readReceive at hr
  simp only [receive, Work.qpReceive, cannotReceive_iff, h, not_true_eq_false, if_false, hr, hl, decide_true, Bool.and_self, if_true]
  rfl

variable (hl : m.data.length ≤ leAt b 8 4)
include hl

theorem receive_placed (hw : (nextReceive u e q).qpWrite e (w.qp e q).pid (leAt b 0 8) m.data = (v, .ok ())) :
    receive w e q m = (v.qpAnswer e q 1 []).qpEntry e q (leAt b 12 4) (messageOp m) 0 m.data.length (messageImm m) := by
  unfold readReceive at hr
  unfold nextReceive at hw
  simp only [receive, Work.qpReceive, cannotReceive_iff, h, not_true_eq_false, if_false, hr, Nat.not_lt.2 hl, decide_false, Bool.and_false,
    Bool.false_eq_true, if_true, hw]
  rfl

theorem receive_unplaced {k a : Nat} (hw : (nextReceive u e q).qpWrite e (w.qp e q).pid (leAt b 0 8) m.data = (v, .bad k a)) :
    receive w e q m = ((v.qpAnswer e q 3 []).qpEntry e q (leAt b 12 4) (messageOp m) 1 0 (messageImm m)).qpError e q := by
  unfold readReceive at hr
  unfold nextReceive at hw
  simp only [receive, Work.qpReceive, cannotReceive_iff, h, not_true_eq_false, if_false, hr, Nat.not_lt.2 hl, decide_false, Bool.and_false,
    Bool.false_eq_true, if_true, hw]
  rfl

end

end

end

/-! ## The commands -/

section
variable {s : State} {e : EthId} {q : W16}

theorem exec_roceAck {k : W16} {old : W64} :
    exec (.roceAck e q k old) s = lift (fun w =>
      Work.qpAcks (min k.toNat (w.qp e.val q.toNat).inflight.length) w e.val q.toNat old) s := rfl

theorem exec_roceReadResponse {d : List Byte} :
    exec (.roceReadResponse e q d) s = lift (fun w => w.qpReadData e.val q.toNat d) s := rfl

theorem exec_roceNak {k : NakKind} : exec (.roceNak e q k) s = lift (fun w => w.qpNak e.val q.toNat k) s := rfl

theorem exec_roceRetryTimeout : exec (.roceRetryTimeout e q) s = lift (fun w => w.qpRetry e.val q.toNat) s := rfl

theorem exec_roceRnrRetry : exec (.roceRnrRetry e q) s = lift (fun w => w.qpRnr e.val q.toNat) s := rfl

theorem exec_roceInboundRequest {r : RdmaRequest} :
    exec (.roceInboundRequest e q r) s = lift (fun w => w.qpRequest e.val q.toNat r) s := rfl

theorem exec_roceInboundSend {m : RdmaMessage} :
    exec (.roceInboundSend e q m) s =
      lift (fun w => if (w.qp e.val q.toNat).st ≠ 1 then w else receive w e.val q.toNat m) s := rfl

/-- An acknowledgement of nothing changes nothing. -/
theorem roceAck_none {k : W16} {old : W64}
    (h : ((Work.of s).qp e.val q.toNat).st ≠ 1 ∨ ((Work.of s).qp e.val q.toNat).inflight = [] ∨ k = 0) :
    Becomes (.roceAck e q k old) s s.chip := by
  refine becomes_of_lift exec_roceAck ?_
  rcases h with hst | hempty | rfl
  · exact qpAcks_notReady hst _
  · rw [hempty, List.length_nil, Nat.min_zero]; rfl
  · rw [show (0 : W16).toNat = 0 from rfl, Nat.zero_min]; rfl

/-- One entry is acknowledged. -/
theorem roceAck_one {old : W64} (hst : ((Work.of s).qp e.val q.toNat).st = 1) (hflight : ((Work.of s).qp e.val q.toNat).inflight ≠ [])
    {v : Work} (hv : (Work.of s).qpAck1 e.val q.toNat old = v) : Runs (.roceAck e q 1 old) s v := by
  refine runs_of_lift exec_roceAck ?_
  have hone : min (1 : W16).toNat ((Work.of s).qp e.val q.toNat).inflight.length = 0 + 1 :=
    Nat.min_eq_left (List.length_pos_iff.2 hflight)
  rw [hone]
  exact qpAcks_succ hst hv 0

theorem runs_roceInboundSend {m : RdmaMessage} (h : ((Work.of s).qp e.val q.toNat).st = 1) {w : Work}
    (hw : receive (Work.of s) e.val q.toNat m = w) : Runs (.roceInboundSend e q m) s w :=
  runs_of_lift exec_roceInboundSend ((if_neg (not_not.2 h)).trans hw)

/-- An inbound atomic that stores n over an old value: its answer, with the write at the point of coherence. -/
theorem runs_storedAtomic {r : RdmaRequest} {pid n : Nat} {u : Work} {old : List Byte} {f : Nat → Option Nat}
    (hreq : (Work.of s).qpRequest e.val q.toNat r = (Work.of s).qpAtomic e.val q.toNat pid r.addr.toNat f)
    (hread : (Work.of s).vaRead ownCache (roceDev e) (some pid) (.engine ((Work.of s).ethOwner e)) 0xA e r.addr.toNat 8 = (u, .ok old))
    (hf : f (leNat old) = some n) :
    (∀ v, u.qpWrite e pid r.addr.toNat (leBytes 8 n) = (v, .ok ()) →
      Runs (.roceInboundRequest e q r) s (v.qpAnswer e.val q.toNat 1 old)) ∧
    (∀ v y a, u.qpWrite e pid r.addr.toNat (leBytes 8 n) = (v, .bad y a) →
      Runs (.roceInboundRequest e q r) s (v.qpAnswer e.val q.toNat 3 [])) :=
  ⟨fun _ hw => runs_of_lift exec_roceInboundRequest (hreq.trans (qpAtomic_stored hread hf hw)),
    fun _ _ _ hw => runs_of_lift exec_roceInboundRequest (hreq.trans (qpAtomic_unstored hread hf hw))⟩

end

/-- Settles O46: each clause is the outcome of a branch of an acknowledgement, of READ data, of a NAK, of a retry, of an inbound request or
of a message. -/
theorem roceReceives : Obligations.RoceReceives := by
  unfold Obligations.RoceReceives
  refine ⟨⟨fun s e q k old => ?ack, fun m w e q old => ?acks, fun s e q d => ?readData, fun s e q => ?retries,
      fun w e q k b rest => qpFail_oldest, fun w e q => rfl, fun w e q => qpError_empty, fun s e q => ?rate⟩,
    fun w e key a n k pid b hb hk => ?key, fun s e q r => ?request, fun s e q m => ?message⟩
  case ack =>
    refine ⟨roceAck_none, runs_of_lift exec_roceAck rfl, ?_⟩
    rintro hst rfl b rest hb
    have hflight : ((Work.of s).qp e.val q.toNat).inflight ≠ [] := by rw [hb]; exact List.cons_ne_nil _ _
    exact ⟨fun hop => roceAck_one hst hflight (qpAck1_done hb hop),
      fun hop => roceAck_one hst hflight (qpAck1_read hb hop),
      fun hop => ⟨fun u hw => roceAck_one hst hflight (qpAck1_atomic hb hop hw),
        fun u y a hw => roceAck_one hst hflight (qpAck1_atomic_bad hb hop hw)⟩⟩
  case acks =>
    exact ⟨rfl, fun h => qpAcks_notReady h m, fun hst => ⟨fun h => qpAcks_succ hst (qpAck1_empty h) m, fun b rest hb =>
      ⟨fun hop => qpAcks_succ hst (qpAck1_done hb hop) m, fun hop => qpAcks_succ hst (qpAck1_read hb hop) m,
        fun hop => ⟨fun u hw => qpAcks_succ hst (qpAck1_atomic hb hop hw) m,
          fun u y a hw => qpAcks_succ hst (qpAck1_atomic_bad hb hop hw) m⟩⟩⟩⟩
  case readData =>
    refine ⟨fun h => becomes_of_lift exec_roceReadResponse (qpReadData_none (h.imp_right fun hall => ?_)),
      fun a b rest hl ha hb => becomes_of_lift exec_roceReadResponse (qpReadData_atomic hl ha hb), fun hst a b rest hl ha hb => ?_⟩
    · rw [firstRead_all hall, List.drop_length]
      exact (Option.some_ne_none 4).symm
    · exact ⟨fun h => runs_of_lift exec_roceReadResponse (qpReadData_acked hl ha hb hst rfl h), fun h c tail hc =>
        have htaken := qpReadData_taken (data := d) hl ha hb hst rfl h hc
        ⟨fun hd => runs_of_lift exec_roceReadResponse (htaken.trans (takeReadData_length hd)),
          fun hd => ⟨fun u hw => runs_of_lift exec_roceReadResponse (htaken.trans (takeReadData_written hd hw)),
            fun u y a hw => runs_of_lift exec_roceReadResponse (htaken.trans (takeReadData_unwritten hd hw))⟩⟩⟩
  case retries =>
    refine ⟨fun h => ⟨becomes_of_lift exec_roceNak (qpNak_idle h _), becomes_of_lift exec_roceNak (qpNak_idle h _),
      becomes_of_lift exec_roceRetryTimeout (qpRetry_idle h), becomes_of_lift exec_roceRnrRetry (qpRnr_idle h)⟩, fun hst hflight => ?_⟩
    have hbusy : ¬ Idle ((Work.of s).qp e.val q.toNat) := fun h => h.elim (· hst) hflight
    exact ⟨runs_of_lift exec_roceNak (qpNak_rnr hbusy), runs_of_lift exec_roceNak (qpNak_access hbusy),
      fun hn => runs_of_lift exec_roceRetryTimeout (qpRetry_last hbusy hn),
      fun hn => runs_of_lift exec_roceRetryTimeout (qpRetry_again hbusy hn),
      fun hw => becomes_of_lift exec_roceRnrRetry (qpRnr_notWaiting hw),
      fun hw hn => runs_of_lift exec_roceRnrRetry (qpRnr_last hbusy hw hn),
      fun hw hn => runs_of_lift exec_roceRnrRetry (qpRnr_again hbusy hw hn)⟩
  case rate =>
    exact ⟨roceCnp_first, fun t h => ⟨roceCnp_later h, roceCnp_soon h⟩, runs_of_lift exec_roceRateRecover rfl⟩
  case key =>
    refine (rkeyPid_iff hb hk).trans ?_
    simp only [KeyAdmits, and_assoc]
  case request =>
    refine ⟨fun h => becomes_of_lift exec_roceInboundRequest (qpRequest_out h), fun hst hkind =>
      ⟨fun bs imm hr => ⟨fun hkey => ?_, fun pid hkey => ⟨fun himm hn => ?_, fun hn => ⟨fun u k a hw => ?_, fun u hw => ?_⟩⟩⟩,
        fun n hr => ⟨fun hkey => ?_, fun pid hkey => ⟨fun u bs h => ?_, fun u y a h => ?_⟩⟩,
        fun k hr => ⟨fun hkey => ?_, fun pid hkey => ⟨fun ha => ?_, fun ha u y a h => ?_, fun ha u old h => ?_⟩⟩⟩⟩
    · exact runs_of_lift exec_roceInboundRequest (qpRequest_write_keyless hst hkind hr hkey)
    · refine runs_of_lift exec_roceInboundRequest (qpRequest_write_notReady hst hkind hr hkey himm fun hcan => ?_)
      exact hn.elim hcan.1 (Bool.eq_false_iff.1 · hcan.2)
    · exact runs_of_lift exec_roceInboundRequest (qpRequest_write_bad hst hkind hr hkey hn hw)
    · have hok := qpRequest_write_ok hst hkind hr hkey hn hw
      exact ⟨fun himm => runs_of_lift exec_roceInboundRequest (hok.trans (if_neg (by rw [himm]; exact Bool.false_ne_true))),
        fun himm => runs_of_lift exec_roceInboundRequest (hok.trans (if_pos (Option.isSome_iff_ne_none.2 himm)))⟩
    · exact runs_of_lift exec_roceInboundRequest (qpRequest_read_keyless hst hkind hr hkey)
    · exact runs_of_lift exec_roceInboundRequest (qpRequest_read_ok hst hkind hr hkey h)
    · exact runs_of_lift exec_roceInboundRequest (qpRequest_read_bad hst hkind hr hkey h)
    · exact runs_of_lift exec_roceInboundRequest (qpRequest_atomic_keyless hst hkind hr hkey)
    · exact runs_of_lift exec_roceInboundRequest (qpRequest_atomic_unaligned hst hkind hr hkey ha)
    · exact runs_of_lift exec_roceInboundRequest ((qpRequest_atomic hst hkind hr hkey ha).trans (qpAtomic_unread h))
    · have hreq := qpRequest_atomic hst hkind hr hkey ha
      refine ⟨fun hadd => runs_storedAtomic hreq h (by rw [hadd, atomicValue]), fun c hswap => ⟨fun hne => ?_, fun heq => ?_⟩⟩
      · exact runs_of_lift exec_roceInboundRequest (hreq.trans (qpAtomic_kept h (by rw [hswap, atomicValue, if_neg hne])))
      · exact runs_storedAtomic hreq h (by rw [hswap, atomicValue, if_pos heq])
  case message =>
    refine ⟨fun h => becomes_of_lift exec_roceInboundSend (if_pos h), fun hst hn => ?_, fun hst hring hslot => ?_⟩
    · have hnot : ¬ CanReceive ((Work.of s).qp e.val q.toNat) := fun hcan => hn.elim hcan.1 (Bool.eq_false_iff.1 · hcan.2)
      exact ⟨fun hk => runs_roceInboundSend hst ((receive_notReady hnot).trans (if_neg hk)),
        fun hk => becomes_of_lift exec_roceInboundSend ((if_neg (not_not.2 hst)).trans ((receive_notReady hnot).trans (if_pos hk)))⟩
    · have hcan : CanReceive ((Work.of s).qp e.val q.toNat) := ⟨hring, hslot⟩
      exact ⟨fun u k a hr => runs_roceInboundSend hst (receive_unread hcan hr), fun u b hr =>
        ⟨fun hl => runs_roceInboundSend hst (receive_long hcan hr hl),
          fun hl => ⟨fun v hw => runs_roceInboundSend hst (receive_placed hcan hr hl hw),
            fun v k a hw => runs_roceInboundSend hst (receive_unplaced hcan hr hl hw)⟩⟩⟩

end Sys2Proof
end
